-- ==== Sys2Proof/Word.lean ====
section
/-! DEFINITION. The words of the block: bytes, 32- and 64-bit words, the three requesters of R11, and sparse data
keyed by a number (sorted, no entry that equals the default). -/

namespace Sys2Proof

abbrev Byte := BitVec 8
abbrev Half := BitVec 16
abbrev Word32 := BitVec 32
abbrev Word64 := BitVec 64

/-- Sparse data: (key, value) pairs, keys strictly rising, none equal to the default of the table they belong to. -/
abbrev Sp (α : Type) := List (Nat × α)

/-- The three requesters of R11. -/
inductive Requester where
  /-- the Gatehouse -/
  | gh
  /-- the Harbourmaster -/
  | hm
  /-- the host over CXL.io or CXL.mem -/
  | host
deriving DecidableEq, Repr

/-- Bits `lo + width - 1` down to `lo` of `w`, as a number. -/
def bits (w : Word64) (lo width : Nat) : Nat := (w.toNat >>> lo) % 2 ^ width

/-- `w` with bits `lo + width - 1` down to `lo` replaced by `v`. -/
def putBits (w : Word64) (lo width v : Nat) : Word64 :=
  let m : Word64 := BitVec.ofNat 64 ((2 ^ width - 1) <<< lo)
  (w &&& ~~~m) ||| (BitVec.ofNat 64 ((v % 2 ^ width) <<< lo) &&& m)

/-- Little-endian value of a byte list. -/
def leNat : List Byte → Nat
  | [] => 0
  | b :: bs => b.toNat + 256 * leNat bs

/-- The `n` low bytes of `v`, little-endian. -/
def leBytes (v : Nat) : Nat → List Byte
  | 0 => []
  | n + 1 => BitVec.ofNat 8 v :: leBytes (v / 256) n

/-- `n` rounded up to a multiple of `m`. -/
def roundUp (n m : Nat) : Nat := (n + m - 1) / m * m

/-- The address and its bytes, one after the other. -/
def chunks (k : Nat) : Nat → List Byte → List (List Byte)
  | 0, _ => []
  | n + 1, bs => bs.take k :: chunks k n (bs.drop k)

end Sys2Proof
end

