-- ==== Sys2Proof/Syntax.lean ====
section
/-! DEFINITION. The commands the block takes, one constructor of `Instr` per row of spec/opcode_table.json, and the
data they carry: packets, messages, instruction fields. -/

namespace Sys2Proof

/-- Where a service request or message comes from and its answer goes (R401 to R404). -/
inductive MsgChan where
  | doe
  | mailbox
  | mctp
deriving DecidableEq, Repr

/-- The native header's fields (R230), its four reserved-bit groups left out: they are zero. -/
structure Header where
  ver : Nat
  kind : Nat
  cm : Bool
  mc : Bool
  spray : Bool
  mirrored : Bool
  tc : Nat
  dst : Nat
  src : Nat
  job : Nat
  len : Nat
  hops : Nat
  flow : Nat
  fseq : Nat
  tstamp : Nat
  hcrc : Nat
deriving DecidableEq, Repr

/-- A native packet: its header and the bytes after it, extension included (R230). -/
structure Packet where
  hdr : Header
  body : List Byte
deriving DecidableEq, Repr

/-- A codeword as a lane receives it (R291 to R294): its lane and number n, the 58 body bits received on that lane before it (the oldest
least significant), its 2,720 PAM4 levels from 0 to 3, and the RS symbols that the trellis marks least reliable. -/
structure RxWord where
  lane : Nat
  n : Nat
  prior : Nat
  levels : List Nat
  marks : List Nat
deriving DecidableEq, Repr

/-- The codewords that a lane received in a row. -/
structure LaneWords where
  lane : Nat
  words : List RxWord
deriving DecidableEq, Repr

/-- The bit errors of the symbols that a lane's pattern checker received, in order (R310). -/
structure LaneErrors where
  lane : Nat
  errors : List Nat
deriving DecidableEq, Repr

/-- A protected Breakwater frame as it is received (R330, R331, R338): its association, its 64-bit PN, whether it passes its
ICV under that association, the header's fields and the payload. -/
structure BwIn where
  an : Nat
  pn : Nat
  icv : Bool
  btype : Nat
  ver : Nat
  km1 : Nat
  m : Nat
  idx : Nat
  block : Nat
  tseq : Nat
  payload : List Byte
deriving DecidableEq, Repr

/-- The guard of a Beloc instruction (R66): predicate and inversion. -/
structure Guard where
  pred : BitVec 3
  inv : Bool
deriving DecidableEq, Repr

/-- The conditions of CMP.cc (R69); CMPI.cc has the first four. -/
inductive Cond where
  | eq
  | ne
  | lt
  | ltu
  | ge
  | geu
deriving DecidableEq, Repr


/-- The commands: one constructor per row of the opcode table, in the table's order; each names the instance its
row concerns and carries what arrives with it. The rule cited is the row's own. -/
inductive Instr where
  /-- REGISTER_WRITE (R10). -/
  | registerWrite (req : Requester) (off size : Nat) (value : Word64)
  /-- STRICT_ORDER (R148). -/
  | strictOrder (req : Requester) (value : Word64)
  /-- ENABLE (R103). -/
  | enable (req : Requester) (ring : Nat)
  /-- PAUSE (R103). -/
  | pause (req : Requester) (ring : Nat)
  /-- ABORT (R103). -/
  | abort (req : Requester) (ring : Nat)
  /-- DISABLE (R103). -/
  | disable (req : Requester) (ring : Nat)
  /-- CONS_WRITE (R104). -/
  | consWrite (req : Requester) (cq : Nat) (value : Word64)
  /-- EVENT_VALUE_WRITE (R110). -/
  | eventValueWrite (req : Requester) (ev : Nat) (value : Word64)
  /-- FAIL_CLEAR (R112). -/
  | failClear (req : Requester) (k : Nat) (mask : Word64)
  /-- WK_COMMIT_GO (R121). -/
  | wkCommitGo (req : Requester) (value : Word64)
  /-- COMMAND_ACCEPTANCE (R101). -/
  | commandAcceptance
  /-- BACKSTOP_POLL (R101). -/
  | backstopPoll
  /-- WAIT_RESOLVE (R111). -/
  | waitResolve (ring seq : Nat)
  /-- COMMAND_START (R107). -/
  | commandStart (ring seq : Nat)
  /-- TIMEOUT (R107). -/
  | timeout (ring seq : Nat)
  /-- COMPLETION_RECORD (R101). -/
  | completionRecord (ring : Nat)
  /-- NOP (R108). -/
  | nop (ring seq : Nat)
  /-- REDUCE (R133). -/
  | reduce (ring seq : Nat)
  /-- REDUCE_SCATTER (R133). -/
  | reduceScatter (ring seq : Nat)
  /-- ALLREDUCE (R133). -/
  | allreduce (ring seq : Nat)
  /-- ALLGATHER (R133). -/
  | allgather (ring seq : Nat)
  /-- BCAST (R133). -/
  | bcast (ring seq : Nat)
  /-- SHIFT (R133). -/
  | shift (ring seq : Nat)
  /-- PERMUTE (R133). -/
  | permute (ring seq : Nat)
  /-- BARRIER (R135). -/
  | barrier (ring seq : Nat)
  /-- UPDATE (R170). -/
  | update (ring seq : Nat)
  /-- LAUNCH (R92). -/
  | launch (ring seq : Nat)
  /-- LOAD (R109). -/
  | load (ring seq : Nat)
  /-- UNLOAD (R109). -/
  | unload (ring seq : Nat)
  /-- BIND (R90). -/
  | bind (ring seq : Nat)
  /-- UNBIND (R108). -/
  | unbind (ring seq : Nat)
  /-- MOORING_CREATE (R123). -/
  | mooringCreate (ring seq : Nat)
  /-- EVICT (R127). -/
  | evict (ring seq : Nat)
  /-- REFORM (R128). -/
  | reform (ring seq : Nat)
  /-- ADOPT (R129). -/
  | adopt (ring seq : Nat)
  /-- RETIRE (R130). -/
  | retire (ring seq : Nat)
  /-- COMMIT (R180). -/
  | commit (ring seq : Nat)
  /-- RESTORE (R194). -/
  | restore (ring seq : Nat)
  /-- SHARD_CREATE (R163). -/
  | shardCreate (ring seq : Nat)
  /-- SHARD_DELETE (R162). -/
  | shardDelete (ring seq : Nat)
  /-- STRIPE (R186). -/
  | stripe (ring seq : Nat)
  /-- REBUILD (R191). -/
  | rebuild (ring seq : Nat)
  /-- CONFIG (R120). -/
  | config (ring seq : Nat)
  /-- EVENT_SET (R108). -/
  | eventSet (ring seq : Nat)
  /-- EVENT_ADD (R108). -/
  | eventAdd (ring seq : Nat)
  /-- EVENT_FAIL (R108). -/
  | eventFail (ring seq : Nat)
  /-- POWER_RUN (R374). -/
  | powerRun (ring seq : Nat)
  /-- POWER_QUIET (R374). -/
  | powerQuiet (ring seq : Nat)
  /-- POWER_WINTER (R374). -/
  | powerWinter (ring seq : Nat)
  /-- POWER_STANDBY (R374). -/
  | powerStandby (ring seq : Nat)
  /-- POWER_OFF (R374). -/
  | powerOff (ring seq : Nat)
  /-- STAGED_SET_SWAP (R120). -/
  | stagedSetSwap (set inst : Nat)
  /-- PIN_COMMIT (R258). -/
  | pinCommit
  /-- GATE_LIST_SWAP (R271). -/
  | gateListSwap (port : Nat)
  /-- CLOCK_STEP_SWAP (R369). -/
  | clockStepSwap
  /-- TIME_SET (R276). -/
  | timeSet
  /-- BOUND_DISPATCH (R91). -/
  | boundDispatch (pav : Nat)
  /-- LAUNCHED_DISPATCH (R91). -/
  | launchedDispatch (pav : Nat)
  /-- ARRIVAL_RECORD (R84). -/
  | arrivalRecord (pav : Nat) (bad : Bool)
  /-- PAVILION_WAKE (R379). -/
  | pavilionWake (pav : Nat)
  /-- PAVILION_GATING (R379). -/
  | pavilionGating (pav : Nat)
  /-- WATCHDOG (R86). -/
  | watchdog (pav : Nat)
  /-- FAULT_RELEASE (R57). -/
  | faultRelease (req : Requester) (pav : Nat) (value : Word64)
  /-- TILE_SCRUB (R33). -/
  | tileScrub (pav word : Nat)
  /-- ARRAY_RAMP_UP (R39). -/
  | arrayRampUp (pav : Nat) (array : Bool)
  /-- ARRAY_RAMP_DOWN (R39). -/
  | arrayRampDown (pav : Nat) (array : Bool)
  /-- PRODUCT_DRAIN (R36). -/
  | productDrain (pav tag : Nat)
  /-- TRANSFER_COMPLETE (R78). -/
  | transferComplete (pav tag : Nat) (bad : Bool)
  /-- MULTICAST_ARRIVAL (R81). -/
  | multicastArrival (pav tag receiver : Nat)
  /-- CONDITION_MET (R83). -/
  | conditionMet (pav : Nat)
  /-- ADD (R69). -/
  | add (pav : Nat) (g : Guard) (rd rs1 rs2 : BitVec 5)
  /-- SUB (R69). -/
  | sub (pav : Nat) (g : Guard) (rd rs1 rs2 : BitVec 5)
  /-- AND (R69). -/
  | and (pav : Nat) (g : Guard) (rd rs1 rs2 : BitVec 5)
  /-- OR (R69). -/
  | or (pav : Nat) (g : Guard) (rd rs1 rs2 : BitVec 5)
  /-- XOR (R69). -/
  | xor (pav : Nat) (g : Guard) (rd rs1 rs2 : BitVec 5)
  /-- SLL (R69). -/
  | sll (pav : Nat) (g : Guard) (rd rs1 rs2 : BitVec 5)
  /-- SRL (R69). -/
  | srl (pav : Nat) (g : Guard) (rd rs1 rs2 : BitVec 5)
  /-- SRA (R69). -/
  | sra (pav : Nat) (g : Guard) (rd rs1 rs2 : BitVec 5)
  /-- MUL (R69). -/
  | mul (pav : Nat) (g : Guard) (rd rs1 rs2 : BitVec 5)
  /-- MULHU (R69). -/
  | mulhu (pav : Nat) (g : Guard) (rd rs1 rs2 : BitVec 5)
  /-- MIN (R69). -/
  | min (pav : Nat) (g : Guard) (rd rs1 rs2 : BitVec 5)
  /-- MAX (R69). -/
  | max (pav : Nat) (g : Guard) (rd rs1 rs2 : BitVec 5)
  /-- MINU (R69). -/
  | minu (pav : Nat) (g : Guard) (rd rs1 rs2 : BitVec 5)
  /-- MAXU (R69). -/
  | maxu (pav : Nat) (g : Guard) (rd rs1 rs2 : BitVec 5)
  /-- MIX (R69). -/
  | mix (pav : Nat) (g : Guard) (rd rs1 : BitVec 5)
  /-- ADDI (R69). -/
  | addi (pav : Nat) (g : Guard) (rd rs1 : BitVec 5) (imm : BitVec 11)
  /-- ANDI (R69). -/
  | andi (pav : Nat) (g : Guard) (rd rs1 : BitVec 5) (imm : BitVec 11)
  /-- ORI (R69). -/
  | ori (pav : Nat) (g : Guard) (rd rs1 : BitVec 5) (imm : BitVec 11)
  /-- XORI (R69). -/
  | xori (pav : Nat) (g : Guard) (rd rs1 : BitVec 5) (imm : BitVec 11)
  /-- SHI (R69). -/
  | shi (pav : Nat) (g : Guard) (rd rs1 : BitVec 5) (amount : BitVec 6) (kind : BitVec 2)
  /-- SHIN (R69). -/
  | shin (pav : Nat) (g : Guard) (rd : BitVec 5) (imm : BitVec 16)
  /-- CMP_CC (R69). -/
  | cmpCc (pav : Nat) (g : Guard) (cc : Cond) (pd : BitVec 3) (rs1 rs2 : BitVec 5)
  /-- PAND (R69). -/
  | pand (pav : Nat) (g : Guard) (pd p1 p2 : BitVec 3)
  /-- POR (R69). -/
  | por (pav : Nat) (g : Guard) (pd p1 p2 : BitVec 3)
  /-- PXOR (R69). -/
  | pxor (pav : Nat) (g : Guard) (pd p1 p2 : BitVec 3)
  /-- PNOT (R69). -/
  | pnot (pav : Nat) (g : Guard) (pd p1 : BitVec 3)
  /-- CMPI_CC (R69). -/
  | cmpiCc (pav : Nat) (g : Guard) (cc : BitVec 2) (pd : BitVec 3) (rs1 : BitVec 5) (imm : BitVec 11)
  /-- LDB (R69). -/
  | ldb (pav : Nat) (g : Guard) (rd rs1 : BitVec 5) (imm : BitVec 11)
  /-- LDH (R69). -/
  | ldh (pav : Nat) (g : Guard) (rd rs1 : BitVec 5) (imm : BitVec 11)
  /-- LDW (R69). -/
  | ldw (pav : Nat) (g : Guard) (rd rs1 : BitVec 5) (imm : BitVec 11)
  /-- LDD (R69). -/
  | ldd (pav : Nat) (g : Guard) (rd rs1 : BitVec 5) (imm : BitVec 11)
  /-- STB (R69). -/
  | stb (pav : Nat) (g : Guard) (rs2 rs1 : BitVec 5) (imm : BitVec 11)
  /-- STH (R69). -/
  | sth (pav : Nat) (g : Guard) (rs2 rs1 : BitVec 5) (imm : BitVec 11)
  /-- STW (R69). -/
  | stw (pav : Nat) (g : Guard) (rs2 rs1 : BitVec 5) (imm : BitVec 11)
  /-- STD (R69). -/
  | std (pav : Nat) (g : Guard) (rs2 rs1 : BitVec 5) (imm : BitVec 11)
  /-- BR (R69). -/
  | br (pav : Nat) (g : Guard) (off : BitVec 21)
  /-- JAL (R69). -/
  | jal (pav : Nat) (g : Guard) (off : BitVec 21)
  /-- JR (R69). -/
  | jr (pav : Nat) (g : Guard) (rd rs1 : BitVec 5) (imm : BitVec 11)
  /-- CRR (R69). -/
  | crr (pav : Nat) (g : Guard) (rd c : BitVec 5)
  /-- CRW (R59). -/
  | crw (pav : Nat) (g : Guard) (c rs1 : BitVec 5)
  /-- VADD (R70). -/
  | vadd (pav : Nat) (g : Guard) (ty : BitVec 2) (vd vs1 vs2 : BitVec 5)
  /-- VSUB (R70). -/
  | vsub (pav : Nat) (g : Guard) (ty : BitVec 2) (vd vs1 vs2 : BitVec 5)
  /-- VMUL (R70). -/
  | vmul (pav : Nat) (g : Guard) (ty : BitVec 2) (vd vs1 vs2 : BitVec 5)
  /-- VMAX (R70). -/
  | vmax (pav : Nat) (g : Guard) (ty : BitVec 2) (vd vs1 vs2 : BitVec 5)
  /-- VMIN (R70). -/
  | vmin (pav : Nat) (g : Guard) (ty : BitVec 2) (vd vs1 vs2 : BitVec 5)
  /-- VAND (R70). -/
  | vand (pav : Nat) (g : Guard) (ty : BitVec 2) (vd vs1 vs2 : BitVec 5)
  /-- VOR (R70). -/
  | vor (pav : Nat) (g : Guard) (ty : BitVec 2) (vd vs1 vs2 : BitVec 5)
  /-- VXOR (R70). -/
  | vxor (pav : Nat) (g : Guard) (ty : BitVec 2) (vd vs1 vs2 : BitVec 5)
  /-- VSLL (R70). -/
  | vsll (pav : Nat) (g : Guard) (ty : BitVec 2) (vd vs1 vs2 : BitVec 5)
  /-- VSRL (R70). -/
  | vsrl (pav : Nat) (g : Guard) (ty : BitVec 2) (vd vs1 vs2 : BitVec 5)
  /-- VSRA (R70). -/
  | vsra (pav : Nat) (g : Guard) (ty : BitVec 2) (vd vs1 vs2 : BitVec 5)
  /-- VSQRT (R70). -/
  | vsqrt (pav : Nat) (g : Guard) (ty : BitVec 2) (vd vs1 : BitVec 5)
  /-- VDIV (R70). -/
  | vdiv (pav : Nat) (g : Guard) (ty : BitVec 2) (vd vs1 vs2 : BitVec 5)
  /-- VFMA (R70). -/
  | vfma (pav : Nat) (g : Guard) (ty : BitVec 2) (vd vs1 vs2 : BitVec 5)
  /-- VFNMA (R70). -/
  | vfnma (pav : Nat) (g : Guard) (ty : BitVec 2) (vd vs1 vs2 : BitVec 5)
  /-- VFMS (R70). -/
  | vfms (pav : Nat) (g : Guard) (ty : BitVec 2) (vd vs1 vs2 : BitVec 5)
  /-- VADD_S (R70). -/
  | vaddS (pav : Nat) (g : Guard) (ty : BitVec 2) (vd vs1 rs2 : BitVec 5)
  /-- VSUB_S (R70). -/
  | vsubS (pav : Nat) (g : Guard) (ty : BitVec 2) (vd vs1 rs2 : BitVec 5)
  /-- VMUL_S (R70). -/
  | vmulS (pav : Nat) (g : Guard) (ty : BitVec 2) (vd vs1 rs2 : BitVec 5)
  /-- VMAX_S (R70). -/
  | vmaxS (pav : Nat) (g : Guard) (ty : BitVec 2) (vd vs1 rs2 : BitVec 5)
  /-- VMIN_S (R70). -/
  | vminS (pav : Nat) (g : Guard) (ty : BitVec 2) (vd vs1 rs2 : BitVec 5)
  /-- VAND_S (R70). -/
  | vandS (pav : Nat) (g : Guard) (ty : BitVec 2) (vd vs1 rs2 : BitVec 5)
  /-- VOR_S (R70). -/
  | vorS (pav : Nat) (g : Guard) (ty : BitVec 2) (vd vs1 rs2 : BitVec 5)
  /-- VXOR_S (R70). -/
  | vxorS (pav : Nat) (g : Guard) (ty : BitVec 2) (vd vs1 rs2 : BitVec 5)
  /-- VSLL_S (R70). -/
  | vsllS (pav : Nat) (g : Guard) (ty : BitVec 2) (vd vs1 rs2 : BitVec 5)
  /-- VSRL_S (R70). -/
  | vsrlS (pav : Nat) (g : Guard) (ty : BitVec 2) (vd vs1 rs2 : BitVec 5)
  /-- VSRA_S (R70). -/
  | vsraS (pav : Nat) (g : Guard) (ty : BitVec 2) (vd vs1 rs2 : BitVec 5)
  /-- VCVT (R71). -/
  | vcvt (pav : Nat) (g : Guard) (dst src : BitVec 4) (vd vs1 : BitVec 5)
  /-- VLD (R70). -/
  | vld (pav : Nat) (g : Guard) (vd rs1 : BitVec 5) (imm : BitVec 11)
  /-- VST (R70). -/
  | vst (pav : Nat) (g : Guard) (vs rs1 : BitVec 5) (imm : BitVec 11)
  /-- VBC (R70). -/
  | vbc (pav : Nat) (g : Guard) (vd rs1 : BitVec 5)
  /-- VRED (R72). -/
  | vred (pav : Nat) (g : Guard) (fn : BitVec 2) (rd vs1 : BitVec 5)
  /-- VGET (R70). -/
  | vget (pav : Nat) (g : Guard) (rd vs1 : BitVec 5) (lane : BitVec 6)
  /-- VSET (R70). -/
  | vset (pav : Nat) (g : Guard) (vd rs1 : BitVec 5) (lane : BitVec 6)
  /-- VDG (R73). -/
  | vdg (pav : Nat) (g : Guard) (vs1 : BitVec 5)
  /-- TRD (R70). -/
  | trd (pav : Nat) (g : Guard) (r : BitVec 4) (tile : BitVec 3) (vd : BitVec 5)
  /-- TWR (R70). -/
  | twr (pav : Nat) (g : Guard) (r : BitVec 4) (tile : BitVec 3) (vd : BitVec 5)
  /-- TCLR (R70). -/
  | tclr (pav : Nat) (g : Guard) (tile : BitVec 3)
  /-- XACC (R74). -/
  | xacc (pav : Nat) (g : Guard) (fmt : BitVec 4) (vs : BitVec 5) (a : BitVec 3)
  /-- XRND (R74). -/
  | xrnd (pav : Nat) (g : Guard) (fmt : BitVec 4) (a : BitVec 3) (vd : BitVec 5)
  /-- XCLR (R74). -/
  | xclr (pav : Nat) (g : Guard) (a : BitVec 3)
  /-- XACCT (R74). -/
  | xacct (pav : Nat) (g : Guard) (fmt : BitVec 4) (vs rs1 : BitVec 5)
  /-- XRNDT (R74). -/
  | xrndt (pav : Nat) (g : Guard) (fmt : BitVec 4) (rs1 vd : BitVec 5)
  /-- XLDA (R74). -/
  | xlda (pav : Nat) (g : Guard) (rs1 : BitVec 5) (a : BitVec 3)
  /-- XSTA (R74). -/
  | xsta (pav : Nat) (g : Guard) (rs1 : BitVec 5) (a : BitVec 3)
  /-- XCLRT (R74). -/
  | xclrt (pav : Nat) (g : Guard) (rs1 : BitVec 5)
  /-- MMA (R76). -/
  | mma (pav : Nat) (g : Guard) (td : BitVec 3) (acc split array : Bool) (quad : BitVec 2) (fmt : BitVec 4) (ra rb rk rt : BitVec 5)
  /-- TPF (R76). -/
  | tpf (pav : Nat) (g : Guard) (array : Bool) (rt : BitVec 5)
  /-- TST (R76). -/
  | tst (pav : Nat) (g : Guard) (td : BitVec 3) (ra rt : BitVec 5)
  /-- TLD (R76). -/
  | tld (pav : Nat) (g : Guard) (td : BitVec 3) (ra rt : BitVec 5)
  /-- XLD (R78). -/
  | xld (pav : Nat) (g : Guard) (rt rl rm ra : BitVec 5)
  /-- XST (R80). -/
  | xst (pav : Nat) (g : Guard) (rt rl rm ra : BitVec 5)
  /-- PMC (R81). -/
  | pmc (pav : Nat) (g : Guard) (dir : Bool) (rt rl rm rd : BitVec 5)
  /-- WAITE (R83). -/
  | waite (pav : Nat) (g : Guard) (rs1 rs2 : BitVec 5)
  /-- SIGE (R83). -/
  | sige (pav : Nat) (g : Guard) (rs1 rs2 : BitVec 5)
  /-- FENCE (R83). -/
  | fence (pav : Nat) (g : Guard) (mask : BitVec 3)
  /-- WAITX (R83). -/
  | waitx (pav : Nat) (g : Guard) (rs1 : BitVec 5)
  /-- WAITM (R83). -/
  | waitm (pav : Nat) (g : Guard) (rs1 : BitVec 5)
  /-- ARRV (R84). -/
  | arrv (pav : Nat) (g : Guard) (rd re : BitVec 5)
  /-- END (R95). -/
  | endK (pav : Nat) (g : Guard) (code : BitVec 8)
  /-- CONTRIB (R140). -/
  | contrib (port : Nat) (pkt : Packet)
  /-- PARCEL_ADMISSION (R144). -/
  | parcelAdmission
  /-- REREQ (R141). -/
  | rereq (moor pseq entry member : Nat)
  /-- REREQ_INTERVAL (R141). -/
  | rereqInterval (req : Requester) (value : Word64)
  /-- FLOOR_BERTHS (R143). -/
  | floorBerths (req : Requester) (value : Word64)
  /-- GATE_PASSAGE (R150). -/
  | gatePassage (moor : Nat) (bad : Option Nat)
  /-- MEMBER_DEAD (R155). -/
  | memberDead (moor member : Nat)
  /-- BACKGROUND_COPY (R184). -/
  | backgroundCopy (shard : Nat)
  /-- BG_HOLD (R178). -/
  | bgHold (req : Requester) (value : Word64)
  /-- ANNOUNCE (R189). -/
  | announce (port : Nat) (pkt : Packet)
  /-- BOATHOUSE_ACK (R180). -/
  | boathouseAck (port : Nat) (pkt : Packet)
  /-- FRAG (R189). -/
  | frag (port : Nat) (pkt : Packet)
  /-- FACK (R184). -/
  | fack (port : Nat) (pkt : Packet)
  /-- FGET (R191). -/
  | fget (port : Nat) (pkt : Packet)
  /-- CHUNK (R198). -/
  | chunk (port : Nat) (pkt : Packet)
  /-- GAP (R199). -/
  | gap (port : Nat) (pkt : Packet)
  /-- DONE (R200). -/
  | done (port : Nat) (pkt : Packet)
  /-- STRIPE_PEER_DEAD (R190). -/
  | stripePeerDead (endpoint : Nat)
  /-- REPARENT (R199). -/
  | reparent (ring seq : Nat)
  /-- DOCK_SCRUB (R210). -/
  | dockScrub (device : Nat)
  /-- CORRECTED_WRITE_BACK (R208). -/
  | correctedWriteBack (line : Nat)
  /-- SELF_REFRESH_ENTRY (R211). -/
  | selfRefreshEntry
  /-- HOST_WINDOW_READ (R214). -/
  | hostWindowRead (addr : Nat)
  /-- HOST_WINDOW_WRITE (R215). -/
  | hostWindowWrite (addr : Nat) (bytes : List Byte)
  /-- HOST_SNOOP (R389). -/
  | hostSnoop (line : Nat) (poison : Bool) (bytes : List Byte)
  /-- WAREHOUSE_LINK_LOSS (R219). -/
  | warehouseLinkLoss (port : Nat)
  /-- PACKET_ARRIVAL (R233). -/
  | packetArrival (port : Nat) (pkt : Packet)
  /-- MATCHING (R239). -/
  | matching
  /-- EGRESS_REASSEMBLY (R355). -/
  | egressReassembly (port : Nat) (bad : Bool)
  /-- EGRESS_SELECT (R261). -/
  | egressSelect (port : Nat)
  /-- AGER_VISIT (R253). -/
  | agerVisit (pipe : Nat)
  /-- AGEING_TICK (R253). -/
  | ageingTick (pipe : Nat)
  /-- INSERT (R256). -/
  | insert (req : Requester) (pipe key : Nat)
  /-- DELETE (R256). -/
  | delete (req : Requester) (pipe key : Nat)
  /-- LOOKUP (R256). -/
  | lookup (req : Requester) (pipe key : Nat)
  /-- MEMBER_UNUSABLE (R249). -/
  | memberUnusable (port : Nat)
  /-- DOWN_HOLD_EXPIRY (R249). -/
  | downHoldExpiry (port : Nat)
  /-- METER_WRITE (R267). -/
  | meterWrite (req : Requester) (index : Nat)
  /-- METER_READ (R267). -/
  | meterRead (req : Requester) (index : Nat)
  /-- CLEAR_COUNTS (R267). -/
  | clearCounts (req : Requester) (index : Nat)
  /-- GATE_ENTRY (R269). -/
  | gateEntry (port : Nat)
  /-- RATE (R276). -/
  | rate (req : Requester) (value : Word64)
  /-- STEP (R276). -/
  | step (req : Requester) (value : Word64)
  /-- CAPTURE (R277). -/
  | capture (req : Requester)
  /-- PPS_IN_EDGE (R284). -/
  | ppsInEdge
  /-- PPS_OUT_RISE (R284). -/
  | ppsOutRise
  /-- PPS_OUT_FALL (R284). -/
  | ppsOutFall
  /-- FREERUN (R283). -/
  | freerun
  /-- FRAME (R297). -/
  | frame (port start : Nat) (words : List RxWord)
  /-- ACK (R298). -/
  | ack (port lseq : Nat)
  /-- NAK (R298). -/
  | nak (port lseq : Nat)
  /-- CREDIT (R299). -/
  | credit (port cls total : Nat)
  /-- BEACON (R301). -/
  | beacon (port content : Nat)
  /-- IDENT (R308). -/
  | ident (port index content : Nat)
  /-- ALIGN (R293). -/
  | align (lane n : Nat)
  /-- NAK_REPEAT (R298). -/
  | nakRepeat (port : Nat)
  /-- REPLAY_TIMEOUT (R298). -/
  | replayTimeout (port : Nat)
  /-- BEACON_SEND (R301). -/
  | beaconSend (port : Nat)
  /-- SIGNAL_DETECT (R305). -/
  | signalDetect (port : Nat)
  /-- TRAINING (R306). -/
  | training (port : Nat) (lanes inverted : List Nat)
  /-- ALIGNMENT_LOCK (R307). -/
  | alignmentLock (rx : LaneWords)
  /-- LOSS_OF_LOCK (R307). -/
  | lossOfLock (rx : LaneWords)
  /-- LOSS_OF_SIGNAL (R305). -/
  | lossOfSignal (port : Nat)
  /-- STAGE_LIMIT (R305). -/
  | stageLimit (port : Nat)
  /-- GENERATION_STEP_DOWN (R309). -/
  | generationStepDown (port : Nat)
  /-- ETHERNET_FRAME (R303). -/
  | ethernetFrame (port : Nat) (words : List RxWord) (bytes : List Byte)
  /-- ETHERNET_BEACON (R304). -/
  | ethernetBeacon (port : Nat)
  /-- CMIS_READ (R312). -/
  | cmisRead (req : Requester) (quay : Nat) (value : Word64)
  /-- CMIS_WRITE (R312). -/
  | cmisWrite (req : Requester) (quay : Nat) (value : Word64)
  /-- CMIS_COMPLETE (R312). -/
  | cmisComplete (quay : Nat) (ack : Bool) (bytes : List Byte)
  /-- LOCK (R318). -/
  | lock (quay : Nat)
  /-- ECHO (R322). -/
  | echo (quay heard : Nat)
  /-- CONFIRM_TIMEOUT (R322). -/
  | confirmTimeout (quay colour : Nat)
  /-- MISS (R322). -/
  | miss (quay colour : Nat)
  /-- LOCK_LOST (R322). -/
  | lockLost (quay : Nat)
  /-- LH_CAL_GO (R325). -/
  | lhCalGo (req : Requester) (value : Word64)
  /-- CALIBRATION (R325). -/
  | calibration
  /-- CAL_MEASUREMENT (R324). -/
  | calMeasurement (offsets : List Int)
  /-- DATA (R333). -/
  | data (port : Nat) (f : BwIn)
  /-- PARITY (R337). -/
  | parity (port : Nat) (f : BwIn)
  /-- BREAKWATER_ACK (R332). -/
  | breakwaterAck (port : Nat) (f : BwIn)
  /-- BREAKWATER_NAK (R335). -/
  | breakwaterNak (port : Nat) (f : BwIn)
  /-- KEEPALIVE (R346). -/
  | keepalive (port : Nat) (f : BwIn)
  /-- PARTIAL (R344). -/
  | partialSum (port : Nat) (f : BwIn)
  /-- KEYX_OFFER (R340). -/
  | keyxOffer (port : Nat) (msg : List Byte)
  /-- KEYX_ACCEPT (R340). -/
  | keyxAccept (port : Nat) (msg : List Byte)
  /-- KEYX_CONFIRM (R340). -/
  | keyxConfirm (port : Nat) (msg : List Byte)
  /-- KEYX_RESEND (R340). -/
  | keyxResend (port : Nat)
  /-- RESYNC (R346). -/
  | resync (port : Nat) (f : BwIn)
  /-- ACK_TIMER (R333). -/
  | ackTimer (slot : Nat)
  /-- REORDER_EXPIRY (R333). -/
  | reorderExpiry (slot : Nat)
  /-- RTO_EXPIRY (R335). -/
  | rtoExpiry (slot : Nat)
  /-- BLOCK_CLOSE (R336). -/
  | blockClose (slot : Nat)
  /-- KEEPALIVE_SEND (R331). -/
  | keepaliveSend (slot : Nat)
  /-- STALL_EXPIRY (R346). -/
  | stallExpiry (slot : Nat)
  /-- OUTAGE_EXPIRY (R346). -/
  | outageExpiry (slot : Nat)
  /-- HOLD_EXPIRY (R346). -/
  | holdExpiry (slot : Nat)
  /-- SPAN_PEER_DEAD (R345). -/
  | spanPeerDead (span site : Nat)
  /-- POWER_ESTIMATE (R366). -/
  | powerEstimate (counts : List Nat)
  /-- LODGE_SAMPLE (R381). -/
  | lodgeSample (temps : List Int) (vin iin : Nat)
  /-- EMERGENCY_STANDBY (R377). -/
  | emergencyStandby
  /-- DROP_RELEASE (R372). -/
  | dropRelease
  /-- VOLTAGE_REACHED (R368). -/
  | voltageReached
  /-- REFERENCE_LOSS (R21). -/
  | referenceLoss
  /-- REFERENCE_RETURN (R21). -/
  | referenceReturn
  /-- DOCK_TEMPERATURE_READ (R380). -/
  | dockTemperatureRead (temps : List Int)
  /-- HDM_DECODER_COMMIT (R387). -/
  | hdmDecoderCommit (n base size : Nat)
  /-- IDE_KEY_SWITCH (R390). -/
  | ideKeySwitch (stream dir : Nat)
  /-- IDE_INTEGRITY_FAIL (R390). -/
  | ideIntegrityFail (stream : Nat)
  /-- GET_INFO (R402). -/
  | getInfo (chan : MsgChan) (msg : List Byte)
  /-- GET_CERTS (R402). -/
  | getCerts (chan : MsgChan) (msg : List Byte)
  /-- GET_MEAS (R403). -/
  | getMeas (chan : MsgChan) (msg : List Byte)
  /-- GET_LOG (R402). -/
  | getLog (chan : MsgChan) (msg : List Byte)
  /-- KEY_EXCH (R402). -/
  | keyExch (chan : MsgChan) (msg : List Byte)
  /-- KEY_GO (R402). -/
  | keyGo (chan : MsgChan) (msg : List Byte)
  /-- DOE_ABORT (R402). -/
  | doeAbort
  /-- SEAL (R396). -/
  | seal (req : Requester) (len : Nat)
  /-- EXTEND (R400). -/
  | extend (req : Requester) (len : Nat)
  /-- SET_PEER (R400). -/
  | setPeer (req : Requester) (len : Nat)
  /-- STAGE_FW (R400). -/
  | stageFw (req : Requester) (len : Nat) (flashOk : Bool)
  /-- COMMIT_SVN (R400). -/
  | commitSvn (req : Requester) (len : Nat)
  /-- READ_FUSES (R400). -/
  | readFuses (req : Requester) (len : Nat)
  /-- MCTP_CONTROL (R404). -/
  | mctpControl (msg : List Byte) (mtu : Option Nat)
  /-- PLDM_REQUEST (R404). -/
  | pldmRequest (msg : List Byte)
  /-- GATEHOUSE_FAULT (R399). -/
  | gatehouseFault
  /-- HM_HEARTBEAT (R398). -/
  | hmHeartbeat (req : Requester) (value : Word64)
  /-- HEARTBEAT_EXPIRY (R398). -/
  | heartbeatExpiry
  /-- RESTART (R398). -/
  | restart (req : Requester)
  /-- HM_MEMORY_FAULT (R398). -/
  | hmMemoryFault
  /-- HM_RESTART_COMPLETE (R398). -/
  | hmRestartComplete
  /-- HOLD (R398). -/
  | hold (req : Requester) (on : Bool)
  /-- HM_DOCK (R397). -/
  | hmDock (req : Requester) (k : Nat) (value : Word64)
  /-- WINDOW_END (R409). -/
  | windowEnd
  /-- WINDOW_US (R409). -/
  | windowUs (req : Requester) (value : Word64)
  /-- DUMP_SNAPSHOT (R411). -/
  | dumpSnapshot
  /-- DUMP_NOW (R411). -/
  | dumpNow (req : Requester)
  /-- DUMP_RECORD_WRITTEN (R412). -/
  | dumpRecordWritten
  /-- CLEAR_ALL (R406). -/
  | clearAll (req : Requester)
  /-- GATHER_GO (R413). -/
  | gatherGo (req : Requester) (count : Nat)
  /-- PC_ENABLE (R408). -/
  | pcEnable (req : Requester) (k : Nat) (value : Word64)
  /-- PC_VALUE_WRITE (R408). -/
  | pcValueWrite (req : Requester) (k : Nat) (value : Word64)
  /-- DUMP_RING_WRITE (R410). -/
  | dumpRingWrite (req : Requester) (value : Word64)
  /-- SAMPLE_RING_WRITE (R415). -/
  | sampleRingWrite (req : Requester) (value : Word64)
  /-- SAMPLE_SEED (R414). -/
  | sampleSeed (req : Requester) (value : Word64)
  /-- PV_TILE_ERR_CLEAR (R33). -/
  | pvTileErrClear (req : Requester)
  /-- PV_XRANGE_CLEAR (R48). -/
  | pvXrangeClear (req : Requester)
  /-- MO_NONDET_COUNT_CLEAR (R147). -/
  | moNondetCountClear (req : Requester)
  /-- MO_CNT_CLEAR (R140). -/
  | moCntClear (req : Requester) (mask : Nat)
  /-- BH_CNT_CLEAR (R188). -/
  | bhCntClear (req : Requester) (mask : Nat)
  /-- DK_ERR_CNT_CLEAR (R208). -/
  | dkErrCntClear (req : Requester)
  /-- WH_ERR_CNT_CLEAR (R219). -/
  | whErrCntClear (req : Requester)
  /-- BS_CNT_CLEAR (R232). -/
  | bsCntClear (req : Requester) (mask : Nat)
  /-- PEAK_CLR (R236). -/
  | peakClr (req : Requester) (die : Nat)
  /-- HB_PAR_ERR_CLEAR (R254). -/
  | hbParErrClear (req : Requester) (pipe : Nat)
  /-- LH_WITHDRAW_CNT_CLEAR (R323). -/
  | lhWithdrawCntClear (req : Requester)
  /-- BW_DROP_CLEAR (R331). -/
  | bwDropClear (req : Requester)
  /-- PM_DROPS_CLEAR (R370). -/
  | pmDropsClear (req : Requester)
  /-- GH_DENY_CNT_CLEAR (R395). -/
  | ghDenyCntClear (req : Requester)
  /-- PRBS_CLEAR (R310). -/
  | prbsClear (req : Requester) (lane : Nat)
  /-- VIN_RISE (R426). -/
  | vinRise
  /-- UNDERVOLTAGE_LOCKOUT (R421). -/
  | undervoltageLockout
  /-- OVERVOLTAGE_LATCH (R421). -/
  | overvoltageLatch
  /-- MOD_EN_RISE (R426). -/
  | modEnRise
  /-- MOD_EN_FALL (R427). -/
  | modEnFall
  /-- SYS_RESET_L (R428). -/
  | sysResetL
  /-- PERST_L (R429). -/
  | perstL
  /-- UPSTREAM_LINK_DOWN (R429). -/
  | upstreamLinkDown
  /-- CLEAR_FAULTS (R430). -/
  | clearFaults
  /-- CAPABILITY (R430). -/
  | capability
  /-- STATUS_BYTE (R430). -/
  | statusByte
  /-- STATUS_WORD (R430). -/
  | statusWord
  /-- STATUS_INPUT (R430). -/
  | statusInput
  /-- STATUS_TEMPERATURE (R430). -/
  | statusTemperature
  /-- STATUS_CML (R430). -/
  | statusCml
  /-- READ_VIN (R430). -/
  | readVin
  /-- READ_IIN (R430). -/
  | readIin
  /-- READ_PIN (R430). -/
  | readPin
  /-- READ_TEMPERATURE_1 (R430). -/
  | readTemperature1
  /-- READ_TEMPERATURE_2 (R430). -/
  | readTemperature2
  /-- PMBUS_REVISION (R430). -/
  | pmbusRevision
  /-- MFR_ID (R430). -/
  | mfrId
  /-- MFR_MODEL (R430). -/
  | mfrModel
  /-- MFR_REVISION (R430). -/
  | mfrRevision
  /-- MFR_SERIAL (R430). -/
  | mfrSerial
  /-- UNSUPPORTED_COMMAND (R430). -/
  | unsupportedCommand
  /-- ILLEGAL_OPCODE (R65). -/
  | illegalOpcode (pav : Nat) (word : Word64)
  /-- CONTEXT_CHANGE (R125). -/
  | contextChange (ring seq : Nat)
  /-- INIT_LOAD_COMPLETE (R436). -/
  | initLoadComplete (shard : Nat)
  /-- POWER_STATE_ENTERED (R374). -/
  | powerStateEntered
  /-- SELF_REFRESH_EXIT (R211). -/
  | selfRefreshExit
  /-- WAREHOUSE_LINK_UP (R216). -/
  | warehouseLinkUp (port width gts : Nat) (lopt fit : Bool) (cap : Nat)
  /-- UPSTREAM_LINK_UP (R429). -/
  | upstreamLinkUp
  /-- PERST_L_RELEASE (R426). -/
  | perstLRelease
  /-- CONFIGURATION_REQUEST (R426). -/
  | configurationRequest
  /-- PRBS_CHECKER_LOCK (R310). -/
  | prbsCheckerLock (rx : LaneErrors)
  /-- PRESENT_L (R312). -/
  | presentL (quay : Nat) (level : Bool)
  /-- INT_L (R312). -/
  | intL (quay : Nat) (level : Bool)
  /-- ENTDAA (R404). -/
  | entdaa (addr : Nat)
deriving DecidableEq, Repr

end Sys2Proof
end

