-- ==== Sys2Proof/Config.lean ====
section
/-! DEFINITION. What the specification leaves open or names without giving: constants with no body, so that nothing can
be proved of their values. Each is an entry of the assumption log. -/

namespace Sys2Proof.Config

/-- A value the specification leaves open, taken afresh at each place that needs one (the argument is the state's
counter of such values). -/
opaque freeValue : Nat → Word64

/-- What a byte of Dock never written since cold reset `n` decodes to (R429). -/
opaque dockByte (n addr : Nat) : Byte

/-- Whether a line of Dock never written since cold reset `n` meets the uncorrectable outcome (R429). -/
opaque dockLineBad (n line : Nat) : Bool

/-- A byte of host memory the block has not seen written (R389). -/
opaque hostByte : Nat → Byte

/-- A byte of the Warehouse not written since its contents were last discarded (R219). -/
opaque whByte (n addr : Nat) : Byte

/-- Whether an expander answers the `n`-th read with poison at this line (R219). -/
opaque whPoison (n line : Nat) : Bool

/-- SHA3-512 (R391, R394), which the specification names and does not define. -/
opaque sha3 : List Byte → BitVec 512

/-- ML-DSA-87 verification: key, message, signature (R391, R340). -/
opaque mldsaVerify (key msg sig : List Byte) : Bool

/-- ML-DSA-87 signature with the Gatehouse identity key of the part with this serial (R393, R402). -/
opaque mldsaSign (serial : Word64) (n : Nat) (msg : List Byte) : List Byte

/-- ML-KEM-1024 encapsulation to a key: ciphertext and shared secret (R402, R340). -/
opaque mlkemEncap (n : Nat) (key : List Byte) : List Byte × List Byte

/-- ML-KEM-1024 decapsulation of a ciphertext with the ephemeral key made at `n` (R340). -/
opaque mlkemDecap (n : Nat) (ct : List Byte) : List Byte

/-- The ephemeral ML-KEM-1024 encapsulation key made at `n` (R340). -/
opaque mlkemKey (n : Nat) : List Byte

/-- The ROM verification key that KEYID names (R391). -/
opaque romKey (keyId : Nat) : List Byte

/-- AES-256-GCM: ciphertext and tag (R338). -/
opaque gcmSeal (key : BitVec 256) (nonce aad text : List Byte) : List Byte × List Byte

/-- The certificate chain of the part with this serial (R402). -/
opaque certChain (serial : Word64) : List Byte

/-- The bytes of the fuse summary that slot 1 measures (R394). -/
opaque fuseSummary (serial : Word64) (svn : List Nat) (revoked : Nat) : List Byte

/-- The answer to an MCTP control message the specification names by DSP0236 only (R404). -/
opaque mctpAnswer (msg : List Byte) : List Byte

/-- The Harbourmaster firmware's answer to a PLDM request (R404). -/
opaque pldmAnswer (n : Nat) (msg : List Byte) : List Byte

/-- Tininess of a rounded result where the specification does not say before or after rounding: the operands'
exact value as sign, mantissa and exponent. -/
opaque tiny (neg : Bool) (mant : Nat) (exp : Int) : Bool

/-- Whether a fused multiply-add of an infinity, a zero and a quiet NaN sets the invalid flag (IEEE 754 leaves it to
the implementation; R40). -/
opaque fmaInvalid : Bool

/-- A byte of a parcel's Slipway output area that no kernel has written. -/
opaque slipByte : Nat → Byte

/-- Where dispatch puts the optimizer scalars of an UPDATE's bound kernel, which reads the address in HYPER (R93). -/
opaque hyperPlace : Nat

/-- A byte of page 0xB0 of the module in a Quay, as read since cold reset `n` (R326). -/
opaque moduleByte (quay n byte : Nat) : Byte

/-- The module serial number fused into the part (R308, R393). -/
opaque serial : Word64

/-- The site of a logical Pavilion within its die as the site map gives it: row, column (R29, R393). -/
opaque site : Nat → Nat × Nat

/-- The fused SVN row of a KIND (R393). -/
opaque fusedSvn : Nat → Nat

/-- The fused mask of revoked ROM keys (R393). -/
opaque revoked : Nat

/-- The millivolts by which a part's VDD_MV of a row differs from the default table, from 0 to 60 with 30 for none (R367). -/
opaque vddTrim : Nat → Fin 61

/-- A PM_VTAB word of the default table (R367). -/
def vtabDefault (r : Nat) : Word64 :=
  match r with
  | 0 => 0x16B193525#64
  | 1 => 0x1000CB0C6#64
  | 2 => 0xC0002DA7#64
  | 3 => 0x95002B28#64
  | 4 => 0x6773A80A#64
  | _ => 0x4EA7258C#64

/-- A part's PM_VTAB word: the default with its own VDD_MV (R367). -/
def vtab (r : Nat) : Word64 := vtabDefault r + BitVec.ofNat 64 ((vddTrim r).val * 16) - 480#64

/-- A part's PM_WEIGHT word (R365, R393). -/
opaque weight : Nat → Word64

/-- What the boot flash holds when the module is shipped: copies A and B of KINDs 0, 1 and 2 (R391). -/
opaque flash : Nat → List Byte

/-- Leakage power of a domain in mW as the fused table gives it for the row in force and the die sensors' filtered
temperatures in 1/16 °C, of which each domain takes its own hottest (R365, R393). -/
opaque leakage (domain row : Nat) (temps : List Int) : Nat

end Sys2Proof.Config
end

