-- ==== Sys2Proof/Machine/LineCode.lean ====
section
/-! DEFINITION. The code of a Dock line (R205): Reed-Solomon over GF(2^16) with two check symbols, as it is encoded and
decoded; the place of a Dock address in its device and of its check symbols in their check line (R204, R206). -/

namespace Sys2Proof.Machine

/-! ### GF(2^16) with x^16 + x^12 + x^3 + x + 1 -/

/-- A field element times the root α. -/
def gf16Double (a : Nat) : Nat := if a < 2 ^ 15 then 2 * a else (2 * a) ^^^ 0x1100B

/-- The product of two field elements, over `n` bits of the second from the top. -/
def gf16MulBits : Nat → Nat → Nat → Nat
  | 0, _, _ => 0
  | n + 1, a, b => (if b.testBit 0 then a else 0) ^^^ gf16MulBits n (gf16Double a) (b / 2)

def gf16Mul (a b : Nat) : Nat := gf16MulBits 16 a b

/-- α^i. -/
def gf16Alpha : Nat → Nat
  | 0 => 1
  | i + 1 => gf16Double (gf16Alpha i)

/-- The inverse of a field element: its power 2^16 - 2, as the product of its powers 2, 4, …, 2^15. -/
def gf16InvFrom : Nat → Nat → Nat
  | 0, _ => 1
  | n + 1, a => let b := gf16Mul a a; gf16Mul b (gf16InvFrom n b)

def gf16Inv (a : Nat) : Nat := gf16InvFrom 15 a

/-! ### The code of a line (R205) -/

/-- Symbols with their positions: the sum, and the sum of α^i times the symbol at i. -/
def syndromes (l : List (Nat × Nat)) : Nat × Nat :=
  l.foldl (fun s x => (s.1 ^^^ x.2, s.2 ^^^ gf16Mul (gf16Alpha x.1) x.2)) (0, 0)

/-- The 32 data symbols of a line of 64 bytes. -/
def dataSymbols (bs : List Byte) : List (Nat × Nat) :=
  (List.range 32).map fun i => (i, ((bs[2 * i]?).getD 0).toNat + 256 * ((bs[2 * i + 1]?).getD 0).toNat)

/-- The check symbols s32 and s33 of a line: with them both syndromes are 0. -/
def checkSymbols (bs : List Byte) : Nat × Nat :=
  let (a, b) := syndromes (dataSymbols bs)
  let s33 := gf16Mul (b ^^^ gf16Mul (gf16Alpha 32) a) (gf16Inv (gf16Alpha 32 ^^^ gf16Alpha 33))
  (a ^^^ s33, s33)

/-- What the decoder finds of a line: no error, one symbol to correct (its position and the value to add), or no
single-symbol solution. -/
inductive LineDecode where
  | clean
  | correct (pos value : Nat)
  | detected
deriving DecidableEq, Repr

/-- The decoder of R205 on a line whose stored symbols differ from its codeword by the errors `e` (positions and values):
the code is linear, so that the syndromes are those of the errors. -/
def decodeErrors (e : List (Nat × Nat)) : LineDecode :=
  let (a, b) := syndromes e
  if a = 0 && b = 0 then .clean
  else if a = 0 then .detected
  else
    match (List.range 34).find? fun i => gf16Mul (gf16Alpha i) a = b with
    | some i => .correct i a
    | none => .detected

/-- The error left at a position after decoding: none, unless the decoder finds nothing or corrects what was not wrong. -/
def residualAt (e : List (Nat × Nat)) (pos : Nat) : Nat :=
  let was := e.foldl (fun n x => if x.1 = pos then n ^^^ x.2 else n) 0
  match decodeErrors e with
  | .correct i v => if i = pos then was ^^^ v else was
  | _ => was

/-! ### Places (R204, R206) -/

/-- Dock's devices. -/
def dockDevices : Nat := 24

/-- Groups of 17 lines in a device. -/
def deviceGroups : Nat := 3947580

/-- The device of a Dock line, by line number. -/
def lineDevice (line : Nat) : Nat := line * 64 / 256 % dockDevices

/-- The data line within its device: the device address over 64. -/
def lineInDevice (line : Nat) : Nat := (line * 64 / 6144 * 256 + line * 64 % 256) / 64

/-- The group of a Dock line in its device, and its number among the 16 data lines. -/
def lineGroup (line : Nat) : Nat := lineInDevice line / 16
def lineSlot (line : Nat) : Nat := lineInDevice line % 16

/-- The Dock line that is data line `j` of a group of a device. -/
def lineAt (device group j : Nat) : Nat :=
  let d := (16 * group + j) * 64
  (d / 256 * 6144 + device * 256 + d % 256) / 64

end Sys2Proof.Machine
end

