-- ==== Sys2Proof/Machine/Sparse.lean ====
section
/-! DEFINITION. Sparse data: the one way every table of the block that is mostly at its default is read and written.
Writing the default removes the entry, so that equal tables are equal lists. -/

namespace Sys2Proof.Machine

/-- The value at `k`, or the default. -/
def spGet {α : Type} (d : α) : Sp α → Nat → α
  | [], _ => d
  | (k, v) :: rest, i => if k = i then v else spGet d rest i

/-- The table without an entry for `k`. -/
def spDel {α : Type} : Sp α → Nat → Sp α
  | [], _ => []
  | (k, v) :: rest, i => if k = i then spDel rest i else (k, v) :: spDel rest i

/-- The table with `v` put in at `k`, whatever `v` is. -/
def spIns {α : Type} : Sp α → Nat → α → Sp α
  | [], i, v => [(i, v)]
  | (k, w) :: rest, i, v =>
    if k = i then (i, v) :: rest
    else if i < k then (i, v) :: (k, w) :: rest
    else (k, w) :: spIns rest i v

/-- The table with the value at `k` made `v`: removed where `v` is the default. -/
def spPut {α : Type} [DecidableEq α] (d : α) (m : Sp α) (k : Nat) (v : α) : Sp α :=
  if v = d then spDel m k else spIns m k v

/-- Keys strictly above `b` and rising. -/
def spSortedAbove {α : Type} : Nat → Sp α → Prop
  | _, [] => True
  | b, (k, _) :: rest => b < k ∧ spSortedAbove k rest

/-- Keys strictly rising. -/
def spSorted {α : Type} : Sp α → Prop
  | [] => True
  | (k, _) :: rest => spSortedAbove k rest

/-- The canonical form: keys strictly rising, no entry equal to the default. -/
def spWf {α : Type} (d : α) (m : Sp α) : Prop := spSorted m ∧ ∀ p ∈ m, p.2 ≠ d

/-- The value put at each key of a list of pairs, in order. -/
def spPutAll {α : Type} [DecidableEq α] (d : α) (m : Sp α) (l : List (Nat × α)) : Sp α :=
  l.foldl (fun m p => spPut d m p.1 p.2) m

end Sys2Proof.Machine
end

