-- ==== Sys2Proof/Machine/Arith.lean ====
section
/-! DEFINITION. The arithmetic of the Pavilions and of the Slipway: number formats (R41 to R44), roundings (R45, R46),
IEEE operations with one rounding (R40), exact accumulation (R47 to R51), slices (R52), digests (R151, R152). Values are
exact dyadics between decoding and the one rounding at the end. -/

namespace Sys2Proof.Machine

/-- The formats of R64. -/
inductive Fmt where
  | fp32 | bf16 | fp16 | int32 | int8 | e4m3 | e5m2 | e2m3 | e3m2 | e2m1
deriving DecidableEq, Repr

/-- The format of a 4-bit code; 0xA to 0xF are reserved (R64). -/
def Fmt.ofCode : Nat → Option Fmt
  | 0 => some .fp32 | 1 => some .bf16 | 2 => some .fp16 | 3 => some .int32 | 4 => some .int8
  | 5 => some .e4m3 | 6 => some .e5m2 | 7 => some .e2m3 | 8 => some .e3m2 | 9 => some .e2m1
  | _ => none

/-- The code of a format (R64). -/
def Fmt.code : Fmt → Nat
  | .fp32 => 0 | .bf16 => 1 | .fp16 => 2 | .int32 => 3 | .int8 => 4 | .e4m3 => 5 | .e5m2 => 6 | .e2m3 => 7 | .e3m2 => 8
  | .e2m1 => 9

def Fmt.isInt : Fmt → Bool
  | .int32 | .int8 => true
  | _ => false

def Fmt.isMx : Fmt → Bool
  | .e4m3 | .e5m2 | .e2m3 | .e3m2 | .e2m1 => true
  | _ => false

/-- Bits of one element. -/
def Fmt.width : Fmt → Nat
  | .fp32 | .int32 => 32
  | .bf16 | .fp16 => 16
  | .int8 | .e4m3 | .e5m2 => 8
  | .e2m3 | .e3m2 => 6
  | .e2m1 => 4

/-- Exponent bits, mantissa bits and bias (R41). -/
def Fmt.layout : Fmt → Nat × Nat × Nat
  | .fp32 => (8, 23, 127)
  | .bf16 => (8, 7, 127)
  | .fp16 => (5, 10, 15)
  | .e5m2 => (5, 2, 15)
  | .e4m3 => (4, 3, 7)
  | .e3m2 => (3, 2, 3)
  | .e2m3 => (2, 3, 1)
  | .e2m1 => (2, 1, 1)
  | .int32 | .int8 => (0, 0, 0)

/-- Magnitude code of the largest finite value (R41). -/
def Fmt.maxCode : Fmt → Nat
  | .fp32 => 0x7F7FFFFF
  | .bf16 => 0x7F7F
  | .fp16 => 0x7BFF
  | .e5m2 => 0x7B
  | .e4m3 => 0x7E
  | .e3m2 | .e2m3 => 0x1F
  | .e2m1 => 0x7
  | .int32 => 0x7FFFFFFF
  | .int8 => 0x7F

/-- Exponent of the largest normal value, for the scale of R43. -/
def Fmt.eMax : Fmt → Int
  | .e5m2 => 15
  | .e4m3 => 8
  | .e3m2 => 4
  | .e2m3 | .e2m1 => 2
  | _ => 0

/-- A decoded value: a NaN, an infinity, or ± mant × 2^exp. -/
inductive Val where
  | nan
  | inf (neg : Bool)
  | fin (neg : Bool) (mant : Nat) (exp : Int)
deriving DecidableEq, Repr

/-- The two roundings of R45; stochastic rounding with its 24-bit draw. -/
inductive Rnd where
  | rne
  | sr (draw : Nat)
deriving DecidableEq, Repr

/-- The value of a code (R41). -/
def decodeVal (f : Fmt) (code : Nat) : Val :=
  match f with
  | .int32 => let i := (BitVec.ofNat 32 code).toInt; .fin (i < 0) i.natAbs 0
  | .int8 => let i := (BitVec.ofNat 8 code).toInt; .fin (i < 0) i.natAbs 0
  | f =>
    let (E, M, bias) := f.layout
    let neg := (code >>> (E + M)) % 2 = 1
    let e := (code >>> M) % 2 ^ E
    let m := code % 2 ^ M
    let ieee := f = .fp32 || f = .bf16 || f = .fp16 || f = .e5m2
    if ieee && e = 2 ^ E - 1 then (if m = 0 then .inf neg else .nan)
    else if f = .e4m3 && e = 15 && m = 7 then .nan
    else if e = 0 then .fin neg m (1 - (bias : Int) - M)
    else .fin neg (2 ^ M + m) ((e : Int) - bias - M)

/-- Whether the remainder `rem` of `2^sh` below the last place rounds the magnitude `n` away from zero (R45). -/
def roundsUp (r : Rnd) (n rem sh : Nat) : Bool :=
  match r with
  | .rne => 2 * rem > 2 ^ sh || (2 * rem = 2 ^ sh && n % 2 = 1)
  | .sr draw => (rem <<< 24) >>> sh + draw ≥ 2 ^ 24

/-- `mant × 2^exp` as a whole number of `2^q`, rounded. -/
def roundAt (r : Rnd) (mant : Nat) (exp q : Int) : Nat :=
  if q ≤ exp then mant <<< (exp - q).toNat
  else
    let sh := (q - exp).toNat
    let n := mant >>> sh
    if roundsUp r n (mant % 2 ^ sh) sh then n + 1 else n

/-- The magnitude code of a finite value in a floating format, as if its exponent had no upper end; of zero, 0. -/
def magCode (f : Fmt) (r : Rnd) (mant : Nat) (exp : Int) : Nat :=
  let (_, M, bias) := f.layout
  let emin : Int := 1 - bias
  let q := max ((mant.log2 : Int) + exp) emin - M
  if mant = 0 then 0 else roundAt r mant exp q + ((q - (emin - M)).toNat <<< M)

/-- The canonical quiet NaN (R40). -/
def canonNaN (f : Fmt) : Nat :=
  let (E, M, _) := f.layout
  ((2 ^ E - 1) <<< M) + 2 ^ (M - 1)

/-- An infinity's code. -/
def infCode (f : Fmt) (neg : Bool) : Nat :=
  let (E, M, _) := f.layout
  ((2 ^ E - 1) <<< M) + (if neg then 2 ^ (E + M) else 0)

/-- A value rounded once into FP32, BF16 or FP16 (R44). -/
def roundIeee (f : Fmt) (r : Rnd) (v : Val) : Nat :=
  match v with
  | .nan => canonNaN f
  | .inf neg => infCode f neg
  | .fin neg mant exp =>
    let (E, M, _) := f.layout
    let c := magCode f r mant exp
    if c > f.maxCode then infCode f neg else c + (if neg then 2 ^ (E + M) else 0)

/-- A value rounded once into INT8 or INT32, saturating; NaN gives 0 (R44). -/
def roundInt (f : Fmt) (r : Rnd) (v : Val) : Nat :=
  let top : Int := 2 ^ (f.width - 1)
  let i : Int := match v with
    | .nan => 0
    | .inf neg => if neg then -top else top
    | .fin neg mant exp => let n := roundAt r mant exp 0; if neg then -(n : Int) else n
  (BitVec.ofInt f.width (max (-top) (min (top - 1) i))).toNat

/-- A value rounded into a format that is not MX. -/
def roundVal (f : Fmt) (r : Rnd) (v : Val) : Nat := if f.isInt then roundInt f r v else roundIeee f r v

/-- One element of an MX block at a scale exponent: divided, rounded, saturated (R43 steps 4 and 5). -/
def mxElem (f : Fmt) (r : Rnd) (scale : Int) (v : Val) : Nat :=
  match v with
  | .fin neg mant exp =>
    let (E, M, _) := f.layout
    min (magCode f r mant (exp - scale)) f.maxCode + (if neg then 2 ^ (E + M) else 0)
  | _ => 0

/-- floor(log2 |v|) of a finite nonzero value. -/
def valLog2 : Val → Option Int
  | .fin _ mant exp => if mant = 0 then none else some ((mant.log2 : Int) + exp)
  | _ => none

/-- The scale byte of a block (R43 steps 1 to 3): 0xFF where a value is NaN or infinite. -/
def mxScale (f : Fmt) (vs : List Val) : Nat :=
  if vs.any fun v => match v with | .fin .. => false | _ => true then 0xFF
  else
    match vs.filterMap valLog2 with
    | [] => 0
    | l :: ls => (max (-127) (min 127 (ls.foldl max l - f.eMax)) + 127).toNat

/-- A block of at most 32 values in an MX format, each with its rounding: the scale byte and the element codes (R43). -/
def mxBlock (f : Fmt) (vs : List (Val × Rnd)) : Nat × List Nat :=
  let s := mxScale f (vs.map (·.1))
  if s = 0xFF then (s, vs.map fun _ => 0)
  else (s, vs.map fun p => mxElem f p.2 ((s : Int) - 127) p.1)

/-- A value multiplied by a power of two. -/
def Val.scale (v : Val) (k : Int) : Val :=
  match v with
  | .fin neg m e => .fin neg m (e + k)
  | v => v

/-- An MX element with its scale byte (R42): a NaN scale makes it NaN. -/
def mxVal (f : Fmt) (scale code : Nat) : Val :=
  if scale = 0xFF then .nan else (decodeVal f code).scale ((scale : Int) - 127)

/-! ### IEEE operations: the exact value, rounded once (R40) -/

/-- A signed dyadic's integer at a common exponent. -/
def toIntAt (neg : Bool) (mant : Nat) (exp e : Int) : Int :=
  let n : Int := (mant <<< (exp - e).toNat : Nat)
  if neg then -n else n

/-- Exact sum; of opposite infinities NaN; of exact opposites +0; of two negative zeros −0. -/
def Val.add : Val → Val → Val
  | .nan, _ => .nan
  | _, .nan => .nan
  | .inf a, .inf b => if a = b then .inf a else .nan
  | .inf a, _ => .inf a
  | _, .inf b => .inf b
  | .fin n1 m1 e1, .fin n2 m2 e2 =>
    let e := min e1 e2
    let i := toIntAt n1 m1 e1 e + toIntAt n2 m2 e2 e
    if i = 0 then .fin (n1 && n2) 0 e else .fin (i < 0) i.natAbs e

def Val.neg : Val → Val
  | .nan => .nan
  | .inf a => .inf !a
  | .fin n m e => .fin (!n) m e

/-- Exact product; infinity times zero is NaN. -/
def Val.mul : Val → Val → Val
  | .nan, _ => .nan
  | _, .nan => .nan
  | .inf a, .inf b => .inf (a != b)
  | .inf a, .fin n m _ => if m = 0 then .nan else .inf (a != n)
  | .fin n m _, .inf b => if m = 0 then .nan else .inf (n != b)
  | .fin n1 m1 e1, .fin n2 m2 e2 => .fin (n1 != n2) (m1 * m2) (e1 + e2)

/-- Quotient to 64 bits and a sticky bit, enough for one correct rounding to any format of R41. -/
def Val.div : Val → Val → Val
  | .nan, _ => .nan
  | _, .nan => .nan
  | .inf _, .inf _ => .nan
  | .inf a, .fin n _ _ => .inf (a != n)
  | .fin n _ e, .inf b => .fin (n != b) 0 e
  | .fin n1 m1 e1, .fin n2 m2 e2 =>
    if m2 = 0 then (if m1 = 0 then .nan else .inf (n1 != n2))
    else
      let k := 64 + m2.log2
      let q := (m1 <<< k) / m2
      let st := if (m1 <<< k) % m2 = 0 then 0 else 1
      .fin (n1 != n2) (2 * q + st) (e1 - e2 - k - 1)

/-- Integer square root, bit by bit from bit `k` down. -/
def isqrtFrom : Nat → Nat → Nat → Nat
  | 0, n, r => if (r + 1) * (r + 1) ≤ n then r + 1 else r
  | k + 1, n, r => let c := r + 2 ^ (k + 1); isqrtFrom k n (if c * c ≤ n then c else r)

/-- Square root to 64 bits and a sticky bit; of a negative number NaN, of −0 −0. -/
def Val.sqrt : Val → Val
  | .nan => .nan
  | .inf n => if n then .nan else .inf false
  | .fin n m e =>
    if m = 0 then .fin n 0 e
    else if n then .nan
    else
      let odd := e % 2 ≠ 0
      let m' := (if odd then 2 * m else m) <<< 128
      let e' := (if odd then e - 1 else e) - 128
      let r := isqrtFrom 100 m' 0
      .fin false (2 * r + (if r * r = m' then 0 else 1)) (e' / 2 - 1)

/-- Order of magnitude and sign: `a < b` of two values that are not NaN, −0 below +0. -/
def Val.lt : Val → Val → Bool
  | .inf a, .inf b => a && !b
  | .inf a, _ => a
  | _, .inf b => !b
  | .fin n1 m1 e1, .fin n2 m2 e2 =>
    let e := min e1 e2
    let x := toIntAt n1 m1 e1 e
    let y := toIntAt n2 m2 e2 e
    if x = y then m1 = 0 && n1 && !n2 else x < y
  | _, _ => false

/-- IEEE maximum and minimum: a NaN operand gives NaN. -/
def Val.max : Val → Val → Val
  | .nan, _ => .nan
  | _, .nan => .nan
  | a, b => if a.lt b then b else a

def Val.min : Val → Val → Val
  | .nan, _ => .nan
  | _, .nan => .nan
  | a, b => if b.lt a then b else a

/-- FP32 addition of two codes (R40, R146). -/
def fp32Add (a b : Nat) : Nat := roundIeee .fp32 .rne ((decodeVal .fp32 a).add (decodeVal .fp32 b))

def fp32Mul (a b : Nat) : Nat := roundIeee .fp32 .rne ((decodeVal .fp32 a).mul (decodeVal .fp32 b))

/-- Fused multiply-add `a × b + c` with one rounding (R40). -/
def fp32Fma (a b c : Nat) : Nat :=
  roundIeee .fp32 .rne (((decodeVal .fp32 a).mul (decodeVal .fp32 b)).add (decodeVal .fp32 c))

def fp32Div (a b : Nat) : Nat := roundIeee .fp32 .rne ((decodeVal .fp32 a).div (decodeVal .fp32 b))

def fp32Sqrt (a : Nat) : Nat := roundIeee .fp32 .rne (decodeVal .fp32 a).sqrt

def fp32Neg (a : Nat) : Nat := if a ≥ 2 ^ 31 then a - 2 ^ 31 else a + 2 ^ 31

/-! ### mix, draws, slices, digests (R46, R52, R151, R152) -/

/-- The mix function of R46. -/
def mix (z : Word64) : Word64 :=
  let z := (z ^^^ (z >>> 31)) * 0xD1B54A32D192ED03#64
  let z := (z ^^^ (z >>> 29)) * 0xAEF17502108EF2D9#64
  z ^^^ (z >>> 32)

/-- The 24-bit stochastic-rounding draw of R46. -/
def srDraw (job moor pseq eidx : Nat) : Nat :=
  let key : Word64 := BitVec.ofNat 64 (job <<< 52) ||| BitVec.ofNat 64 (moor <<< 38)
  let ctr : Word64 := BitVec.ofNat 64 (pseq <<< 32) ||| BitVec.ofNat 64 eidx
  (mix (mix key ^^^ ctr)).toNat >>> 40

/-- The slice of granule `g` in Mooring `m` (R52). -/
def sliceOfGranule (m g : Nat) : Nat := ((g + (m <<< 40)) * 0x2545F4914F6CDD1D % 2 ^ 64) >>> 58

/-- The granule digest of R151: the bytes padded to words and folded from 0. -/
def foldDigest (d : Word64) (bs : List Byte) : Word64 :=
  (chunks 8 ((bs.length + 7) / 8) bs).foldl (fun d w => mix (d ^^^ BitVec.ofNat 64 (leNat w))) d

def granuleDigest (bs : List Byte) : Word64 := foldDigest 0 bs

/-- The parcel digest of R152 over the granule digests in output order. -/
def parcelDigest (pseq : Nat) (gds : List Word64) : Word64 :=
  mix (gds.foldl (fun d g => mix (d ^^^ g)) 0 ^^^ BitVec.ofNat 64 (pseq <<< 32 ||| gds.length))

/-! ### Exact accumulation (R47 to R51) -/

/-- One exact-accumulator lane: the 320-bit word and its flags (R47). -/
structure Exact where
  word : BitVec 320
  nan : Bool
  pinf : Bool
  ninf : Bool
deriving DecidableEq, Repr

def Exact.zero : Exact := ⟨0, false, false, false⟩

/-- An addend taken into the lane, and whether it entered as an infinity for its magnitude (R48). -/
def Exact.add (x : Exact) (v : Val) : Exact × Bool :=
  match v with
  | .nan => ({ x with nan := true }, false)
  | .inf neg => (if neg then { x with ninf := true } else { x with pinf := true }, false)
  | .fin neg mant exp =>
    if mant ≠ 0 && (mant.log2 : Int) + exp ≥ 136 then
      (if neg then { x with ninf := true } else { x with pinf := true }, true)
    else
      ({ x with word := x.word + BitVec.ofInt 320 (toIntAt neg mant exp (-160)) }, false)

/-- The value of a lane as R50 reads it out. -/
def Exact.val (x : Exact) : Val :=
  if x.nan || (x.pinf && x.ninf) then .nan
  else if x.pinf then .inf false
  else if x.ninf then .inf true
  else
    let i := x.word.toInt
    .fin (i < 0) i.natAbs (-160)

/-! ### Tensors as bytes (R42) -/

/-- Element `i` of a little-endian stream of `w`-bit elements. -/
def elemAt (bs : List Byte) (w i : Nat) : Nat :=
  (leNat ((bs.drop (w * i / 8)).take ((w * i % 8 + w + 7) / 8)) >>> (w * i % 8)) % 2 ^ w

/-- Codes of width `w` packed into bytes. -/
def packElems (w : Nat) (l : List Nat) : List Byte :=
  leBytes (l.foldr (fun c acc => c % 2 ^ w + acc * 2 ^ w) 0) ((w * l.length + 7) / 8)

/-- Elements of a contribution of `len` element bytes: MXFP6 granules hold 5,440 in 4,080 bytes (R136). -/
def elemCount (f : Fmt) (len : Nat) : Nat :=
  match f with
  | .e2m3 | .e3m2 => min len 4080 * 8 / 6
  | f => len * 8 / f.width

/-- The values of a contribution: element bytes, then for MX one scale byte per block (R138). -/
def decodeTensor (f : Fmt) (n : Nat) (elems scales : List Byte) : List Val :=
  (List.range n).map fun i =>
    if f.isMx then mxVal f ((scales[i / 32]?).getD 0).toNat (elemAt elems f.width i)
    else decodeVal f (elemAt elems f.width i)

/-- Values with their roundings encoded in a format: element bytes and scale bytes (R42, R43, R44). -/
def encodeTensor (f : Fmt) (vs : List (Val × Rnd)) : List Byte × List Byte :=
  if f.isMx then
    let blocks := (List.range ((vs.length + 31) / 32)).map fun b => mxBlock f ((vs.drop (32 * b)).take 32)
    (packElems f.width (blocks.flatMap (·.2)), blocks.map fun b => BitVec.ofNat 8 b.1)
  else (packElems f.width (vs.map fun p => roundVal f p.2 p.1), [])

end Sys2Proof.Machine
end

