-- ==== Sys2Proof/Machine/Regs.lean ====
section
/-! DEFINITION. The register map: every register table of the specification (R10 to R12, R27), one value of `Reg`
per register name, one `Fld` per field with its bit range, access code and reset value as the table prints them.
Reserved bits (RSV) belong to no field: they read zero and ignore writes (R12). -/

namespace Sys2Proof.Machine

/-- The names of the registers of BAR0 (R27); an array of registers is one name with indices. -/
inductive Reg where
  | GEN_ID | PV_CAPS | PV_CTRL | PV_STATUS | PV_TILE_ERR | PV_XRANGE | PV_INJECT | PV_SITE | PV_RUN
  | PV_FAULT | PV_FAULT_ADDR | PV_CYC_ARRAY | PV_CYC_FREEZE | PV_CYC_RAMP | PV_CYC_VEC | GEN_CTRL
  | GEN_STATUS | WK_CAPS | WK_STATUS | WK_POLL | WK_COMMIT | WK_COMMIT_STATUS | WK_RING_BASE | WK_RING_CFG
  | WK_RING_CTRL | WK_RING_HEAD | WK_RING_SEQ | WK_CQ_BASE | WK_CQ_CFG | WK_CQ_CONS | WK_CQ_PROD | WK_EVFAIL
  | WK_EVENT | MO_CAPS | MO_SLIP_CFG | MO_SLIP_STATUS | MO_STATUS | MO_NONDET_COUNT | MO_DROP_STALE
  | MO_DROP_FENCED | MO_DROP_UNGRANTED | MO_DUP | MO_REREQ_SENT | MO_CNT_CLEAR | MO_DROP_BAD | MO_DLOG_BASE
  | MO_DLOG_CFG | MO_DLOG_PROD | MO_LINKPRIO | MO_REREQ | MO_FENCE_SEL | MO_FENCE_MAP | MO_CTX_STATE
  | MO_CTX_SEQ | MO_CTX_SLIP | MO_CTX_LIVE | BH_CAPS | BH_CTRL | BH_RESTORE_CFG | BH_STATUS | BH_FSTORE_BASE
  | BH_FSTORE_LEN | BH_FSTORE_USED | BH_DROP | BH_BAD_CHUNK | BH_REPARENT | BH_CNT_CLEAR | BH_PEER
  | BH_SH_STATE | BH_SH_EPOCH | BH_SH_PROG | BH_SH_FAULT | DK_CAPS | DK_CTRL | DK_STATUS | DK_RSV
  | DK_RSV_BASE | DK_ERR_CNT | DK_ERR_LAST | DK_INJECT | DK_WIN_BASE | DK_WIN_SIZE | WH_CAPS | WH_CFG
  | WH_STATUS | WH_MSTORE_BASE | WH_MSTORE_LEN | WH_ERR_CNT | WH_PORT | BS_CAPS | BS_CTRL | BS_SELF
  | BS_CM_THRESH | BS_MISS | BS_BUF_CFG | BS_BUF_USED | BS_DROP_HDR | BS_DROP_HOPS | BS_DROP_BUF
  | BS_DROP_MISS | BS_DROP_MCDOWN | BS_DROP_MIRROR | BS_DROP_DOWN | BS_DROP_UNKMOOR | BS_CNT_CLEAR | BS_SITE
  | BS_MIRROR | BS_BUNDLE_MAP | BS_MCG_MAP | HB_CAPS | HB_STATUS | HB_AGE | HB_OP | HB_OP_DATA | HB_OP_STATUS
  | HB_LEARN_BASE | HB_LEARN_CFG | HB_LEARN_PROD | HB_LEARN_CONS | HB_LEARN_LOST | HB_PAR_ERR | HB_PIN_COUNT
  | HB_PIN_KEY | HB_PIN_DATA | SC_CAPS | SC_CTRL | SC_METER_SEL | SC_METER_RATE | SC_METER_BURST
  | SC_METER_ACT | SC_METER_CNT | SC_METER_RED | SC_METER_STATUS | SC_GATE_ADDR | SC_GATE_DATA | SC_METER_MAP
  | SC_WEIGHT_LO | SC_WEIGHT_HI | SC_BURST_LO | SC_BURST_HI | SC_GATE_CTL | SC_GATE_BASE_S | SC_GATE_BASE_NS
  | SC_GATE_STATUS | CT_CAPS | CT_CTRL | CT_STATUS | CT_RATE | CT_STEP | CT_SET_S | CT_SET_NS | CT_SNAP_CMD
  | CT_SNAP_S | CT_SNAP_NS | CT_PPS_IN_S | CT_PPS_IN_NS | CT_PORT_CORR | QY_LAYOUT | QY_CMIS_CMD
  | QY_CMIS_STATUS | QY_CMIS_DATA | QY_PORT_CTRL | QY_PORT_STATUS | QY_PARTNER | QY_LANE_CTRL | QY_FEC_CNT
  | QY_LINK_CNT | QY_PRBS_CTRL | QY_PRBS_CNT | QY_PRBS_USER | QY_INJECT | QY_ETH_CFG | QY_ETH_MAC
  | QY_ETH_PEER | LH_CAPS | LH_CTRL | LH_CAL | LH_CAL_STATUS | LH_WITHDRAW_CNT | LH_PORT_CFG | LH_PORT_STATUS
  | LH_COLOUR | LH_CIRCUIT | BW_CAPS | BW_CTRL | BW_TIMERS | BW_BUF_BASE | BW_BUF_LEN | BW_DROP | BW_LH_CFG
  | BW_LH_WIN | BW_LH_STATUS | BW_LH_SEQ | BW_LH_ACK | BW_LH_CNT1 | BW_LH_CNT2 | BW_SA_CFG | BW_SA_PN
  | BW_SA_KEYSEL | BW_SA_KEYDATA | BW_SPAN_CFG | BW_SPAN_SLOTS_LO | BW_SPAN_SLOTS_HI | BW_SPAN_KIDS
  | BW_SPAN_STATUS | PM_CAPS | PM_CTRL | PM_STATE | PM_STEP | PM_CAP | PM_EST | PM_MEAS | PM_PACE | PM_DROPS
  | PM_VTAB | PM_WEIGHT | LG_CAPS | LG_LIMITS | LG_LIMITS2 | LG_STATUS | LG_REC_PTR | LG_REC_LO | LG_REC_HI
  | LG_PORT | GH_CAPS | GH_STATUS | GH_REQ | GH_RSP | GH_DENY_LAST | GH_DENY_CNT | HM_CAPS | HM_STATUS
  | HM_CTRL | HM_HEARTBEAT | HM_DOCK | TL_CAPS | TL_CTRL | TL_STATUS | TL_DUMP_RING | TL_DUMP_CFG
  | TL_DUMP_STAT | TL_DUMP_SEQ | TL_BW_CFG | TL_SAMPLE_CTL | TL_SAMPLE_RING | TL_SAMPLE_PTR | TL_SAMPLE_LOST
  | TL_GATHER | TL_EVT | TL_PC_CFG | TL_PC_LO | TL_PC_HI | TL_PC_VAL | TL_GLIST | TL_GDATA | TL_BW
deriving DecidableEq, Repr

/-- The access codes of R12; RSV has no field. -/
inductive Acc where
  | rw | ro | w1c | w1s | wo | rwl
deriving DecidableEq, Repr

/-- One field of a register: bits `lo + width - 1` down to `lo`. -/
structure Fld where
  reg : Reg
  lo : Nat
  width : Nat
  acc : Acc
  reset : Nat
deriving DecidableEq, Repr

/-- Who may write a register (the "written by" line, R11); a work ring's registers follow its owner. -/
inductive Writers where
  | by (l : List Requester)
  | ringOwner
deriving DecidableEq, Repr

/-- One register array: base offset, stride and count of each index, writers, staged set, fields. -/
structure RegDesc where
  base : Nat
  dims : List (Nat × Nat)
  writers : Writers
  set : Option Nat
  fields : List Fld
deriving DecidableEq, Repr

namespace F

def GEN_ID_VENDOR : Fld := ⟨.GEN_ID, 48, 16, .ro, 0x4A58⟩
def GEN_ID_PART : Fld := ⟨.GEN_ID, 32, 16, .ro, 0x800⟩
def GEN_ID_STEPPING : Fld := ⟨.GEN_ID, 24, 8, .ro, 0xB0⟩
def GEN_ID_PAV_COUNT : Fld := ⟨.GEN_ID, 12, 12, .ro, 0x320⟩
def PV_CAPS_PAV_COUNT : Fld := ⟨.PV_CAPS, 0, 12, .ro, 0x320⟩
def PV_CAPS_PAV_PER_DIE : Fld := ⟨.PV_CAPS, 12, 8, .ro, 0xC8⟩
def PV_CAPS_SITES_PER_DIE : Fld := ⟨.PV_CAPS, 20, 8, .ro, 0xD8⟩
def PV_CAPS_TILE_KIB : Fld := ⟨.PV_CAPS, 28, 10, .ro, 0x200⟩
def PV_CAPS_FORMATS : Fld := ⟨.PV_CAPS, 38, 8, .ro, 0xFF⟩
def PV_CTRL_DISPATCH_HOLD : Fld := ⟨.PV_CTRL, 0, 1, .rw, 0x0⟩
def PV_CTRL_SCRUB_EN : Fld := ⟨.PV_CTRL, 1, 1, .rw, 0x1⟩
def PV_CTRL_SCRUB_INTERVAL : Fld := ⟨.PV_CTRL, 4, 4, .rw, 0x8⟩
def PV_STATUS_RUNNING : Fld := ⟨.PV_STATUS, 0, 12, .ro, 0x0⟩
def PV_STATUS_FAULTED : Fld := ⟨.PV_STATUS, 12, 12, .ro, 0x0⟩
def PV_STATUS_GATED : Fld := ⟨.PV_STATUS, 24, 12, .ro, 0x0⟩
def PV_STATUS_FIRST_FAULT : Fld := ⟨.PV_STATUS, 36, 12, .ro, 0xFFF⟩
def PV_STATUS_SCRUB_LATE : Fld := ⟨.PV_STATUS, 48, 16, .ro, 0x0⟩
def PV_TILE_ERR_CORRECTED : Fld := ⟨.PV_TILE_ERR, 0, 32, .ro, 0x0⟩
def PV_TILE_ERR_UNCORRECTED : Fld := ⟨.PV_TILE_ERR, 32, 16, .ro, 0x0⟩
def PV_TILE_ERR_CLEAR : Fld := ⟨.PV_TILE_ERR, 63, 1, .wo, 0x0⟩
def PV_XRANGE_COUNT : Fld := ⟨.PV_XRANGE, 0, 32, .ro, 0x0⟩
def PV_XRANGE_CLEAR : Fld := ⟨.PV_XRANGE, 63, 1, .wo, 0x0⟩
def PV_INJECT_TARGET : Fld := ⟨.PV_INJECT, 0, 10, .rwl, 0x0⟩
def PV_INJECT_KIND : Fld := ⟨.PV_INJECT, 10, 2, .rwl, 0x0⟩
def PV_INJECT_ARM : Fld := ⟨.PV_INJECT, 12, 1, .rwl, 0x0⟩
def PV_SITE_COL : Fld := ⟨.PV_SITE, 0, 5, .ro, 0x0⟩
def PV_SITE_ROW : Fld := ⟨.PV_SITE, 5, 6, .ro, 0x0⟩
def PV_SITE_DIE : Fld := ⟨.PV_SITE, 11, 2, .ro, 0x0⟩
def PV_RUN_STATE : Fld := ⟨.PV_RUN, 0, 3, .ro, 0x0⟩
def PV_RUN_SPLIT0 : Fld := ⟨.PV_RUN, 3, 1, .ro, 0x0⟩
def PV_RUN_SPLIT1 : Fld := ⟨.PV_RUN, 4, 1, .ro, 0x0⟩
def PV_RUN_LEVEL0 : Fld := ⟨.PV_RUN, 5, 3, .ro, 0x0⟩
def PV_RUN_LEVEL1 : Fld := ⟨.PV_RUN, 8, 3, .ro, 0x0⟩
def PV_RUN_MOORING : Fld := ⟨.PV_RUN, 32, 14, .ro, 0x0⟩
def PV_RUN_MOORING_VALID : Fld := ⟨.PV_RUN, 46, 1, .ro, 0x0⟩
def PV_FAULT_VALID : Fld := ⟨.PV_FAULT, 0, 1, .w1c, 0x0⟩
def PV_FAULT_OVERRUN : Fld := ⟨.PV_FAULT, 1, 1, .w1c, 0x0⟩
def PV_FAULT_CLASS : Fld := ⟨.PV_FAULT, 4, 4, .ro, 0x0⟩
def PV_FAULT_ITAG : Fld := ⟨.PV_FAULT, 8, 8, .ro, 0x0⟩
def PV_FAULT_PC : Fld := ⟨.PV_FAULT, 16, 48, .ro, 0x0⟩
def PV_FAULT_ADDR_ADDR : Fld := ⟨.PV_FAULT_ADDR, 0, 64, .ro, 0x0⟩
def PV_CYC_ARRAY_COUNT : Fld := ⟨.PV_CYC_ARRAY, 0, 64, .ro, 0x0⟩
def PV_CYC_FREEZE_COUNT : Fld := ⟨.PV_CYC_FREEZE, 0, 64, .ro, 0x0⟩
def PV_CYC_RAMP_COUNT : Fld := ⟨.PV_CYC_RAMP, 0, 64, .ro, 0x0⟩
def PV_CYC_VEC_COUNT : Fld := ⟨.PV_CYC_VEC, 0, 64, .ro, 0x0⟩
def GEN_CTRL_STRICT_ORDER : Fld := ⟨.GEN_CTRL, 0, 1, .rw, 0x0⟩
def GEN_STATUS_BOOT_DONE : Fld := ⟨.GEN_STATUS, 0, 1, .ro, 0x0⟩
def GEN_STATUS_SEALED : Fld := ⟨.GEN_STATUS, 1, 1, .ro, 0x0⟩
def GEN_STATUS_STRICT_REFUSED : Fld := ⟨.GEN_STATUS, 2, 1, .w1c, 0x0⟩
def WK_CAPS_RINGS : Fld := ⟨.WK_CAPS, 0, 9, .ro, 0x100⟩
def WK_CAPS_CQS : Fld := ⟨.WK_CAPS, 9, 9, .ro, 0x100⟩
def WK_CAPS_EVENTS : Fld := ⟨.WK_CAPS, 18, 17, .ro, 0x10000⟩
def WK_CAPS_MAX_INFLIGHT : Fld := ⟨.WK_CAPS, 35, 15, .ro, 0x4000⟩
def WK_STATUS_INFLIGHT : Fld := ⟨.WK_STATUS, 0, 15, .ro, 0x0⟩
def WK_STATUS_CQ_FULL_SEEN : Fld := ⟨.WK_STATUS, 15, 1, .w1c, 0x0⟩
def WK_STATUS_CONS_BAD : Fld := ⟨.WK_STATUS, 16, 1, .w1c, 0x0⟩
def WK_STATUS_CTRL_BAD : Fld := ⟨.WK_STATUS, 17, 1, .w1c, 0x0⟩
def WK_STATUS_SLOT_BAD : Fld := ⟨.WK_STATUS, 18, 1, .w1c, 0x0⟩
def WK_STATUS_SLOT_BAD_RING : Fld := ⟨.WK_STATUS, 19, 8, .ro, 0x0⟩
def WK_POLL_INTERVAL : Fld := ⟨.WK_POLL, 0, 16, .rw, 0xA⟩
def WK_COMMIT_SET : Fld := ⟨.WK_COMMIT, 0, 12, .rw, 0x0⟩
def WK_COMMIT_INSTANCE : Fld := ⟨.WK_COMMIT, 12, 32, .rw, 0x0⟩
def WK_COMMIT_GO : Fld := ⟨.WK_COMMIT, 44, 1, .wo, 0x0⟩
def WK_COMMIT_STATUS_BUSY : Fld := ⟨.WK_COMMIT_STATUS, 0, 1, .ro, 0x0⟩
def WK_COMMIT_STATUS_REFUSED : Fld := ⟨.WK_COMMIT_STATUS, 1, 1, .w1c, 0x0⟩
def WK_COMMIT_STATUS_RESULT : Fld := ⟨.WK_COMMIT_STATUS, 8, 8, .ro, 0x0⟩
def WK_COMMIT_STATUS_LAST_SET : Fld := ⟨.WK_COMMIT_STATUS, 16, 12, .ro, 0x0⟩
def WK_RING_BASE_ADDR : Fld := ⟨.WK_RING_BASE, 0, 48, .rw, 0x0⟩
def WK_RING_BASE_SPACE : Fld := ⟨.WK_RING_BASE, 60, 4, .rw, 0x0⟩
def WK_RING_CFG_SLOTS : Fld := ⟨.WK_RING_CFG, 0, 17, .rw, 0x0⟩
def WK_RING_CFG_CQ : Fld := ⟨.WK_RING_CFG, 17, 8, .rw, 0x0⟩
def WK_RING_CFG_OWNER : Fld := ⟨.WK_RING_CFG, 25, 1, .rw, 0x0⟩
def WK_RING_CFG_WINDOW : Fld := ⟨.WK_RING_CFG, 26, 9, .rw, 0x40⟩
def WK_RING_CTRL_CMD : Fld := ⟨.WK_RING_CTRL, 0, 3, .wo, 0x0⟩
def WK_RING_CTRL_STATE : Fld := ⟨.WK_RING_CTRL, 3, 3, .ro, 0x0⟩
def WK_RING_HEAD_HEAD : Fld := ⟨.WK_RING_HEAD, 0, 16, .ro, 0x0⟩
def WK_RING_HEAD_INFLIGHT : Fld := ⟨.WK_RING_HEAD, 16, 9, .ro, 0x0⟩
def WK_RING_HEAD_EXPECT_GEN : Fld := ⟨.WK_RING_HEAD, 32, 8, .ro, 0x0⟩
def WK_RING_SEQ_SEQ : Fld := ⟨.WK_RING_SEQ, 0, 32, .ro, 0x0⟩
def WK_CQ_BASE_ADDR : Fld := ⟨.WK_CQ_BASE, 0, 48, .rw, 0x0⟩
def WK_CQ_BASE_SPACE : Fld := ⟨.WK_CQ_BASE, 60, 4, .rw, 0x0⟩
def WK_CQ_CFG_SLOTS : Fld := ⟨.WK_CQ_CFG, 0, 17, .rw, 0x0⟩
def WK_CQ_CFG_VECTOR : Fld := ⟨.WK_CQ_CFG, 17, 11, .rw, 0x0⟩
def WK_CQ_CONS_CONS : Fld := ⟨.WK_CQ_CONS, 0, 32, .rw, 0x0⟩
def WK_CQ_PROD_PROD : Fld := ⟨.WK_CQ_PROD, 0, 32, .ro, 0x0⟩
def WK_EVFAIL_FAIL : Fld := ⟨.WK_EVFAIL, 0, 64, .w1c, 0x0⟩
def WK_EVENT_VALUE : Fld := ⟨.WK_EVENT, 0, 64, .rw, 0x0⟩
def MO_CAPS_CONTEXTS : Fld := ⟨.MO_CAPS, 0, 15, .ro, 0x4000⟩
def MO_CAPS_ACTIVE_MAX : Fld := ⟨.MO_CAPS, 15, 13, .ro, 0x1000⟩
def MO_CAPS_MEMBERS_MAX : Fld := ⟨.MO_CAPS, 28, 13, .ro, 0x1000⟩
def MO_CAPS_BERTHS : Fld := ⟨.MO_CAPS, 41, 16, .ro, 0x8000⟩
def MO_SLIP_CFG_FLOOR_BERTHS : Fld := ⟨.MO_SLIP_CFG, 0, 16, .rw, 0x4000⟩
def MO_SLIP_STATUS_FLOOR_RESERVED : Fld := ⟨.MO_SLIP_STATUS, 0, 16, .ro, 0x0⟩
def MO_SLIP_STATUS_SHARED_FREE : Fld := ⟨.MO_SLIP_STATUS, 16, 16, .ro, 0x4000⟩
def MO_SLIP_STATUS_QUEUED : Fld := ⟨.MO_SLIP_STATUS, 32, 13, .ro, 0x0⟩
def MO_SLIP_STATUS_ADMITTED : Fld := ⟨.MO_SLIP_STATUS, 45, 16, .ro, 0x0⟩
def MO_STATUS_ACTIVE : Fld := ⟨.MO_STATUS, 0, 13, .ro, 0x0⟩
def MO_STATUS_RETAINED : Fld := ⟨.MO_STATUS, 13, 15, .ro, 0x0⟩
def MO_STATUS_CFG_REFUSED : Fld := ⟨.MO_STATUS, 28, 1, .w1c, 0x0⟩
def MO_STATUS_STORE_FREE_MIB : Fld := ⟨.MO_STATUS, 29, 9, .ro, 0x180⟩
def MO_NONDET_COUNT_COUNT : Fld := ⟨.MO_NONDET_COUNT, 0, 48, .ro, 0x0⟩
def MO_NONDET_COUNT_CLEAR : Fld := ⟨.MO_NONDET_COUNT, 63, 1, .wo, 0x0⟩
def MO_DROP_STALE_COUNT : Fld := ⟨.MO_DROP_STALE, 0, 32, .ro, 0x0⟩
def MO_DROP_FENCED_COUNT : Fld := ⟨.MO_DROP_FENCED, 0, 32, .ro, 0x0⟩
def MO_DROP_UNGRANTED_COUNT : Fld := ⟨.MO_DROP_UNGRANTED, 0, 32, .ro, 0x0⟩
def MO_DUP_COUNT : Fld := ⟨.MO_DUP, 0, 32, .ro, 0x0⟩
def MO_REREQ_SENT_COUNT : Fld := ⟨.MO_REREQ_SENT, 0, 32, .ro, 0x0⟩
def MO_CNT_CLEAR_CLEAR : Fld := ⟨.MO_CNT_CLEAR, 0, 6, .wo, 0x0⟩
def MO_DROP_BAD_COUNT : Fld := ⟨.MO_DROP_BAD, 0, 32, .ro, 0x0⟩
def MO_DLOG_BASE_ADDR : Fld := ⟨.MO_DLOG_BASE, 0, 48, .rw, 0x0⟩
def MO_DLOG_CFG_SLOTS : Fld := ⟨.MO_DLOG_CFG, 0, 25, .rw, 0x0⟩
def MO_DLOG_PROD_PROD : Fld := ⟨.MO_DLOG_PROD, 0, 64, .ro, 0x0⟩
def MO_LINKPRIO_CLASS_MASK : Fld := ⟨.MO_LINKPRIO, 0, 16, .rw, 0x0⟩
def MO_LINKPRIO_CEILING : Fld := ⟨.MO_LINKPRIO, 16, 8, .rw, 0xF0⟩
def MO_LINKPRIO_BURST_KIB : Fld := ⟨.MO_LINKPRIO, 24, 16, .rw, 0x40⟩
def MO_REREQ_INTERVAL : Fld := ⟨.MO_REREQ, 0, 16, .rw, 0x32⟩
def MO_FENCE_SEL_MOORING : Fld := ⟨.MO_FENCE_SEL, 0, 14, .rw, 0x0⟩
def MO_FENCE_MAP_FENCED : Fld := ⟨.MO_FENCE_MAP, 0, 64, .ro, 0x0⟩
def MO_CTX_STATE_STATE : Fld := ⟨.MO_CTX_STATE, 0, 2, .ro, 0x0⟩
def MO_CTX_STATE_RETAIN : Fld := ⟨.MO_CTX_STATE, 2, 1, .ro, 0x0⟩
def MO_CTX_STATE_FENCE_ANY : Fld := ⟨.MO_CTX_STATE, 3, 1, .ro, 0x0⟩
def MO_CTX_STATE_FENCE_BY_VERDICT : Fld := ⟨.MO_CTX_STATE, 4, 1, .ro, 0x0⟩
def MO_CTX_STATE_EPOCH : Fld := ⟨.MO_CTX_STATE, 16, 16, .ro, 0x0⟩
def MO_CTX_STATE_JOB : Fld := ⟨.MO_CTX_STATE, 32, 12, .ro, 0x0⟩
def MO_CTX_STATE_MEMBER_COUNT : Fld := ⟨.MO_CTX_STATE, 44, 13, .ro, 0x0⟩
def MO_CTX_SEQ_PSEQ_NEXT : Fld := ⟨.MO_CTX_SEQ, 0, 32, .ro, 0x0⟩
def MO_CTX_SEQ_GATE_NEXT : Fld := ⟨.MO_CTX_SEQ, 32, 32, .ro, 0x0⟩
def MO_CTX_SLIP_FLOOR : Fld := ⟨.MO_CTX_SLIP, 0, 16, .ro, 0x0⟩
def MO_CTX_SLIP_SHARED_HELD : Fld := ⟨.MO_CTX_SLIP, 16, 16, .ro, 0x0⟩
def MO_CTX_SLIP_ADMITTED : Fld := ⟨.MO_CTX_SLIP, 32, 16, .ro, 0x0⟩
def MO_CTX_SLIP_FLOOR_BUSY : Fld := ⟨.MO_CTX_SLIP, 48, 1, .ro, 0x0⟩
def MO_CTX_SLIP_QUEUED : Fld := ⟨.MO_CTX_SLIP, 49, 1, .ro, 0x0⟩
def MO_CTX_LIVE_SUSPECT : Fld := ⟨.MO_CTX_LIVE, 0, 13, .ro, 0x0⟩
def MO_CTX_LIVE_FENCED : Fld := ⟨.MO_CTX_LIVE, 13, 13, .ro, 0x0⟩
def MO_CTX_LIVE_FIRST_FENCED : Fld := ⟨.MO_CTX_LIVE, 26, 12, .ro, 0x0⟩
def MO_CTX_LIVE_FIRST_VALID : Fld := ⟨.MO_CTX_LIVE, 38, 1, .ro, 0x0⟩
def BH_CAPS_SHARDS : Fld := ⟨.BH_CAPS, 0, 13, .ro, 0x1000⟩
def BH_CAPS_K_MAX : Fld := ⟨.BH_CAPS, 13, 5, .ro, 0x10⟩
def BH_CAPS_M_MAX : Fld := ⟨.BH_CAPS, 18, 3, .ro, 0x4⟩
def BH_CAPS_PEERS : Fld := ⟨.BH_CAPS, 21, 9, .ro, 0x100⟩
def BH_CAPS_OPTIMIZERS : Fld := ⟨.BH_CAPS, 30, 8, .ro, 0x1F⟩
def BH_CTRL_BG_LINK_SHARE : Fld := ⟨.BH_CTRL, 0, 8, .rw, 0x1A⟩
def BH_CTRL_PEER_TIMEOUT_MS : Fld := ⟨.BH_CTRL, 8, 10, .rw, 0x5⟩
def BH_CTRL_REBUILD_ROWS : Fld := ⟨.BH_CTRL, 18, 10, .rw, 0x40⟩
def BH_CTRL_BG_HOLD : Fld := ⟨.BH_CTRL, 28, 1, .rw, 0x0⟩
def BH_RESTORE_CFG_SILENCE_US : Fld := ⟨.BH_RESTORE_CFG, 0, 16, .rw, 0xC8⟩
def BH_RESTORE_CFG_REPLAY_MIB : Fld := ⟨.BH_RESTORE_CFG, 16, 16, .rw, 0x100⟩
def BH_STATUS_LIVE : Fld := ⟨.BH_STATUS, 0, 13, .ro, 0x0⟩
def BH_STATUS_LOADING : Fld := ⟨.BH_STATUS, 13, 13, .ro, 0x0⟩
def BH_STATUS_COPYING : Fld := ⟨.BH_STATUS, 26, 13, .ro, 0x0⟩
def BH_STATUS_HELD : Fld := ⟨.BH_STATUS, 39, 13, .ro, 0x0⟩
def BH_FSTORE_BASE_ADDR : Fld := ⟨.BH_FSTORE_BASE, 0, 48, .rw, 0x0⟩
def BH_FSTORE_LEN_BYTES : Fld := ⟨.BH_FSTORE_LEN, 0, 48, .rw, 0x0⟩
def BH_FSTORE_USED_BYTES : Fld := ⟨.BH_FSTORE_USED, 0, 48, .ro, 0x0⟩
def BH_DROP_PEER : Fld := ⟨.BH_DROP, 0, 32, .ro, 0x0⟩
def BH_DROP_STALE : Fld := ⟨.BH_DROP, 32, 32, .ro, 0x0⟩
def BH_BAD_CHUNK_COUNT : Fld := ⟨.BH_BAD_CHUNK, 0, 32, .ro, 0x0⟩
def BH_REPARENT_COUNT : Fld := ⟨.BH_REPARENT, 0, 32, .ro, 0x0⟩
def BH_CNT_CLEAR_CLEAR : Fld := ⟨.BH_CNT_CLEAR, 0, 3, .wo, 0x0⟩
def BH_PEER_ENDPOINT : Fld := ⟨.BH_PEER, 0, 24, .rw, 0x0⟩
def BH_PEER_JOB : Fld := ⟨.BH_PEER, 24, 12, .rw, 0x0⟩
def BH_PEER_VALID : Fld := ⟨.BH_PEER, 63, 1, .rw, 0x0⟩
def BH_SH_STATE_STATE : Fld := ⟨.BH_SH_STATE, 0, 3, .ro, 0x0⟩
def BH_SH_STATE_OPTIMIZER : Fld := ⟨.BH_SH_STATE, 3, 4, .ro, 0x0⟩
def BH_SH_STATE_MOORING : Fld := ⟨.BH_SH_STATE, 7, 14, .ro, 0x0⟩
def BH_SH_STATE_MOORING_VALID : Fld := ⟨.BH_SH_STATE, 21, 1, .ro, 0x0⟩
def BH_SH_STATE_DURABLE : Fld := ⟨.BH_SH_STATE, 22, 1, .ro, 0x0⟩
def BH_SH_STATE_K : Fld := ⟨.BH_SH_STATE, 23, 5, .ro, 0x0⟩
def BH_SH_STATE_M : Fld := ⟨.BH_SH_STATE, 28, 3, .ro, 0x0⟩
def BH_SH_EPOCH_COMMITTED : Fld := ⟨.BH_SH_EPOCH, 0, 16, .ro, 0x0⟩
def BH_SH_EPOCH_DURABLE_EPOCH : Fld := ⟨.BH_SH_EPOCH, 16, 16, .ro, 0x0⟩
def BH_SH_EPOCH_SLOT_A : Fld := ⟨.BH_SH_EPOCH, 32, 16, .ro, 0x0⟩
def BH_SH_EPOCH_SLOT_B : Fld := ⟨.BH_SH_EPOCH, 48, 16, .ro, 0x0⟩
def BH_SH_PROG_DONE : Fld := ⟨.BH_SH_PROG, 0, 40, .ro, 0x0⟩
def BH_SH_FAULT_LOST : Fld := ⟨.BH_SH_FAULT, 0, 20, .ro, 0x0⟩
def BH_SH_FAULT_COPY_FAIL : Fld := ⟨.BH_SH_FAULT, 20, 1, .w1c, 0x0⟩
def BH_SH_FAULT_HOLD : Fld := ⟨.BH_SH_FAULT, 21, 1, .ro, 0x0⟩
def BH_SH_FAULT_BLOCK_BAD : Fld := ⟨.BH_SH_FAULT, 22, 1, .w1c, 0x0⟩
def DK_CAPS_DEVICES : Fld := ⟨.DK_CAPS, 0, 5, .ro, 0x18⟩
def DK_CAPS_RAW_GIB : Fld := ⟨.DK_CAPS, 5, 8, .ro, 0x60⟩
def DK_CAPS_DATA_4K : Fld := ⟨.DK_CAPS, 13, 25, .ro, 0x1696968⟩
def DK_CAPS_CTX_MIB : Fld := ⟨.DK_CAPS, 38, 10, .ro, 0x300⟩
def DK_CTRL_SCRUB_EN : Fld := ⟨.DK_CTRL, 0, 1, .rw, 0x1⟩
def DK_CTRL_WB_CORRECTED : Fld := ⟨.DK_CTRL, 1, 1, .rw, 0x1⟩
def DK_CTRL_QUIET_SR : Fld := ⟨.DK_CTRL, 2, 1, .rw, 0x0⟩
def DK_CTRL_SCRUB_HOURS : Fld := ⟨.DK_CTRL, 8, 8, .rw, 0x18⟩
def DK_STATUS_POWER : Fld := ⟨.DK_STATUS, 0, 2, .ro, 0x3⟩
def DK_STATUS_SR_ACCESS : Fld := ⟨.DK_STATUS, 2, 1, .w1c, 0x0⟩
def DK_STATUS_RING_PAUSED : Fld := ⟨.DK_STATUS, 3, 1, .w1c, 0x0⟩
def DK_STATUS_SCRUB_PASSES : Fld := ⟨.DK_STATUS, 16, 24, .ro, 0x0⟩
def DK_RSV_IMG_MIB : Fld := ⟨.DK_RSV, 0, 16, .rw, 0x10⟩
def DK_RSV_BH_MIB : Fld := ⟨.DK_RSV, 16, 16, .rw, 0x40⟩
def DK_RSV_BASE_ADDR : Fld := ⟨.DK_RSV_BASE, 0, 48, .ro, 0x1661968000⟩
def DK_ERR_CNT_CORRECTED : Fld := ⟨.DK_ERR_CNT, 0, 32, .ro, 0x0⟩
def DK_ERR_CNT_UNCORRECTED : Fld := ⟨.DK_ERR_CNT, 32, 16, .ro, 0x0⟩
def DK_ERR_CNT_CLEAR : Fld := ⟨.DK_ERR_CNT, 63, 1, .wo, 0x0⟩
def DK_ERR_LAST_ADDR : Fld := ⟨.DK_ERR_LAST, 0, 48, .ro, 0x0⟩
def DK_ERR_LAST_DEVICE : Fld := ⟨.DK_ERR_LAST, 48, 5, .ro, 0x0⟩
def DK_ERR_LAST_SOURCE : Fld := ⟨.DK_ERR_LAST, 53, 3, .ro, 0x0⟩
def DK_ERR_LAST_UNCORR : Fld := ⟨.DK_ERR_LAST, 62, 1, .ro, 0x0⟩
def DK_ERR_LAST_VALID : Fld := ⟨.DK_ERR_LAST, 63, 1, .w1c, 0x0⟩
def DK_INJECT_ADDR : Fld := ⟨.DK_INJECT, 0, 48, .rwl, 0x0⟩
def DK_INJECT_KIND : Fld := ⟨.DK_INJECT, 48, 2, .rwl, 0x0⟩
def DK_INJECT_ARM : Fld := ⟨.DK_INJECT, 50, 1, .rwl, 0x0⟩
def DK_WIN_BASE_BASE : Fld := ⟨.DK_WIN_BASE, 0, 48, .rw, 0x0⟩
def DK_WIN_BASE_WRITE : Fld := ⟨.DK_WIN_BASE, 62, 1, .rw, 0x0⟩
def DK_WIN_BASE_VALID : Fld := ⟨.DK_WIN_BASE, 63, 1, .rw, 0x0⟩
def DK_WIN_SIZE_SIZE : Fld := ⟨.DK_WIN_SIZE, 0, 16, .rw, 0x0⟩
def WH_CAPS_PORTS : Fld := ⟨.WH_CAPS, 0, 3, .ro, 0x4⟩
def WH_CAPS_MAX_GTS : Fld := ⟨.WH_CAPS, 3, 8, .ro, 0x40⟩
def WH_CAPS_WIDTH : Fld := ⟨.WH_CAPS, 11, 5, .ro, 0x10⟩
def WH_CFG_PORT_MASK : Fld := ⟨.WH_CFG, 0, 4, .rw, 0x0⟩
def WH_CFG_IDE_EN : Fld := ⟨.WH_CFG, 4, 4, .rw, 0x0⟩
def WH_CFG_ENABLE : Fld := ⟨.WH_CFG, 8, 1, .rw, 0x0⟩
def WH_STATUS_STATE : Fld := ⟨.WH_STATUS, 0, 2, .ro, 0x0⟩
def WH_STATUS_WAYS : Fld := ⟨.WH_STATUS, 2, 3, .ro, 0x0⟩
def WH_STATUS_CAP_256M : Fld := ⟨.WH_STATUS, 16, 16, .ro, 0x0⟩
def WH_MSTORE_BASE_ADDR : Fld := ⟨.WH_MSTORE_BASE, 0, 48, .rw, 0x0⟩
def WH_MSTORE_LEN_BYTES : Fld := ⟨.WH_MSTORE_LEN, 0, 48, .rw, 0x0⟩
def WH_ERR_CNT_POISON : Fld := ⟨.WH_ERR_CNT, 0, 32, .ro, 0x0⟩
def WH_ERR_CNT_LINK_DOWN : Fld := ⟨.WH_ERR_CNT, 32, 16, .ro, 0x0⟩
def WH_ERR_CNT_CLEAR : Fld := ⟨.WH_ERR_CNT, 63, 1, .wo, 0x0⟩
def WH_PORT_STATE : Fld := ⟨.WH_PORT, 0, 3, .ro, 0x0⟩
def WH_PORT_WIDTH : Fld := ⟨.WH_PORT, 8, 5, .ro, 0x0⟩
def WH_PORT_GTS : Fld := ⟨.WH_PORT, 13, 7, .ro, 0x0⟩
def WH_PORT_LOPT : Fld := ⟨.WH_PORT, 20, 1, .ro, 0x0⟩
def WH_PORT_IDE_ON : Fld := ⟨.WH_PORT, 21, 1, .ro, 0x0⟩
def WH_PORT_CAP_256M : Fld := ⟨.WH_PORT, 22, 13, .ro, 0x0⟩
def BS_CAPS_PORTS : Fld := ⟨.BS_CAPS, 0, 10, .ro, 0x200⟩
def BS_CAPS_CELL_BYTES : Fld := ⟨.BS_CAPS, 10, 9, .ro, 0x100⟩
def BS_CAPS_BUF_MIB : Fld := ⟨.BS_CAPS, 19, 10, .ro, 0x100⟩
def BS_CAPS_MC_GROUPS : Fld := ⟨.BS_CAPS, 29, 13, .ro, 0x1000⟩
def BS_CAPS_BUNDLES : Fld := ⟨.BS_CAPS, 42, 9, .ro, 0x100⟩
def BS_CAPS_MIRRORS : Fld := ⟨.BS_CAPS, 51, 5, .ro, 0x10⟩
def BS_CTRL_LOSSLESS : Fld := ⟨.BS_CTRL, 0, 16, .rw, 0x0⟩
def BS_CTRL_SITE : Fld := ⟨.BS_CTRL, 16, 4, .rw, 0x0⟩
def BS_CTRL_HOPS_INIT : Fld := ⟨.BS_CTRL, 20, 8, .rw, 0x10⟩
def BS_CTRL_SPRAY_EN : Fld := ⟨.BS_CTRL, 28, 1, .rw, 0x1⟩
def BS_CTRL_DOWN_HOLD_US : Fld := ⟨.BS_CTRL, 30, 12, .rw, 0x64⟩
def BS_SELF_ENDPOINT : Fld := ⟨.BS_SELF, 0, 24, .rw, 0x0⟩
def BS_SELF_VALID : Fld := ⟨.BS_SELF, 63, 1, .rw, 0x0⟩
def BS_CM_THRESH_EXP : Fld := ⟨.BS_CM_THRESH, 0, 64, .rw, 0x8888888888888888⟩
def BS_MISS_ACTION : Fld := ⟨.BS_MISS, 0, 32, .rw, 0x0⟩
def BS_MISS_DEFAULT_BUNDLE : Fld := ⟨.BS_MISS, 32, 8, .rw, 0x0⟩
def BS_BUF_CFG_RSV_CELLS : Fld := ⟨.BS_BUF_CFG, 0, 16, .rw, 0x10⟩
def BS_BUF_CFG_ALPHA : Fld := ⟨.BS_BUF_CFG, 16, 4, .rw, 0x8⟩
def BS_BUF_USED_USED : Fld := ⟨.BS_BUF_USED, 0, 19, .ro, 0x0⟩
def BS_BUF_USED_PEAK : Fld := ⟨.BS_BUF_USED, 32, 19, .ro, 0x0⟩
def BS_BUF_USED_PEAK_CLR : Fld := ⟨.BS_BUF_USED, 63, 1, .wo, 0x0⟩
def BS_DROP_HDR_COUNT : Fld := ⟨.BS_DROP_HDR, 0, 32, .ro, 0x0⟩
def BS_DROP_HOPS_COUNT : Fld := ⟨.BS_DROP_HOPS, 0, 32, .ro, 0x0⟩
def BS_DROP_BUF_COUNT : Fld := ⟨.BS_DROP_BUF, 0, 32, .ro, 0x0⟩
def BS_DROP_MISS_COUNT : Fld := ⟨.BS_DROP_MISS, 0, 32, .ro, 0x0⟩
def BS_DROP_MCDOWN_COUNT : Fld := ⟨.BS_DROP_MCDOWN, 0, 32, .ro, 0x0⟩
def BS_DROP_MIRROR_COUNT : Fld := ⟨.BS_DROP_MIRROR, 0, 32, .ro, 0x0⟩
def BS_DROP_DOWN_COUNT : Fld := ⟨.BS_DROP_DOWN, 0, 32, .ro, 0x0⟩
def BS_DROP_UNKMOOR_COUNT : Fld := ⟨.BS_DROP_UNKMOOR, 0, 32, .ro, 0x0⟩
def BS_CNT_CLEAR_CLEAR : Fld := ⟨.BS_CNT_CLEAR, 0, 8, .wo, 0x0⟩
def BS_SITE_KIND : Fld := ⟨.BS_SITE, 0, 1, .rw, 0x0⟩
def BS_SITE_TARGET : Fld := ⟨.BS_SITE, 1, 9, .rw, 0x0⟩
def BS_SITE_VALID : Fld := ⟨.BS_SITE, 63, 1, .rw, 0x0⟩
def BS_MIRROR_SOURCE : Fld := ⟨.BS_MIRROR, 0, 2, .rw, 0x0⟩
def BS_MIRROR_SRC_PORT : Fld := ⟨.BS_MIRROR, 2, 9, .rw, 0x0⟩
def BS_MIRROR_DEST_PORT : Fld := ⟨.BS_MIRROR, 11, 9, .rw, 0x0⟩
def BS_MIRROR_TRUNC64 : Fld := ⟨.BS_MIRROR, 20, 8, .rw, 0x0⟩
def BS_MIRROR_TCLASS : Fld := ⟨.BS_MIRROR, 28, 4, .rw, 0x0⟩
def BS_BUNDLE_MAP_PORTS : Fld := ⟨.BS_BUNDLE_MAP, 0, 64, .rw, 0x0⟩
def BS_MCG_MAP_PORTS : Fld := ⟨.BS_MCG_MAP, 0, 64, .rw, 0x0⟩
def HB_CAPS_ENTRIES : Fld := ⟨.HB_CAPS, 0, 21, .ro, 0x100000⟩
def HB_CAPS_BUCKETS : Fld := ⟨.HB_CAPS, 21, 19, .ro, 0x40000⟩
def HB_CAPS_OVERFLOW : Fld := ⟨.HB_CAPS, 40, 14, .ro, 0x2000⟩
def HB_STATUS_USED : Fld := ⟨.HB_STATUS, 0, 21, .ro, 0x0⟩
def HB_STATUS_OVF_USED : Fld := ⟨.HB_STATUS, 21, 14, .ro, 0x0⟩
def HB_STATUS_PINNED : Fld := ⟨.HB_STATUS, 35, 21, .ro, 0x0⟩
def HB_AGE_UNIT_MS : Fld := ⟨.HB_AGE, 0, 10, .rw, 0x3E8⟩
def HB_AGE_LIMIT : Fld := ⟨.HB_AGE, 10, 16, .rw, 0x12C⟩
def HB_AGE_ENABLE : Fld := ⟨.HB_AGE, 26, 1, .rw, 0x1⟩
def HB_AGE_NOW : Fld := ⟨.HB_AGE, 32, 16, .ro, 0x0⟩
def HB_OP_KEY : Fld := ⟨.HB_OP, 0, 40, .rw, 0x0⟩
def HB_OP_CMD : Fld := ⟨.HB_OP, 40, 3, .wo, 0x0⟩
def HB_OP_DATA_TTYPE : Fld := ⟨.HB_OP_DATA, 0, 2, .rw, 0x0⟩
def HB_OP_DATA_TARGET : Fld := ⟨.HB_OP_DATA, 2, 9, .rw, 0x0⟩
def HB_OP_DATA_MIRROR : Fld := ⟨.HB_OP_DATA, 11, 4, .rw, 0x0⟩
def HB_OP_DATA_MIRROR_EN : Fld := ⟨.HB_OP_DATA, 15, 1, .rw, 0x0⟩
def HB_OP_DATA_PINNED : Fld := ⟨.HB_OP_DATA, 16, 1, .ro, 0x0⟩
def HB_OP_DATA_STAMP : Fld := ⟨.HB_OP_DATA, 32, 16, .ro, 0x0⟩
def HB_OP_DATA_VALID : Fld := ⟨.HB_OP_DATA, 63, 1, .ro, 0x0⟩
def HB_OP_STATUS_BUSY : Fld := ⟨.HB_OP_STATUS, 0, 1, .ro, 0x0⟩
def HB_OP_STATUS_RESULT : Fld := ⟨.HB_OP_STATUS, 8, 8, .ro, 0x0⟩
def HB_OP_STATUS_INDEX : Fld := ⟨.HB_OP_STATUS, 16, 21, .ro, 0x0⟩
def HB_LEARN_BASE_ADDR : Fld := ⟨.HB_LEARN_BASE, 0, 48, .rw, 0x0⟩
def HB_LEARN_CFG_SLOTS : Fld := ⟨.HB_LEARN_CFG, 0, 17, .rw, 0x0⟩
def HB_LEARN_CFG_HOLDOFF_US : Fld := ⟨.HB_LEARN_CFG, 17, 16, .rw, 0x64⟩
def HB_LEARN_CFG_AGE_NOTIFY : Fld := ⟨.HB_LEARN_CFG, 33, 1, .rw, 0x0⟩
def HB_LEARN_PROD_PROD : Fld := ⟨.HB_LEARN_PROD, 0, 32, .ro, 0x0⟩
def HB_LEARN_CONS_CONS : Fld := ⟨.HB_LEARN_CONS, 0, 32, .rw, 0x0⟩
def HB_LEARN_LOST_COUNT : Fld := ⟨.HB_LEARN_LOST, 0, 32, .ro, 0x0⟩
def HB_PAR_ERR_COUNT : Fld := ⟨.HB_PAR_ERR, 0, 32, .ro, 0x0⟩
def HB_PAR_ERR_LAST_INDEX : Fld := ⟨.HB_PAR_ERR, 32, 21, .ro, 0x0⟩
def HB_PAR_ERR_CLEAR : Fld := ⟨.HB_PAR_ERR, 63, 1, .wo, 0x0⟩
def HB_PIN_COUNT_COUNT : Fld := ⟨.HB_PIN_COUNT, 0, 13, .rw, 0x0⟩
def HB_PIN_KEY_KEY : Fld := ⟨.HB_PIN_KEY, 0, 40, .rw, 0x0⟩
def HB_PIN_KEY_OP : Fld := ⟨.HB_PIN_KEY, 40, 2, .rw, 0x0⟩
def HB_PIN_DATA_DATA : Fld := ⟨.HB_PIN_DATA, 0, 16, .rw, 0x0⟩
def SC_CAPS_METERS : Fld := ⟨.SC_CAPS, 0, 17, .ro, 0x10000⟩
def SC_CAPS_GATE_ENTRIES : Fld := ⟨.SC_CAPS, 17, 11, .ro, 0x400⟩
def SC_CAPS_CLASSES : Fld := ⟨.SC_CAPS, 28, 5, .ro, 0x10⟩
def SC_CTRL_METER_EN : Fld := ⟨.SC_CTRL, 0, 1, .rw, 0x1⟩
def SC_CTRL_GATE_EN : Fld := ⟨.SC_CTRL, 1, 1, .rw, 0x1⟩
def SC_METER_SEL_INDEX : Fld := ⟨.SC_METER_SEL, 0, 16, .rw, 0x0⟩
def SC_METER_SEL_OP : Fld := ⟨.SC_METER_SEL, 16, 3, .wo, 0x0⟩
def SC_METER_RATE_CIR : Fld := ⟨.SC_METER_RATE, 0, 22, .rw, 0x0⟩
def SC_METER_RATE_PIR : Fld := ⟨.SC_METER_RATE, 32, 22, .rw, 0x0⟩
def SC_METER_BURST_CBS : Fld := ⟨.SC_METER_BURST, 0, 20, .rw, 0x0⟩
def SC_METER_BURST_PBS : Fld := ⟨.SC_METER_BURST, 32, 20, .rw, 0x0⟩
def SC_METER_ACT_YELLOW : Fld := ⟨.SC_METER_ACT, 0, 2, .rw, 0x0⟩
def SC_METER_ACT_RED : Fld := ⟨.SC_METER_ACT, 2, 2, .rw, 0x2⟩
def SC_METER_CNT_GREEN : Fld := ⟨.SC_METER_CNT, 0, 32, .ro, 0x0⟩
def SC_METER_CNT_YELLOW : Fld := ⟨.SC_METER_CNT, 32, 32, .ro, 0x0⟩
def SC_METER_RED_RED : Fld := ⟨.SC_METER_RED, 0, 32, .ro, 0x0⟩
def SC_METER_STATUS_BUSY : Fld := ⟨.SC_METER_STATUS, 0, 1, .ro, 0x0⟩
def SC_METER_STATUS_RESULT : Fld := ⟨.SC_METER_STATUS, 8, 8, .ro, 0x0⟩
def SC_GATE_ADDR_PORT : Fld := ⟨.SC_GATE_ADDR, 0, 9, .rw, 0x0⟩
def SC_GATE_ADDR_ENTRY : Fld := ⟨.SC_GATE_ADDR, 9, 10, .rw, 0x0⟩
def SC_GATE_ADDR_VIEW : Fld := ⟨.SC_GATE_ADDR, 19, 1, .rw, 0x0⟩
def SC_GATE_DATA_ENTRY_DATA : Fld := ⟨.SC_GATE_DATA, 0, 64, .rw, 0x0⟩
def SC_METER_MAP_BASE : Fld := ⟨.SC_METER_MAP, 0, 16, .rw, 0x0⟩
def SC_METER_MAP_JOBBITS : Fld := ⟨.SC_METER_MAP, 16, 4, .rw, 0x0⟩
def SC_METER_MAP_EN : Fld := ⟨.SC_METER_MAP, 63, 1, .rw, 0x0⟩
def SC_WEIGHT_LO_W : Fld := ⟨.SC_WEIGHT_LO, 0, 64, .rw, 0x101010101010101⟩
def SC_WEIGHT_HI_W : Fld := ⟨.SC_WEIGHT_HI, 0, 64, .rw, 0x101010101010101⟩
def SC_BURST_LO_B : Fld := ⟨.SC_BURST_LO, 0, 64, .rw, 0x1010101010101010⟩
def SC_BURST_HI_B : Fld := ⟨.SC_BURST_HI, 0, 64, .rw, 0x1010101010101010⟩
def SC_GATE_CTL_COUNT : Fld := ⟨.SC_GATE_CTL, 0, 11, .rw, 0x0⟩
def SC_GATE_CTL_GUARD : Fld := ⟨.SC_GATE_CTL, 11, 1, .rw, 0x0⟩
def SC_GATE_BASE_S_SECONDS : Fld := ⟨.SC_GATE_BASE_S, 0, 48, .rw, 0x0⟩
def SC_GATE_BASE_NS_NS : Fld := ⟨.SC_GATE_BASE_NS, 0, 30, .rw, 0x0⟩
def SC_GATE_STATUS_ENTRY : Fld := ⟨.SC_GATE_STATUS, 0, 10, .ro, 0x0⟩
def SC_GATE_STATUS_ACTIVE : Fld := ⟨.SC_GATE_STATUS, 10, 1, .ro, 0x0⟩
def SC_GATE_STATUS_CYCLES : Fld := ⟨.SC_GATE_STATUS, 32, 32, .ro, 0x0⟩
def CT_CAPS_RES_PS : Fld := ⟨.CT_CAPS, 0, 16, .ro, 0x1F4⟩
def CT_CTRL_PPS_OUT_EN : Fld := ⟨.CT_CTRL, 0, 1, .rw, 0x0⟩
def CT_CTRL_PPS_IN_EN : Fld := ⟨.CT_CTRL, 1, 1, .rw, 0x0⟩
def CT_CTRL_TC_EN : Fld := ⟨.CT_CTRL, 2, 1, .rw, 0x1⟩
def CT_CTRL_PPS_WIDTH_US : Fld := ⟨.CT_CTRL, 8, 12, .rw, 0x64⟩
def CT_CTRL_SERVO_TIMEOUT_MS : Fld := ⟨.CT_CTRL, 20, 16, .rw, 0x3E8⟩
def CT_STATUS_VALID : Fld := ⟨.CT_STATUS, 0, 1, .ro, 0x0⟩
def CT_STATUS_FREERUN : Fld := ⟨.CT_STATUS, 1, 1, .ro, 0x0⟩
def CT_STATUS_PPS_IN_SEEN : Fld := ⟨.CT_STATUS, 2, 1, .w1c, 0x0⟩
def CT_STATUS_RATE_REFUSED : Fld := ⟨.CT_STATUS, 3, 1, .w1c, 0x0⟩
def CT_STATUS_STEPS : Fld := ⟨.CT_STATUS, 16, 16, .ro, 0x0⟩
def CT_RATE_INC : Fld := ⟨.CT_RATE, 0, 48, .rw, 0x8000000000⟩
def CT_STEP_OFFSET : Fld := ⟨.CT_STEP, 0, 64, .wo, 0x0⟩
def CT_SET_S_SECONDS : Fld := ⟨.CT_SET_S, 0, 48, .rw, 0x0⟩
def CT_SET_NS_NS : Fld := ⟨.CT_SET_NS, 0, 30, .rw, 0x0⟩
def CT_SNAP_CMD_CAPTURE : Fld := ⟨.CT_SNAP_CMD, 0, 1, .wo, 0x0⟩
def CT_SNAP_S_SECONDS : Fld := ⟨.CT_SNAP_S, 0, 48, .ro, 0x0⟩
def CT_SNAP_NS_NS : Fld := ⟨.CT_SNAP_NS, 0, 30, .ro, 0x0⟩
def CT_PPS_IN_S_SECONDS : Fld := ⟨.CT_PPS_IN_S, 0, 48, .ro, 0x0⟩
def CT_PPS_IN_NS_NS : Fld := ⟨.CT_PPS_IN_NS, 0, 30, .ro, 0x0⟩
def CT_PORT_CORR_INGRESS : Fld := ⟨.CT_PORT_CORR, 0, 32, .rw, 0x0⟩
def CT_PORT_CORR_EGRESS : Fld := ⟨.CT_PORT_CORR, 32, 32, .rw, 0x0⟩
def QY_LAYOUT_START : Fld := ⟨.QY_LAYOUT, 0, 8, .rw, 0x1⟩
def QY_LAYOUT_ETH : Fld := ⟨.QY_LAYOUT, 8, 8, .rw, 0x0⟩
def QY_LAYOUT_ENABLE : Fld := ⟨.QY_LAYOUT, 16, 8, .rw, 0x0⟩
def QY_CMIS_CMD_ADDR : Fld := ⟨.QY_CMIS_CMD, 0, 8, .rw, 0x0⟩
def QY_CMIS_CMD_PAGE : Fld := ⟨.QY_CMIS_CMD, 8, 8, .rw, 0x0⟩
def QY_CMIS_CMD_BANK : Fld := ⟨.QY_CMIS_CMD, 16, 2, .rw, 0x0⟩
def QY_CMIS_CMD_LEN : Fld := ⟨.QY_CMIS_CMD, 18, 8, .rw, 0x0⟩
def QY_CMIS_CMD_WRITE : Fld := ⟨.QY_CMIS_CMD, 26, 1, .rw, 0x0⟩
def QY_CMIS_CMD_GO : Fld := ⟨.QY_CMIS_CMD, 27, 1, .wo, 0x0⟩
def QY_CMIS_CMD_RESET_L : Fld := ⟨.QY_CMIS_CMD, 28, 1, .rw, 0x0⟩
def QY_CMIS_CMD_LPMODE : Fld := ⟨.QY_CMIS_CMD, 29, 1, .rw, 0x1⟩
def QY_CMIS_CMD_FAST : Fld := ⟨.QY_CMIS_CMD, 30, 1, .rw, 0x0⟩
def QY_CMIS_STATUS_BUSY : Fld := ⟨.QY_CMIS_STATUS, 0, 1, .ro, 0x0⟩
def QY_CMIS_STATUS_NACK : Fld := ⟨.QY_CMIS_STATUS, 1, 1, .w1c, 0x0⟩
def QY_CMIS_STATUS_PRESENT_L : Fld := ⟨.QY_CMIS_STATUS, 2, 1, .ro, 0x1⟩
def QY_CMIS_STATUS_INT_L : Fld := ⟨.QY_CMIS_STATUS, 3, 1, .ro, 0x1⟩
def QY_CMIS_STATUS_RESULT : Fld := ⟨.QY_CMIS_STATUS, 8, 8, .ro, 0x0⟩
def QY_CMIS_DATA_BYTES : Fld := ⟨.QY_CMIS_DATA, 0, 64, .rw, 0x0⟩
def QY_PORT_CTRL_MAX_GEN : Fld := ⟨.QY_PORT_CTRL, 0, 2, .rw, 0x3⟩
def QY_PORT_CTRL_BEACON_CHK : Fld := ⟨.QY_PORT_CTRL, 2, 1, .rw, 0x1⟩
def QY_PORT_CTRL_EXPECT_EN : Fld := ⟨.QY_PORT_CTRL, 3, 1, .rw, 0x0⟩
def QY_PORT_CTRL_EXPECT_EP : Fld := ⟨.QY_PORT_CTRL, 4, 24, .rw, 0x0⟩
def QY_PORT_CTRL_INIT_CELLS : Fld := ⟨.QY_PORT_CTRL, 28, 16, .rw, 0x400⟩
def QY_PORT_CTRL_REPLAY_US : Fld := ⟨.QY_PORT_CTRL, 44, 12, .rw, 0xA⟩
def QY_PORT_CTRL_REPLAY_MAX : Fld := ⟨.QY_PORT_CTRL, 56, 8, .rw, 0x10⟩
def QY_PORT_STATUS_STAGE : Fld := ⟨.QY_PORT_STATUS, 0, 3, .ro, 0x1⟩
def QY_PORT_STATUS_GEN : Fld := ⟨.QY_PORT_STATUS, 3, 2, .ro, 0x0⟩
def QY_PORT_STATUS_FEATURES : Fld := ⟨.QY_PORT_STATUS, 5, 8, .ro, 0x0⟩
def QY_PORT_STATUS_REVERSED : Fld := ⟨.QY_PORT_STATUS, 13, 1, .ro, 0x0⟩
def QY_PORT_STATUS_LANE_BAD : Fld := ⟨.QY_PORT_STATUS, 14, 1, .w1c, 0x0⟩
def QY_PORT_STATUS_IDENT_MISMATCH : Fld := ⟨.QY_PORT_STATUS, 15, 1, .w1c, 0x0⟩
def QY_PORT_STATUS_ID_CHANGED : Fld := ⟨.QY_PORT_STATUS, 16, 1, .w1c, 0x0⟩
def QY_PORT_STATUS_DOWNS : Fld := ⟨.QY_PORT_STATUS, 32, 16, .ro, 0x0⟩
def QY_PARTNER_WORD : Fld := ⟨.QY_PARTNER, 0, 64, .ro, 0x0⟩
def QY_LANE_CTRL_PRE : Fld := ⟨.QY_LANE_CTRL, 0, 6, .rw, 0x0⟩
def QY_LANE_CTRL_MAIN : Fld := ⟨.QY_LANE_CTRL, 6, 6, .rw, 0x3F⟩
def QY_LANE_CTRL_POST : Fld := ⟨.QY_LANE_CTRL, 12, 3, .rw, 0x0⟩
def QY_LANE_CTRL_TX_INV : Fld := ⟨.QY_LANE_CTRL, 15, 1, .rw, 0x0⟩
def QY_FEC_CNT_CORR : Fld := ⟨.QY_FEC_CNT, 0, 40, .ro, 0x0⟩
def QY_FEC_CNT_UNCORR : Fld := ⟨.QY_FEC_CNT, 40, 24, .ro, 0x0⟩
def QY_LINK_CNT_REPLAYS : Fld := ⟨.QY_LINK_CNT, 0, 16, .ro, 0x0⟩
def QY_LINK_CNT_CRC : Fld := ⟨.QY_LINK_CNT, 16, 16, .ro, 0x0⟩
def QY_LINK_CNT_LOST : Fld := ⟨.QY_LINK_CNT, 32, 12, .ro, 0x0⟩
def QY_LINK_CNT_BADNAK : Fld := ⟨.QY_LINK_CNT, 44, 8, .ro, 0x0⟩
def QY_LINK_CNT_KIND : Fld := ⟨.QY_LINK_CNT, 52, 12, .ro, 0x0⟩
def QY_PRBS_CTRL_EN : Fld := ⟨.QY_PRBS_CTRL, 0, 1, .rw, 0x0⟩
def QY_PRBS_CTRL_PATTERN : Fld := ⟨.QY_PRBS_CTRL, 1, 3, .rw, 0x0⟩
def QY_PRBS_CTRL_CLEAR : Fld := ⟨.QY_PRBS_CTRL, 4, 1, .wo, 0x0⟩
def QY_PRBS_CNT_ERRORS : Fld := ⟨.QY_PRBS_CNT, 0, 48, .ro, 0x0⟩
def QY_PRBS_CNT_LOCK : Fld := ⟨.QY_PRBS_CNT, 63, 1, .ro, 0x0⟩
def QY_PRBS_USER_WORD : Fld := ⟨.QY_PRBS_USER, 0, 64, .rw, 0x0⟩
def QY_INJECT_KIND : Fld := ⟨.QY_INJECT, 0, 2, .rwl, 0x0⟩
def QY_INJECT_COUNT : Fld := ⟨.QY_INJECT, 2, 8, .rwl, 0x0⟩
def QY_INJECT_ARM : Fld := ⟨.QY_INJECT, 10, 1, .rwl, 0x0⟩
def QY_ETH_CFG_ETYPE : Fld := ⟨.QY_ETH_CFG, 0, 16, .rw, 0x88B5⟩
def QY_ETH_CFG_VID : Fld := ⟨.QY_ETH_CFG, 16, 12, .rw, 0x0⟩
def QY_ETH_CFG_TAG_EN : Fld := ⟨.QY_ETH_CFG, 28, 1, .rw, 0x0⟩
def QY_ETH_CFG_CM_DEI : Fld := ⟨.QY_ETH_CFG, 29, 1, .rw, 0x0⟩
def QY_ETH_MAC_MAC : Fld := ⟨.QY_ETH_MAC, 0, 48, .rw, 0x0⟩
def QY_ETH_PEER_PEER : Fld := ⟨.QY_ETH_PEER, 0, 48, .rw, 0x0⟩
def LH_CAPS_COLOURS : Fld := ⟨.LH_CAPS, 0, 7, .ro, 0x40⟩
def LH_CAPS_CONFIRM_US : Fld := ⟨.LH_CAPS, 7, 8, .ro, 0x14⟩
def LH_CTRL_AUTO_RECAL : Fld := ⟨.LH_CTRL, 0, 1, .rw, 0x1⟩
def LH_CTRL_MISS_MAX : Fld := ⟨.LH_CTRL, 1, 8, .rw, 0x4⟩
def LH_CAL_QUAY : Fld := ⟨.LH_CAL, 0, 6, .rw, 0x0⟩
def LH_CAL_GO : Fld := ⟨.LH_CAL, 6, 1, .wo, 0x0⟩
def LH_CAL_INT_US : Fld := ⟨.LH_CAL, 7, 12, .rw, 0x100⟩
def LH_CAL_TOL : Fld := ⟨.LH_CAL, 19, 8, .rw, 0x14⟩
def LH_CAL_ITER_MAX : Fld := ⟨.LH_CAL, 27, 4, .rw, 0x4⟩
def LH_CAL_STATUS_BUSY : Fld := ⟨.LH_CAL_STATUS, 0, 1, .ro, 0x0⟩
def LH_CAL_STATUS_QUAY : Fld := ⟨.LH_CAL_STATUS, 1, 6, .ro, 0x0⟩
def LH_CAL_STATUS_COLOUR : Fld := ⟨.LH_CAL_STATUS, 7, 6, .ro, 0x0⟩
def LH_CAL_STATUS_RESULT : Fld := ⟨.LH_CAL_STATUS, 13, 8, .ro, 0x0⟩
def LH_CAL_STATUS_QUEUED : Fld := ⟨.LH_CAL_STATUS, 21, 7, .ro, 0x0⟩
def LH_WITHDRAW_CNT_COUNT : Fld := ⟨.LH_WITHDRAW_CNT, 0, 32, .ro, 0x0⟩
def LH_WITHDRAW_CNT_CLEAR : Fld := ⟨.LH_WITHDRAW_CNT, 63, 1, .wo, 0x0⟩
def LH_PORT_CFG_EN : Fld := ⟨.LH_PORT_CFG, 0, 1, .rw, 0x0⟩
def LH_PORT_STATUS_HOLD_NS : Fld := ⟨.LH_PORT_STATUS, 0, 10, .ro, 0x0⟩
def LH_PORT_STATUS_MOD_COLOURS : Fld := ⟨.LH_PORT_STATUS, 10, 7, .ro, 0x0⟩
def LH_PORT_STATUS_CALIBRATING : Fld := ⟨.LH_PORT_STATUS, 17, 1, .ro, 0x0⟩
def LH_PORT_STATUS_CUR : Fld := ⟨.LH_PORT_STATUS, 18, 6, .ro, 0x0⟩
def LH_COLOUR_MIDX : Fld := ⟨.LH_COLOUR, 0, 6, .rw, 0x0⟩
def LH_COLOUR_VALID : Fld := ⟨.LH_COLOUR, 6, 1, .rw, 0x0⟩
def LH_COLOUR_PEER : Fld := ⟨.LH_COLOUR, 32, 32, .rw, 0x0⟩
def LH_CIRCUIT_STATE : Fld := ⟨.LH_CIRCUIT, 0, 2, .ro, 0x0⟩
def LH_CIRCUIT_CAUSE : Fld := ⟨.LH_CIRCUIT, 2, 3, .ro, 0x0⟩
def LH_CIRCUIT_LAST_HEARD : Fld := ⟨.LH_CIRCUIT, 32, 32, .ro, 0x0⟩
def BW_CAPS_SLOTS : Fld := ⟨.BW_CAPS, 0, 6, .ro, 0x20⟩
def BW_CAPS_K_MAX : Fld := ⟨.BW_CAPS, 6, 7, .ro, 0x40⟩
def BW_CAPS_M_MAX : Fld := ⟨.BW_CAPS, 13, 5, .ro, 0x10⟩
def BW_CAPS_BUF_GIB : Fld := ⟨.BW_CAPS, 18, 5, .ro, 0x18⟩
def BW_CAPS_SPANS : Fld := ⟨.BW_CAPS, 23, 7, .ro, 0x40⟩
def BW_CTRL_ETYPE : Fld := ⟨.BW_CTRL, 0, 16, .rw, 0x88B6⟩
def BW_CTRL_ACK_US : Fld := ⟨.BW_CTRL, 16, 12, .rw, 0x64⟩
def BW_CTRL_REORDER_US : Fld := ⟨.BW_CTRL, 28, 12, .rw, 0xC8⟩
def BW_TIMERS_STALL_MS : Fld := ⟨.BW_TIMERS, 0, 16, .rw, 0x32⟩
def BW_TIMERS_OUTAGE_MS : Fld := ⟨.BW_TIMERS, 16, 16, .rw, 0x64⟩
def BW_TIMERS_HOLD_S : Fld := ⟨.BW_TIMERS, 32, 16, .rw, 0x3C⟩
def BW_TIMERS_SPAN_TIMEOUT_MS : Fld := ⟨.BW_TIMERS, 48, 16, .rw, 0x1F4⟩
def BW_BUF_BASE_ADDR : Fld := ⟨.BW_BUF_BASE, 0, 48, .rw, 0x0⟩
def BW_BUF_LEN_BYTES : Fld := ⟨.BW_BUF_LEN, 0, 48, .rw, 0x0⟩
def BW_DROP_UNKNOWN : Fld := ⟨.BW_DROP, 0, 20, .ro, 0x0⟩
def BW_DROP_DUP : Fld := ⟨.BW_DROP, 20, 20, .ro, 0x0⟩
def BW_DROP_STALE : Fld := ⟨.BW_DROP, 40, 20, .ro, 0x0⟩
def BW_DROP_CLEAR : Fld := ⟨.BW_DROP, 63, 1, .wo, 0x0⟩
def BW_LH_CFG_PORT : Fld := ⟨.BW_LH_CFG, 0, 9, .rw, 0x0⟩
def BW_LH_CFG_K : Fld := ⟨.BW_LH_CFG, 9, 7, .rw, 0x20⟩
def BW_LH_CFG_M : Fld := ⟨.BW_LH_CFG, 16, 5, .rw, 0x4⟩
def BW_LH_CFG_BLOCK_US : Fld := ⟨.BW_LH_CFG, 21, 16, .rw, 0x14⟩
def BW_LH_CFG_VALID : Fld := ⟨.BW_LH_CFG, 63, 1, .rw, 0x0⟩
def BW_LH_WIN_WIN_MIB : Fld := ⟨.BW_LH_WIN, 0, 16, .rw, 0x0⟩
def BW_LH_WIN_RX_MIB : Fld := ⟨.BW_LH_WIN, 16, 16, .rw, 0x0⟩
def BW_LH_WIN_RTO_MS : Fld := ⟨.BW_LH_WIN, 32, 16, .rw, 0x14⟩
def BW_LH_STATUS_STATE : Fld := ⟨.BW_LH_STATUS, 0, 3, .ro, 0x0⟩
def BW_LH_STATUS_WIN_USED_MIB : Fld := ⟨.BW_LH_STATUS, 16, 16, .ro, 0x0⟩
def BW_LH_STATUS_RX_USED_MIB : Fld := ⟨.BW_LH_STATUS, 32, 16, .ro, 0x0⟩
def BW_LH_SEQ_TX_NEXT : Fld := ⟨.BW_LH_SEQ, 0, 48, .ro, 0x0⟩
def BW_LH_ACK_PEER_ACK : Fld := ⟨.BW_LH_ACK, 0, 48, .ro, 0x0⟩
def BW_LH_CNT1_RETX : Fld := ⟨.BW_LH_CNT1, 0, 32, .ro, 0x0⟩
def BW_LH_CNT1_FEC_REC : Fld := ⟨.BW_LH_CNT1, 32, 32, .ro, 0x0⟩
def BW_LH_CNT2_LOST : Fld := ⟨.BW_LH_CNT2, 0, 32, .ro, 0x0⟩
def BW_LH_CNT2_ICV_FAIL : Fld := ⟨.BW_LH_CNT2, 32, 32, .ro, 0x0⟩
def BW_SA_CFG_TX_AN : Fld := ⟨.BW_SA_CFG, 0, 2, .rw, 0x0⟩
def BW_SA_CFG_RX_EN : Fld := ⟨.BW_SA_CFG, 2, 4, .rw, 0x0⟩
def BW_SA_CFG_REPLAY_WIN : Fld := ⟨.BW_SA_CFG, 6, 32, .rw, 0x0⟩
def BW_SA_PN_NEXT_PN : Fld := ⟨.BW_SA_PN, 0, 64, .ro, 0x0⟩
def BW_SA_KEYSEL_AN : Fld := ⟨.BW_SA_KEYSEL, 0, 2, .rw, 0x0⟩
def BW_SA_KEYSEL_WORD : Fld := ⟨.BW_SA_KEYSEL, 2, 3, .rw, 0x0⟩
def BW_SA_KEYDATA_DATA : Fld := ⟨.BW_SA_KEYDATA, 0, 64, .wo, 0x0⟩
def BW_SPAN_CFG_MOORING : Fld := ⟨.BW_SPAN_CFG, 0, 14, .rw, 0x0⟩
def BW_SPAN_CFG_SITE_MASK : Fld := ⟨.BW_SPAN_CFG, 14, 16, .rw, 0x0⟩
def BW_SPAN_CFG_SPAN_EPOCH : Fld := ⟨.BW_SPAN_CFG, 30, 16, .rw, 0x0⟩
def BW_SPAN_CFG_MODE : Fld := ⟨.BW_SPAN_CFG, 46, 1, .rw, 0x0⟩
def BW_SPAN_CFG_STOW : Fld := ⟨.BW_SPAN_CFG, 47, 1, .rw, 0x0⟩
def BW_SPAN_CFG_VALID : Fld := ⟨.BW_SPAN_CFG, 63, 1, .rw, 0x0⟩
def BW_SPAN_SLOTS_LO_SLOT_0 : Fld := ⟨.BW_SPAN_SLOTS_LO, 0, 5, .rw, 0x0⟩
def BW_SPAN_SLOTS_LO_SLOT_1 : Fld := ⟨.BW_SPAN_SLOTS_LO, 8, 5, .rw, 0x0⟩
def BW_SPAN_SLOTS_LO_SLOT_2 : Fld := ⟨.BW_SPAN_SLOTS_LO, 16, 5, .rw, 0x0⟩
def BW_SPAN_SLOTS_LO_SLOT_3 : Fld := ⟨.BW_SPAN_SLOTS_LO, 24, 5, .rw, 0x0⟩
def BW_SPAN_SLOTS_LO_SLOT_4 : Fld := ⟨.BW_SPAN_SLOTS_LO, 32, 5, .rw, 0x0⟩
def BW_SPAN_SLOTS_LO_SLOT_5 : Fld := ⟨.BW_SPAN_SLOTS_LO, 40, 5, .rw, 0x0⟩
def BW_SPAN_SLOTS_LO_SLOT_6 : Fld := ⟨.BW_SPAN_SLOTS_LO, 48, 5, .rw, 0x0⟩
def BW_SPAN_SLOTS_LO_SLOT_7 : Fld := ⟨.BW_SPAN_SLOTS_LO, 56, 5, .rw, 0x0⟩
def BW_SPAN_SLOTS_HI_SLOT_8 : Fld := ⟨.BW_SPAN_SLOTS_HI, 0, 5, .rw, 0x0⟩
def BW_SPAN_SLOTS_HI_SLOT_9 : Fld := ⟨.BW_SPAN_SLOTS_HI, 8, 5, .rw, 0x0⟩
def BW_SPAN_SLOTS_HI_SLOT_10 : Fld := ⟨.BW_SPAN_SLOTS_HI, 16, 5, .rw, 0x0⟩
def BW_SPAN_SLOTS_HI_SLOT_11 : Fld := ⟨.BW_SPAN_SLOTS_HI, 24, 5, .rw, 0x0⟩
def BW_SPAN_SLOTS_HI_SLOT_12 : Fld := ⟨.BW_SPAN_SLOTS_HI, 32, 5, .rw, 0x0⟩
def BW_SPAN_SLOTS_HI_SLOT_13 : Fld := ⟨.BW_SPAN_SLOTS_HI, 40, 5, .rw, 0x0⟩
def BW_SPAN_SLOTS_HI_SLOT_14 : Fld := ⟨.BW_SPAN_SLOTS_HI, 48, 5, .rw, 0x0⟩
def BW_SPAN_SLOTS_HI_SLOT_15 : Fld := ⟨.BW_SPAN_SLOTS_HI, 56, 5, .rw, 0x0⟩
def BW_SPAN_KIDS_ENC_KID : Fld := ⟨.BW_SPAN_KIDS, 0, 16, .rw, 0x0⟩
def BW_SPAN_KIDS_DEC_KID : Fld := ⟨.BW_SPAN_KIDS, 16, 16, .rw, 0x0⟩
def BW_SPAN_STATUS_DEAD : Fld := ⟨.BW_SPAN_STATUS, 0, 16, .ro, 0x0⟩
def BW_SPAN_STATUS_WAITING : Fld := ⟨.BW_SPAN_STATUS, 16, 16, .ro, 0x0⟩
def PM_CAPS_STEPS : Fld := ⟨.PM_CAPS, 0, 4, .ro, 0x6⟩
def PM_CAPS_CAP_MAX_W : Fld := ⟨.PM_CAPS, 4, 16, .ro, 0xDAC⟩
def PM_CAPS_STANDBY_W : Fld := ⟨.PM_CAPS, 20, 16, .ro, 0x1E⟩
def PM_CTRL_RUN_GATE : Fld := ⟨.PM_CTRL, 0, 1, .rw, 0x0⟩
def PM_CTRL_GATE_IDLE_US : Fld := ⟨.PM_CTRL, 1, 16, .rw, 0x64⟩
def PM_CTRL_UP_HOLD_US : Fld := ⟨.PM_CTRL, 17, 16, .rw, 0x1F4⟩
def PM_CTRL_FAST_ROW : Fld := ⟨.PM_CTRL, 33, 3, .rw, 0x1⟩
def PM_STATE_STATE : Fld := ⟨.PM_STATE, 0, 3, .ro, 0x0⟩
def PM_STATE_ROW : Fld := ⟨.PM_STATE, 3, 3, .ro, 0x1⟩
def PM_STATE_COMMITTED_ROW : Fld := ⟨.PM_STATE, 6, 3, .ro, 0x1⟩
def PM_STATE_LOCAL_DROP : Fld := ⟨.PM_STATE, 9, 1, .ro, 0x0⟩
def PM_STATE_CAUSE : Fld := ⟨.PM_STATE, 10, 2, .ro, 0x0⟩
def PM_STATE_EMERG_WINTER : Fld := ⟨.PM_STATE, 12, 1, .w1c, 0x0⟩
def PM_STATE_REF_LOST : Fld := ⟨.PM_STATE, 13, 1, .ro, 0x0⟩
def PM_STATE_OVERCAP : Fld := ⟨.PM_STATE, 14, 1, .ro, 0x0⟩
def PM_STATE_RAMPING : Fld := ⟨.PM_STATE, 15, 1, .ro, 0x0⟩
def PM_STEP_ROW : Fld := ⟨.PM_STEP, 0, 3, .rw, 0x1⟩
def PM_STEP_DIV : Fld := ⟨.PM_STEP, 3, 4, .rw, 0x6⟩
def PM_CAP_CAP_W : Fld := ⟨.PM_CAP, 0, 16, .rw, 0xDAC⟩
def PM_CAP_TRIP_W : Fld := ⟨.PM_CAP, 16, 16, .rwl, 0xE74⟩
def PM_EST_LINK_W : Fld := ⟨.PM_EST, 0, 16, .ro, 0x0⟩
def PM_EST_MEM_W : Fld := ⟨.PM_EST, 16, 16, .ro, 0x0⟩
def PM_EST_PAV_W : Fld := ⟨.PM_EST, 32, 16, .ro, 0x0⟩
def PM_EST_TOTAL_W : Fld := ⟨.PM_EST, 48, 16, .ro, 0x0⟩
def PM_MEAS_VIN : Fld := ⟨.PM_MEAS, 0, 16, .ro, 0x0⟩
def PM_MEAS_PIN_W : Fld := ⟨.PM_MEAS, 16, 16, .ro, 0x0⟩
def PM_MEAS_ERR_W : Fld := ⟨.PM_MEAS, 32, 16, .ro, 0x0⟩
def PM_PACE_GROUP_EN : Fld := ⟨.PM_PACE, 0, 1, .rw, 0x0⟩
def PM_PACE_REPORT_EVENT : Fld := ⟨.PM_PACE, 1, 16, .rw, 0x0⟩
def PM_PACE_REPORT_EV_EN : Fld := ⟨.PM_PACE, 17, 1, .rw, 0x0⟩
def PM_PACE_REPORT_EP : Fld := ⟨.PM_PACE, 18, 24, .rw, 0x0⟩
def PM_PACE_REPORT_EP_EN : Fld := ⟨.PM_PACE, 42, 1, .rw, 0x0⟩
def PM_PACE_TCLASS : Fld := ⟨.PM_PACE, 43, 4, .rw, 0x0⟩
def PM_DROPS_THERMAL : Fld := ⟨.PM_DROPS, 0, 16, .ro, 0x0⟩
def PM_DROPS_CURRENT : Fld := ⟨.PM_DROPS, 16, 16, .ro, 0x0⟩
def PM_DROPS_CAP : Fld := ⟨.PM_DROPS, 32, 16, .ro, 0x0⟩
def PM_DROPS_CLEAR : Fld := ⟨.PM_DROPS, 63, 1, .wo, 0x0⟩
def PM_VTAB_DIV : Fld := ⟨.PM_VTAB, 0, 4, .rwl, 0x0⟩
def PM_VTAB_VDD_MV : Fld := ⟨.PM_VTAB, 4, 10, .rwl, 0x0⟩
def PM_VTAB_BIAS_MV : Fld := ⟨.PM_VTAB, 14, 8, .rwl, 0x0⟩
def PM_VTAB_ASSIST : Fld := ⟨.PM_VTAB, 22, 2, .rwl, 0x0⟩
def PM_VTAB_KREL : Fld := ⟨.PM_VTAB, 24, 9, .rwl, 0x0⟩
def PM_WEIGHT_FJ : Fld := ⟨.PM_WEIGHT, 0, 32, .rwl, 0x0⟩
def PM_WEIGHT_DOMAIN : Fld := ⟨.PM_WEIGHT, 32, 2, .rwl, 0x0⟩
def LG_CAPS_SENSORS : Fld := ⟨.LG_CAPS, 0, 7, .ro, 0x60⟩
def LG_CAPS_PERIOD_REFC : Fld := ⟨.LG_CAPS, 7, 10, .ro, 0x3E8⟩
def LG_LIMITS_THERM_HI : Fld := ⟨.LG_LIMITS, 0, 8, .rwl, 0x69⟩
def LG_LIMITS_THERM_CLR : Fld := ⟨.LG_LIMITS, 8, 8, .rwl, 0x5F⟩
def LG_LIMITS_THERM_CRIT : Fld := ⟨.LG_LIMITS, 16, 8, .rwl, 0x73⟩
def LG_LIMITS_SLOPE_DC : Fld := ⟨.LG_LIMITS, 24, 8, .rwl, 0x3C⟩
def LG_LIMITS_SLOPE_WIN : Fld := ⟨.LG_LIMITS, 32, 8, .rwl, 0x20⟩
def LG_LIMITS_CLR_HOLD_MS : Fld := ⟨.LG_LIMITS, 40, 16, .rwl, 0xA⟩
def LG_LIMITS2_VIN_UV : Fld := ⟨.LG_LIMITS2, 0, 16, .rwl, 0x1324⟩
def LG_LIMITS2_VIN_OV : Fld := ⟨.LG_LIMITS2, 16, 16, .rwl, 0x19C8⟩
def LG_LIMITS2_VIN_SAMPLES : Fld := ⟨.LG_LIMITS2, 32, 16, .rwl, 0xA⟩
def LG_STATUS_ALT_OSC : Fld := ⟨.LG_STATUS, 0, 1, .ro, 0x0⟩
def LG_STATUS_THERM_LATCH : Fld := ⟨.LG_STATUS, 1, 1, .ro, 0x0⟩
def LG_STATUS_CURR_LATCH : Fld := ⟨.LG_STATUS, 2, 1, .ro, 0x0⟩
def LG_STATUS_WINTER_TRIP : Fld := ⟨.LG_STATUS, 3, 1, .w1c, 0x0⟩
def LG_STATUS_HOT_SENSOR : Fld := ⟨.LG_STATUS, 4, 7, .ro, 0x0⟩
def LG_STATUS_HOT_T : Fld := ⟨.LG_STATUS, 11, 12, .ro, 0x0⟩
def LG_REC_PTR_PROD : Fld := ⟨.LG_REC_PTR, 0, 16, .ro, 0x0⟩
def LG_REC_PTR_CONS : Fld := ⟨.LG_REC_PTR, 16, 16, .rw, 0x0⟩
def LG_REC_PTR_LOST : Fld := ⟨.LG_REC_PTR, 32, 16, .ro, 0x0⟩
def LG_PORT_LAST : Fld := ⟨.LG_PORT, 0, 32, .ro, 0x0⟩
def LG_PORT_MISSED : Fld := ⟨.LG_PORT, 32, 16, .ro, 0x0⟩
def LG_PORT_SUSPECT : Fld := ⟨.LG_PORT, 48, 1, .ro, 0x0⟩
def GH_CAPS_SLOTS : Fld := ⟨.GH_CAPS, 0, 5, .ro, 0x10⟩
def GH_CAPS_LOG_MAX : Fld := ⟨.GH_CAPS, 5, 17, .ro, 0x10000⟩
def GH_STATUS_STAGE : Fld := ⟨.GH_STATUS, 0, 3, .ro, 0x0⟩
def GH_STATUS_BOOT_FAIL : Fld := ⟨.GH_STATUS, 3, 1, .ro, 0x0⟩
def GH_STATUS_COPY_B : Fld := ⟨.GH_STATUS, 4, 1, .ro, 0x0⟩
def GH_STATUS_DEBUG_SEALED : Fld := ⟨.GH_STATUS, 5, 1, .ro, 0x1⟩
def GH_STATUS_FAULT : Fld := ⟨.GH_STATUS, 6, 1, .ro, 0x0⟩
def GH_STATUS_LOG_FULL : Fld := ⟨.GH_STATUS, 7, 1, .ro, 0x0⟩
def GH_STATUS_FAIL_KIND : Fld := ⟨.GH_STATUS, 8, 8, .ro, 0x0⟩
def GH_REQ_CODE : Fld := ⟨.GH_REQ, 0, 8, .rw, 0x0⟩
def GH_REQ_LEN : Fld := ⟨.GH_REQ, 8, 15, .rw, 0x0⟩
def GH_REQ_GO : Fld := ⟨.GH_REQ, 23, 1, .wo, 0x0⟩
def GH_RSP_BUSY : Fld := ⟨.GH_RSP, 0, 1, .ro, 0x0⟩
def GH_RSP_OWNER : Fld := ⟨.GH_RSP, 1, 2, .ro, 0x0⟩
def GH_RSP_RESULT : Fld := ⟨.GH_RSP, 8, 8, .ro, 0x0⟩
def GH_RSP_LEN : Fld := ⟨.GH_RSP, 16, 15, .ro, 0x0⟩
def GH_DENY_LAST_ADDR : Fld := ⟨.GH_DENY_LAST, 0, 48, .ro, 0x0⟩
def GH_DENY_LAST_SPACE : Fld := ⟨.GH_DENY_LAST, 48, 4, .ro, 0x0⟩
def GH_DENY_LAST_REQ : Fld := ⟨.GH_DENY_LAST, 52, 2, .ro, 0x0⟩
def GH_DENY_LAST_VALID : Fld := ⟨.GH_DENY_LAST, 63, 1, .w1c, 0x0⟩
def GH_DENY_CNT_HOST : Fld := ⟨.GH_DENY_CNT, 0, 32, .ro, 0x0⟩
def GH_DENY_CNT_HM : Fld := ⟨.GH_DENY_CNT, 32, 31, .ro, 0x0⟩
def GH_DENY_CNT_CLEAR : Fld := ⟨.GH_DENY_CNT, 63, 1, .wo, 0x0⟩
def HM_CAPS_CORES : Fld := ⟨.HM_CAPS, 0, 3, .ro, 0x4⟩
def HM_CAPS_SRAM_KIB : Fld := ⟨.HM_CAPS, 3, 14, .ro, 0x2000⟩
def HM_STATUS_STATE : Fld := ⟨.HM_STATUS, 0, 2, .ro, 0x0⟩
def HM_STATUS_MEM_FAULT : Fld := ⟨.HM_STATUS, 2, 1, .w1c, 0x0⟩
def HM_STATUS_DOCK_REFUSED : Fld := ⟨.HM_STATUS, 3, 1, .w1c, 0x0⟩
def HM_STATUS_RESTARTS : Fld := ⟨.HM_STATUS, 16, 16, .ro, 0x0⟩
def HM_CTRL_RESTART : Fld := ⟨.HM_CTRL, 0, 1, .wo, 0x0⟩
def HM_CTRL_HOLD : Fld := ⟨.HM_CTRL, 1, 1, .rw, 0x0⟩
def HM_HEARTBEAT_COUNT : Fld := ⟨.HM_HEARTBEAT, 0, 64, .rw, 0x0⟩
def HM_DOCK_BASE_MIB : Fld := ⟨.HM_DOCK, 0, 24, .rw, 0x0⟩
def HM_DOCK_SIZE_MIB : Fld := ⟨.HM_DOCK, 24, 24, .rw, 0x0⟩
def HM_DOCK_VALID : Fld := ⟨.HM_DOCK, 63, 1, .rw, 0x0⟩
def TL_CAPS_EVENTS : Fld := ⟨.TL_CAPS, 0, 10, .ro, 0x100⟩
def TL_CAPS_PCS : Fld := ⟨.TL_CAPS, 10, 7, .ro, 0x40⟩
def TL_CAPS_PORTS : Fld := ⟨.TL_CAPS, 17, 10, .ro, 0x200⟩
def TL_CAPS_GATHER : Fld := ⟨.TL_CAPS, 27, 9, .ro, 0x100⟩
def TL_CTRL_CLEAR_ALL : Fld := ⟨.TL_CTRL, 0, 1, .wo, 0x0⟩
def TL_CTRL_DUMP_NOW : Fld := ⟨.TL_CTRL, 1, 1, .wo, 0x0⟩
def TL_STATUS_DUMP_REFUSED : Fld := ⟨.TL_STATUS, 0, 1, .w1c, 0x0⟩
def TL_STATUS_PC_REFUSED : Fld := ⟨.TL_STATUS, 1, 1, .w1c, 0x0⟩
def TL_STATUS_SAMPLE_REFUSED : Fld := ⟨.TL_STATUS, 2, 1, .w1c, 0x0⟩
def TL_DUMP_RING_ADDR : Fld := ⟨.TL_DUMP_RING, 0, 48, .rw, 0x0⟩
def TL_DUMP_RING_SLOTS_LOG : Fld := ⟨.TL_DUMP_RING, 48, 5, .rw, 0x0⟩
def TL_DUMP_RING_EN : Fld := ⟨.TL_DUMP_RING, 63, 1, .rw, 0x0⟩
def TL_DUMP_CFG_PERIOD_MS : Fld := ⟨.TL_DUMP_CFG, 0, 16, .rw, 0x3E8⟩
def TL_DUMP_STAT_BUSY : Fld := ⟨.TL_DUMP_STAT, 0, 1, .ro, 0x0⟩
def TL_DUMP_STAT_SKIPPED : Fld := ⟨.TL_DUMP_STAT, 16, 16, .ro, 0x0⟩
def TL_DUMP_SEQ_SEQ : Fld := ⟨.TL_DUMP_SEQ, 0, 64, .ro, 0x0⟩
def TL_BW_CFG_WINDOW_US : Fld := ⟨.TL_BW_CFG, 0, 16, .rw, 0x64⟩
def TL_SAMPLE_CTL_EN : Fld := ⟨.TL_SAMPLE_CTL, 0, 1, .rw, 0x0⟩
def TL_SAMPLE_CTL_EXP : Fld := ⟨.TL_SAMPLE_CTL, 1, 5, .rw, 0x10⟩
def TL_SAMPLE_CTL_SEED : Fld := ⟨.TL_SAMPLE_CTL, 32, 32, .rw, 0x0⟩
def TL_SAMPLE_RING_ADDR : Fld := ⟨.TL_SAMPLE_RING, 0, 48, .rw, 0x0⟩
def TL_SAMPLE_RING_SLOTS_LOG : Fld := ⟨.TL_SAMPLE_RING, 48, 5, .rw, 0x0⟩
def TL_SAMPLE_RING_EN : Fld := ⟨.TL_SAMPLE_RING, 63, 1, .rw, 0x0⟩
def TL_SAMPLE_PTR_PROD : Fld := ⟨.TL_SAMPLE_PTR, 0, 32, .ro, 0x0⟩
def TL_SAMPLE_PTR_CONS : Fld := ⟨.TL_SAMPLE_PTR, 32, 32, .rw, 0x0⟩
def TL_SAMPLE_LOST_SKIPPED : Fld := ⟨.TL_SAMPLE_LOST, 0, 32, .ro, 0x0⟩
def TL_SAMPLE_LOST_FULL : Fld := ⟨.TL_SAMPLE_LOST, 32, 32, .ro, 0x0⟩
def TL_GATHER_COUNT : Fld := ⟨.TL_GATHER, 0, 9, .rw, 0x0⟩
def TL_GATHER_GO : Fld := ⟨.TL_GATHER, 9, 1, .wo, 0x0⟩
def TL_GATHER_BUSY : Fld := ⟨.TL_GATHER, 10, 1, .ro, 0x0⟩
def TL_EVT_COUNT : Fld := ⟨.TL_EVT, 0, 64, .ro, 0x0⟩
def TL_PC_CFG_KIND : Fld := ⟨.TL_PC_CFG, 0, 3, .rw, 0x0⟩
def TL_PC_CFG_REQ : Fld := ⟨.TL_PC_CFG, 3, 3, .rw, 0x0⟩
def TL_PC_CFG_ACC : Fld := ⟨.TL_PC_CFG, 6, 3, .rw, 0x0⟩
def TL_PC_CFG_TC : Fld := ⟨.TL_PC_CFG, 9, 16, .rw, 0x0⟩
def TL_PC_CFG_EGRESS : Fld := ⟨.TL_PC_CFG, 25, 1, .rw, 0x0⟩
def TL_PC_CFG_EN : Fld := ⟨.TL_PC_CFG, 63, 1, .rw, 0x0⟩
def TL_PC_LO_LO : Fld := ⟨.TL_PC_LO, 0, 48, .rw, 0x0⟩
def TL_PC_HI_HI : Fld := ⟨.TL_PC_HI, 0, 48, .rw, 0x0⟩
def TL_PC_VAL_COUNT : Fld := ⟨.TL_PC_VAL, 0, 64, .rw, 0x0⟩
def TL_GLIST_OFFSET : Fld := ⟨.TL_GLIST, 0, 26, .rw, 0x0⟩
def TL_GDATA_VALUE : Fld := ⟨.TL_GDATA, 0, 64, .ro, 0x0⟩
def TL_BW_RX : Fld := ⟨.TL_BW, 0, 32, .ro, 0x0⟩
def TL_BW_TX : Fld := ⟨.TL_BW, 32, 32, .ro, 0x0⟩

end F

open F in
/-- Every register's description, as the tables give it. -/
def regDesc : Reg → RegDesc
  | .GEN_ID => ⟨0x0, [], .by [], none,
      [GEN_ID_VENDOR, GEN_ID_PART, GEN_ID_STEPPING, GEN_ID_PAV_COUNT]⟩
  | .PV_CAPS => ⟨0x400000, [], .by [], none,
      [PV_CAPS_PAV_COUNT, PV_CAPS_PAV_PER_DIE, PV_CAPS_SITES_PER_DIE, PV_CAPS_TILE_KIB, PV_CAPS_FORMATS]⟩
  | .PV_CTRL => ⟨0x400008, [], .by [.hm, .host], none,
      [PV_CTRL_DISPATCH_HOLD, PV_CTRL_SCRUB_EN, PV_CTRL_SCRUB_INTERVAL]⟩
  | .PV_STATUS => ⟨0x400010, [], .by [], none,
      [PV_STATUS_RUNNING, PV_STATUS_FAULTED, PV_STATUS_GATED, PV_STATUS_FIRST_FAULT, PV_STATUS_SCRUB_LATE]⟩
  | .PV_TILE_ERR => ⟨0x400018, [], .by [.hm, .host], none,
      [PV_TILE_ERR_CORRECTED, PV_TILE_ERR_UNCORRECTED, PV_TILE_ERR_CLEAR]⟩
  | .PV_XRANGE => ⟨0x400020, [], .by [.hm, .host], none,
      [PV_XRANGE_COUNT, PV_XRANGE_CLEAR]⟩
  | .PV_INJECT => ⟨0x400028, [], .by [.hm, .host], none,
      [PV_INJECT_TARGET, PV_INJECT_KIND, PV_INJECT_ARM]⟩
  | .PV_SITE => ⟨0x1000000, [(0x4000, 1024)], .by [], none,
      [PV_SITE_COL, PV_SITE_ROW, PV_SITE_DIE]⟩
  | .PV_RUN => ⟨0x1000008, [(0x4000, 1024)], .by [], none,
      [PV_RUN_STATE, PV_RUN_SPLIT0, PV_RUN_SPLIT1, PV_RUN_LEVEL0, PV_RUN_LEVEL1, PV_RUN_MOORING, PV_RUN_MOORING_VALID]⟩
  | .PV_FAULT => ⟨0x1000010, [(0x4000, 1024)], .by [.hm, .host], none,
      [PV_FAULT_VALID, PV_FAULT_OVERRUN, PV_FAULT_CLASS, PV_FAULT_ITAG, PV_FAULT_PC]⟩
  | .PV_FAULT_ADDR => ⟨0x1000018, [(0x4000, 1024)], .by [], none,
      [PV_FAULT_ADDR_ADDR]⟩
  | .PV_CYC_ARRAY => ⟨0x1000020, [(0x4000, 1024)], .by [], none,
      [PV_CYC_ARRAY_COUNT]⟩
  | .PV_CYC_FREEZE => ⟨0x1000028, [(0x4000, 1024)], .by [], none,
      [PV_CYC_FREEZE_COUNT]⟩
  | .PV_CYC_RAMP => ⟨0x1000030, [(0x4000, 1024)], .by [], none,
      [PV_CYC_RAMP_COUNT]⟩
  | .PV_CYC_VEC => ⟨0x1000038, [(0x4000, 1024)], .by [], none,
      [PV_CYC_VEC_COUNT]⟩
  | .GEN_CTRL => ⟨0x8, [], .by [.gh, .host], none,
      [GEN_CTRL_STRICT_ORDER]⟩
  | .GEN_STATUS => ⟨0x10, [], .by [.gh, .host], none,
      [GEN_STATUS_BOOT_DONE, GEN_STATUS_SEALED, GEN_STATUS_STRICT_REFUSED]⟩
  | .WK_CAPS => ⟨0x100000, [], .by [], none,
      [WK_CAPS_RINGS, WK_CAPS_CQS, WK_CAPS_EVENTS, WK_CAPS_MAX_INFLIGHT]⟩
  | .WK_STATUS => ⟨0x100008, [], .by [.hm, .host], none,
      [WK_STATUS_INFLIGHT, WK_STATUS_CQ_FULL_SEEN, WK_STATUS_CONS_BAD, WK_STATUS_CTRL_BAD, WK_STATUS_SLOT_BAD, WK_STATUS_SLOT_BAD_RING]⟩
  | .WK_POLL => ⟨0x100010, [], .by [.hm, .host], none,
      [WK_POLL_INTERVAL]⟩
  | .WK_COMMIT => ⟨0x100018, [], .by [.gh, .hm, .host], none,
      [WK_COMMIT_SET, WK_COMMIT_INSTANCE, WK_COMMIT_GO]⟩
  | .WK_COMMIT_STATUS => ⟨0x100020, [], .by [.gh, .hm, .host], none,
      [WK_COMMIT_STATUS_BUSY, WK_COMMIT_STATUS_REFUSED, WK_COMMIT_STATUS_RESULT, WK_COMMIT_STATUS_LAST_SET]⟩
  | .WK_RING_BASE => ⟨0x101000, [(0x40, 256)], .ringOwner, (some 0x040),
      [WK_RING_BASE_ADDR, WK_RING_BASE_SPACE]⟩
  | .WK_RING_CFG => ⟨0x101008, [(0x40, 256)], .ringOwner, (some 0x040),
      [WK_RING_CFG_SLOTS, WK_RING_CFG_CQ, WK_RING_CFG_OWNER, WK_RING_CFG_WINDOW]⟩
  | .WK_RING_CTRL => ⟨0x101010, [(0x40, 256)], .ringOwner, none,
      [WK_RING_CTRL_CMD, WK_RING_CTRL_STATE]⟩
  | .WK_RING_HEAD => ⟨0x101018, [(0x40, 256)], .by [], none,
      [WK_RING_HEAD_HEAD, WK_RING_HEAD_INFLIGHT, WK_RING_HEAD_EXPECT_GEN]⟩
  | .WK_RING_SEQ => ⟨0x101020, [(0x40, 256)], .by [], none,
      [WK_RING_SEQ_SEQ]⟩
  | .WK_CQ_BASE => ⟨0x105000, [(0x20, 256)], .by [.hm, .host], (some 0x041),
      [WK_CQ_BASE_ADDR, WK_CQ_BASE_SPACE]⟩
  | .WK_CQ_CFG => ⟨0x105008, [(0x20, 256)], .by [.hm, .host], (some 0x041),
      [WK_CQ_CFG_SLOTS, WK_CQ_CFG_VECTOR]⟩
  | .WK_CQ_CONS => ⟨0x105010, [(0x20, 256)], .by [.hm, .host], none,
      [WK_CQ_CONS_CONS]⟩
  | .WK_CQ_PROD => ⟨0x105018, [(0x20, 256)], .by [], none,
      [WK_CQ_PROD_PROD]⟩
  | .WK_EVFAIL => ⟨0x108000, [(0x8, 1024)], .by [.hm, .host], none,
      [WK_EVFAIL_FAIL]⟩
  | .WK_EVENT => ⟨0x180000, [(0x8, 65536)], .by [.hm, .host], none,
      [WK_EVENT_VALUE]⟩
  | .MO_CAPS => ⟨0x200000, [], .by [], none,
      [MO_CAPS_CONTEXTS, MO_CAPS_ACTIVE_MAX, MO_CAPS_MEMBERS_MAX, MO_CAPS_BERTHS]⟩
  | .MO_SLIP_CFG => ⟨0x200008, [], .by [.hm, .host], none,
      [MO_SLIP_CFG_FLOOR_BERTHS]⟩
  | .MO_SLIP_STATUS => ⟨0x200010, [], .by [], none,
      [MO_SLIP_STATUS_FLOOR_RESERVED, MO_SLIP_STATUS_SHARED_FREE, MO_SLIP_STATUS_QUEUED, MO_SLIP_STATUS_ADMITTED]⟩
  | .MO_STATUS => ⟨0x200018, [], .by [.hm, .host], none,
      [MO_STATUS_ACTIVE, MO_STATUS_RETAINED, MO_STATUS_CFG_REFUSED, MO_STATUS_STORE_FREE_MIB]⟩
  | .MO_NONDET_COUNT => ⟨0x200020, [], .by [.hm, .host], none,
      [MO_NONDET_COUNT_COUNT, MO_NONDET_COUNT_CLEAR]⟩
  | .MO_DROP_STALE => ⟨0x200028, [], .by [], none,
      [MO_DROP_STALE_COUNT]⟩
  | .MO_DROP_FENCED => ⟨0x200030, [], .by [], none,
      [MO_DROP_FENCED_COUNT]⟩
  | .MO_DROP_UNGRANTED => ⟨0x200038, [], .by [], none,
      [MO_DROP_UNGRANTED_COUNT]⟩
  | .MO_DUP => ⟨0x200040, [], .by [], none,
      [MO_DUP_COUNT]⟩
  | .MO_REREQ_SENT => ⟨0x200048, [], .by [], none,
      [MO_REREQ_SENT_COUNT]⟩
  | .MO_CNT_CLEAR => ⟨0x200050, [], .by [.hm, .host], none,
      [MO_CNT_CLEAR_CLEAR]⟩
  | .MO_DROP_BAD => ⟨0x200088, [], .by [], none,
      [MO_DROP_BAD_COUNT]⟩
  | .MO_DLOG_BASE => ⟨0x200058, [], .by [.hm, .host], (some 0x080),
      [MO_DLOG_BASE_ADDR]⟩
  | .MO_DLOG_CFG => ⟨0x200060, [], .by [.hm, .host], (some 0x080),
      [MO_DLOG_CFG_SLOTS]⟩
  | .MO_DLOG_PROD => ⟨0x200068, [], .by [], none,
      [MO_DLOG_PROD_PROD]⟩
  | .MO_LINKPRIO => ⟨0x200070, [], .by [.hm, .host], none,
      [MO_LINKPRIO_CLASS_MASK, MO_LINKPRIO_CEILING, MO_LINKPRIO_BURST_KIB]⟩
  | .MO_REREQ => ⟨0x200078, [], .by [.hm, .host], none,
      [MO_REREQ_INTERVAL]⟩
  | .MO_FENCE_SEL => ⟨0x200080, [], .by [.hm, .host], none,
      [MO_FENCE_SEL_MOORING]⟩
  | .MO_FENCE_MAP => ⟨0x200100, [(0x8, 64)], .by [], none,
      [MO_FENCE_MAP_FENCED]⟩
  | .MO_CTX_STATE => ⟨0x280000, [(0x20, 16384)], .by [], none,
      [MO_CTX_STATE_STATE, MO_CTX_STATE_RETAIN, MO_CTX_STATE_FENCE_ANY, MO_CTX_STATE_FENCE_BY_VERDICT, MO_CTX_STATE_EPOCH, MO_CTX_STATE_JOB, MO_CTX_STATE_MEMBER_COUNT]⟩
  | .MO_CTX_SEQ => ⟨0x280008, [(0x20, 16384)], .by [], none,
      [MO_CTX_SEQ_PSEQ_NEXT, MO_CTX_SEQ_GATE_NEXT]⟩
  | .MO_CTX_SLIP => ⟨0x280010, [(0x20, 16384)], .by [], none,
      [MO_CTX_SLIP_FLOOR, MO_CTX_SLIP_SHARED_HELD, MO_CTX_SLIP_ADMITTED, MO_CTX_SLIP_FLOOR_BUSY, MO_CTX_SLIP_QUEUED]⟩
  | .MO_CTX_LIVE => ⟨0x280018, [(0x20, 16384)], .by [], none,
      [MO_CTX_LIVE_SUSPECT, MO_CTX_LIVE_FENCED, MO_CTX_LIVE_FIRST_FENCED, MO_CTX_LIVE_FIRST_VALID]⟩
  | .BH_CAPS => ⟨0x300000, [], .by [], none,
      [BH_CAPS_SHARDS, BH_CAPS_K_MAX, BH_CAPS_M_MAX, BH_CAPS_PEERS, BH_CAPS_OPTIMIZERS]⟩
  | .BH_CTRL => ⟨0x300008, [], .by [.hm, .host], none,
      [BH_CTRL_BG_LINK_SHARE, BH_CTRL_PEER_TIMEOUT_MS, BH_CTRL_REBUILD_ROWS, BH_CTRL_BG_HOLD]⟩
  | .BH_RESTORE_CFG => ⟨0x300010, [], .by [.hm, .host], none,
      [BH_RESTORE_CFG_SILENCE_US, BH_RESTORE_CFG_REPLAY_MIB]⟩
  | .BH_STATUS => ⟨0x300018, [], .by [], none,
      [BH_STATUS_LIVE, BH_STATUS_LOADING, BH_STATUS_COPYING, BH_STATUS_HELD]⟩
  | .BH_FSTORE_BASE => ⟨0x300020, [], .by [.hm, .host], (some 0x0C0),
      [BH_FSTORE_BASE_ADDR]⟩
  | .BH_FSTORE_LEN => ⟨0x300028, [], .by [.hm, .host], (some 0x0C0),
      [BH_FSTORE_LEN_BYTES]⟩
  | .BH_FSTORE_USED => ⟨0x300030, [], .by [], none,
      [BH_FSTORE_USED_BYTES]⟩
  | .BH_DROP => ⟨0x300038, [], .by [], none,
      [BH_DROP_PEER, BH_DROP_STALE]⟩
  | .BH_BAD_CHUNK => ⟨0x300040, [], .by [], none,
      [BH_BAD_CHUNK_COUNT]⟩
  | .BH_REPARENT => ⟨0x300048, [], .by [], none,
      [BH_REPARENT_COUNT]⟩
  | .BH_CNT_CLEAR => ⟨0x300050, [], .by [.hm, .host], none,
      [BH_CNT_CLEAR_CLEAR]⟩
  | .BH_PEER => ⟨0x301000, [(0x8, 256)], .by [.hm, .host], (some 0x0C0),
      [BH_PEER_ENDPOINT, BH_PEER_JOB, BH_PEER_VALID]⟩
  | .BH_SH_STATE => ⟨0x380000, [(0x20, 4096)], .by [], none,
      [BH_SH_STATE_STATE, BH_SH_STATE_OPTIMIZER, BH_SH_STATE_MOORING, BH_SH_STATE_MOORING_VALID, BH_SH_STATE_DURABLE, BH_SH_STATE_K, BH_SH_STATE_M]⟩
  | .BH_SH_EPOCH => ⟨0x380008, [(0x20, 4096)], .by [], none,
      [BH_SH_EPOCH_COMMITTED, BH_SH_EPOCH_DURABLE_EPOCH, BH_SH_EPOCH_SLOT_A, BH_SH_EPOCH_SLOT_B]⟩
  | .BH_SH_PROG => ⟨0x380010, [(0x20, 4096)], .by [], none,
      [BH_SH_PROG_DONE]⟩
  | .BH_SH_FAULT => ⟨0x380018, [(0x20, 4096)], .by [.hm, .host], none,
      [BH_SH_FAULT_LOST, BH_SH_FAULT_COPY_FAIL, BH_SH_FAULT_HOLD, BH_SH_FAULT_BLOCK_BAD]⟩
  | .DK_CAPS => ⟨0xC00000, [], .by [], none,
      [DK_CAPS_DEVICES, DK_CAPS_RAW_GIB, DK_CAPS_DATA_4K, DK_CAPS_CTX_MIB]⟩
  | .DK_CTRL => ⟨0xC00008, [], .by [.hm, .host], none,
      [DK_CTRL_SCRUB_EN, DK_CTRL_WB_CORRECTED, DK_CTRL_QUIET_SR, DK_CTRL_SCRUB_HOURS]⟩
  | .DK_STATUS => ⟨0xC00010, [], .by [.hm, .host], none,
      [DK_STATUS_POWER, DK_STATUS_SR_ACCESS, DK_STATUS_RING_PAUSED, DK_STATUS_SCRUB_PASSES]⟩
  | .DK_RSV => ⟨0xC00018, [], .by [.hm, .host], (some 0x300),
      [DK_RSV_IMG_MIB, DK_RSV_BH_MIB]⟩
  | .DK_RSV_BASE => ⟨0xC00020, [], .by [], none,
      [DK_RSV_BASE_ADDR]⟩
  | .DK_ERR_CNT => ⟨0xC00028, [], .by [.hm, .host], none,
      [DK_ERR_CNT_CORRECTED, DK_ERR_CNT_UNCORRECTED, DK_ERR_CNT_CLEAR]⟩
  | .DK_ERR_LAST => ⟨0xC00030, [], .by [.hm, .host], none,
      [DK_ERR_LAST_ADDR, DK_ERR_LAST_DEVICE, DK_ERR_LAST_SOURCE, DK_ERR_LAST_UNCORR, DK_ERR_LAST_VALID]⟩
  | .DK_INJECT => ⟨0xC00038, [], .by [.hm, .host], none,
      [DK_INJECT_ADDR, DK_INJECT_KIND, DK_INJECT_ARM]⟩
  | .DK_WIN_BASE => ⟨0xC00100, [(0x10, 8)], .by [.host], (some 0x301),
      [DK_WIN_BASE_BASE, DK_WIN_BASE_WRITE, DK_WIN_BASE_VALID]⟩
  | .DK_WIN_SIZE => ⟨0xC00108, [(0x10, 8)], .by [.host], (some 0x301),
      [DK_WIN_SIZE_SIZE]⟩
  | .WH_CAPS => ⟨0xD00000, [], .by [], none,
      [WH_CAPS_PORTS, WH_CAPS_MAX_GTS, WH_CAPS_WIDTH]⟩
  | .WH_CFG => ⟨0xD00008, [], .by [.hm, .host], (some 0x340),
      [WH_CFG_PORT_MASK, WH_CFG_IDE_EN, WH_CFG_ENABLE]⟩
  | .WH_STATUS => ⟨0xD00010, [], .by [], none,
      [WH_STATUS_STATE, WH_STATUS_WAYS, WH_STATUS_CAP_256M]⟩
  | .WH_MSTORE_BASE => ⟨0xD00018, [], .by [.hm, .host], (some 0x340),
      [WH_MSTORE_BASE_ADDR]⟩
  | .WH_MSTORE_LEN => ⟨0xD00020, [], .by [.hm, .host], (some 0x340),
      [WH_MSTORE_LEN_BYTES]⟩
  | .WH_ERR_CNT => ⟨0xD00028, [], .by [.hm, .host], none,
      [WH_ERR_CNT_POISON, WH_ERR_CNT_LINK_DOWN, WH_ERR_CNT_CLEAR]⟩
  | .WH_PORT => ⟨0xD00100, [(0x8, 4)], .by [], none,
      [WH_PORT_STATE, WH_PORT_WIDTH, WH_PORT_GTS, WH_PORT_LOPT, WH_PORT_IDE_ON, WH_PORT_CAP_256M]⟩
  | .BS_CAPS => ⟨0x500000, [], .by [], none,
      [BS_CAPS_PORTS, BS_CAPS_CELL_BYTES, BS_CAPS_BUF_MIB, BS_CAPS_MC_GROUPS, BS_CAPS_BUNDLES, BS_CAPS_MIRRORS]⟩
  | .BS_CTRL => ⟨0x500008, [], .by [.hm, .host], none,
      [BS_CTRL_LOSSLESS, BS_CTRL_SITE, BS_CTRL_HOPS_INIT, BS_CTRL_SPRAY_EN, BS_CTRL_DOWN_HOLD_US]⟩
  | .BS_SELF => ⟨0x500010, [(0x8, 4)], .by [.hm, .host], (some 0x140),
      [BS_SELF_ENDPOINT, BS_SELF_VALID]⟩
  | .BS_CM_THRESH => ⟨0x500030, [], .by [.hm, .host], none,
      [BS_CM_THRESH_EXP]⟩
  | .BS_MISS => ⟨0x500038, [], .by [.hm, .host], none,
      [BS_MISS_ACTION, BS_MISS_DEFAULT_BUNDLE]⟩
  | .BS_BUF_CFG => ⟨0x500040, [], .by [.hm, .host], none,
      [BS_BUF_CFG_RSV_CELLS, BS_BUF_CFG_ALPHA]⟩
  | .BS_BUF_USED => ⟨0x500048, [(0x8, 4)], .by [.hm, .host], none,
      [BS_BUF_USED_USED, BS_BUF_USED_PEAK, BS_BUF_USED_PEAK_CLR]⟩
  | .BS_DROP_HDR => ⟨0x500068, [], .by [], none,
      [BS_DROP_HDR_COUNT]⟩
  | .BS_DROP_HOPS => ⟨0x500070, [], .by [], none,
      [BS_DROP_HOPS_COUNT]⟩
  | .BS_DROP_BUF => ⟨0x500078, [], .by [], none,
      [BS_DROP_BUF_COUNT]⟩
  | .BS_DROP_MISS => ⟨0x500080, [], .by [], none,
      [BS_DROP_MISS_COUNT]⟩
  | .BS_DROP_MCDOWN => ⟨0x500088, [], .by [], none,
      [BS_DROP_MCDOWN_COUNT]⟩
  | .BS_DROP_MIRROR => ⟨0x500090, [], .by [], none,
      [BS_DROP_MIRROR_COUNT]⟩
  | .BS_DROP_DOWN => ⟨0x500098, [], .by [], none,
      [BS_DROP_DOWN_COUNT]⟩
  | .BS_DROP_UNKMOOR => ⟨0x5000A0, [], .by [], none,
      [BS_DROP_UNKMOOR_COUNT]⟩
  | .BS_CNT_CLEAR => ⟨0x5000A8, [], .by [.hm, .host], none,
      [BS_CNT_CLEAR_CLEAR]⟩
  | .BS_SITE => ⟨0x500100, [(0x8, 16)], .by [.hm, .host], none,
      [BS_SITE_KIND, BS_SITE_TARGET, BS_SITE_VALID]⟩
  | .BS_MIRROR => ⟨0x500200, [(0x8, 16)], .by [.hm, .host], none,
      [BS_MIRROR_SOURCE, BS_MIRROR_SRC_PORT, BS_MIRROR_DEST_PORT, BS_MIRROR_TRUNC64, BS_MIRROR_TCLASS]⟩
  | .BS_BUNDLE_MAP => ⟨0x501000, [(0x40, 256), (0x8, 8)], .by [.hm, .host], (some 0x142),
      [BS_BUNDLE_MAP_PORTS]⟩
  | .BS_MCG_MAP => ⟨0x540000, [(0x40, 4096), (0x8, 8)], .by [.hm, .host], (some 0x143),
      [BS_MCG_MAP_PORTS]⟩
  | .HB_CAPS => ⟨0x600000, [(0x40000, 4)], .by [], none,
      [HB_CAPS_ENTRIES, HB_CAPS_BUCKETS, HB_CAPS_OVERFLOW]⟩
  | .HB_STATUS => ⟨0x600008, [(0x40000, 4)], .by [], none,
      [HB_STATUS_USED, HB_STATUS_OVF_USED, HB_STATUS_PINNED]⟩
  | .HB_AGE => ⟨0x600010, [(0x40000, 4)], .by [.hm, .host], none,
      [HB_AGE_UNIT_MS, HB_AGE_LIMIT, HB_AGE_ENABLE, HB_AGE_NOW]⟩
  | .HB_OP => ⟨0x600018, [(0x40000, 4)], .by [.hm, .host], none,
      [HB_OP_KEY, HB_OP_CMD]⟩
  | .HB_OP_DATA => ⟨0x600020, [(0x40000, 4)], .by [.hm, .host], none,
      [HB_OP_DATA_TTYPE, HB_OP_DATA_TARGET, HB_OP_DATA_MIRROR, HB_OP_DATA_MIRROR_EN, HB_OP_DATA_PINNED, HB_OP_DATA_STAMP, HB_OP_DATA_VALID]⟩
  | .HB_OP_STATUS => ⟨0x600028, [(0x40000, 4)], .by [], none,
      [HB_OP_STATUS_BUSY, HB_OP_STATUS_RESULT, HB_OP_STATUS_INDEX]⟩
  | .HB_LEARN_BASE => ⟨0x600030, [(0x40000, 4)], .by [.hm, .host], (some 0x181),
      [HB_LEARN_BASE_ADDR]⟩
  | .HB_LEARN_CFG => ⟨0x600038, [(0x40000, 4)], .by [.hm, .host], (some 0x181),
      [HB_LEARN_CFG_SLOTS, HB_LEARN_CFG_HOLDOFF_US, HB_LEARN_CFG_AGE_NOTIFY]⟩
  | .HB_LEARN_PROD => ⟨0x600040, [(0x40000, 4)], .by [], none,
      [HB_LEARN_PROD_PROD]⟩
  | .HB_LEARN_CONS => ⟨0x600048, [(0x40000, 4)], .by [.hm, .host], none,
      [HB_LEARN_CONS_CONS]⟩
  | .HB_LEARN_LOST => ⟨0x600050, [(0x40000, 4)], .by [], none,
      [HB_LEARN_LOST_COUNT]⟩
  | .HB_PAR_ERR => ⟨0x600058, [(0x40000, 4)], .by [.hm, .host], none,
      [HB_PAR_ERR_COUNT, HB_PAR_ERR_LAST_INDEX, HB_PAR_ERR_CLEAR]⟩
  | .HB_PIN_COUNT => ⟨0x600100, [], .by [.hm, .host], (some 0x180),
      [HB_PIN_COUNT_COUNT]⟩
  | .HB_PIN_KEY => ⟨0x610000, [(0x10, 4096)], .by [.hm, .host], (some 0x180),
      [HB_PIN_KEY_KEY, HB_PIN_KEY_OP]⟩
  | .HB_PIN_DATA => ⟨0x610008, [(0x10, 4096)], .by [.hm, .host], (some 0x180),
      [HB_PIN_DATA_DATA]⟩
  | .SC_CAPS => ⟨0x700000, [], .by [], none,
      [SC_CAPS_METERS, SC_CAPS_GATE_ENTRIES, SC_CAPS_CLASSES]⟩
  | .SC_CTRL => ⟨0x700008, [], .by [.hm, .host], none,
      [SC_CTRL_METER_EN, SC_CTRL_GATE_EN]⟩
  | .SC_METER_SEL => ⟨0x700010, [], .by [.hm, .host], none,
      [SC_METER_SEL_INDEX, SC_METER_SEL_OP]⟩
  | .SC_METER_RATE => ⟨0x700018, [], .by [.hm, .host], none,
      [SC_METER_RATE_CIR, SC_METER_RATE_PIR]⟩
  | .SC_METER_BURST => ⟨0x700020, [], .by [.hm, .host], none,
      [SC_METER_BURST_CBS, SC_METER_BURST_PBS]⟩
  | .SC_METER_ACT => ⟨0x700028, [], .by [.hm, .host], none,
      [SC_METER_ACT_YELLOW, SC_METER_ACT_RED]⟩
  | .SC_METER_CNT => ⟨0x700030, [], .by [], none,
      [SC_METER_CNT_GREEN, SC_METER_CNT_YELLOW]⟩
  | .SC_METER_RED => ⟨0x700038, [], .by [], none,
      [SC_METER_RED_RED]⟩
  | .SC_METER_STATUS => ⟨0x700040, [], .by [], none,
      [SC_METER_STATUS_BUSY, SC_METER_STATUS_RESULT]⟩
  | .SC_GATE_ADDR => ⟨0x700048, [], .by [.hm, .host], none,
      [SC_GATE_ADDR_PORT, SC_GATE_ADDR_ENTRY, SC_GATE_ADDR_VIEW]⟩
  | .SC_GATE_DATA => ⟨0x700050, [], .by [.hm, .host], (some 0x1C0),
      [SC_GATE_DATA_ENTRY_DATA]⟩
  | .SC_METER_MAP => ⟨0x710000, [(0x8, 8192)], .by [.hm, .host], none,
      [SC_METER_MAP_BASE, SC_METER_MAP_JOBBITS, SC_METER_MAP_EN]⟩
  | .SC_WEIGHT_LO => ⟨0x701000, [(0x40, 512)], .by [.hm, .host], none,
      [SC_WEIGHT_LO_W]⟩
  | .SC_WEIGHT_HI => ⟨0x701008, [(0x40, 512)], .by [.hm, .host], none,
      [SC_WEIGHT_HI_W]⟩
  | .SC_BURST_LO => ⟨0x701010, [(0x40, 512)], .by [.hm, .host], none,
      [SC_BURST_LO_B]⟩
  | .SC_BURST_HI => ⟨0x701018, [(0x40, 512)], .by [.hm, .host], none,
      [SC_BURST_HI_B]⟩
  | .SC_GATE_CTL => ⟨0x701020, [(0x40, 512)], .by [.hm, .host], (some 0x1C0),
      [SC_GATE_CTL_COUNT, SC_GATE_CTL_GUARD]⟩
  | .SC_GATE_BASE_S => ⟨0x701028, [(0x40, 512)], .by [.hm, .host], (some 0x1C0),
      [SC_GATE_BASE_S_SECONDS]⟩
  | .SC_GATE_BASE_NS => ⟨0x701030, [(0x40, 512)], .by [.hm, .host], (some 0x1C0),
      [SC_GATE_BASE_NS_NS]⟩
  | .SC_GATE_STATUS => ⟨0x701038, [(0x40, 512)], .by [], none,
      [SC_GATE_STATUS_ENTRY, SC_GATE_STATUS_ACTIVE, SC_GATE_STATUS_CYCLES]⟩
  | .CT_CAPS => ⟨0x800000, [], .by [], none,
      [CT_CAPS_RES_PS]⟩
  | .CT_CTRL => ⟨0x800008, [], .by [.hm, .host], none,
      [CT_CTRL_PPS_OUT_EN, CT_CTRL_PPS_IN_EN, CT_CTRL_TC_EN, CT_CTRL_PPS_WIDTH_US, CT_CTRL_SERVO_TIMEOUT_MS]⟩
  | .CT_STATUS => ⟨0x800010, [], .by [.hm, .host], none,
      [CT_STATUS_VALID, CT_STATUS_FREERUN, CT_STATUS_PPS_IN_SEEN, CT_STATUS_RATE_REFUSED, CT_STATUS_STEPS]⟩
  | .CT_RATE => ⟨0x800018, [], .by [.hm, .host], none,
      [CT_RATE_INC]⟩
  | .CT_STEP => ⟨0x800020, [], .by [.hm, .host], none,
      [CT_STEP_OFFSET]⟩
  | .CT_SET_S => ⟨0x800028, [], .by [.hm, .host], (some 0x200),
      [CT_SET_S_SECONDS]⟩
  | .CT_SET_NS => ⟨0x800030, [], .by [.hm, .host], (some 0x200),
      [CT_SET_NS_NS]⟩
  | .CT_SNAP_CMD => ⟨0x800038, [], .by [.gh, .hm, .host], none,
      [CT_SNAP_CMD_CAPTURE]⟩
  | .CT_SNAP_S => ⟨0x800040, [], .by [], none,
      [CT_SNAP_S_SECONDS]⟩
  | .CT_SNAP_NS => ⟨0x800048, [], .by [], none,
      [CT_SNAP_NS_NS]⟩
  | .CT_PPS_IN_S => ⟨0x800050, [], .by [], none,
      [CT_PPS_IN_S_SECONDS]⟩
  | .CT_PPS_IN_NS => ⟨0x800058, [], .by [], none,
      [CT_PPS_IN_NS_NS]⟩
  | .CT_PORT_CORR => ⟨0x801000, [(0x8, 512)], .by [.hm, .host], none,
      [CT_PORT_CORR_INGRESS, CT_PORT_CORR_EGRESS]⟩
  | .QY_LAYOUT => ⟨0x900008, [(0x4000, 64)], .by [.hm, .host], (some 0x240),
      [QY_LAYOUT_START, QY_LAYOUT_ETH, QY_LAYOUT_ENABLE]⟩
  | .QY_CMIS_CMD => ⟨0x900040, [(0x4000, 64)], .by [.hm], none,
      [QY_CMIS_CMD_ADDR, QY_CMIS_CMD_PAGE, QY_CMIS_CMD_BANK, QY_CMIS_CMD_LEN, QY_CMIS_CMD_WRITE, QY_CMIS_CMD_GO, QY_CMIS_CMD_RESET_L, QY_CMIS_CMD_LPMODE, QY_CMIS_CMD_FAST]⟩
  | .QY_CMIS_STATUS => ⟨0x900048, [(0x4000, 64)], .by [.hm], none,
      [QY_CMIS_STATUS_BUSY, QY_CMIS_STATUS_NACK, QY_CMIS_STATUS_PRESENT_L, QY_CMIS_STATUS_INT_L, QY_CMIS_STATUS_RESULT]⟩
  | .QY_CMIS_DATA => ⟨0x900080, [(0x4000, 64), (0x8, 16)], .by [.hm], none,
      [QY_CMIS_DATA_BYTES]⟩
  | .QY_PORT_CTRL => ⟨0x900100, [(0x4000, 64), (0x100, 8)], .by [.hm, .host], (some 0x240),
      [QY_PORT_CTRL_MAX_GEN, QY_PORT_CTRL_BEACON_CHK, QY_PORT_CTRL_EXPECT_EN, QY_PORT_CTRL_EXPECT_EP, QY_PORT_CTRL_INIT_CELLS, QY_PORT_CTRL_REPLAY_US, QY_PORT_CTRL_REPLAY_MAX]⟩
  | .QY_PORT_STATUS => ⟨0x900108, [(0x4000, 64), (0x100, 8)], .by [.hm, .host], none,
      [QY_PORT_STATUS_STAGE, QY_PORT_STATUS_GEN, QY_PORT_STATUS_FEATURES, QY_PORT_STATUS_REVERSED, QY_PORT_STATUS_LANE_BAD, QY_PORT_STATUS_IDENT_MISMATCH, QY_PORT_STATUS_ID_CHANGED, QY_PORT_STATUS_DOWNS]⟩
  | .QY_PARTNER => ⟨0x900110, [(0x4000, 64), (0x100, 8), (0x8, 5)], .by [], none,
      [QY_PARTNER_WORD]⟩
  | .QY_LANE_CTRL => ⟨0x900138, [(0x4000, 64), (0x100, 8)], .by [.hm, .host], none,
      [QY_LANE_CTRL_PRE, QY_LANE_CTRL_MAIN, QY_LANE_CTRL_POST, QY_LANE_CTRL_TX_INV]⟩
  | .QY_FEC_CNT => ⟨0x900148, [(0x4000, 64), (0x100, 8)], .by [], none,
      [QY_FEC_CNT_CORR, QY_FEC_CNT_UNCORR]⟩
  | .QY_LINK_CNT => ⟨0x900150, [(0x4000, 64), (0x100, 8)], .by [], none,
      [QY_LINK_CNT_REPLAYS, QY_LINK_CNT_CRC, QY_LINK_CNT_LOST, QY_LINK_CNT_BADNAK, QY_LINK_CNT_KIND]⟩
  | .QY_PRBS_CTRL => ⟨0x900158, [(0x4000, 64), (0x100, 8)], .by [.hm, .host], none,
      [QY_PRBS_CTRL_EN, QY_PRBS_CTRL_PATTERN, QY_PRBS_CTRL_CLEAR]⟩
  | .QY_PRBS_CNT => ⟨0x900160, [(0x4000, 64), (0x100, 8)], .by [], none,
      [QY_PRBS_CNT_ERRORS, QY_PRBS_CNT_LOCK]⟩
  | .QY_PRBS_USER => ⟨0x900190, [(0x4000, 64), (0x100, 8)], .by [.hm, .host], none,
      [QY_PRBS_USER_WORD]⟩
  | .QY_INJECT => ⟨0x900168, [(0x4000, 64), (0x100, 8)], .by [.hm, .host], none,
      [QY_INJECT_KIND, QY_INJECT_COUNT, QY_INJECT_ARM]⟩
  | .QY_ETH_CFG => ⟨0x900178, [(0x4000, 64), (0x100, 8)], .by [.hm, .host], (some 0x240),
      [QY_ETH_CFG_ETYPE, QY_ETH_CFG_VID, QY_ETH_CFG_TAG_EN, QY_ETH_CFG_CM_DEI]⟩
  | .QY_ETH_MAC => ⟨0x900180, [(0x4000, 64), (0x100, 8)], .by [.hm, .host], (some 0x240),
      [QY_ETH_MAC_MAC]⟩
  | .QY_ETH_PEER => ⟨0x900188, [(0x4000, 64), (0x100, 8)], .by [.hm, .host], (some 0x240),
      [QY_ETH_PEER_PEER]⟩
  | .LH_CAPS => ⟨0xA00000, [], .by [], none,
      [LH_CAPS_COLOURS, LH_CAPS_CONFIRM_US]⟩
  | .LH_CTRL => ⟨0xA00008, [], .by [.hm, .host], none,
      [LH_CTRL_AUTO_RECAL, LH_CTRL_MISS_MAX]⟩
  | .LH_CAL => ⟨0xA00010, [], .by [.hm, .host], none,
      [LH_CAL_QUAY, LH_CAL_GO, LH_CAL_INT_US, LH_CAL_TOL, LH_CAL_ITER_MAX]⟩
  | .LH_CAL_STATUS => ⟨0xA00018, [], .by [], none,
      [LH_CAL_STATUS_BUSY, LH_CAL_STATUS_QUAY, LH_CAL_STATUS_COLOUR, LH_CAL_STATUS_RESULT, LH_CAL_STATUS_QUEUED]⟩
  | .LH_WITHDRAW_CNT => ⟨0xA00020, [], .by [.hm, .host], none,
      [LH_WITHDRAW_CNT_COUNT, LH_WITHDRAW_CNT_CLEAR]⟩
  | .LH_PORT_CFG => ⟨0xA10000, [(0x800, 64)], .by [.hm, .host], (some 0x1C0),
      [LH_PORT_CFG_EN]⟩
  | .LH_PORT_STATUS => ⟨0xA10008, [(0x800, 64)], .by [], none,
      [LH_PORT_STATUS_HOLD_NS, LH_PORT_STATUS_MOD_COLOURS, LH_PORT_STATUS_CALIBRATING, LH_PORT_STATUS_CUR]⟩
  | .LH_COLOUR => ⟨0xA10100, [(0x800, 64), (0x8, 64)], .by [.hm, .host], (some 0x1C0),
      [LH_COLOUR_MIDX, LH_COLOUR_VALID, LH_COLOUR_PEER]⟩
  | .LH_CIRCUIT => ⟨0xA10300, [(0x800, 64), (0x8, 64)], .by [], none,
      [LH_CIRCUIT_STATE, LH_CIRCUIT_CAUSE, LH_CIRCUIT_LAST_HEARD]⟩
  | .BW_CAPS => ⟨0xB00000, [], .by [], none,
      [BW_CAPS_SLOTS, BW_CAPS_K_MAX, BW_CAPS_M_MAX, BW_CAPS_BUF_GIB, BW_CAPS_SPANS]⟩
  | .BW_CTRL => ⟨0xB00008, [], .by [.hm, .host], none,
      [BW_CTRL_ETYPE, BW_CTRL_ACK_US, BW_CTRL_REORDER_US]⟩
  | .BW_TIMERS => ⟨0xB00010, [], .by [.hm, .host], none,
      [BW_TIMERS_STALL_MS, BW_TIMERS_OUTAGE_MS, BW_TIMERS_HOLD_S, BW_TIMERS_SPAN_TIMEOUT_MS]⟩
  | .BW_BUF_BASE => ⟨0xB00018, [], .by [.hm, .host], (some 0x2C0),
      [BW_BUF_BASE_ADDR]⟩
  | .BW_BUF_LEN => ⟨0xB00020, [], .by [.hm, .host], (some 0x2C0),
      [BW_BUF_LEN_BYTES]⟩
  | .BW_DROP => ⟨0xB00028, [], .by [.hm, .host], none,
      [BW_DROP_UNKNOWN, BW_DROP_DUP, BW_DROP_STALE, BW_DROP_CLEAR]⟩
  | .BW_LH_CFG => ⟨0xB01000, [(0x80, 32)], .by [.hm, .host], (some 0x2C0),
      [BW_LH_CFG_PORT, BW_LH_CFG_K, BW_LH_CFG_M, BW_LH_CFG_BLOCK_US, BW_LH_CFG_VALID]⟩
  | .BW_LH_WIN => ⟨0xB01008, [(0x80, 32)], .by [.hm, .host], (some 0x2C0),
      [BW_LH_WIN_WIN_MIB, BW_LH_WIN_RX_MIB, BW_LH_WIN_RTO_MS]⟩
  | .BW_LH_STATUS => ⟨0xB01010, [(0x80, 32)], .by [], none,
      [BW_LH_STATUS_STATE, BW_LH_STATUS_WIN_USED_MIB, BW_LH_STATUS_RX_USED_MIB]⟩
  | .BW_LH_SEQ => ⟨0xB01018, [(0x80, 32)], .by [], none,
      [BW_LH_SEQ_TX_NEXT]⟩
  | .BW_LH_ACK => ⟨0xB01020, [(0x80, 32)], .by [], none,
      [BW_LH_ACK_PEER_ACK]⟩
  | .BW_LH_CNT1 => ⟨0xB01028, [(0x80, 32)], .by [], none,
      [BW_LH_CNT1_RETX, BW_LH_CNT1_FEC_REC]⟩
  | .BW_LH_CNT2 => ⟨0xB01030, [(0x80, 32)], .by [], none,
      [BW_LH_CNT2_LOST, BW_LH_CNT2_ICV_FAIL]⟩
  | .BW_SA_CFG => ⟨0xB01038, [(0x80, 32)], .by [.gh], (some 0x2C1),
      [BW_SA_CFG_TX_AN, BW_SA_CFG_RX_EN, BW_SA_CFG_REPLAY_WIN]⟩
  | .BW_SA_PN => ⟨0xB01040, [(0x80, 32), (0x8, 4)], .by [], none,
      [BW_SA_PN_NEXT_PN]⟩
  | .BW_SA_KEYSEL => ⟨0xB01060, [(0x80, 32)], .by [.gh], (some 0x2C1),
      [BW_SA_KEYSEL_AN, BW_SA_KEYSEL_WORD]⟩
  | .BW_SA_KEYDATA => ⟨0xB01068, [(0x80, 32)], .by [.gh], (some 0x2C1),
      [BW_SA_KEYDATA_DATA]⟩
  | .BW_SPAN_CFG => ⟨0xB02000, [(0x20, 64)], .by [.hm, .host], (some 0x2C2),
      [BW_SPAN_CFG_MOORING, BW_SPAN_CFG_SITE_MASK, BW_SPAN_CFG_SPAN_EPOCH, BW_SPAN_CFG_MODE, BW_SPAN_CFG_STOW, BW_SPAN_CFG_VALID]⟩
  | .BW_SPAN_SLOTS_LO => ⟨0xB02008, [(0x20, 64)], .by [.hm, .host], (some 0x2C2),
      [BW_SPAN_SLOTS_LO_SLOT_0, BW_SPAN_SLOTS_LO_SLOT_1, BW_SPAN_SLOTS_LO_SLOT_2, BW_SPAN_SLOTS_LO_SLOT_3, BW_SPAN_SLOTS_LO_SLOT_4, BW_SPAN_SLOTS_LO_SLOT_5, BW_SPAN_SLOTS_LO_SLOT_6, BW_SPAN_SLOTS_LO_SLOT_7]⟩
  | .BW_SPAN_SLOTS_HI => ⟨0xB02010, [(0x20, 64)], .by [.hm, .host], (some 0x2C2),
      [BW_SPAN_SLOTS_HI_SLOT_8, BW_SPAN_SLOTS_HI_SLOT_9, BW_SPAN_SLOTS_HI_SLOT_10, BW_SPAN_SLOTS_HI_SLOT_11, BW_SPAN_SLOTS_HI_SLOT_12, BW_SPAN_SLOTS_HI_SLOT_13, BW_SPAN_SLOTS_HI_SLOT_14, BW_SPAN_SLOTS_HI_SLOT_15]⟩
  | .BW_SPAN_KIDS => ⟨0xB02018, [(0x20, 64)], .by [.hm, .host], (some 0x2C2),
      [BW_SPAN_KIDS_ENC_KID, BW_SPAN_KIDS_DEC_KID]⟩
  | .BW_SPAN_STATUS => ⟨0xB03000, [(0x8, 64)], .by [], none,
      [BW_SPAN_STATUS_DEAD, BW_SPAN_STATUS_WAITING]⟩
  | .PM_CAPS => ⟨0xE00000, [], .by [], none,
      [PM_CAPS_STEPS, PM_CAPS_CAP_MAX_W, PM_CAPS_STANDBY_W]⟩
  | .PM_CTRL => ⟨0xE00008, [], .by [.hm, .host], none,
      [PM_CTRL_RUN_GATE, PM_CTRL_GATE_IDLE_US, PM_CTRL_UP_HOLD_US, PM_CTRL_FAST_ROW]⟩
  | .PM_STATE => ⟨0xE00010, [], .by [.hm, .host], none,
      [PM_STATE_STATE, PM_STATE_ROW, PM_STATE_COMMITTED_ROW, PM_STATE_LOCAL_DROP, PM_STATE_CAUSE, PM_STATE_EMERG_WINTER, PM_STATE_REF_LOST, PM_STATE_OVERCAP, PM_STATE_RAMPING]⟩
  | .PM_STEP => ⟨0xE00018, [], .by [.hm, .host], (some 0x380),
      [PM_STEP_ROW, PM_STEP_DIV]⟩
  | .PM_CAP => ⟨0xE00020, [], .by [.gh, .host], none,
      [PM_CAP_CAP_W, PM_CAP_TRIP_W]⟩
  | .PM_EST => ⟨0xE00028, [], .by [], none,
      [PM_EST_LINK_W, PM_EST_MEM_W, PM_EST_PAV_W, PM_EST_TOTAL_W]⟩
  | .PM_MEAS => ⟨0xE00030, [], .by [], none,
      [PM_MEAS_VIN, PM_MEAS_PIN_W, PM_MEAS_ERR_W]⟩
  | .PM_PACE => ⟨0xE00038, [], .by [.hm, .host], none,
      [PM_PACE_GROUP_EN, PM_PACE_REPORT_EVENT, PM_PACE_REPORT_EV_EN, PM_PACE_REPORT_EP, PM_PACE_REPORT_EP_EN, PM_PACE_TCLASS]⟩
  | .PM_DROPS => ⟨0xE00040, [], .by [.hm, .host], none,
      [PM_DROPS_THERMAL, PM_DROPS_CURRENT, PM_DROPS_CAP, PM_DROPS_CLEAR]⟩
  | .PM_VTAB => ⟨0xE00100, [(0x8, 6)], .by [.gh], none,
      [PM_VTAB_DIV, PM_VTAB_VDD_MV, PM_VTAB_BIAS_MV, PM_VTAB_ASSIST, PM_VTAB_KREL]⟩
  | .PM_WEIGHT => ⟨0xE00200, [(0x8, 32)], .by [.gh], none,
      [PM_WEIGHT_FJ, PM_WEIGHT_DOMAIN]⟩
  | .LG_CAPS => ⟨0xE80000, [], .by [], none,
      [LG_CAPS_SENSORS, LG_CAPS_PERIOD_REFC]⟩
  | .LG_LIMITS => ⟨0xE80008, [], .by [.gh, .hm], none,
      [LG_LIMITS_THERM_HI, LG_LIMITS_THERM_CLR, LG_LIMITS_THERM_CRIT, LG_LIMITS_SLOPE_DC, LG_LIMITS_SLOPE_WIN, LG_LIMITS_CLR_HOLD_MS]⟩
  | .LG_LIMITS2 => ⟨0xE80010, [], .by [.gh], none,
      [LG_LIMITS2_VIN_UV, LG_LIMITS2_VIN_OV, LG_LIMITS2_VIN_SAMPLES]⟩
  | .LG_STATUS => ⟨0xE80018, [], .by [.hm, .host], none,
      [LG_STATUS_ALT_OSC, LG_STATUS_THERM_LATCH, LG_STATUS_CURR_LATCH, LG_STATUS_WINTER_TRIP, LG_STATUS_HOT_SENSOR, LG_STATUS_HOT_T]⟩
  | .LG_REC_PTR => ⟨0xE80020, [], .by [.hm, .host], none,
      [LG_REC_PTR_PROD, LG_REC_PTR_CONS, LG_REC_PTR_LOST]⟩
  | .LG_REC_LO => ⟨0xE81000, [(0x10, 64)], .by [], none,
      []⟩
  | .LG_REC_HI => ⟨0xE81008, [(0x10, 64)], .by [], none,
      []⟩
  | .LG_PORT => ⟨0xE82000, [(0x8, 512)], .by [], none,
      [LG_PORT_LAST, LG_PORT_MISSED, LG_PORT_SUSPECT]⟩
  | .GH_CAPS => ⟨0x2000000, [], .by [], none,
      [GH_CAPS_SLOTS, GH_CAPS_LOG_MAX]⟩
  | .GH_STATUS => ⟨0x2000008, [], .by [], none,
      [GH_STATUS_STAGE, GH_STATUS_BOOT_FAIL, GH_STATUS_COPY_B, GH_STATUS_DEBUG_SEALED, GH_STATUS_FAULT, GH_STATUS_LOG_FULL, GH_STATUS_FAIL_KIND]⟩
  | .GH_REQ => ⟨0x2000010, [], .by [.hm, .host], none,
      [GH_REQ_CODE, GH_REQ_LEN, GH_REQ_GO]⟩
  | .GH_RSP => ⟨0x2000018, [], .by [], none,
      [GH_RSP_BUSY, GH_RSP_OWNER, GH_RSP_RESULT, GH_RSP_LEN]⟩
  | .GH_DENY_LAST => ⟨0x2000020, [], .by [.hm, .host], none,
      [GH_DENY_LAST_ADDR, GH_DENY_LAST_SPACE, GH_DENY_LAST_REQ, GH_DENY_LAST_VALID]⟩
  | .GH_DENY_CNT => ⟨0x2000028, [], .by [.hm, .host], none,
      [GH_DENY_CNT_HOST, GH_DENY_CNT_HM, GH_DENY_CNT_CLEAR]⟩
  | .HM_CAPS => ⟨0x2010000, [], .by [], none,
      [HM_CAPS_CORES, HM_CAPS_SRAM_KIB]⟩
  | .HM_STATUS => ⟨0x2010008, [], .by [.host], none,
      [HM_STATUS_STATE, HM_STATUS_MEM_FAULT, HM_STATUS_DOCK_REFUSED, HM_STATUS_RESTARTS]⟩
  | .HM_CTRL => ⟨0x2010010, [], .by [.host], none,
      [HM_CTRL_RESTART, HM_CTRL_HOLD]⟩
  | .HM_HEARTBEAT => ⟨0x2010018, [], .by [.hm], none,
      [HM_HEARTBEAT_COUNT]⟩
  | .HM_DOCK => ⟨0x2010100, [(0x8, 4)], .by [.host], none,
      [HM_DOCK_BASE_MIB, HM_DOCK_SIZE_MIB, HM_DOCK_VALID]⟩
  | .TL_CAPS => ⟨0xF00000, [], .by [], none,
      [TL_CAPS_EVENTS, TL_CAPS_PCS, TL_CAPS_PORTS, TL_CAPS_GATHER]⟩
  | .TL_CTRL => ⟨0xF00008, [], .by [.hm, .host], none,
      [TL_CTRL_CLEAR_ALL, TL_CTRL_DUMP_NOW]⟩
  | .TL_STATUS => ⟨0xF00010, [], .by [.hm, .host], none,
      [TL_STATUS_DUMP_REFUSED, TL_STATUS_PC_REFUSED, TL_STATUS_SAMPLE_REFUSED]⟩
  | .TL_DUMP_RING => ⟨0xF00018, [], .by [.hm, .host], none,
      [TL_DUMP_RING_ADDR, TL_DUMP_RING_SLOTS_LOG, TL_DUMP_RING_EN]⟩
  | .TL_DUMP_CFG => ⟨0xF00020, [], .by [.hm, .host], none,
      [TL_DUMP_CFG_PERIOD_MS]⟩
  | .TL_DUMP_STAT => ⟨0xF00028, [], .by [], none,
      [TL_DUMP_STAT_BUSY, TL_DUMP_STAT_SKIPPED]⟩
  | .TL_DUMP_SEQ => ⟨0xF00030, [], .by [], none,
      [TL_DUMP_SEQ_SEQ]⟩
  | .TL_BW_CFG => ⟨0xF00038, [], .by [.hm, .host], none,
      [TL_BW_CFG_WINDOW_US]⟩
  | .TL_SAMPLE_CTL => ⟨0xF00040, [], .by [.hm, .host], none,
      [TL_SAMPLE_CTL_EN, TL_SAMPLE_CTL_EXP, TL_SAMPLE_CTL_SEED]⟩
  | .TL_SAMPLE_RING => ⟨0xF00048, [], .by [.hm, .host], none,
      [TL_SAMPLE_RING_ADDR, TL_SAMPLE_RING_SLOTS_LOG, TL_SAMPLE_RING_EN]⟩
  | .TL_SAMPLE_PTR => ⟨0xF00050, [], .by [.hm, .host], none,
      [TL_SAMPLE_PTR_PROD, TL_SAMPLE_PTR_CONS]⟩
  | .TL_SAMPLE_LOST => ⟨0xF00058, [], .by [], none,
      [TL_SAMPLE_LOST_SKIPPED, TL_SAMPLE_LOST_FULL]⟩
  | .TL_GATHER => ⟨0xF00060, [], .by [.gh, .hm, .host], none,
      [TL_GATHER_COUNT, TL_GATHER_GO, TL_GATHER_BUSY]⟩
  | .TL_EVT => ⟨0xF01000, [(0x8, 256)], .by [], none,
      [TL_EVT_COUNT]⟩
  | .TL_PC_CFG => ⟨0xF02000, [(0x20, 64)], .by [.hm, .host], none,
      [TL_PC_CFG_KIND, TL_PC_CFG_REQ, TL_PC_CFG_ACC, TL_PC_CFG_TC, TL_PC_CFG_EGRESS, TL_PC_CFG_EN]⟩
  | .TL_PC_LO => ⟨0xF02008, [(0x20, 64)], .by [.hm, .host], none,
      [TL_PC_LO_LO]⟩
  | .TL_PC_HI => ⟨0xF02010, [(0x20, 64)], .by [.hm, .host], none,
      [TL_PC_HI_HI]⟩
  | .TL_PC_VAL => ⟨0xF02018, [(0x20, 64)], .by [.hm, .host], none,
      [TL_PC_VAL_COUNT]⟩
  | .TL_GLIST => ⟨0xF03000, [(0x8, 256)], .by [.gh, .hm, .host], none,
      [TL_GLIST_OFFSET]⟩
  | .TL_GDATA => ⟨0xF03800, [(0x8, 256)], .by [], none,
      [TL_GDATA_VALUE]⟩
  | .TL_BW => ⟨0xF04000, [(0x8, 512)], .by [], none,
      [TL_BW_RX, TL_BW_TX]⟩

def Reg.part0 : List Reg :=
  [.GEN_ID, .PV_CAPS, .PV_CTRL, .PV_STATUS, .PV_TILE_ERR, .PV_XRANGE,
   .PV_INJECT, .PV_SITE, .PV_RUN, .PV_FAULT, .PV_FAULT_ADDR, .PV_CYC_ARRAY,
   .PV_CYC_FREEZE, .PV_CYC_RAMP, .PV_CYC_VEC, .GEN_CTRL, .GEN_STATUS, .WK_CAPS,
   .WK_STATUS, .WK_POLL, .WK_COMMIT, .WK_COMMIT_STATUS, .WK_RING_BASE, .WK_RING_CFG,
   .WK_RING_CTRL, .WK_RING_HEAD, .WK_RING_SEQ, .WK_CQ_BASE, .WK_CQ_CFG, .WK_CQ_CONS,
   .WK_CQ_PROD, .WK_EVFAIL, .WK_EVENT, .MO_CAPS, .MO_SLIP_CFG, .MO_SLIP_STATUS,
   .MO_STATUS, .MO_NONDET_COUNT, .MO_DROP_STALE, .MO_DROP_FENCED]
def Reg.part1 : List Reg :=
  [.MO_DROP_UNGRANTED, .MO_DUP, .MO_REREQ_SENT, .MO_CNT_CLEAR, .MO_DROP_BAD, .MO_DLOG_BASE,
   .MO_DLOG_CFG, .MO_DLOG_PROD, .MO_LINKPRIO, .MO_REREQ, .MO_FENCE_SEL, .MO_FENCE_MAP,
   .MO_CTX_STATE, .MO_CTX_SEQ, .MO_CTX_SLIP, .MO_CTX_LIVE, .BH_CAPS, .BH_CTRL,
   .BH_RESTORE_CFG, .BH_STATUS, .BH_FSTORE_BASE, .BH_FSTORE_LEN, .BH_FSTORE_USED, .BH_DROP,
   .BH_BAD_CHUNK, .BH_REPARENT, .BH_CNT_CLEAR, .BH_PEER, .BH_SH_STATE, .BH_SH_EPOCH,
   .BH_SH_PROG, .BH_SH_FAULT, .DK_CAPS, .DK_CTRL, .DK_STATUS, .DK_RSV,
   .DK_RSV_BASE, .DK_ERR_CNT, .DK_ERR_LAST, .DK_INJECT]
def Reg.part2 : List Reg :=
  [.DK_WIN_BASE, .DK_WIN_SIZE, .WH_CAPS, .WH_CFG, .WH_STATUS, .WH_MSTORE_BASE,
   .WH_MSTORE_LEN, .WH_ERR_CNT, .WH_PORT, .BS_CAPS, .BS_CTRL, .BS_SELF,
   .BS_CM_THRESH, .BS_MISS, .BS_BUF_CFG, .BS_BUF_USED, .BS_DROP_HDR, .BS_DROP_HOPS,
   .BS_DROP_BUF, .BS_DROP_MISS, .BS_DROP_MCDOWN, .BS_DROP_MIRROR, .BS_DROP_DOWN, .BS_DROP_UNKMOOR,
   .BS_CNT_CLEAR, .BS_SITE, .BS_MIRROR, .BS_BUNDLE_MAP, .BS_MCG_MAP, .HB_CAPS,
   .HB_STATUS, .HB_AGE, .HB_OP, .HB_OP_DATA, .HB_OP_STATUS, .HB_LEARN_BASE,
   .HB_LEARN_CFG, .HB_LEARN_PROD, .HB_LEARN_CONS, .HB_LEARN_LOST]
def Reg.part3 : List Reg :=
  [.HB_PAR_ERR, .HB_PIN_COUNT, .HB_PIN_KEY, .HB_PIN_DATA, .SC_CAPS, .SC_CTRL,
   .SC_METER_SEL, .SC_METER_RATE, .SC_METER_BURST, .SC_METER_ACT, .SC_METER_CNT, .SC_METER_RED,
   .SC_METER_STATUS, .SC_GATE_ADDR, .SC_GATE_DATA, .SC_METER_MAP, .SC_WEIGHT_LO, .SC_WEIGHT_HI,
   .SC_BURST_LO, .SC_BURST_HI, .SC_GATE_CTL, .SC_GATE_BASE_S, .SC_GATE_BASE_NS, .SC_GATE_STATUS,
   .CT_CAPS, .CT_CTRL, .CT_STATUS, .CT_RATE, .CT_STEP, .CT_SET_S,
   .CT_SET_NS, .CT_SNAP_CMD, .CT_SNAP_S, .CT_SNAP_NS, .CT_PPS_IN_S, .CT_PPS_IN_NS,
   .CT_PORT_CORR, .QY_LAYOUT, .QY_CMIS_CMD, .QY_CMIS_STATUS]
def Reg.part4 : List Reg :=
  [.QY_CMIS_DATA, .QY_PORT_CTRL, .QY_PORT_STATUS, .QY_PARTNER, .QY_LANE_CTRL, .QY_FEC_CNT,
   .QY_LINK_CNT, .QY_PRBS_CTRL, .QY_PRBS_CNT, .QY_PRBS_USER, .QY_INJECT, .QY_ETH_CFG,
   .QY_ETH_MAC, .QY_ETH_PEER, .LH_CAPS, .LH_CTRL, .LH_CAL, .LH_CAL_STATUS,
   .LH_WITHDRAW_CNT, .LH_PORT_CFG, .LH_PORT_STATUS, .LH_COLOUR, .LH_CIRCUIT, .BW_CAPS,
   .BW_CTRL, .BW_TIMERS, .BW_BUF_BASE, .BW_BUF_LEN, .BW_DROP, .BW_LH_CFG,
   .BW_LH_WIN, .BW_LH_STATUS, .BW_LH_SEQ, .BW_LH_ACK, .BW_LH_CNT1, .BW_LH_CNT2,
   .BW_SA_CFG, .BW_SA_PN, .BW_SA_KEYSEL, .BW_SA_KEYDATA]
def Reg.part5 : List Reg :=
  [.BW_SPAN_CFG, .BW_SPAN_SLOTS_LO, .BW_SPAN_SLOTS_HI, .BW_SPAN_KIDS, .BW_SPAN_STATUS, .PM_CAPS,
   .PM_CTRL, .PM_STATE, .PM_STEP, .PM_CAP, .PM_EST, .PM_MEAS,
   .PM_PACE, .PM_DROPS, .PM_VTAB, .PM_WEIGHT, .LG_CAPS, .LG_LIMITS,
   .LG_LIMITS2, .LG_STATUS, .LG_REC_PTR, .LG_REC_LO, .LG_REC_HI, .LG_PORT,
   .GH_CAPS, .GH_STATUS, .GH_REQ, .GH_RSP, .GH_DENY_LAST, .GH_DENY_CNT,
   .HM_CAPS, .HM_STATUS, .HM_CTRL, .HM_HEARTBEAT, .HM_DOCK, .TL_CAPS,
   .TL_CTRL, .TL_STATUS, .TL_DUMP_RING, .TL_DUMP_CFG]
def Reg.part6 : List Reg :=
  [.TL_DUMP_STAT, .TL_DUMP_SEQ, .TL_BW_CFG, .TL_SAMPLE_CTL, .TL_SAMPLE_RING, .TL_SAMPLE_PTR,
   .TL_SAMPLE_LOST, .TL_GATHER, .TL_EVT, .TL_PC_CFG, .TL_PC_LO, .TL_PC_HI,
   .TL_PC_VAL, .TL_GLIST, .TL_GDATA, .TL_BW]

/-- Every register name, in the order of the specification. -/
def Reg.all : List Reg := Reg.part0 ++ Reg.part1 ++ Reg.part2 ++ Reg.part3 ++ Reg.part4 ++ Reg.part5 ++ Reg.part6

/-- The offset of the register `r` at the indices `idx` (R27). -/
def regAddr (r : Reg) (idx : List Nat) : Nat :=
  (List.zipWith (fun d i => d.1 * i) (regDesc r).dims idx).foldl (· + ·) (regDesc r).base

/-- The indices at which an array with these dimensions holds the offset `d` from its base. -/
def matchDims : List (Nat × Nat) → Nat → Option (List Nat)
  | [], d => if d = 0 then some [] else none
  | (st, n) :: rest, d =>
    if d / st < n then (matchDims rest (d % st)).map (d / st :: ·) else none

/-- The register at an offset of BAR0, with its indices; none where the offset maps no register. -/
def findReg (off : Nat) : Option (Reg × List Nat) :=
  Reg.all.findSome? fun r =>
    let d := regDesc r
    if off < d.base then none else (matchDims d.dims (off - d.base)).map (r, ·)

/-- The reset word of PM_VTAB row `r`: the default table of R367. -/
def vtabDefault : Nat → Nat
  | 0 => 0x16B193525
  | 1 => 0x1000CB0C6
  | 2 => 0xC0002DA7
  | 3 => 0x95002B28
  | 4 => 0x6773A80A
  | 5 => 0x4EA7258C
  | _ => 0

/-- The word a register holds at reset: its fields' reset values put together. -/
def regReset (r : Reg) (idx : List Nat) : BitVec 64 :=
  match r with
  | .PM_VTAB => BitVec.ofNat 64 (vtabDefault (idx.headD 0))
  | r => (regDesc r).fields.foldl (fun w f => w ||| (BitVec.ofNat 64 f.reset <<< f.lo)) 0

/-- The reset word at an offset. -/
def resetAt (off : Nat) : BitVec 64 :=
  match findReg off with
  | some (r, idx) => regReset r idx
  | none => 0

end Sys2Proof.Machine
end

