-- ==== Sys2Proof/Machine/State.lean ====
section
/-! DEFINITION. The state of the block: plain data. Registers live in `regs` (and, for staged sets, the committed copy
in `cregs`), keyed by their BAR0 offset, an unlisted offset holding its reset word; the memories, the queues, the
engines and the pins have fields of their own. -/

namespace Sys2Proof.Machine

/-- Why the machine could stop. No command's meaning ends so: the block reports every error in its own registers and
records and goes on. -/
inductive Fault where
  /-- Raised by no meaning: the specification describes no condition in which the block stops for good; where power is
  lost the state becomes the one of R429. Safe. -/
  | halted
deriving DecidableEq, Repr

/-- Why a command could have no meaning. -/
inductive Refusal where
  /-- A command of the table that has no meaning yet, by its mnemonic. Safe. -/
  | notModelled (mnemonic : String)
deriving DecidableEq, Repr

/-! ### Fuses and parts (R2, R393) -/

/-- The two grades of R2. -/
inductive Grade where
  | g800
  | g704
deriving DecidableEq, Repr

/-- The fuses (R393). `site` lists, for each logical Pavilion, its row and column (R29); `svn` the fused row of KINDs
0, 1 and 2; `revoked` the mask of revoked ROM keys; `weights` the PM_WEIGHT words; `vtab` the PM_VTAB words. -/
structure Fuses where
  grade : Grade
  serial : Word64
  site : List (Nat × Nat)
  svn : List Nat
  revoked : Nat
  debugSeal : Bool
  vtab : List Word64
  weights : List Word64
deriving DecidableEq, Repr

/-! ### Memories (R203 to R219, R389) -/

/-- Host memory as the block has seen it: the bytes written, and the 64-byte lines (by line number) that read as poison. -/
structure HostMem where
  cells : List Host.Cell
  bad : List Nat
deriving DecidableEq, Repr

/-- Dock (R203 to R212): the bytes last written below the hardware reserve; the lines of the reserve written so far, as
ranges (the image store and the context store hold what `pv.images` and `mo.ctx` show); by line, the errors in its stored
symbols as positions and values (R205); by device, the groups whose check line is cached, newest first, each with whether
it waits to be written out (R207); the check lines as the devices hold them (key 3,947,580 x device + group; R206); the
scrubber's next device line and the cycle its pass began (R210). -/
structure DockMem where
  cells : List Host.Cell
  filled : List (Nat × Nat)
  errs : Sp (List (Nat × Nat))
  cached : Sp (List (Nat × Bool))
  checks : Sp (List Byte)
  scrub : Nat
  scrubFrom : Nat
deriving DecidableEq, Repr

/-! ### Work rings (R97 to R122) -/

/-- How one wait of a command stands (R111). -/
inductive WaitState where
  | pending
  | met
  | failed
deriving DecidableEq, Repr

/-- The stages of R107, and the end of a command whose record is not yet written. -/
inductive Stage where
  | waiting
  | running
  | ended
deriving DecidableEq, Repr

/-- An accepted command without a record: its place, its descriptor's eight words, how far it has come, and the cycle of its
end. -/
structure Cmd where
  ring : Nat
  seq : Nat
  slot : Nat
  desc : List Word64
  wait0 : WaitState
  wait1 : WaitState
  stage : Stage
  startedAt : Nat
  status : Nat
  detail : Nat
  result : Nat
  result2 : Nat
  endedAt : Nat
deriving DecidableEq, Repr

/-- A commit of a staged set that waits for its boundary (R120 to R122): the snapshot of the set's registers, the
time of AT_TIME, the CONFIG command (ring, sequence number) it belongs to, or none for WK_COMMIT, the Clocktower time in ns from which
its own boundary is sought (none while TIME has not come), and whether that boundary was reached before the time was stepped (R285). -/
structure Commit where
  set : Nat
  inst : Nat
  snapshot : List (Nat × Word64)
  atTime : Option (Nat × Nat)
  late : Bool
  owner : Option (Nat × Nat)
  since : Option Nat
  due : Bool
deriving DecidableEq, Repr

/-- The work-ring engine's state that no register shows: the laps, the accepted commands in order of acceptance and
the ring accepted from last (R99 to R102). -/
structure Rings where
  lap : Sp Nat
  cqLap : Sp Nat
  cmds : List Cmd
  last : Nat
deriving DecidableEq, Repr

/-! ### What the block sends -/

/-- What leaves the block, oldest first: interrupts by vector, back-invalidates by line, answers to messages, frames and
control blocks of its ports, select words, management-bus transactions. -/
inductive Sent where
  | msix (vector : Nat)
  | biSnpInv (line : Nat)
  | reply (chan : MsgChan) (bytes : List Byte)
  | pmbus (bytes : List Byte)
  | nack
  | configRetry
  /-- a host configuration request served (R426) -/
  | configDone
  /-- a host read through a Dock window: the line, or poison with a zero payload (R208, R214) -/
  | memRead (addr : Nat) (data : Option (List Byte))
  /-- a native frame that a port's link layer gives its PCS: its LSEQ and packet (R296) -/
  | frame (port lseq : Nat) (pkt : Packet)
  /-- an Ethernet frame, its FCS last (R303) -/
  | ether (port : Nat) (bytes : List Byte)
  /-- a codeword of a native lane: its lane, its number n and its 2,720 levels (R291 to R294) -/
  | codeword (lane n : Nat) (levels : List Nat)
  /-- a control block that the link layer gives the PCS: TYPE and CONTENT (R295) -/
  | control (port type content : Nat)
  /-- the select word of a Lighthouse channel (R319) -/
  | select (quay word : Nat)
  /-- a transaction of a Quay's management bus: write?, bank, page, address, length, bytes (R312) -/
  | cmis (quay : Nat) (write : Bool) (bank page addr len : Nat) (bytes : List Byte)
deriving DecidableEq, Repr

/-! ### Gatehouse, Harbourmaster, upstream port (R384 to R405) -/

/-- One entry of the measurement log (R394). -/
structure LogEntry where
  slot : Nat
  kind : Nat
  index : Nat
  svn : Nat
  time : Word64
  digest : BitVec 512
deriving DecidableEq, Repr

/-- A service request that waits its turn (R403): where it came from, who asked, its code, its bytes, and whether a flash
write it makes would read back. -/
structure ServiceReq where
  chan : MsgChan
  req : Requester
  code : Nat
  bytes : List Byte
  flashOk : Bool
deriving DecidableEq, Repr

/-- The response in progress: where it goes, a mailbox request's status, its bytes, and the stream, key set and keys that a
KEY_EXCH installs with it. -/
structure Service where
  chan : MsgChan
  status : Nat
  reply : List Byte
  keys : Option (Nat × Nat × BitVec 256 × BitVec 256)
deriving DecidableEq, Repr

/-- The Gatehouse (R391 to R403): slots and log; requests that wait (the request buffer's 16 KiB); the response buffer; the
KEYX keys by INDEX; `flash` with copies A and B of KINDs 0, 1 and 2, two after two; `running` the SVN of the image of each
KIND that runs and `bootedB` whether it came from copy B; the I3C dynamic address, the MCTP transmission unit; and the
response in progress. -/
structure Gatehouse where
  slots : Sp (BitVec 512)
  log : List LogEntry
  queue : List ServiceReq
  reqBuf : Sp Byte
  rspBuf : List Byte
  peers : Sp (Option (Nat × List Byte))
  flash : List (List Byte)
  running : List Nat
  bootedB : List Bool
  i3cAddr : Option Nat
  mtu : Nat
  serving : Option Service
deriving DecidableEq, Repr

/-- One CXL or PCIe IDE stream (R390, R402): whether it is established, the key set in force per direction, the keys
installed for sets 0 and 1, each the two directions' 256-bit keys, and the key set each direction goes to at its next
boundary. -/
structure IdeStream where
  established : Bool
  inForce : List Nat
  keys : List (Option (BitVec 256 × BitVec 256))
  pendingGo : List (Option Nat)
deriving DecidableEq, Repr

/-- The upstream port (R384 to R390, R429): the link and PERST_L; the HDM decoders 0 to 7 (host base, size, committed, error not
committed); the snoop filter's lines oldest first; writes to host memory held while the link is down; the IDE streams,
cache and mem before io. -/
structure Upstream where
  linkUp : Bool
  perst : Bool
  decoders : List (Nat × Nat × Bool × Bool)
  snoop : List Nat
  held : List (Nat × List Byte)
  ide : List IdeStream
deriving DecidableEq, Repr

/-- The Harbourmaster (R397, R398): when the last heartbeat was written and the rings it paused by a restart. -/
structure Harbourmaster where
  beatAt : Nat
  stopped : Bool
deriving DecidableEq, Repr

/-! ### Tally (R406 to R415) -/

/-- A dump snapshot that waits to be written: the Dock address of its slot, its SEQ, its words by record offset (R412) and the cycle
it was taken in. -/
structure Snapshot where
  addr : Nat
  seq : Nat
  words : List (Nat × Word64)
  takenAt : Nat
deriving DecidableEq, Repr

/-- The Tally's own state: the snapshot being written, a placement of the dump ring that waits for it (R410), the byte counts of
the window in progress per port (receive and transmit), the window and the dump period last closed. -/
structure Tally where
  snap : Option Snapshot
  ringNext : Option Word64
  rxBytes : Sp Nat
  txBytes : Sp Nat
  lastWindow : Nat
  lastDump : Nat
deriving DecidableEq, Repr

/-! ### Moorings and the Slipway (R123 to R160) -/

/-- A context's image beyond what its MO_CTX registers show: the header fields of R131, the bitmap (bit i: member i),
the slice map, the member table (endpoint, port), the permutation, the fences (bit i: member i), the bytes it takes
in the context store, the cycle its members' leases run from and the cycle of its first fence (R155), the cycle of its latest verdict with the members fenced by verdict in it (R360), its pages of the context
store, of 4,096 bytes, and whether both copies there have failed (R126, R208). -/
structure Ctx where
  permEn : Bool
  members : Nat
  parcelGr : Nat
  spreadLog : Nat
  land : Nat
  root : Nat
  tclass : Nat
  shiftDist : Nat
  leaseMs : Nat
  shard : Nat
  planIn : Nat
  planOut : Nat
  planExact : Bool
  planMove : Bool
  bitmap : Nat
  sliceMap : List Nat
  table : List (Nat × Nat)
  perm : List Nat
  fences : Nat
  store : Nat
  since : Nat
  fencedAt : Nat
  verdictAt : Nat
  verdicts : Nat
  pages : List Nat
  lost : Bool
deriving DecidableEq, Repr

/-- One contribution that has landed (R140): granule entry, member, element bytes, scale bytes and its number among all landings. -/
structure Arrival where
  entry : Nat
  member : Nat
  elems : List Byte
  scales : List Byte
  stamp : Nat
deriving DecidableEq, Repr

/-- A part of another site's partial that has arrived (R343, R344): entry, site, form, whether it is a Stow stream, its
offset, the form's bytes in all, and the part. -/
structure PartialPiece where
  entry : Nat
  site : Nat
  form : Nat
  stow : Bool
  off : Nat
  total : Nat
  bytes : List Byte
deriving DecidableEq, Repr

/-- A coding kernel's work on an owning Pavilion (R343, R344): encode this site's partial of an entry, or decode a site's
coded partial. -/
structure Codec where
  entry : Nat
  site : Nat
  encode : Bool
  bytes : List Byte
  stamp : Nat
deriving DecidableEq, Repr

/-- An admitted parcel (R136, R140 to R142): its number within the command, its charge and where it is held, the
cycle of its grant, the contributions in order of landing, the cycle of the last REREQ per entry and member (key
4096 × entry + member), and what a bound kernel has handed over: output bytes by offset in the parcel output, granule
digests by entry, staged writes of segment 1 (Pavilion, offset, bytes), the Pavilions that have ended; for a spanned parcel, when each entry's
site partial was formed, the pieces of partials received, the sites' partials whole, and coding work. -/
structure Parcel where
  k : Nat
  charge : Nat
  inFloor : Bool
  grantedAt : Nat
  arrivals : List Arrival
  asked : Sp Nat
  outBytes : Sp Byte
  digests : Sp Word64
  stateWrites : List (Nat × Nat × List Byte)
  doneBy : List Nat
  formed : Sp (Option Nat)
  pieces : List PartialPiece
  siteSums : List (Nat × Nat × List Byte)
  codecs : List Codec
deriving DecidableEq, Repr

/-- A running COLLECTIVE (R133 to R158): the command it belongs to, its fields, the parcels formed, the next one
to take in, parcels applied, granule outputs counted under R147, the live parcels in sequence order, discards per granule
and member and resets per granule (R351, R352), the bound kernel, the shard and
the snapshot of its hyperparameters (R171), and the span (R342). -/
structure Coll where
  ring : Nat
  seq : Nat
  moor : Nat
  op : Nat
  kind : Nat
  inFmt : Fmt
  outFmt : Fmt
  rmode : Nat
  layer : Nat
  len : Nat
  offset : Nat
  pseq0 : Nat
  epoch : Nat
  parcels : Nat
  nextAdmit : Nat
  applied : Nat
  nondet : Nat
  live : List Parcel
  discards : Sp Nat
  resets : Sp Nat
  kid : Option Nat
  shard : Nat
  hyper : List Byte
  span : Option Nat
deriving DecidableEq, Repr

/-- The Moorings' own state: contexts by identifier (none: FREE), the running collectives in order of their start, the
round-robin places and the overflow queue of R144, the context engine's queue, the command it carries out and the floor that its start
judged (R143), and the
images copied in at acceptance, by ring and sequence number (R125); the offset of the first bad line where the copy
met one; and the number of landings and launches made ready so far (R91, R92). -/
structure Moorings where
  ctx : Sp (Option Ctx)
  colls : List Coll
  lastFloor : Nat
  lastFair : Nat
  overflow : List Nat
  queue : List (Nat × Nat)
  engine : Option (Nat × Nat)
  floor : Nat
  staging : List ((Nat × Nat) × Sum Nat (List Byte))
  order : Nat
deriving DecidableEq, Repr

/-! ### Boathouse (R161 to R202) -/

/-- A stripe (R186): data and parity fragments and the holders (endpoint, domain) in fragment order. -/
structure Stripe where
  k : Nat
  m : Nat
  holders : List (Nat × Nat)
deriving DecidableEq, Repr

/-- The 32-byte extension of a Boathouse packet (R188). -/
structure BhExt where
  btype : Nat
  job : Nat
  shard : Nat
  epoch : Nat
  fidx : Nat
  code : Nat
  seq : Nat
  len : Nat
  digest : Word64
  sdigest : Word64
deriving DecidableEq, Repr

/-- A Boathouse packet whose peer has not answered (R190): the peer's endpoint, the packet, the cycle of its first send and
the number of sends. -/
structure Await where
  endpoint : Nat
  ext : BhExt
  payload : List Byte
  sentAt : Nat
  sends : Nat
deriving DecidableEq, Repr

/-- A frozen epoch on its way to durability (R179 to R185): the command, the frozen block digest table and digests,
the manifest, the stripe in force at the freeze, the fragments whose ANNOUNCE awaits its ACK, those whose FACK is awaited, whether a
holder has refused, whether the record's OK has been reached, blocks copied in order and ahead (R26), the blocks read for the
fragment encoder, the slot written (none where both are kept), and the event to signal. -/
structure Freeze where
  ring : Nat
  seq : Nat
  epoch : Nat
  bdt : List Word64
  sdigest : Word64
  manifest : List Byte
  stripe : Option Stripe
  awaitAck : List Nat
  awaitFack : List Nat
  refused : Bool
  committed : Bool
  next : Nat
  ahead : List Nat
  encoder : Sp (List Byte)
  fragsSent : Bool
  slot : Option Nat
  event : Option Nat
deriving DecidableEq, Repr

/-- One of a shard's two copy slots in the Warehouse: the epoch and digest of the copy it holds whole (R184). -/
structure CopySlot where
  epoch : Nat
  sdigest : Word64
deriving DecidableEq, Repr

/-- A shard (R161 to R165, R184): descriptor fields, stripe, copy slots, its place in the manifest store and the epochs of the two
manifests there (R218), the newest durable epoch, the epoch being frozen, the COMMITs that wait for it (R178), and the copy slot
and the manifest that R196 keeps. -/
structure Shard where
  optimizer : Nat
  planes : Nat
  side : Nat
  domain : Nat
  params : Nat
  dockBase : Nat
  hyper : Nat
  initSrc : Word64
  initKind : Nat
  whBase : Nat
  slotLen : Nat
  stripe : Option Stripe
  slotA : Option CopySlot
  slotB : Option CopySlot
  msBase : Nat
  manA : Option Nat
  manB : Option Nat
  durable : Option Nat
  freeze : Option Freeze
  waiting : List (Nat × Nat)
  heldSlot : Option Nat
  heldMan : Option Nat
deriving DecidableEq, Repr

/-- A fragment slot kept for a peer (R189): owner endpoint, owner's shard, fragment index, epoch and digest, the rows of 4,096 bytes
received so far by number, the rows it has in all, whether it was acknowledged whole and so lies in the Warehouse as a Stow
stream, and its place in the fragment store. -/
structure Fragment where
  owner : Nat
  shard : Nat
  fidx : Nat
  epoch : Nat
  sdigest : Word64
  rows : Sp (List Byte)
  total : Nat
  whole : Bool
  place : Nat
deriving DecidableEq, Repr

/-- Fragments of the newest committed epoch that a STRIPE with RESEND sends to a changed holder (R186): shard, epoch, digest,
fragment index, holder, bytes, and how far it is: 0 announced, 1 accepted, 2 sent. -/
structure Resend where
  shard : Nat
  epoch : Nat
  sdigest : Word64
  fidx : Nat
  endpoint : Nat
  bytes : List Byte
  stage : Nat
deriving DecidableEq, Repr

/-- A running REBUILD or the stripe part of a RESTORE (R191 to R193, R195): command, shard, the manifest, the stripe, the fragments
that can no longer be used and those of them whose holder was lost, the chosen fragments, the rows received and those asked
for (key row × 32 + fragment), the next row to decode, the blocks still to be recovered one by one with the sets tried, and
whether it serves a RESTORE whose earlier sources held the other blocks. -/
structure Rebuild where
  ring : Nat
  seq : Nat
  shard : Nat
  manifest : List Byte
  stripe : Stripe
  dead : List Nat
  lost : List Nat
  chosen : List Nat
  got : Sp (List Byte)
  asked : List Nat
  nextRow : Nat
  todo : List (Nat × List (List Nat))
  last : Bool
deriving DecidableEq, Repr

/-- A node of a broadcast tree (R197). -/
structure TreeNode where
  endpoint : Nat
  parent : Nat
  alt : Nat
  dest : Bool
  isModule : Bool
deriving DecidableEq, Repr

/-- A running RESTORE (R194 to R200): command, shard, epoch, formats, the tree, this module's node, its present
parent, chunks in all, chunks verified and held here (by sequence), the SEQ each child last reported with DONE, the
nodes that reported every chunk, the nodes known DEAD, the children adopted by GAP, the cycle of the last chunk from the
parent, and by chunk the nodes that wait for one this node no longer keeps (R199). -/
structure Restore where
  ring : Nat
  seq : Nat
  shard : Nat
  epoch : Nat
  moor : Nat
  outFmt : Fmt
  manifest : List Byte
  tree : List TreeNode
  node : Nat
  parent : Nat
  chunks : Nat
  held : Sp (List Byte)
  verified : Nat
  reported : Sp Nat
  dead : List Nat
  adopted : List Nat
  reparents : Nat
  lastChunk : Nat
  wanted : Sp (List Nat)
deriving DecidableEq, Repr

/-- The Boathouse's own state: shards by number (none: FREE), the fragments held for peers, rebuilds and restores in
progress, the broadcasts that have ended and still serve a GAP (R199), the peers DEAD by R190 (endpoints), the packets that await an answer,
the fragments being sent again (R186), the INIT loads in progress, the job of the last COLLECTIVE per ring and
Mooring (key 16384 × ring + Mooring; R183). -/
structure Boathouse where
  shards : Sp (Option Shard)
  frags : List Fragment
  rebuilds : List Rebuild
  restores : List Restore
  served : List Restore
  deadPeers : List Nat
  awaits : List Await
  resends : List Resend
  loads : List (Nat × Nat × Nat)
  lastJob : Sp Nat
deriving DecidableEq, Repr

/-! ### Pavilions and kernels (R29 to R96) -/

/-- An entry of a segment table (R62). -/
structure Seg where
  base : Nat
  len : Nat
  read : Bool
  write : Bool
  space : Nat
deriving DecidableEq, Repr

/-- A loaded kernel image (R89), by KID; `place` is where it lies in the image store of Dock (R212). -/
structure KImage where
  flags : Nat
  entry : Nat
  code : List Byte
  data : List Byte
  dataAddr : Nat
  arrwBase : Nat
  arrwSlots : Nat
  wdog : Nat
  place : Nat
deriving DecidableEq, Repr

/-- A binding of an image to a Mooring with segments 2 to 7 (R90). -/
structure Binding where
  kid : Nat
  segs : List Seg
deriving DecidableEq, Repr

/-- A running LAUNCH (R92): the command, its fields and block, when it became ready among the dispatches, the
Pavilions not yet dispatched and not yet ended, and the first Pavilion that failed with its CLASS and END code. -/
structure Launch where
  ring : Nat
  seq : Nat
  kid : Nat
  first : Nat
  count : Nat
  rmode : Nat
  srJob : Nat
  srMoor : Nat
  srPsq : Nat
  evBase : Nat
  evCount : Nat
  segs : List Seg
  args : List Byte
  stamp : Nat
  toGo : List Nat
  left : List Nat
  failed : Option (Nat × Nat × Nat)
deriving DecidableEq, Repr

/-- What a waiting Pavilion waits for (R83, R84, R95): an event's threshold, the classes of a fence, SIGE's signal, a tag,
a multicast count, an arrival record for two registers, or the end of the kernel with its code. -/
inductive PvWait where
  | event (ev thresh : Nat)
  | fence (mask : Nat)
  | signal (ev inc : Nat)
  | tag (t : Nat)
  | mcnt (n : Nat)
  | arrival (rd re : Nat)
  | ending (code : Nat)
deriving DecidableEq, Repr

/-- An instruction not yet complete (R68): a product with the cells its drain will write (key 32 x row + column), a
transfer in, a transfer out with its bytes, a multicast with its bytes and the receivers still to be written. -/
inductive PvOp where
  | product (array td : Nat) (split : Bool) (quad : Nat) (cells : Sp Word32)
  | xld (addr : Word64) (tile len : Nat)
  | xst (addr : Word64) (bytes : List Byte)
  | pmc (tile : Nat) (bytes : List Byte) (left : List Nat)
deriving DecidableEq, Repr

/-- An outstanding tagged instruction: tag, address of the instruction, operation, its number in issue order, the
fault it will report, as class and address, and its sample record where it was selected (R96). -/
structure Outst where
  tag : Nat
  pc : Nat
  no : Nat
  op : PvOp
  bad : Option (Nat × Nat)
  sample : Option (List Byte)
deriving DecidableEq, Repr

/-- A posted arrival record (R84): address, length, member, granule entry. -/
structure ArrRec where
  addr : Nat
  len : Nat
  member : Nat
  entry : Nat
deriving DecidableEq, Repr

/-- The kernel that a Pavilion runs (R91 to R95): its command, KID, Mooring and parcel where it is bound, its coding work where it is
an encoder or decoder, segments, code
length, event window, group, arrival window, the granule entries it owns by parcel entry, contributions posted so
far, records waiting, slots in use and the next slot, staged writes oldest first (segment, offset, bytes), and the
watchdog's value with the pvc cycle it stands for, and the pvc cycle of dispatch. -/
structure Kern where
  bound : Bool
  ring : Nat
  seq : Nat
  kid : Nat
  moor : Nat
  parcel : Nat
  codec : Option Codec
  segs : List Seg
  codeLen : Nat
  evBase : Nat
  evCount : Nat
  group : List Nat
  arrwBase : Nat
  arrwSlots : Nat
  entries : List Nat
  posted : List (Nat × Nat)
  queue : List ArrRec
  slotNext : Nat
  inUse : Nat
  holding : Bool
  staged : List (Nat × Nat × List Byte)
  wdog : Nat
  wdogAt : Nat
  startedAt : Nat
deriving DecidableEq, Repr

/-- A Pavilion's own state beyond its window registers (R58): s, p, v (key 64 x register + lane), a (key 64 x register +
lane), t (key 1,024 x tile + 32 x row + column), the control registers a kernel can change, PC, tile memory with the
8-byte words (by number) that hold a corrected or an uncorrectable error, outstanding instructions, the last tag,
the wait, the kernel, the sampling generator's state and the instructions left in its gap, when each array's level last
moved and until when an operand was last presented to it, since when the Pavilion is IDLE or waking, and the pvc cycle in
which the instruction that waits was issued. -/
structure Pav where
  s : Sp Word64
  p : Nat
  v : Sp Word32
  a : Sp Exact
  t : Sp Word32
  vl : Nat
  rmode : Nat
  srJob : Nat
  srMoor : Nat
  srPsq : Nat
  eidx : Nat
  fstat : Nat
  digest : Word64
  mcnt : Nat
  pc : Nat
  tile : Sp Byte
  weak : List Nat
  bad : List Nat
  out : List Outst
  lastTag : Nat
  issued : Nat
  wait : Option PvWait
  kern : Option Kern
  gen : Nat
  gap : Nat
  ramp : Sp Nat
  shown : Sp Nat
  since : Nat
  issueAt : Nat
deriving DecidableEq, Repr

/-- The Pavilions by logical number, the pvc cycles since power-on in 1/840 cycle (a module has one step; R20), loaded
images, bindings by Mooring, running launches, and the number of dispatches made ready so far. -/
structure Pavilions where
  pavs : Sp (Option Pav)
  clock : Nat
  images : Sp (Option KImage)
  binds : Sp (Option Binding)
  launches : List Launch
  slip : Sp Byte
deriving DecidableEq, Repr

/-! ### Basin, Harbour, scheduler (R229 to R274) -/

/-- A packet in the Basin with its ingress port and its corrected ingress timestamp in 1/256 ns (R279); `orig` marks a
packet this module originated, `lossless` one whose class was lossless as it arrived (R236), and `bundle` names the bundle it was
forwarded to, for R249. -/
structure BPkt where
  pkt : Packet
  port : Nat
  stamp : Int
  orig : Bool
  lossless : Bool
  bundle : Option Nat
deriving DecidableEq, Repr

/-- A packet in a virtual output queue, its cells, and how many of them have crossed (R238, R239). -/
structure Queued where
  pkt : BPkt
  cells : Nat
  crossed : Nat
deriving DecidableEq, Repr

/-- A virtual output queue: ingress Quay, egress port, class, packets oldest first (R238). -/
structure Voq where
  quay : Nat
  egress : Nat
  cls : Nat
  pkts : List Queued
deriving DecidableEq, Repr

/-- A packet of a multicast FIFO (R242): cells left, the head cell's residue, the ports still served. -/
structure McPkt where
  pkt : BPkt
  left : Nat
  residue : List Nat
  ports : List Nat
deriving DecidableEq, Repr

/-- A multicast FIFO of an ingress port and class (R242). -/
structure McFifo where
  ingress : Nat
  cls : Nat
  pkts : List McPkt
deriving DecidableEq, Repr

/-- A class queue of an egress port (R261, R262): complete packets oldest first, and the finish tag F. -/
structure ClassQueue where
  pkts : List BPkt
  tag : Nat
deriving DecidableEq, Repr

/-- A Harbour entry (R251): key, data word, and whether its parity is bad (R254). -/
structure HEntry where
  key : Nat
  data : Word64
  badParity : Bool
deriving DecidableEq, Repr

/-- A meter (R264): rates, bursts, actions, both buckets in 1/4,000 byte (1 Mb/s fills one unit per mgc cycle), when they were
brought up to date, and the counts of green, yellow and red packets. -/
structure Meter where
  cir : Nat
  pir : Nat
  cbs : Nat
  pbs : Nat
  yellowAct : Nat
  redAct : Nat
  tc : Nat
  tp : Nat
  upTo : Nat
  green : Nat
  yellow : Nat
  red : Nat
deriving DecidableEq, Repr

/-- The Basin's own state (R233 to R249): packets handed over and steered packets not yet taken, queues, packets whose
last cell has crossed and which await reassembly, egress class queues (key 16 x port + class), virtual time per port,
the Harbourmaster's local queue, the FSEQ counters (key 65,536 x destination + FLOW), the round-robin pointers of the
matcher, the finish tags kept per pair (key 16 x (512 x Quay + egress) + class) with the pair's virtual time, the
cycle a port's link went down (R249), and the packets that wait for lookups to resume (R258). -/
structure Basin where
  handed : List BPkt
  steered : List (Nat × Packet)
  toBoathouse : List (Nat × Packet)
  voqs : List Voq
  mc : List McFifo
  reasm : List (Nat × BPkt)
  egress : Sp ClassQueue
  vtime : Sp Nat
  localQ : List Packet
  fseq : Sp Nat
  grantPtr : Sp Nat
  acceptPtr : Sp Nat
  pairTag : Sp Nat
  pairTime : Sp Nat
  downAt : Sp (Option Nat)
  lookups : List BPkt
deriving DecidableEq, Repr

/-- The Harbour tables (R250): entries by index per pipeline, the ager's next place, the millisecond of network time at
which NOW last advanced, and the operations that wait for a pinned commit: pipeline, key, CMD (R257). -/
structure Harbour where
  tables : List (Sp (Option HEntry))
  ager : List Nat
  ageMs : List Nat
  waiting : List (Nat × Nat × Nat)
deriving DecidableEq, Repr

/-- Meters by number, shadow and committed gate entries (key 1,024 x port + entry), the entry and the cycle last taken up per port
(R269), and the fill of the collective priority buckets (R154) with the cycle it was brought up to date. -/
structure Sched where
  meters : Sp (Option Meter)
  gateShadow : Sp Word64
  gateList : Sp Word64
  gateAt : Sp Nat
  gateCycle : Sp Int
  prio : Sp (Nat × Nat)
deriving DecidableEq, Repr

/-! ### Clocktower (R275 to R287) -/

/-- A timestamp taken of a PTP event message (R279, R281): its port, whether on egress, the message, and the corrected time in
1/256 ns. -/
structure PtpStamp where
  port : Nat
  egress : Bool
  message : List Byte
  stamp : Int
deriving DecidableEq, Repr

/-- Network time: seconds, nanoseconds and the fraction of a nanosecond in 2^-40 (R275); whether the nanoseconds have just carried,
whether PPS_OUT is high and since when, the cycle of the last accepted time write (R283, R284), and the event timestamps taken for the
Harbourmaster (R281). -/
structure Clock where
  sec : Nat
  ns : Nat
  frac : Nat
  carried : Bool
  ppsHigh : Bool
  ppsAt : Nat
  wroteAt : Nat
  events : List PtpStamp
deriving DecidableEq, Repr

/-! ### Quays and the Lighthouse (R288 to R327) -/

/-- The PCS of a native port, or of one circuit of a channel, toward the lines (R293, R295, R296, R317): the port messages sent since the
numbering began and the cycle it began, control blocks waiting, the frame stream waiting (true marks a frame's first byte), whether a
replay opens with the next block (R298), the next IDENT index, and the scrambler's last 58 bits by lane. -/
structure LineTx where
  count : Nat
  since : Nat
  ctl : List (Nat × Nat)
  stream : List (Bool × Byte)
  opens : Bool
  ident : Nat
  scr : Sp Nat
deriving DecidableEq, Repr

/-- The link layer of a port, or of one circuit of a channel (R297 to R299, R317): the LSEQ of the next frame, frames not
yet acknowledged, the cycle of the last ACK progress and the replays since, the LSEQ expected, the cycle of the last NAK
sent for it, the credits granted by the partner and used, those given to it and those its accepted frames have taken (by class), the next
codeword number to be counted by lane (R297), and the PCS toward the lines. -/
structure Link where
  txNext : Nat
  replay : List (Nat × Packet)
  ackAt : Nat
  replays : Nat
  rxNext : Nat
  nakAt : Option Nat
  granted : Sp Nat
  used : Sp Nat
  given : Sp Nat
  taken : Sp Nat
  counted : Sp Nat
  tx : LineTx
deriving DecidableEq, Repr

/-- A port (R288 to R311): the cycle its present stage began and the attempt at stages 2 to 4 began, since when every
lane has shown signal, its link, the IDENT blocks received and the record received whole once, the partner's ID_HASH of
stage 5, the value drawn at stage 1, the cycle and count of the last BEACON sent, whether one was received since the Lodge's
last sample, the cycle of the last one received and the samples since, the lanes received inverted, the lanes that are locked, whether an
attempt at stages 2 to 4 has just failed, the ALIGN counts seen with the cycles they came, beacons still to suppress, an injected frame CRC error, the lanes in the order they
are taken (none: ascending), the count of the last BEACON received, the cycle stage 6 began, and injected errors that wait for a codeword of
their lane (R311). -/
structure PortState where
  since : Nat
  attemptAt : Nat
  signalAt : Option Nat
  link : Link
  ident : Sp Nat
  record : Option (List Byte)
  partner : Option Nat
  random : Nat
  beaconAt : Option Nat
  beaconCount : Nat
  heard : Bool
  heardAt : Nat
  quietSamples : Nat
  inverted : List Nat
  locked : List Nat
  failed : Bool
  aligns : Sp (Option (Nat × Nat))
  suppress : Nat
  badCrc : Bool
  order : List Nat
  rxBeacons : Nat
  inService : Nat
  flip : List (Nat × Nat)
deriving DecidableEq, Repr

/-- One circuit's own state beside its LH_CIRCUIT register (R317, R322): its link, the cycle of its first lock, what has
been received since, silent lit intervals in a row, and when it was last withdrawn (R323). -/
structure Circuit where
  link : Link
  firstLock : Nat
  gotBeacon : Bool
  gotEcho : Bool
  misses : Nat
  withdrawnAt : Option Nat
deriving DecidableEq, Repr

/-- A channel (R315 to R323): its circuits by colour, the colour being tuned to with the cycle the hold ends, the colour
lit, and whether a BEACON equal to PEER was received in the present lit interval. -/
structure Channel where
  circuits : Sp (Option Circuit)
  tuning : Option (Nat × Nat)
  lit : Option Nat
  heard : Bool
deriving DecidableEq, Repr

/-- A calibration request: Quay, INT_US, TOL, ITER_MAX (R325). -/
structure CalReq where
  quay : Nat
  intUs : Nat
  tol : Nat
  iterMax : Nat
deriving DecidableEq, Repr

/-- The calibration in progress: its request, colours still to do, measurements made of the present colour, since when,
whether every colour so far was confirmed, and whether the present one is confirming. -/
structure CalRun where
  req : CalReq
  todo : List Nat
  iter : Nat
  since : Nat
  allGood : Bool
  confirming : Bool
deriving DecidableEq, Repr

/-- A CMIS transaction under way (R312). -/
structure Cmis where
  write : Bool
  bank : Nat
  page : Nat
  addr : Nat
  len : Nat
deriving DecidableEq, Repr

/-- Ports by first lane, channels by Quay, calibration, CMIS engines by Quay with the bank and page last selected,
and the fine-tunes stored by calibration (key 64 x lane + MIDX). -/
structure Quays where
  ports : Sp (Option PortState)
  channels : Sp (Option Channel)
  calQueue : List CalReq
  cal : Option CalRun
  cmis : Sp (Option Cmis)
  cmisSel : Sp (Nat × Nat)
  fine : Sp Int
deriving DecidableEq, Repr
/-! ### Breakwater (R328 to R347) -/

/-- A packet of a slot's window (R332): TSEQ, block and position, whether it is a PARTIAL, and its payload. -/
structure BwPkt where
  tseq : Nat
  block : Nat
  idx : Nat
  isPartial : Bool
  payload : List Byte
deriving DecidableEq, Repr

/-- A coding block being received (R337): its number, the TSEQ of position 0, K' and M once a parity packet has told
them, and the coded units received by position, each with whether it was a PARTIAL. -/
structure BwBlock where
  no : Nat
  base : Nat
  shape : Option (Nat × Nat)
  units : Sp (Bool × List Byte)
deriving DecidableEq, Repr

/-- A key agreement of a slot (R340): whether this side initiated, the association, the counter, the last message
sent and when, the number of the ephemeral key made or the shared secret found, the initiator's and responder's endpoints, and
whether the answer is still awaited. -/
structure Keyx where
  initiator : Bool
  an : Nat
  counter : Nat
  msg : List Byte
  sentAt : Nat
  keyNo : Nat
  secret : List Byte
  epI : Nat
  epR : Nat
  waiting : Bool
deriving DecidableEq, Repr

/-- A long-haul slot's own state (R332 to R346): window, partials that wait to be sent, the open block (packets, when
its first was sent); the ACK point, TSEQs received above it, one past the highest received; when each gap was first
seen and last reported; blocks being decoded; packets held in the RX area (a PARTIAL or not); when an ACK was last
sent and packets received since; when a frame was last heard, the ACK last advanced, a resend was last made, the state
was entered, a KEEPALIVE was sent; replay windows (one past the highest PN) by AN; the key agreement and its
counter. -/
structure BwSlot where
  window : List BwPkt
  queue : List (List Byte)
  block : Nat
  units : List BwPkt
  openAt : Nat
  ackPoint : Nat
  got : List Nat
  top : Nat
  gaps : Sp (Option Nat)
  naks : Sp (Option Nat)
  blocks : List BwBlock
  rx : List (Bool × List Byte)
  ackSent : Nat
  sinceAck : Nat
  heardAt : Nat
  ackMoved : Nat
  resentAt : Nat
  stateAt : Nat
  beatAt : Nat
  pnTop : Sp Nat
  keyx : Option Keyx
  counter : Nat
deriving DecidableEq, Repr

/-- Breakwater's slots and its key words, shadow and committed (key 32 x slot + 8 x AN + word; R339). -/
structure Breakwater where
  slots : Sp (Option BwSlot)
  keys : Sp (Option Word64)
  ckeys : Sp (Option Word64)
deriving DecidableEq, Repr

/-! ### Power, the Lodge and the module's supply (R363 to R383, R419 to R431) -/

/-- The power manager (R366 to R375): the row a rising voltage ramp goes to, and whether it serves a commit of set 0x380;
the row whose voltage stands; the power state being entered with the POWER command it belongs to (none: MOD_EN's or one whose
record is due first); whether WINTER was entered by the Lodge; estimates in a row with the Pavilions above what is left;
since when a step up has had headroom and since when the committed row fits. -/
structure Power where
  ramp : Option (Nat × Bool)
  volt : Nat
  entering : Option (Nat × Option (Nat × Nat))
  emergency : Bool
  overs : Nat
  upSince : Option Nat
  capSince : Option Nat
deriving DecidableEq, Repr

/-- The Lodge (R380 to R382): the last three raw temperatures of each die sensor and its filtered ones newest first, in
1/16 degree; the last three raw input voltages in 10 mV, the last ten input powers in mW, the input current in mA; filtered
voltages in a row outside their limits; since when the temperature and the power are below their release levels and
since when a sensor is 5 degrees above critical; the Dock devices' temperatures; the latched bits of STATUS_INPUT,
STATUS_TEMPERATURE and STATUS_CML (R430). -/
structure Lodge where
  raw : Sp (List Int)
  hist : Sp (List Int)
  vins : List Nat
  pins : List Nat
  iin : Nat
  vinBad : Nat
  clrSince : Option Nat
  currSince : Option Nat
  critSince : Option Nat
  dockT : Sp Int
  stInput : Nat
  stTemp : Nat
  stCml : Nat
deriving DecidableEq, Repr

/-- How far the module's supply is up (R426). -/
inductive Rails where
  /-- the input is below the lockout -/
  | none
  /-- the standby rail alone: the module is in OFF -/
  | standby
  /-- the main stages -/
  | main
deriving DecidableEq, Repr

/-- The supply and its pins: the rails, MOD_EN, whether a rise of MOD_EN still waits for the reference, REFCLK, the
overvoltage latch, the PWR_GOOD output, the WH_PERST_L outputs (true: released). -/
structure Supply where
  rails : Rails
  modEn : Bool
  armed : Bool
  refclk : Bool
  ovLatch : Bool
  pwrGood : Bool
  whPerst : Bool
deriving DecidableEq, Repr

/-! ### The state -/

structure State where
  /-- the commands that wait, first in, first out -/
  pending : List Instr
  /-- mgc cycles since cold reset -/
  now : Nat
  /-- cold resets so far -/
  resets : Nat
  /-- the model's own counter of free values taken -/
  freeCtr : Nat
  fuses : Fuses
  /-- registers, and the shadow copies of staged sets, by BAR0 offset -/
  regs : Sp Word64
  /-- the committed copies of staged sets, by BAR0 offset -/
  cregs : Sp Word64
  /-- commits that wait for their boundary -/
  commits : List Commit
  /-- Dock (R203 to R213) -/
  dock : DockMem
  /-- the cycle of Dock's last access (R211) -/
  dockAt : Nat
  /-- host memory as the block has seen it (R389) -/
  hostMem : HostMem
  /-- the expanders' bytes (key 2^40 x port + address) and how often the Warehouse's contents were discarded (R217, R219) -/
  wh : List Host.Cell
  whEra : Nat
  rings : Rings
  clock : Clock
  gate : Gatehouse
  up : Upstream
  hm : Harbourmaster
  tal : Tally
  mo : Moorings
  bh : Boathouse
  basin : Basin
  harbour : Harbour
  sched : Sched
  quays : Quays
  pv : Pavilions
  bw : Breakwater
  pwr : Power
  lodge : Lodge
  sup : Supply
  /-- what the block has sent, oldest first -/
  sent : List Sent
deriving DecidableEq, Repr

/-- The machine right after reset: every register at its reset value, every table and queue empty, the clock at zero, a
part of grade JX-SPL-800, the input just risen through the lockout: the module is in OFF and waits for MOD_EN (R426). -/
def State.reset : State where
  pending := []
  now := 0
  resets := 0
  freeCtr := 0
  fuses := ⟨.g800, Config.serial, (List.range 800).map Config.site, (List.range 3).map Config.fusedSvn, Config.revoked, true,
    (List.range 6).map Config.vtab, (List.range 32).map Config.weight⟩
  regs := []
  cregs := []
  commits := []
  dock := ⟨[], [], [], [], [], 0, 0⟩
  dockAt := 0
  hostMem := ⟨[], []⟩
  wh := []
  whEra := 0
  rings := ⟨[], [], [], 255⟩
  clock := ⟨0, 0, 0, false, false, 0, 0, []⟩
  gate := ⟨[], [], [], [], [], [], (List.range 6).map Config.flash, [0, 0, 0], [false, false, false], none, 64, none⟩
  up := ⟨false, true, List.replicate 8 (0, 0, false, false), [], [], [⟨false, [0, 0], [none, none], [none, none]⟩, ⟨false, [0, 0], [none, none], [none, none]⟩]⟩
  hm := ⟨0, false⟩
  tal := ⟨none, none, [], [], 0, 0⟩
  mo := ⟨[], [], 0, 0, [], [], none, 0, [], 0⟩
  bh := ⟨[], [], [], [], [], [], [], [], [], []⟩
  basin := ⟨[], [], [], [], [], [], [], [], [], [], [], [], [], [], [], []⟩
  harbour := ⟨[[], [], [], []], [0, 0, 0, 0], [0, 0, 0, 0], []⟩
  sched := ⟨[], [], [], [], [], []⟩
  quays := ⟨[], [], [], none, [], [], []⟩
  pv := ⟨[], 0, [], [], [], []⟩
  bw := ⟨[], [], []⟩
  pwr := ⟨none, 1, none, false, 0, none, none⟩
  lodge := ⟨[], [], [], [], 0, 0, none, none, none, [], 0, 0, 0⟩
  sup := ⟨.standby, false, false, true, false, false, false⟩
  sent := []

end Sys2Proof.Machine
end

