-- ==== Sys2Proof/Machine/Ops.lean ====
section
/-! DEFINITION. The named operations every meaning is built from: registers and their fields, the denial log, the event
counters, time, and the three memories behind descriptor pointers. -/

namespace Sys2Proof.Machine

open Host (Outcome)

abbrev Out := Outcome State Fault Refusal

/-! ### Registers (R10 to R15) -/

/-- The word a register holds; for a register of a staged set, the shadow copy (R15). -/
def State.rd (s : State) (r : Reg) (idx : List Nat := []) : Word64 :=
  spGet (regReset r idx) s.regs (regAddr r idx)

/-- The committed copy of a register of a staged set (R15). -/
def State.crd (s : State) (r : Reg) (idx : List Nat := []) : Word64 :=
  spGet (regReset r idx) s.cregs (regAddr r idx)

def State.wr (s : State) (r : Reg) (idx : List Nat) (v : Word64) : State :=
  { s with regs := spPut (regReset r idx) s.regs (regAddr r idx) v }

def State.cwr (s : State) (r : Reg) (idx : List Nat) (v : Word64) : State :=
  { s with cregs := spPut (regReset r idx) s.cregs (regAddr r idx) v }

/-- The value of a field. -/
def State.get (s : State) (f : Fld) (idx : List Nat := []) : Nat := bits (s.rd f.reg idx) f.lo f.width

/-- The committed value of a field of a staged set. -/
def State.cget (s : State) (f : Fld) (idx : List Nat := []) : Nat := bits (s.crd f.reg idx) f.lo f.width

/-- The state with a field made `v` by the hardware. -/
def State.put (s : State) (f : Fld) (idx : List Nat) (v : Nat) : State :=
  s.wr f.reg idx (putBits (s.rd f.reg idx) f.lo f.width v)

/-- The state with a committed field made `v`. -/
def State.cput (s : State) (f : Fld) (idx : List Nat) (v : Nat) : State :=
  s.cwr f.reg idx (putBits (s.crd f.reg idx) f.lo f.width v)

/-- A saturating counter field raised by `n`. -/
def State.bump (s : State) (f : Fld) (idx : List Nat := []) (n : Nat := 1) : State :=
  s.put f idx (min (s.get f idx + n) (2 ^ f.width - 1))

/-- A wrapping counter field raised by `n`. -/
def State.advance (s : State) (f : Fld) (idx : List Nat := []) (n : Nat := 1) : State :=
  s.put f idx (s.get f idx + n)

/-- Event counter `e` of the Tally raised by `n`; it wraps at 2^64 (R406). -/
def State.tally (s : State) (e : Nat) (n : Nat := 1) : State := s.advance F.TL_EVT_COUNT [e] n

/-! ### Grades (R2 to R5) -/

/-- The number of logical Pavilions (R2). -/
def State.pavCount (s : State) : Nat :=
  match s.fuses.grade with
  | .g800 => 800
  | .g704 => 704

/-- GEN_ID as the grade gives it (R5). -/
def genIdWord (g : Grade) : Word64 :=
  match g with
  | .g800 => 0x4A580800B0320000#64
  | .g704 => 0x4A580704B02C0000#64

/-- The registers whose reset value is the grade's: GEN_ID and PV_CAPS (R5, R29). -/
def State.gradeWords (s : State) : State :=
  ((s.wr .GEN_ID [] (genIdWord s.fuses.grade)).put F.PV_CAPS_PAV_COUNT [] s.pavCount).put F.PV_CAPS_PAV_PER_DIE [] (s.pavCount / 4)

/-! ### Time -/

/-- mgc cycles in `n` microseconds (R9: mgc is 500 MHz). -/
def us (n : Nat) : Nat := 500 * n

/-- Nanoseconds of Clocktower time since time zero (R276). -/
def State.ctNs (s : State) : Nat := s.clock.sec * 1000000000 + s.clock.ns

/-- The manifest TIME format (R183): seconds [63:30], nanoseconds [29:0]. -/
def State.timeWord (s : State) : Word64 := BitVec.ofNat 64 (s.clock.sec * 2 ^ 30 + s.clock.ns)

/-- A fresh free value and the state that has used it up. -/
def State.fresh (s : State) : Word64 × State :=
  (Config.freeValue s.freeCtr, { s with freeCtr := s.freeCtr + 1 })

/-! ### Denials (R11, R395) -/

/-- The code of a requester in GH_DENY_LAST. -/
def reqCode : Requester → Nat
  | .gh => 0
  | .hm => 1
  | .host => 2

/-- A dropped write is logged with ACCESS_DENIED: GH_DENY_LAST takes it, the requester's count and event 0x70 rise. -/
def State.deny (s : State) (req : Requester) (space addr : Nat) : State :=
  let s := s.wr .GH_DENY_LAST [] (BitVec.ofNat 64 (addr % 2 ^ 48 + space * 2 ^ 48 + reqCode req * 2 ^ 52 + 2 ^ 63))
  let s := match req with
    | .gh => s
    | .hm => s.bump F.GH_DENY_CNT_HM
    | .host => s.bump F.GH_DENY_CNT_HOST
  s.tally 0x70

/-! ### Sending -/

def State.send (s : State) (o : Sent) : State := { s with sent := s.sent ++ [o] }

/-! ### Memories (R203 to R219) -/

/-- Bytes of Dock that hold data (R206). -/
def dockBytes : Nat := 0x1696968000

/-- The byte at an address, none where nothing has written it. -/
def cellAt : List Host.Cell → Nat → Option Byte
  | [], _ => none
  | (k, v) :: rest, a => if k = a then some v else if a < k then none else cellAt rest a

/-- The bytes `bs` put at `a` and on. -/
def putCells (m : List Host.Cell) : Nat → List Byte → List Host.Cell
  | _, [] => m
  | a, b :: bs => putCells (spIns m a b) (a + 1) bs

/-- Whether some byte of the line has been written. -/
def lineWritten (m : List Host.Cell) (line : Nat) : Bool := m.any fun c => c.1 / 64 == line

/-- Lines `a / 64` to `(a + n - 1) / 64`: the lines that `n` bytes at `a` touch. -/
def linesOf (a n : Nat) : List Nat :=
  if n = 0 then [] else (List.range ((a + n - 1) / 64 - a / 64 + 1)).map (a / 64 + ·)

/-- Whether a Dock line has been written since cold reset. -/
def DockMem.written (d : DockMem) (line : Nat) : Bool :=
  lineWritten d.cells line || d.filled.any fun r => r.1 ≤ line && line < r.1 + r.2

/-- The errors in a line's stored symbols. -/
def DockMem.lineErrs (d : DockMem) (line : Nat) : List (Nat × Nat) := spGet [] d.errs line

/-- Whether a Dock line reads as uncorrectable: the decoder finds no single-symbol solution (R205), or it was never written
since cold reset and happens to (R208, R429). -/
def State.dockBad (s : State) (line : Nat) : Bool :=
  decodeErrors (s.dock.lineErrs line) = .detected || (!s.dock.written line && Config.dockLineBad s.resets line)

/-- Whether the decoder corrects a symbol of a line. -/
def State.dockWeak (s : State) (line : Nat) : Bool :=
  match decodeErrors (s.dock.lineErrs line) with
  | .correct .. => true
  | _ => false

/-- The byte last written at an address of Dock; of a line not written since reset, any (R429). -/
def State.dockStored (s : State) (a : Nat) : Byte := (cellAt s.dock.cells a).getD (Config.dockByte s.resets a)

/-- The byte Dock decodes at an address: as written, but for errors that the decoder leaves or makes (R205). -/
def State.dockByte (s : State) (a : Nat) : Byte :=
  match s.dock.lineErrs (a / 64) with
  | [] => s.dockStored a
  | e => s.dockStored a ^^^ BitVec.ofNat 8 (residualAt e (a % 64 / 2) / 2 ^ (8 * (a % 2)))

/-! #### Check lines (R206, R207) -/

/-- The check line of a group of a device: s32 and s33 of each of its 16 data lines (R206). -/
def State.checkLine (s : State) (device group : Nat) : List Byte :=
  (List.range 16).flatMap fun j =>
    let a := lineAt device group j * 64
    let (c, d) := checkSymbols ((List.range 64).map fun i => s.dockStored (a + i))
    leBytes (c + d * 2 ^ 16) 4

/-- A check line written to its device. -/
def State.writeOut (s : State) (device group : Nat) : State :=
  { s with dock := { s.dock with
    checks := spIns s.dock.checks (deviceGroups * device + group) (s.checkLine device group) } }

/-- The check lines that a controller caches. -/
def checkLines : Nat := 4096

/-- An access to a data line brings its check line into the controller's cache (R207); a write leaves it to be written out. The
line used longest ago makes room and is written out if it must be. -/
def State.useCheck (s : State) (line : Nat) (write : Bool) : State :=
  let d := lineDevice line
  let g := lineGroup line
  let l := spGet [] s.dock.cached d
  let l := (g, write || l.contains (g, true)) :: l.filter fun x => x.1 ≠ g
  let s : State := match l[checkLines]? with
    | some (old, true) => s.writeOut d old
    | _ => s
  { s with dock := { s.dock with cached := spIns s.dock.cached d (l.take checkLines) } }

/-- Every check line that waits is written out: before the devices enter self-refresh (R207). -/
def State.flushChecks (s : State) : State :=
  let s := s.dock.cached.foldl (fun s x => (x.2.filter (·.2)).foldl (fun s g => s.writeOut x.1 g.1) s) s
  { s with dock := { s.dock with cached := s.dock.cached.map fun x => (x.1, x.2.map fun g => (g.1, false)) } }

/-- DK_ERR_LAST takes an error, unless a held entry stands against a corrected one (DK_ERR_LAST.VALID). -/
def State.dockErr (s : State) (line source : Nat) (uncorr : Bool) : State :=
  if uncorr || s.get F.DK_ERR_LAST_VALID = 0 then
    s.wr .DK_ERR_LAST [] (BitVec.ofNat 64 (line * 64 % 2 ^ 48 + (line * 64 / 256 % 24) * 2 ^ 48 + source * 2 ^ 53
      + (if uncorr then 2 ^ 62 else 0) + 2 ^ 63))
  else s

/-- Dock is accessed: in QUIET self-refresh it wakes (R211). -/
def State.wakeDock (s : State) : State :=
  let s := { s with dockAt := s.now }
  if s.get F.DK_STATUS_POWER = 1 && s.get F.PM_STATE_STATE < 2 then s.put F.DK_STATUS_POWER [] 2 else s

/-- One line read: counted, and where it is uncorrectable or corrected recorded (R208). -/
def State.touchLine (s : State) (source line : Nat) : State :=
  let s := (s.wakeDock.useCheck line false).tally 0x40
  if s.dockBad line then (s.bump F.DK_ERR_CNT_UNCORRECTED).dockErr line source true
  else if s.dockWeak line then (s.bump F.DK_ERR_CNT_CORRECTED).dockErr line source false
  else s

/-- A read of `n` bytes of Dock: the lines are counted, and the bytes come back, or the offset of the first
uncorrectable line within the range (R208). -/
def State.dockRead (s : State) (source a n : Nat) : State × Except Nat (List Byte) :=
  let ls := linesOf a n
  let s' := ls.foldl (fun s l => s.touchLine source l) s
  match ls.find? s.dockBad with
  | some l => (s', .error (l * 64 - a))
  | none => (s', .ok ((List.range n).map fun i => s.dockByte (a + i)))

/-- The symbols that an injection of `n` of them corrupts, at distinct places, each by a nonzero value: free values. -/
def injected (n : Nat) (r : Word64) : List (Nat × Nat) :=
  let i := bits r 0 16 % 34
  [(i, 1 + bits r 16 16 % 65535), ((i + 1 + bits r 32 16 % 33) % 34, 1 + bits r 48 16 % 65535)].take n

/-- A line just written: its stored symbols have no error, unless DK_INJECT is armed for it. -/
def State.injectLine (s : State) (line : Nat) : State :=
  if s.get F.DK_INJECT_ARM = 1 && s.get F.DK_INJECT_ADDR / 64 = line then
    let k := s.get F.DK_INJECT_KIND
    let s := s.put F.DK_INJECT_ARM [] 0
    let (r, s) := s.fresh
    { s with dock := { s.dock with errs := spPut [] s.dock.errs line (injected k r) } }
  else { s with dock := { s.dock with errs := spPut [] s.dock.errs line [] } }

/-- A line written back as the decoder gives it: its stored code has no error then. -/
def State.repairLine (s : State) (line : Nat) : State :=
  let d := s.dock
  let e := d.lineErrs line
  let cells := if (List.range 32).all fun i => residualAt e i = 0 then d.cells
    else putCells d.cells (line * 64) ((List.range 64).map fun i => s.dockByte (line * 64 + i))
  { s with dock := { d with cells := cells, errs := spPut [] d.errs line [] } }

/-- Before a device write to a line the snoop filter holds, BISnpInv is sent and answered (R388). -/
def State.backInvalidate (s : State) (line : Nat) : State :=
  if s.up.snoop.contains line then
    { s.send (.biSnpInv line) with up := { s.up with snoop := s.up.snoop.erase line } }
  else s

/-- The part of a write that falls in one line (R209): a whole line replaces it and removes its error; a part is
merged, or dropped where the line is uncorrectable. -/
def State.writeLine (s : State) (line a : Nat) (bs : List Byte) : State :=
  let s := s.wakeDock.backInvalidate line
  if bs.length < 64 && s.dockBad line then s.dockErr line 6 true
  else
    let s := if bs.length < 64 then s.repairLine line else s
    let d := s.dock
    let cells := if bs.length < 64 && !lineWritten d.cells line
      then putCells (putCells d.cells (line * 64) ((List.range 64).map fun i => s.dockStored (line * 64 + i))) a bs
      else putCells d.cells a bs
    let s : State := { s with dock := { d with cells := cells } }
    ((s.useCheck line true).injectLine line).tally 0x41

/-- The bytes of a write that fall in line `line`, with their address. -/
def sliceOf (a : Nat) (bs : List Byte) (line : Nat) : Nat × List Byte :=
  let lo := max a (line * 64)
  (lo, ((bs.drop (lo - a)).take (line * 64 + 64 - lo)))

/-- A write of Dock, line by line (R209, R388). -/
def State.dockWrite (s : State) (a : Nat) (bs : List Byte) : State :=
  (linesOf a bs.length).foldl (fun s l => let p := sliceOf a bs l; s.writeLine l p.1 p.2) s

/-! #### The image store and the context store (R126, R212) -/

/-- Lines of the hardware reserve written: what they hold is kept where it is used. -/
def State.storeWrite (s : State) (a n : Nat) : State :=
  let s := (linesOf a n).foldl (fun s l => ((s.wakeDock.useCheck l true).injectLine l).tally 0x41) s
  let r := (a / 64, (linesOf a n).length)
  if s.dock.filled.contains r then s else { s with dock := { s.dock with filled := s.dock.filled ++ [r] } }

/-- Lines of the hardware reserve read: the offset of the first uncorrectable one. -/
def State.storeRead (s : State) (source a n : Nat) : State × Option Nat :=
  let ls := linesOf a n
  (ls.foldl (fun s l => s.touchLine source l) s, (ls.find? s.dockBad).map fun l => l * 64 - a)

/-! #### The Warehouse (R217, R219) -/

/-- The ports of the Warehouse's interleave, ascending. -/
def State.whMask (s : State) : List Nat := (List.range 4).filter (s.cget F.WH_CFG_PORT_MASK).testBit

/-- The port and the expander's address of a Warehouse address (R217). -/
def State.whPlace (s : State) (w : Nat) : Nat × Nat :=
  let ps := s.whMask
  ((ps[w / 4096 % ps.length]?).getD 0, w / (4096 * ps.length) * 4096 + w % 4096)

/-- The key of a Warehouse address among the expanders' bytes. -/
def State.whKey (s : State) (w : Nat) : Nat := let p := s.whPlace w; 2 ^ 40 * p.1 + p.2

/-- Whether the Warehouse serves accesses (R219). -/
def State.whReady (s : State) : Bool := s.get F.WH_STATUS_STATE = 1

/-- Bytes of the Warehouse in service: W x Q (R217). -/
def State.whBytes (s : State) : Nat := s.get F.WH_STATUS_CAP_256M * 2 ^ 28

/-- A read of the Warehouse; poison and a failed Warehouse count as an uncorrectable line (R219). -/
def State.whRead (s : State) (a n : Nat) : State × Except Nat (List Byte) :=
  if !s.whReady then (s, .error 0)
  else
    match (linesOf a n).find? fun l => Config.whPoison s.freeCtr (s.whKey (l * 64) / 64) with
    | some l => ({ s.bump F.WH_ERR_CNT_POISON with freeCtr := s.freeCtr + 1 }, .error (l * 64 - a))
    | none => ({ s with freeCtr := s.freeCtr + 1 },
        .ok ((List.range n).map fun i => (cellAt s.wh (s.whKey (a + i))).getD (Config.whByte s.whEra (s.whKey (a + i)))))

/-- A write of the Warehouse; nothing is stored while it is not in service. -/
def State.whWrite (s : State) (a : Nat) (bs : List Byte) : State :=
  if s.whReady then { s with wh := bs.zipIdx.foldl (fun m x => spIns m (s.whKey (a + x.2)) x.1) s.wh } else s

/-- A read of host memory through the CXL.cache copy (R389); it fails while the link is down (R429). -/
def State.hostRead (s : State) (a n : Nat) : State × Except Nat (List Byte) :=
  if !s.up.linkUp then (s, .error 0)
  else
    match (linesOf a n).find? s.hostMem.bad.contains with
    | some l => (s, .error (l * 64 - a))
    | none => (s, .ok ((List.range n).map fun i => (cellAt s.hostMem.cells (a + i)).getD (Config.hostByte (a + i))))

/-- A write of host memory: held while the link is down without PERST_L, discarded under PERST_L (R429). -/
def State.hostWrite (s : State) (a : Nat) (bs : List Byte) : State :=
  if s.up.perst then s
  else if s.up.linkUp then { s with hostMem := { s.hostMem with cells := putCells s.hostMem.cells a bs } }
  else { s with up := { s.up with held := s.up.held ++ [(a, bs)] } }

/-- A read by SPACE code (R106): 2 Dock, 3 Warehouse, 4 host memory. -/
def State.memRead (s : State) (source space a n : Nat) : State × Except Nat (List Byte) :=
  match space with
  | 2 => s.dockRead source a n
  | 3 => s.whRead a n
  | 4 => s.hostRead a n
  | _ => (s, .error 0)

/-- A write by SPACE code. -/
def State.memWrite (s : State) (space a : Nat) (bs : List Byte) : State :=
  match space with
  | 2 => s.dockWrite a bs
  | 3 => s.whWrite a bs
  | 4 => s.hostWrite a bs
  | _ => s

/-! ### Descriptor pointers (R106) -/

def ptrSpace (p : Word64) : Nat := bits p 60 4
def ptrAddr (p : Word64) : Nat := bits p 0 48

/-- The lowest address of the hardware reserve (R212). -/
def State.rsvBase (s : State) : Nat := s.get F.DK_RSV_BASE_ADDR

/-- Bytes that a space offers a pointer: Dock up to the reserve, the Warehouse in service, the 48 bits of host
addresses (R106, R206, R212). -/
def State.spaceEnd (s : State) (space : Nat) : Nat :=
  match space with
  | 2 => s.rsvBase
  | 3 => s.whBytes
  | 4 => 2 ^ 48
  | _ => 0

/-- Whether a pointer is one whatever its length (R106): SPACE is 0, 2, 3 or 4, bits 59 to 48 are zero, the address is a
multiple of 64 and not past the end of its space. -/
def State.ptrSelf (s : State) (p : Word64) : Bool :=
  bits p 48 12 = 0 && ptrAddr p % 64 = 0 &&
    (ptrSpace p = 0 || ((ptrSpace p = 2 || ptrSpace p = 3 || ptrSpace p = 4) && ptrAddr p ≤ s.spaceEnd (ptrSpace p)))

/-- Whether a pointer and its length agree: SPACE 0 goes with length 0 only, and the range fits in its space (R106). -/
def State.ptrFits (s : State) (p : Word64) (len : Nat) : Bool :=
  if ptrSpace p = 0 then len = 0 else ptrAddr p + len ≤ s.spaceEnd (ptrSpace p)

/-- Whether a pointer with its length is valid (R106). -/
def State.ptrOk (s : State) (p : Word64) (len : Nat) : Bool := s.ptrSelf p && s.ptrFits p len

/-- The bytes of a structure that a pointer names. -/
def State.ptrRead (s : State) (source : Nat) (p : Word64) (len : Nat) : State × Except Nat (List Byte) :=
  if len = 0 then (s, .ok []) else s.memRead source (ptrSpace p) (ptrAddr p) len

/-- The 64-bit word at a byte offset of a structure. -/
def word64At (bs : List Byte) (off : Nat) : Word64 := BitVec.ofNat 64 (leNat ((bs.drop off).take 8))

/-- The number in `n` bytes at a byte offset. -/
def natAt (bs : List Byte) (off n : Nat) : Nat := leNat ((bs.drop off).take n)

/-- A word as eight bytes. -/
def wordBytes (w : Word64) : List Byte := leBytes w.toNat 8

/-- The bytes of words at byte offsets, `len` bytes in all, zero elsewhere. -/
def layWords (len : Nat) (l : List (Nat × Word64)) : List Byte :=
  (List.range len).map fun i =>
    match l.find? fun p => p.1 ≤ i && i < p.1 + 8 with
    | some p => BitVec.ofNat 8 (p.2.toNat >>> (8 * (i - p.1)))
    | none => 0

end Sys2Proof.Machine
end

