-- ==== Sys2Proof/Machine/Access.lean ====
section
/-! DEFINITION. Register accesses: who may write what (R4, R10, R11, R28, R395, R432), how a written word reaches the
fields of a register (R12, R396), and the programmable counters' view of both (R407). -/

namespace Sys2Proof.Machine

/-- Whether configuration is sealed (R396). -/
def State.isSealed (s : State) : Bool := s.get F.GEN_STATUS_SEALED = 1

def State.bootDone (s : State) : Bool := s.get F.GEN_STATUS_BOOT_DONE = 1

/-- Whether the main stages are up, so that registers can be reached (R426). -/
def State.powered (s : State) : Bool := s.sup.rails = .main

/-- One field's new value and whether the attempt on it is denied (R12). -/
def writeField (locked : Bool) (old v : Word64) (f : Fld) : Nat × Bool :=
  let o := bits old f.lo f.width
  let n := bits v f.lo f.width
  match f.acc with
  | .rw => (n, false)
  | .ro => (o, false)
  | .w1c => ((BitVec.ofNat 64 o &&& ~~~(BitVec.ofNat 64 n)).toNat % 2 ^ f.width, false)
  | .w1s => ((BitVec.ofNat 64 o ||| BitVec.ofNat 64 n).toNat, false)
  | .wo => (o, false)
  | .rwl => if locked && n != o then (o, true) else (if locked then o else n, false)

/-- A written word applied field by field; reserved bits are ignored (R12). -/
def applyFields (locked : Bool) (fs : List Fld) (old v : Word64) : Word64 × Bool :=
  fs.foldl (fun (w, d) f => let p := writeField locked old v f; (putBits w f.lo f.width p.1, d || p.2)) (old, false)

/-- The fields of a register that a requester may write: all, but for the registers whose line names requesters field
by field. -/
def fieldsFor (r : Reg) (req : Requester) : List Fld :=
  match r, req with
  | .PM_CAP, .host => [F.PM_CAP_CAP_W]
  | .PM_CAP, _ => [F.PM_CAP_TRIP_W]
  | r, _ => (regDesc r).fields

/-- A word written to a register by its general rule (R12): the fields change, and an attempt on a sealed field is
logged. -/
def State.applyWrite (s : State) (req : Requester) (r : Reg) (idx : List Nat) (v : Word64) : State :=
  let p := applyFields s.isSealed (fieldsFor r req) (s.rd r idx) v
  let s := s.wr r idx p.1
  if p.2 then s.deny req 0 (regAddr r idx) else s

/-- The committed owner of a work ring (R98). -/
def State.ringOwner (s : State) (ring : Nat) : Requester :=
  if s.cget F.WK_RING_CFG_OWNER [ring] = 1 then .hm else .host

/-- Whether the "written by" line of a register names a requester (R11); a work ring's line names its committed owner,
and HOST while the ring is OFF. -/
def State.mayWrite (s : State) (req : Requester) (r : Reg) (idx : List Nat) : Bool :=
  match (regDesc r).writers with
  | .by l => l.contains req
  | .ringOwner =>
    let ring := idx.headD 0
    req = s.ringOwner ring || (req = .host && s.get F.WK_RING_CTRL_STATE [ring] = 0)

/-- What the access checks make of a write. -/
inductive WriteCheck where
  /-- no effect, not logged (R10) -/
  | drop
  /-- no effect, logged with ACCESS_DENIED -/
  | deny
  /-- the request buffer of the mailbox takes the word -/
  | mailbox
  | reg (r : Reg) (idx : List Nat)
deriving DecidableEq, Repr

/-- Whether a register is the window register of a Pavilion beyond the grade's count (R4). -/
def State.beyondGrade (s : State) (off : Nat) : Bool :=
  decide (0x01000000 ≤ off ∧ off < 0x02000000 ∧ s.pavCount ≤ (off - 0x01000000) / 0x4000)

/-- The checks of a BAR0 write in the order width, boot, range, requester (R4, R10, R11, R28, R432). -/
def State.checkWrite (s : State) (req : Requester) (off size : Nat) : WriteCheck :=
  if !s.powered || size ≠ 8 || off % 8 ≠ 0 then .drop
  else if !s.bootDone && req ≠ .gh && 0x100000 ≤ off && off < 0x04000000 then .deny
  else if 0x02100000 ≤ off && off < 0x03000000 then .deny
  else if 0x02008000 ≤ off && off < 0x0200C000 then (if req = .gh then .deny else .mailbox)
  else if 0x0200C000 ≤ off && off < 0x02010000 then .deny
  else if s.beyondGrade off then .deny
  else
    match findReg off with
    | none => .drop
    | some (r, idx) => if s.mayWrite req r idx then .reg r idx else .deny

/-- The check of a write to the register `r` by a row of its own: the same check, at its offset. -/
def State.checkReg (s : State) (req : Requester) (r : Reg) (idx : List Nat) : Bool :=
  (s.bootDone || req = .gh || regAddr r idx < 0x100000) && !s.beyondGrade (regAddr r idx) && s.mayWrite req r idx

/-- Bit of the REQ mask for a requester (R407). -/
def reqBit : Requester → Nat
  | .gh => 0
  | .hm => 1
  | .host => 2

/-- One programmable counter's increment for an access of KIND `kind` at `where_`, with the requester's and access's
mask bits, or the traffic class (R407). -/
def State.pcCount1 (s : State) (kind : Nat) (pass : Nat → Bool) (pos n : Nat) (k : Nat) : State :=
  if s.get F.TL_PC_CFG_EN [k] = 1 && s.get F.TL_PC_CFG_KIND [k] = kind && pass k
      && s.get F.TL_PC_LO_LO [k] ≤ pos && pos ≤ s.get F.TL_PC_HI_HI [k] then
    s.advance F.TL_PC_VAL_COUNT [k] n
  else s

/-- Every programmable counter's increment for one occurrence. -/
def State.pcCount (s : State) (kind : Nat) (pass : State → Nat → Bool) (pos : Nat) (n : Nat := 1) : State :=
  (List.range 64).foldl (fun s k => s.pcCount1 kind (pass s) pos n k) s

/-- The REQ and ACC masks of KINDs 0 and 1 (R407). -/
def accPass (req : Requester) (acc : Nat) (s : State) (k : Nat) : Bool :=
  (s.get F.TL_PC_CFG_REQ [k]).testBit (reqBit req) && (s.get F.TL_PC_CFG_ACC [k]).testBit acc

/-- A BAR0 access counted (KIND 0): `acc` 0 a read, 1 a write that takes effect, 2 a write dropped. -/
def State.countBar0 (s : State) (req : Requester) (acc off : Nat) : State := s.pcCount 0 (accPass req acc) off

/-- Whether an array of registers has these indices. -/
def idxIn (r : Reg) (idx : List Nat) : Bool :=
  idx.length = (regDesc r).dims.length && (idx.zip (regDesc r).dims).all fun x => decide (x.1 < x.2.2)

/-- A write to one register through its own row; indices that name no register write nothing (R10): checked as every write is (R11, R28), then `eff`, and counted. -/
def State.rowWrite (s : State) (req : Requester) (r : Reg) (idx : List Nat) (eff : State → State) : State :=
  if !s.powered || !idxIn r idx then s
  else if s.checkReg req r idx then (eff s).countBar0 req 1 (regAddr r idx)
  else (s.deny req 0 (regAddr r idx)).countBar0 req 2 (regAddr r idx)

end Sys2Proof.Machine
end

