-- ==== Sys2Proof/Machine/Pcs.lean ====
section
/-! DEFINITION. The native PCS (R290 to R295): blocks, the scrambler, the RS(544,514) code over GF(2^10) with errors and erasures, the
inner code on PAM4 levels, and a codeword as it is sent and received. Bit 0 of a number is the bit transmitted first. -/

namespace Sys2Proof.Machine

/-! ### GF(2^10) with x^10 + x^3 + 1 (R291) -/

def gf10Double (a : Nat) : Nat := if a < 512 then 2 * a else (2 * a) ^^^ 0x409

def gf10MulBits : Nat → Nat → Nat → Nat
  | 0, _, _ => 0
  | n + 1, a, b => (if b.testBit 0 then a else 0) ^^^ gf10MulBits n (gf10Double a) (b / 2)

def gf10Mul (a b : Nat) : Nat := gf10MulBits 10 a b

/-- α^i. -/
def gf10Alpha : Nat → Nat
  | 0 => 1
  | i + 1 => gf10Double (gf10Alpha i)

/-- The product of the powers 2, 4, …, 2^n of an element; its inverse with n = 9. -/
def gf10InvFrom : Nat → Nat → Nat
  | 0, _ => 1
  | n + 1, a => let b := gf10Mul a a; gf10Mul b (gf10InvFrom n b)

def gf10Inv (a : Nat) : Nat := gf10InvFrom 9 a

/-! Polynomials: coefficients from the lowest. -/

def polyAdd (a b : List Nat) : List Nat :=
  (List.range (max a.length b.length)).map fun i => (a[i]?).getD 0 ^^^ (b[i]?).getD 0

def polyScale (c : Nat) (a : List Nat) : List Nat := a.map (gf10Mul c)

def polyMul (a b : List Nat) : List Nat := a.foldr (fun c r => polyAdd (polyScale c b) (0 :: r)) []

def polyEval (a : List Nat) (x : Nat) : Nat := a.foldr (fun c r => gf10Mul r x ^^^ c) 0

/-! ### The RS(544,514) code (R291) -/

/-- Thirty symbols side by side in one number, each doubled. -/
def vecDouble (v : Nat) : Nat :=
  let ones := (2 ^ 300 - 1) / 1023
  let top := (v >>> 9) &&& ones
  ((v &&& (511 * ones)) <<< 1) ^^^ (top * 9)

/-- A packed vector times a field element, over its `n` low bits from the top. -/
def vecScale (v c : Nat) : Nat → Nat
  | 0 => 0
  | n + 1 => vecDouble (vecScale v (c / 2) n) ^^^ (if c % 2 = 1 then v else 0)

/-- The generator, monic, with roots α^0 to α^29; its thirty low coefficients packed. -/
def rsGenerator : List Nat := (List.range 30).foldl (fun g i => polyMul g [gf10Alpha i, 1]) [1]

def rsGenPacked : Nat := ((rsGenerator.take 30).zipIdx).foldl (fun n x => n + x.1 <<< (10 * x.2)) 0

/-- Symbol `i` of a codeword's bits, its first bit least significant. -/
def symbolAt (c i : Nat) : Nat := (c >>> (10 * i)) % 1024

/-- The remainder of the first `n` message symbols, highest degree first, times x^30. -/
def rsRemainder (msg : Nat) : Nat → Nat
  | 0 => 0
  | n + 1 =>
    let r := rsRemainder msg n
    ((r <<< 10) % 2 ^ 300) ^^^ vecScale rsGenPacked ((r >>> 290) ^^^ symbolAt msg n) 10

/-- The thirty parity symbols of a message in transmission order, highest degree first. -/
def rsParity (msg : Nat) : Nat :=
  let r := rsRemainder msg 514
  (List.range 30).foldl (fun n j => n + symbolAt r (29 - j) <<< (10 * j)) 0

/-- The codeword of a message: the parity follows it. -/
def rsEncode (msg : Nat) : Nat := msg + rsParity msg <<< 5140

/-- Whether the 5,440 bits are a codeword. -/
def rsValid (c : Nat) : Bool := rsParity (c % 2 ^ 5140) = c >>> 5140

/-- The syndromes of received symbols: their values at α^0 to α^29. -/
def rsSyndromes (c : Nat) : List Nat :=
  (List.range 30).map fun i =>
    let a := gf10Alpha i
    (List.range 544).foldl (fun v j => gf10Mul v a ^^^ symbolAt c j) 0

/-- A locator search under way: Λ, B and the length L. -/
structure Locator where
  lam : List Nat
  b : List Nat
  len : Nat
deriving DecidableEq, Repr

/-- One step of Berlekamp and Massey's search at syndrome `k`, with `s` erasures. -/
def Locator.next (x : Locator) (syn : List Nat) (s k : Nat) : Locator :=
  let d := (x.lam.zipIdx).foldl (fun n c => if c.2 ≤ k then n ^^^ gf10Mul c.1 ((syn[k - c.2]?).getD 0) else n) 0
  let xb := 0 :: x.b
  if d = 0 then { x with b := xb }
  else
    let lam := polyAdd x.lam (polyScale d xb)
    if 2 * x.len ≤ k + s then ⟨lam, polyScale (gf10Inv d) x.lam, k + 1 + s - x.len⟩ else ⟨lam, xb, x.len⟩

/-- The error and erasure locator of syndromes, the erased symbols given by number. -/
def rsLocator (syn : List Nat) (erased : List Nat) : List Nat :=
  let gam := erased.foldl (fun g i => polyMul g [1, gf10Alpha (543 - i)]) [1]
  let s := erased.length
  ((List.range (30 - s)).foldl (fun (x : Locator) j => x.next syn s (s + j)) ⟨gam, gam, s⟩).lam

/-- The value to add to symbol `i`, a root of the locator (Forney). -/
def rsValue (lam omega : List Nat) (i : Nat) : Nat :=
  let x := gf10Alpha (543 - i)
  let inv := gf10Inv x
  let dlam := (lam.zipIdx.filter fun c => c.2 % 2 = 1).foldl (fun n c => n ^^^ gf10Mul c.1 (polyEval (List.replicate (c.2 - 1) 0 ++ [1]) inv)) 0
  gf10Mul x (gf10Mul (polyEval omega inv) (gf10Inv dlam))

/-- Decoding with a set of erasures: the codeword and the number of symbols corrected, where errors `e` and erasures `s` meet
2e + s ≤ 30. -/
def rsCorrect (c : Nat) (syn : List Nat) (erased : List Nat) : Option (Nat × Nat) :=
  let lam := rsLocator syn erased
  let omega := (polyMul syn lam).take 30
  let roots := (List.range 544).filter fun i => polyEval lam (gf10Inv (gf10Alpha (543 - i))) = 0
  let fix := (roots.map fun i => (i, rsValue lam omega i)).filter (·.2 ≠ 0)
  let c' := fix.foldl (fun n x => n ^^^ (x.2 <<< (10 * x.1))) c
  let e := (fix.filter fun x => !erased.contains x.1).length
  if rsValid c' && 2 * e + erased.length ≤ 30 then some (c', fix.length) else none

/-- The subsets of up to eight marked symbols, in ascending order of their bit masks. -/
def subsetsOf (marks : List Nat) : List (List Nat) :=
  let ms := (marks.filter (· < 544)).eraseDups.take 8
  (List.range (2 ^ ms.length)).map fun m => (ms.zipIdx.filter fun x => m.testBit x.2).map (·.1)

/-- The decoder of R294: the codeword and the number of symbols corrected. -/
def rsDecode (c : Nat) (marks : List Nat) : Option (Nat × Nat) :=
  if rsValid c then some (c, 0)
  else
    let syn := rsSyndromes c
    (subsetsOf marks).findSome? (rsCorrect c syn)

/-! ### The scrambler (R292) -/

/-- `len` bits scrambled after the 58 bits `st` sent before them, the oldest least significant, at most 39 at a time; the scrambled bits
and the last 58. -/
def scramble : Nat → Nat → Nat → Nat → Nat × Nat
  | 0, st, _, _ => (0, st)
  | fuel + 1, st, d, len =>
    if len = 0 then (0, st)
    else
      let l := min 39 len
      let t := (d ^^^ (st >>> 19) ^^^ st) % 2 ^ l
      let r := scramble fuel ((st + t <<< 58) >>> l) (d >>> l) (len - l)
      (t + r.1 <<< l, r.2)

/-- `len` received bits descrambled after the 58 received before them. -/
def descramble (st r len : Nat) : Nat × Nat :=
  let w := st + r <<< 58
  (((w ^^^ (w <<< 39) ^^^ (w <<< 58)) >>> 58) % 2 ^ len, w >>> len)

/-! ### Blocks (R290, R295) -/

/-- A block: its 2-bit header and its 32 bytes. -/
structure Block where
  header : BitVec 2
  body : List Byte
deriving DecidableEq, Repr

def Block.isData (b : Block) : Bool := b.header = 0b01#2
def Block.isControl (b : Block) : Bool := b.header = 0b10#2

/-- The control block types. -/
def Ctl.idle : Nat := 0x1E
def Ctl.credit : Nat := 0x2D
def Ctl.ack : Nat := 0x33
def Ctl.nak : Nat := 0x4B
def Ctl.beacon : Nat := 0x55
def Ctl.ident : Nat := 0x66
def Ctl.align : Nat := 0x78

def Block.type (b : Block) : Nat := natAt b.body 0 1

/-- Whether a block's header is valid, and its TYPE where it is a control block. -/
def Block.valid (b : Block) : Bool :=
  b.isData || (b.isControl && [Ctl.idle, Ctl.credit, Ctl.ack, Ctl.nak, Ctl.beacon, Ctl.ident, Ctl.align].contains b.type)

def dataBlock (bs : List Byte) : Block := ⟨0b01#2, bs⟩

/-- A control block with its 24 bytes of the frame stream, `nfo` where a frame begins in them. -/
def controlBlock (type content nfo : Nat) (stream : List Byte) : Block :=
  ⟨0b10#2, leBytes type 1 ++ leBytes nfo 1 ++ leBytes content 6 ++ stream⟩

/-- The bytes of the frame stream that a block holds (R296). -/
def Block.stream (b : Block) : List Byte := if b.isData then b.body else b.body.drop 8

/-! ### Messages (R291) -/

/-- Twenty blocks as a message: the headers, then the bodies, scrambled but for byte 0 of a control block; with the scrambler's state
after them. -/
def messageOf (st : Nat) (bs : List Block) : Nat × Nat :=
  (bs.zipIdx).foldl (fun (m, st) x =>
    let body := leNat x.1.body
    let at_ := 20 + 256 * x.2
    if x.1.isData then
      let r := scramble 7 st body 256
      (m + r.1 <<< at_, r.2)
    else
      let r := scramble 7 st (body >>> 8) 248
      (m + 1 <<< x.2 + (body % 256) <<< at_ + r.1 <<< (at_ + 8), r.2)) (0, st)

/-- The blocks of a received message, after the 58 body bits received before it. -/
def blocksOf (st msg : Nat) : List Block × Nat :=
  (List.range 20).foldl (fun (l, st) j =>
    let body := (msg >>> (20 + 256 * j)) % 2 ^ 256
    if msg.testBit j then
      let r := descramble st (body >>> 8) 248
      (l ++ [⟨0b10#2, leBytes (body % 256 + r.1 <<< 8) 32⟩], r.2)
    else
      let r := descramble st body 256
      (l ++ [dataBlock (leBytes r.1 32)], r.2)) ([], st)

/-! ### Levels (R294) -/

/-- The Gray code of a pair of bits, the first more significant. -/
def grayOf (a b : Bool) : Nat := if a then (if b then 2 else 3) else if b then 1 else 0

/-- The pair of bits of a Gray code, as a number whose bit 0 is the first. -/
def grayBits (g : Nat) : Nat := match g % 4 with | 0 => 0 | 1 => 2 | 2 => 3 | _ => 1

/-- The levels after `prev` whose differences are given. -/
def accumulate : Nat → List Nat → List Nat
  | _, [] => []
  | prev, g :: rest => let y := (g + prev) % 4; y :: accumulate y rest

/-- The differences of levels after `prev`. -/
def differences : Nat → List Nat → List Nat
  | _, [] => []
  | prev, y :: rest => (y + 4 - prev % 4) % 4 :: differences y rest

/-- The 2,720 levels of a codeword, with the inner code or without; a lane whose polarity is inverted sends each level's mirror. -/
def levelsOf (inner inverted : Bool) (c : Nat) : List Nat :=
  let g := (List.range 2720).map fun k => grayOf (c.testBit (2 * k)) (c.testBit (2 * k + 1))
  let y := if inner then accumulate 0 g else g
  if inverted then y.map (3 - ·) else y

/-- The bits that levels stand for. -/
def bitsOfLevels (inner inverted : Bool) (l : List Nat) : Nat :=
  let y := if inverted then l.map (3 - ·) else l
  let g := if inner then differences 0 y else y
  g.foldr (fun d n => 4 * n + grayBits d) 0

/-! ### Received codewords -/

/-- The blocks of a received codeword and the number of symbols corrected; none where it does not decode. -/
def decodeWord (w : RxWord) (inner inverted : Bool) : Option (List Block × Nat) :=
  if w.levels.length ≠ 2720 then none
  else (rsDecode (bitsOfLevels inner inverted w.levels) w.marks).map fun r => ((blocksOf w.prior (r.1 % 2 ^ 5140)).1, r.2)

/-- Whether a codeword is good (R307): it decodes, every control block has a valid TYPE, and in one with n mod 8 = 0 block 0 is a control
block where the stuffing rule is looked at. -/
def goodCodeword (w : RxWord) (inner inverted stuffed : Bool) : Bool :=
  match decodeWord w inner inverted with
  | some (bs, _) => bs.all (·.valid) && (!stuffed || w.n % 8 ≠ 0 || match bs with | b :: _ => b.isControl | [] => false)
  | none => false

end Sys2Proof.Machine
end

