-- ==== Sys2Proof/Machine/Ports.lean ====
section
/-! DEFINITION. Ports as the committed layout gives them (R229, R288, R289), the state of each, and the native header with
its check word (R230, R231). -/

namespace Sys2Proof.Machine

/-! ### Geometry (R229, R288, R289) -/

/-- A port's register indices: its Quay and its first lane in it. -/
def pidx (p : Nat) : List Nat := [p / 8, p % 8]

/-- Whether a port begins at lane `p` in the committed layout. -/
def State.isPort (s : State) (p : Nat) : Bool := p < 512 && (s.cget F.QY_LAYOUT_START [p / 8]).testBit (p % 8)

/-- The next port start of a Quay at or after lane `i`, 8 where there is none. -/
def nextStart (start : Nat) : Nat → Nat → Nat
  | 0, i => i
  | n + 1, i => if i ≥ 8 || start.testBit i then i else nextStart start n (i + 1)

def State.portWidth (s : State) (p : Nat) : Nat :=
  nextStart (s.cget F.QY_LAYOUT_START [p / 8]) 8 (p % 8 + 1) - p % 8

/-- The port that a lane belongs to. -/
def State.portOf (s : State) (lane : Nat) : Nat :=
  8 * (lane / 8) + (((List.range (lane % 8 + 1)).filter fun i =>
    (s.cget F.QY_LAYOUT_START [lane / 8]).testBit i).getLastD 0)

def State.isEth (s : State) (p : Nat) : Bool := (s.cget F.QY_LAYOUT_ETH [p / 8]).testBit (p % 8)

def State.portEnabled (s : State) (p : Nat) : Bool := (s.cget F.QY_LAYOUT_ENABLE [p / 8]).testBit (p % 8)

/-- The first lanes of all configured ports, ascending. -/
def State.portList (s : State) : List Nat := (List.range 512).filter s.isPort

def State.stage (s : State) (p : Nat) : Nat := s.get F.QY_PORT_STATUS_STAGE (pidx p)

/-- A port's link is up in stage 6. -/
def State.linkUp (s : State) (p : Nat) : Bool := s.stage p = 6

/-- A port's rate in Mb/s (R289). -/
def State.rateMbps (s : State) (p : Nat) : Nat :=
  if s.isEth p then 200000 * s.portWidth p
  else (match s.get F.QY_PORT_STATUS_GEN (pidx p) with
    | 1 => 100000
    | 2 => 200000
    | _ => 400000) * s.portWidth p

/-! Long-haul slots (R328, R329). -/

def State.slotState (s : State) (i : Nat) : Nat := s.get F.BW_LH_STATUS_STATE [i]
def State.slotValid (s : State) (i : Nat) : Bool := s.cget F.BW_LH_CFG_VALID [i] = 1
def State.slotPort (s : State) (i : Nat) : Nat := s.cget F.BW_LH_CFG_PORT [i]

/-- The long-haul slot that names a port (R329). -/
def State.slotOf (s : State) (p : Nat) : Option Nat :=
  (List.range 32).find? fun i => s.slotValid i && s.slotPort i = p

/-- A feature bit agreed with the partner (R309). -/
def State.feature (s : State) (p bit : Nat) : Bool := (s.get F.QY_PORT_STATUS_FEATURES (pidx p)).testBit bit

/-- Whether the port is under Lighthouse control (R315). -/
def State.lhPort (s : State) (p : Nat) : Bool := p % 8 = 0 && s.cget F.LH_PORT_CFG_EN [p / 8] = 1

/-- The native ports of R132. -/
def State.nativePort (s : State) (p : Nat) : Bool :=
  s.isPort p && !s.isEth p && !s.lhPort p && !(s.linkUp p && !s.feature p 2)

/-- The core die a port attaches to (R16). -/
def dieOf (p : Nat) : Nat := p / 128 % 4

/-! ### State of a port -/

/-- The PCS toward the lines as its numbering begins in cycle `now`. -/
def LineTx.fresh (now : Nat) : LineTx := ⟨0, now, [], [], false, 0, []⟩

def Link.fresh : Link := ⟨0, [], 0, 0, 0, none, [], [], [], [], [], LineTx.fresh 0⟩

def PortState.fresh : PortState :=
  ⟨0, 0, none, Link.fresh, [], none, none, 0, none, 0, false, 0, 0, [], [], false, [], 0, false, [], 0, 0, []⟩

def State.port (s : State) (p : Nat) : PortState := (spGet none s.quays.ports p).getD PortState.fresh

def State.setPort (s : State) (p : Nat) (x : PortState) : State :=
  { s with quays := { s.quays with ports := spPut none s.quays.ports p (some x) } }

def State.mapPort (s : State) (p : Nat) (f : PortState → PortState) : State := s.setPort p (f (s.port p))

def Circuit.fresh : Circuit := ⟨Link.fresh, 0, false, false, 0, none⟩
def Channel.fresh : Channel := ⟨[], none, none, false⟩

def State.channel (s : State) (q : Nat) : Channel := (spGet none s.quays.channels q).getD Channel.fresh

def State.setChannel (s : State) (q : Nat) (c : Channel) : State :=
  { s with quays := { s.quays with channels := spPut none s.quays.channels q (some c) } }

def Channel.circuit (c : Channel) (k : Nat) : Circuit := (spGet none c.circuits k).getD Circuit.fresh

def Channel.setCircuit (c : Channel) (k : Nat) (x : Circuit) : Channel :=
  { c with circuits := spPut none c.circuits k (some x) }

/-- The link a port now uses: its own, or that of the circuit lit on its channel (R317). -/
def State.link (s : State) (p : Nat) : Link :=
  if s.lhPort p then
    match (s.channel (p / 8)).lit with
    | some k => ((s.channel (p / 8)).circuit k).link
    | none => Link.fresh
  else (s.port p).link

def State.setLink (s : State) (p : Nat) (l : Link) : State :=
  if s.lhPort p then
    match (s.channel (p / 8)).lit with
    | some k =>
      let c := s.channel (p / 8)
      s.setChannel (p / 8) (c.setCircuit k { c.circuit k with link := l })
    | none => s
  else s.mapPort p fun x => { x with link := l }

def State.mapLink (s : State) (p : Nat) (f : Link → Link) : State := s.setLink p (f (s.link p))

/-- A control block given to a port's PCS (R295). -/
def State.sendCtl (s : State) (p type content : Nat) : State :=
  (s.send (.control p type content)).mapLink p fun l => { l with tx := { l.tx with ctl := l.tx.ctl ++ [(type, content)] } }

/-! ### Gate entries (R268, R316, R322, R325) -/

def gateOpen (e : Word64) : Nat := bits e 0 16
def gateCsel (e : Word64) : Nat := bits e 16 10
def gateDur (e : Word64) : Nat := bits e 32 32

/-- Whether the class is open in the entry. -/
def classOpen (e : Word64) (c : Nat) : Bool := (gateOpen e).testBit c

/-- The committed list of a port. -/
def State.gateEntries (s : State) (p : Nat) : List Word64 :=
  (List.range (s.cget F.SC_GATE_CTL_COUNT [p])).map fun i => spGet 0 s.sched.gateList (1024 * p + i)

/-- Whether an entry names a circuit of the channel that is CONFIRMING or WITHDRAWN (R322). -/
def State.shutCircuit (s : State) (p : Nat) (e : Word64) : Bool :=
  gateCsel e < 64 && (let st := s.get F.LH_CIRCUIT_STATE [p / 8, gateCsel e]; st = 1 || st = 3)

/-- An entry as it acts: on a channel it has OPEN = 0 where it is dark, where its circuit is CONFIRMING or WITHDRAWN, and while the
channel is calibrated (R316, R322, R325). -/
def State.inForce (s : State) (p : Nat) (e : Word64) : Word64 :=
  if s.lhPort p && (s.get F.LH_PORT_STATUS_CALIBRATING [p / 8] = 1 || 64 ≤ gateCsel e || s.shutCircuit p e) then putBits e 0 16 0 else e

/-- Since when a class of a channel is open only in entries of withdrawn or confirming circuits, by their latest withdrawal
(R323). -/
def State.blockedAt (s : State) (p c : Nat) : Option Nat :=
  let es := (s.gateEntries p).filter (classOpen · c)
  if s.lhPort p && es.all (s.shutCircuit p) then
    (es.filterMap fun e => ((s.channel (p / 8)).circuit (gateCsel e)).withdrawnAt).max?
  else none

end Sys2Proof.Machine

namespace Sys2Proof

/-! ### Check words (R231, R296) -/

/-- `n` bit steps of a reflected CRC with polynomial `poly`. -/
def crcSteps (poly : Nat) : Nat → Nat → Nat
  | 0, c => c
  | n + 1, c => crcSteps poly n (if c % 2 = 1 then (c / 2) ^^^ poly else c / 2)

/-- A reflected CRC over bytes. -/
def crcFold (poly init : Nat) (bs : List Byte) : Nat := bs.foldl (fun c b => crcSteps poly 8 (c ^^^ b.toNat)) init

/-- CRC-32C: polynomial 0x1EDC6F41 reflected, initial value and final XOR all ones (R231). -/
def crc32c (bs : List Byte) : Nat := crcFold 0x82F63B78 0xFFFFFFFF bs ^^^ 0xFFFFFFFF

/-- CRC-32 of IEEE 802.3, the FCS of an Ethernet frame (R303). PRESUMED: the polynomial and form of the standard. -/
def crc32 (bs : List Byte) : Nat := crcFold 0xEDB88320 0xFFFFFFFF bs ^^^ 0xFFFFFFFF

/-- A frame padded to the least length of a MAC frame, with its FCS (R302, R303). -/
def etherFrame (bs : List Byte) : List Byte :=
  let b := bs ++ List.replicate (60 - bs.length) 0
  b ++ leBytes (crc32 b) 4

/-- The frame CRC of R296: polynomial 0x42F0E1EBA9EA3693 reflected, initial value and final XOR all ones. -/
def crc64 (bs : List Byte) : Nat := crcFold 0xC96C5795D7870F42 0xFFFFFFFFFFFFFFFF bs ^^^ 0xFFFFFFFFFFFFFFFF

/-! ### The native header (R230) -/

def Header.word0 (h : Header) : Nat :=
  h.ver % 16 + (h.kind % 8) * 2 ^ 4 + h.cm.toNat * 2 ^ 8 + h.mc.toNat * 2 ^ 9 + h.spray.toNat * 2 ^ 10
    + h.mirrored.toNat * 2 ^ 11 + (h.tc % 16) * 2 ^ 12 + (h.dst % 2 ^ 24) * 2 ^ 16 + (h.src % 2 ^ 24) * 2 ^ 40

def Header.word1 (h : Header) : Nat :=
  h.job % 2 ^ 12 + (h.len % 2 ^ 14) * 2 ^ 16 + (h.hops % 2 ^ 8) * 2 ^ 32 + (h.flow % 2 ^ 16) * 2 ^ 48

def Header.word2 (h : Header) : Nat := h.fseq % 2 ^ 32 + (h.tstamp % 2 ^ 32) * 2 ^ 32

/-- Bytes 0x00 to 0x1B, which HCRC covers. -/
def Header.covered (h : Header) : List Byte :=
  leBytes h.word0 8 ++ leBytes h.word1 8 ++ leBytes h.word2 8 ++ leBytes 0 4

def Header.crc (h : Header) : Nat := crc32c h.covered

def Header.bytes (h : Header) : List Byte := h.covered ++ leBytes h.hcrc 4

/-- The header with HCRC recomputed (R231). -/
def Header.fill (h : Header) : Header := { h with hcrc := h.crc }

def Packet.fill (p : Packet) : Packet := { p with hdr := p.hdr.fill }

/-- Header and body as bytes. -/
def Packet.bytes (p : Packet) : List Byte := p.hdr.bytes ++ p.body

/-- L of R262 and R296: 32 + LEN. -/
def Packet.size (p : Packet) : Nat := 32 + p.hdr.len

/-- Cells of 256 bytes. -/
def Packet.cells (p : Packet) : Nat := (p.size + 255) / 256

/-- Bytes that a native frame of a packet takes (R296). -/
def frameBytes (pkt : Packet) : Nat := pkt.size + 24

/-- Credits that a frame charges (R299). -/
def frameCredits (pkt : Packet) : Nat := (frameBytes pkt + 255) / 256

/-- The frame of a packet (R296); an injected error spoils its CRC. -/
def frameOf (lseq : Nat) (badCrc : Bool) (pkt : Packet) : List Byte :=
  let head := [0xFB#8, 0#8] ++ leBytes pkt.size 2 ++ leBytes lseq 4 ++ pkt.bytes
  head ++ leBytes (crc64 head ^^^ badCrc.toNat) 8 ++ [0xFD#8] ++ leBytes pkt.hdr.tc 1 ++ [0#8, 0#8] ++ leBytes lseq 4

/-- The packet that bytes hold. -/
def packetOf (bs : List Byte) : Packet :=
  let w (i : Nat) : Word64 := Machine.word64At bs (8 * i)
  ⟨{ ver := bits (w 0) 0 4, kind := bits (w 0) 4 3, cm := bits (w 0) 8 1 = 1, mc := bits (w 0) 9 1 = 1,
     spray := bits (w 0) 10 1 = 1, mirrored := bits (w 0) 11 1 = 1, tc := bits (w 0) 12 4, dst := bits (w 0) 16 24,
     src := bits (w 0) 40 24, job := bits (w 1) 0 12, len := bits (w 1) 16 14, hops := bits (w 1) 32 8,
     flow := bits (w 1) 48 16, fseq := bits (w 2) 0 32, tstamp := bits (w 2) 32 32, hcrc := bits (w 3) 32 32 },
   bs.drop 32⟩

end Sys2Proof

namespace Sys2Proof.Machine

/-! ### Timestamps (R278, R279) -/

/-- Clocktower nanoseconds, in 32 bits. -/
def State.ts32 (s : State) : Nat := s.ctNs % 2 ^ 32

/-- A signed 32-bit correction. -/
def signed32 (n : Nat) : Int := if n < 2 ^ 31 then n else (n : Int) - 2 ^ 32

/-- The present time to half a nanosecond, in 1/256 ns (R281). -/
def State.ctHalf (s : State) : Nat := s.ctNs * 256 + s.clock.frac / 2 ^ 39 * 128

/-- The present time at the medium of a port's ingress, in 1/256 ns (R279). -/
def State.ingressStamp (s : State) (p : Nat) : Int := (s.ctHalf : Nat) - signed32 (s.get F.CT_PORT_CORR_INGRESS [p])

def State.egressStamp (s : State) (p : Nat) : Int := (s.ctHalf : Nat) + signed32 (s.get F.CT_PORT_CORR_EGRESS [p])

/-! ### PTP event messages (R281, R282)

PRESUMED: the places of the message type and of the correctionField are those of IEEE 1588-2019, those of the headers before it those of
IEEE 802.3, IPv4, IPv6 and UDP; event messages go to UDP port 319. -/

/-- Where a PTP message stands among bytes, and where its UDP checksum does, over IPv6 or not. -/
structure PtpPlace where
  msg : Nat
  sum : Option Nat
  v6 : Bool
deriving DecidableEq, Repr

/-- A big-endian number of 16 bits. -/
def be16At (bs : List Byte) (o : Nat) : Nat := natAt bs o 1 * 256 + natAt bs (o + 1) 1

/-- The PTP message of an Ethernet frame, with or without a tag: EtherType 0x88F7, or UDP over IPv4 or IPv6. -/
def etherPtp (bs : List Byte) : Option PtpPlace :=
  let o := if be16At bs 12 = 0x8100 then 18 else 14
  let ihl := 4 * (natAt bs o 1 % 16)
  match be16At bs (o - 2) with
  | 0x88F7 => some ⟨o, none, false⟩
  | 0x0800 => if natAt bs (o + 9) 1 = 17 && be16At bs (o + ihl + 2) = 319 then some ⟨o + ihl + 8, some (o + ihl + 6), false⟩ else none
  | 0x86DD => if natAt bs (o + 6) 1 = 17 && be16At bs (o + 42) = 319 then some ⟨o + 48, some (o + 46), true⟩ else none
  | _ => none

/-- The PTP message of a native packet: CONTROL with FLOW 0x88F7 holds it directly; with the EtherType of IPv4 or IPv6 it holds a
frame. -/
def nativePtp (pkt : Packet) : Option PtpPlace :=
  if pkt.hdr.kind ≠ 3 then none
  else if pkt.hdr.flow = 0x88F7 then some ⟨0, none, false⟩
  else if pkt.hdr.flow = 0x0800 || pkt.hdr.flow = 0x86DD then etherPtp pkt.body
  else none

/-- Whether the message is an event message: Sync, Delay_Req, Pdelay_Req or Pdelay_Resp, whole up to its correctionField. -/
def ptpEvent (bs : List Byte) (m : PtpPlace) : Bool := m.msg + 16 ≤ bs.length && natAt bs m.msg 1 % 16 ≤ 3

/-- An event message's timestamp taken for the Harbourmaster (R281). -/
def State.noteFrame (s : State) (p : Nat) (egress : Bool) (bs : List Byte) (place : Option PtpPlace) (stamp : Int) : State :=
  match place with
  | some m => if ptpEvent bs m then { s with clock := { s.clock with events := s.clock.events ++ [⟨p, egress, bs.drop m.msg, stamp⟩] } } else s
  | none => s

def State.noteEvent (s : State) (p : Nat) (egress : Bool) (pkt : Packet) (stamp : Int) : State :=
  s.noteFrame p egress pkt.body (nativePtp pkt) stamp

/-- Bytes replaced from an offset on. -/
def patch (bs : List Byte) (o : Nat) (new : List Byte) : List Byte := bs.take o ++ new ++ bs.drop (o + new.length)

/-- The sum of 16-bit words in ones' complement. -/
def onesSum (l : List Nat) : Nat := l.foldl (fun a b => let t := a + b; t % 65536 + t / 65536) 0

/-- A UDP checksum brought up to date for words that changed; zero is sent as all ones. -/
def sumUpdate (sum : Nat) (old new : List Nat) : Nat :=
  let c := 65535 - onesSum ((65535 - sum) :: old.map (65535 - ·) ++ new)
  if c = 0 then 65535 else c

def be16s (bs : List Byte) (o n : Nat) : List Nat := (List.range n).map fun i => be16At bs (o + 2 * i)

/-- A message with `r` (in 1/256 ns) added to its correctionField, bytes 8 to 15, big-endian in 2^-16 ns; the UDP checksum is updated
over IPv6 and zero over IPv4 (R282). -/
def addResidence (bs : List Byte) (m : PtpPlace) (r : Int) : List Byte :=
  let o := m.msg + 8
  let old : Int := (BitVec.ofNat 64 (natAt ((bs.drop o).take 8).reverse 0 8)).toInt
  let new := patch bs o (leBytes (BitVec.ofInt 64 (old + 256 * r)).toNat 8).reverse
  match m.sum with
  | some u => patch new u (leBytes (if m.v6 then sumUpdate (be16At bs u) (be16s bs o 4) (be16s new o 4) else 0) 2).reverse
  | none => new

end Sys2Proof.Machine
end

