-- ==== Sys2Proof/Machine/BasinCore.lean ====
section
/-! DEFINITION. The Basin's shared operations: class queues and their tags (R261 to R263), buffer admission (R236),
packets this module originates (R235), the Harbour tables (R250 to R255) and the choice of a bundle member (R245 to
R247). -/

namespace Sys2Proof.Machine

/-! ### Commits that wait (R120 to R122, R285) -/

def State.commit? (s : State) (set inst : Nat) : Option Commit := s.commits.find? fun c => c.set = set && c.inst = inst

/-- Whether the time of an AT_TIME commit has come (R285): a step backward does not undo it. -/
def State.timeCome (s : State) (c : Commit) : Bool :=
  c.since.isSome || match c.atTime with
    | none => true
    | some (sec, ns) => sec * 1000000000 + ns ≤ s.ctNs

/-! ### Weights, bursts, tags (R262) -/

/-- Byte `c` of the register pair that holds one byte per class. -/
def State.classByte (s : State) (lo hi : Reg) (p c : Nat) : Nat :=
  bits (s.rd (if c < 8 then lo else hi) [p]) (8 * (c % 8)) 8

def State.weight (s : State) (p c : Nat) : Nat := s.classByte .SC_WEIGHT_LO .SC_WEIGHT_HI p c
def State.burst (s : State) (p c : Nat) : Nat := s.classByte .SC_BURST_LO .SC_BURST_HI p c

/-- Whether tag `a` is at or after tag `b`, modulo 2^48. -/
def tagLe (b a : Nat) : Bool := (a + 2 ^ 48 - b % 2 ^ 48) % 2 ^ 48 < 2 ^ 47

/-- The finish tag of a packet of `l` bytes at the head of a queue with tag `f`, in the port's virtual time `v`. -/
def finishTag (empty : Bool) (f v w b l : Nat) : Nat :=
  let c := (v + 2 ^ 48 - (b * 1024 * 256 / w) % 2 ^ 48) % 2 ^ 48
  ((if empty && tagLe f c then c else f) + l * 256 / w) % 2 ^ 48

def ClassQueue.none : ClassQueue := ⟨[], 0⟩

def State.classQ (s : State) (p c : Nat) : ClassQueue := spGet ClassQueue.none s.basin.egress (16 * p + c)

def State.setClassQ (s : State) (p c : Nat) (q : ClassQueue) : State :=
  { s with basin := { s.basin with egress := spPut ClassQueue.none s.basin.egress (16 * p + c) q } }

/-- The tag of queue `c` of port `p` once `pkt` stands at its head. -/
def State.headTag (s : State) (p c : Nat) (empty : Bool) (f : Nat) (pkt : Packet) : Nat :=
  let w := s.weight p c
  if w = 0 then f else finishTag empty f (spGet 0 s.basin.vtime p) w (s.burst p c) pkt.size

/-- A complete packet joins its class queue (R238, R262). -/
def State.toClassQ (s : State) (p : Nat) (x : BPkt) : State :=
  let c := x.pkt.hdr.tc
  let q := s.classQ p c
  if q.pkts.isEmpty then s.setClassQ p c ⟨[x], s.headTag p c true q.tag x.pkt⟩
  else s.setClassQ p c { q with pkts := q.pkts ++ [x] }

/-! ### The buffer (R236) -/

/-- Cells of a queued packet that have not crossed. -/
def Queued.rest (q : Queued) : Nat := q.cells - q.crossed

/-- Cells of the packets of a virtual output queue that `f` names. -/
def Voq.cellsOf (v : Voq) (f : BPkt → Bool) : Nat := v.pkts.foldl (fun n q => if f q.pkt then n + q.rest else n) 0

def Voq.cells (v : Voq) : Nat := v.cellsOf fun _ => true

/-- Whether a queue is that of a Quay, an egress port and a class. -/
def Voq.is (v : Voq) (quay e c : Nat) : Bool := v.quay = quay && v.egress = e && v.cls = c

/-- Whether a packet arrived on a port in a class. -/
def BPkt.cameIn (x : BPkt) (p c : Nat) : Bool := !x.orig && x.port = p && x.pkt.hdr.tc = c

/-- Cells that an ingress port and class hold, contributions that wait and packets that wait for a lookup among them (R237,
R258). -/
def State.held (s : State) (p c : Nat) : Nat :=
  (s.basin.voqs.foldl (fun n v => n + v.cellsOf (·.cameIn p c)) 0)
    + (s.basin.lookups.foldl (fun n x => if x.cameIn p c then n + x.pkt.cells else n) 0)
    + (s.basin.mc.foldl (fun n f => if f.ingress = p && f.cls = c then n + f.pkts.foldl (fun m q => m + q.left) 0 else n) 0)
    + (s.basin.steered.foldl (fun n x => if x.1 = p && x.2.hdr.tc = c then n + x.2.cells else n) 0)

/-- Credits given for a class and not yet taken by an accepted frame (R299). -/
def State.outstanding (s : State) (p c : Nat) : Nat := spGet 0 (s.link p).given c - spGet 0 (s.link p).taken c

/-- Ports and classes of a die that hold any cell or have credits out. -/
def State.holders (s : State) (die : Nat) : List (Nat × Nat) :=
  ((s.basin.voqs.flatMap fun v => (v.pkts.filter (!·.pkt.orig)).map fun q => (q.pkt.port, v.cls))
    ++ (s.basin.lookups.map fun x => (x.port, x.pkt.hdr.tc)) ++ (s.basin.mc.map fun f => (f.ingress, f.cls))
    ++ (s.basin.steered.map fun x => (x.1, x.2.hdr.tc))
    ++ (s.quays.ports.flatMap fun x => (s.link x.1).given.map fun g => (x.1, g.1))).eraseDups.filter fun x => dieOf x.1 = die

/-- Cells of a die that packets of this module's own hold. -/
def State.ownCells (s : State) (die : Nat) : Nat :=
  s.basin.voqs.foldl (fun n v => n + v.cellsOf fun x => x.orig && dieOf x.port = die) 0

/-- Free shared cells of a die; cells for credits already granted are held back (R236). -/
def State.sharedFree (s : State) (die : Nat) : Nat :=
  let r := s.get F.BS_BUF_CFG_RSV_CELLS
  262144 - 8192 - 2048 * r - s.ownCells die - (s.holders die).foldl (fun n x => n + (s.held x.1 x.2 + s.outstanding x.1 x.2 - r)) 0

def State.lossless (s : State) (p c : Nat) : Bool := !s.isEth p && (s.get F.BS_CTRL_LOSSLESS).testBit c

/-- Whether `n` more cells of a lossy packet fit an ingress port and class. -/
def State.fits (s : State) (p c n : Nat) : Bool :=
  let r := s.get F.BS_BUF_CFG_RSV_CELLS
  let h := s.held p c + n
  h ≤ r || 8 * (h - r) ≤ s.get F.BS_BUF_CFG_ALPHA * s.sharedFree (dieOf p)

/-- Credits of the frames of a class whose packets still hold cells, or have not been taken by the Basin yet. -/
def State.heldCredits (s : State) (p c : Nat) : Nat :=
  let n (l : List Packet) : Nat := l.foldl (fun n x => n + frameCredits x) 0
  let mine (l : List BPkt) : Nat := n ((l.filter fun x => x.lossless && x.cameIn p c).map (·.pkt))
  mine s.basin.handed + mine s.basin.lookups
    + n ((s.basin.steered.filter fun x => x.1 = p && x.2.hdr.tc = c).map (·.2))
    + s.basin.voqs.foldl (fun m v => m + mine (v.pkts.map (·.pkt))) 0
    + s.basin.mc.foldl (fun m f => if f.ingress = p && f.cls = c then m + n (f.pkts.map (·.pkt.pkt)) else m) 0

/-- Whether a class is below its limit of R236. -/
def State.belowLimit (s : State) (p c : Nat) : Bool :=
  let r := s.get F.BS_BUF_CFG_RSV_CELLS
  let h := s.held p c
  h < r || 8 * (h - r) < s.get F.BS_BUF_CFG_ALPHA * s.sharedFree (dieOf p)

/-- A class's freed cells granted again, unless it is at its limit (R236, R299). -/
def State.grantBack (s : State) (p c : Nat) : State :=
  let l := s.link p
  let g := s.cget F.QY_PORT_CTRL_INIT_CELLS (pidx p) + spGet 0 l.taken c - s.heldCredits p c
  if spGet 0 l.given c < g && s.lossless p c && s.belowLimit p c then
    (s.setLink p { l with given := spPut 0 l.given c g }).sendCtl p Ctl.credit (c + (g % 2 ^ 32) * 2 ^ 8)
  else s

/-- The credits due on every port in service. -/
def State.grantAll (s : State) : State :=
  s.quays.ports.foldl (fun s x => if s.linkUp x.1 && !s.isEth x.1
    then (s.link x.1).taken.foldl (fun s g => s.grantBack x.1 g.1) s else s) s

/-- Cells taken or freed on a die, with the peak kept. -/
def State.useCells (s : State) (die n : Nat) : State :=
  let u := s.get F.BS_BUF_USED_USED [die] + n
  let s := s.put F.BS_BUF_USED_USED [die] u
  if s.get F.BS_BUF_USED_PEAK [die] < u then s.put F.BS_BUF_USED_PEAK [die] u else s

def State.freeCells (s : State) (die n : Nat) : State :=
  s.put F.BS_BUF_USED_USED [die] (s.get F.BS_BUF_USED_USED [die] - n)

/-- The mask of a class and direction that KINDs 2 to 4 of R407 filter by. -/
def pktPass (cls : Nat) (egress : Bool) (s : State) (k : Nat) : Bool :=
  (s.get F.TL_PC_CFG_TC [k]).testBit cls && (s.get F.TL_PC_CFG_EGRESS [k] = 1) == egress

/-- A packet dropped by the Basin, counted by KIND 4 of R407. -/
def State.countDrop (s : State) (p cls : Nat) : State := s.pcCount 4 (pktPass cls false) p

/-- A packet enqueued, counted at its ingress and its egress port (KINDs 2 and 3 of R407). -/
def State.countEnqueue (s : State) (ingress egress : Nat) (pkt : Packet) : State :=
  let c := pkt.hdr.tc
  let s := (s.pcCount 2 (pktPass c false) ingress).pcCount 3 (pktPass c false) ingress pkt.size
  (s.pcCount 2 (pktPass c true) egress).pcCount 3 (pktPass c true) egress pkt.size

/-- The key of the tags of a pair's class. -/
def pairKey (quay e c : Nat) : Nat := 16 * (512 * quay + e) + c

/-- A cell reaches the head of a pair's queue of class `c` and takes its finish tag, by the egress port's weight and burst
(R262, R263). -/
def State.pairHead (s : State) (quay e c : Nat) (empty : Bool) : State :=
  let w := s.weight e c
  let b := s.basin
  let key := pairKey quay e c
  let tag := finishTag empty (spGet 0 b.pairTag key) (spGet 0 b.pairTime (512 * quay + e)) w (s.burst e c) 256
  if w = 0 then s else { s with basin := { b with pairTag := spPut 0 b.pairTag key tag } }

/-- A packet joins the virtual output queue of its ingress Quay, its egress port and its class; CM where the queue is at its threshold
(R238, R243). -/
def State.toVoq (s : State) (x : BPkt) (egress : Nat) : State :=
  let c := x.pkt.hdr.tc
  let n := x.pkt.cells
  let quay := x.port / 8
  let depth := (s.basin.voqs.filter (·.is quay egress c)).foldl (fun m v => m + v.cells) 0
  let e := bits (s.rd .BS_CM_THRESH) (4 * c) 4
  let pkt := if e ≠ 15 && 2 ^ e ≤ depth then { x.pkt with hdr := { x.pkt.hdr with cm := true } } else x.pkt
  let q : Queued := ⟨{ x with pkt := pkt }, n, 0⟩
  let s := (s.useCells (dieOf x.port) n).countEnqueue x.port egress pkt
  let b := s.basin
  if b.voqs.any (·.is quay egress c) then
    { s with basin := { b with voqs := b.voqs.map fun v => if v.is quay egress c then { v with pkts := v.pkts ++ [q] } else v } }
  else ({ s with basin := { b with voqs := b.voqs ++ [⟨quay, egress, c, [q]⟩] } } : State).pairHead quay egress c true

def State.dropDown (s : State) (p cls : Nat) : State := (s.bump F.BS_DROP_DOWN_COUNT).countDrop p cls

/-- A packet queued toward a port: dropped whole where it is lossy and finds no room, or its port is down or its class blocked (R236,
R249, R323). A packet of this module's own enters by the lanes of the port it leaves by. -/
def State.queueTo (s : State) (x : BPkt) (egress : Nat) : State :=
  let x := if x.orig then { x with port := egress } else x
  let c := x.pkt.hdr.tc
  if (!s.linkUp egress || (s.blockedAt egress c).isSome) && (!x.lossless || s.get F.BS_CTRL_DOWN_HOLD_US = 0) then s.dropDown x.port c
  else if x.orig || x.lossless || s.fits x.port c x.pkt.cells then
    let s := if s.linkUp egress || (spGet none s.basin.downAt egress).isSome then s
      else { s with basin := { s.basin with downAt := spPut none s.basin.downAt egress (some s.now) } }
    s.toVoq x egress
  else (s.bump F.BS_DROP_BUF_COUNT).countDrop x.port c

/-! ### Packets this module originates (R235) -/

/-- The primary endpoint. -/
def State.primary (s : State) : Nat :=
  if s.cget F.BS_SELF_VALID [0] = 1 then s.cget F.BS_SELF_ENDPOINT [0] else 0

def State.isOwn (s : State) (ep : Nat) : Bool :=
  (List.range 4).any fun k => s.cget F.BS_SELF_VALID [k] = 1 && s.cget F.BS_SELF_ENDPOINT [k] = ep

/-- A packet built here, with the next FSEQ of its destination and FLOW. -/
def State.build (s : State) (kind tc dst job flow : Nat) (body : List Byte) : Packet × State :=
  let key := 65536 * dst + flow
  let f := spGet 0 s.basin.fseq key
  let h : Header :=
    { ver := 1, kind := kind, cm := false, mc := false, spray := true, mirrored := false, tc := tc, dst := dst,
      src := s.primary, job := job, len := body.length, hops := s.get F.BS_CTRL_HOPS_INIT, flow := flow, fseq := f,
      tstamp := s.ts32, hcrc := 0 }
  (⟨h.fill, body⟩, { s with basin := { s.basin with fseq := spPut 0 s.basin.fseq key ((f + 1) % 2 ^ 32) } })

/-- A built packet sent through a named port: it waits for the crossbar, where it takes its TSTAMP (R235). -/
def State.sendPort (s : State) (p : Nat) (pkt : Packet) : State :=
  s.queueTo ⟨pkt, p, 0, true, s.lossless p pkt.hdr.tc, none⟩ p

/-! ### Harbour tables (R250, R251, R254, R255) -/

def hKey (ep tc job : Nat) : Nat := ep + tc * 2 ^ 24 + job * 2 ^ 28

def hBucket (key : Nat) : Nat := (key * 0x9E3779B97F4A7C15 % 2 ^ 64) >>> 46

def ovfBase : Nat := 1048576

def State.hTable (s : State) (pipe : Nat) : Sp (Option HEntry) := (s.harbour.tables[pipe]?).getD []

def State.hEntry (s : State) (pipe i : Nat) : Option HEntry := spGet none (s.hTable pipe) i

/-- Counts shown in HB_STATUS brought up to date. -/
def State.hShow (s : State) (pipe : Nat) : State :=
  let t := s.hTable pipe
  let s := s.put F.HB_STATUS_USED [pipe] (t.filter fun e => e.1 < ovfBase).length
  let s := s.put F.HB_STATUS_OVF_USED [pipe] (t.filter fun e => ovfBase ≤ e.1).length
  s.put F.HB_STATUS_PINNED [pipe] (t.filter fun e => match e.2 with | some x => x.data.getLsbD 16 | none => false).length

def State.hSet (s : State) (pipe i : Nat) (e : Option HEntry) : State :=
  let h := s.harbour
  let s := { s with harbour := { h with
    tables := h.tables.set pipe (spPut none (s.hTable pipe) i e) } }
  s.hShow pipe

/-- Whether the module is in WINTER or STANDBY, where learning and ageing stop (R377). -/
def State.wintering (s : State) : Bool := 2 ≤ s.get F.PM_STATE_STATE

/-- A notification (R255): written to the learn ring, or counted as lost; none where SLOTS is 0. -/
def State.notify (s : State) (pipe key port reason index : Nat) : State :=
  let slots := s.cget F.HB_LEARN_CFG_SLOTS [pipe]
  let prod := s.get F.HB_LEARN_PROD_PROD [pipe]
  if slots = 0 || s.wintering then s
  else if (prod + 2 ^ 32 - s.get F.HB_LEARN_CONS_CONS [pipe]) % 2 ^ 32 = slots then s.bump F.HB_LEARN_LOST_COUNT [pipe]
  else
    let w0 := key % 2 ^ 40 + port * 2 ^ 40 + reason * 2 ^ 49 + pipe * 2 ^ 52
    let s := s.dockWrite (s.cget F.HB_LEARN_BASE_ADDR [pipe] + 16 * (prod % slots))
      (leBytes w0 8 ++ leBytes (s.ts32 + index * 2 ^ 32) 8)
    s.put F.HB_LEARN_PROD_PROD [pipe] (prod + 1)

/-- An entry with bad parity is cleared, counted and posted (R254). -/
def State.parityError (s : State) (pipe i key : Nat) : State :=
  let s := (s.hSet pipe i none).bump F.HB_PAR_ERR_COUNT [pipe]
  (s.put F.HB_PAR_ERR_LAST_INDEX [pipe] i).notify pipe key 0 3 i

/-- Entries a lookup of `key` reads: its bucket, and the overflow entries that match. -/
def State.candidates (s : State) (pipe key : Nat) : List (Nat × HEntry) :=
  (s.hTable pipe).filterMap fun e =>
    match e.2 with
    | some x => if (e.1 < ovfBase && e.1 / 4 = hBucket key) || (ovfBase ≤ e.1 && x.key = key) then some (e.1, x) else none
    | none => none

/-- The place and entry that hold a key, parity errors met on the way cleared (R250, R254). -/
def State.hFind (s : State) (pipe key : Nat) : Option (Nat × HEntry) × State :=
  let cs := s.candidates pipe key
  let s := (cs.filter (·.2.badParity)).foldl (fun s c => s.parityError pipe c.1 c.2.key) s
  ((cs.filter fun c => !c.2.badParity && c.2.key = key).head?, s)

/-- A lookup (R252): a hit sets STAMP to the ageing time. -/
def State.hLookup (s : State) (pipe key : Nat) : Option HEntry × State :=
  let (r, s) := (s.tally 0x18).hFind pipe key
  match r with
  | none => (none, s)
  | some (i, e) =>
    (some e, s.hSet pipe i (some { e with data := putBits e.data 32 16 (s.get F.HB_AGE_NOW [pipe]) }))

/-- Where a packet goes. -/
inductive Target where
  | port (p : Nat)
  | bundle (b : Nat)
  | hm
  | drop
deriving DecidableEq, Repr

/-- The target of an entry's data (R251). -/
def targetOf (d : Word64) : Target :=
  match bits d 0 2 with
  | 0 => .port (bits d 2 9)
  | 1 => .bundle (bits d 2 9)
  | 2 => .hm
  | _ => .drop

/-! ### Bundles (R245 to R247) -/

/-- The ports of eight 64-bit words of a map. -/
def State.mapPorts (s : State) (r : Reg) (b : Nat) : List Nat :=
  (List.range 512).filter fun p => (s.crd r [b, p / 64]).getLsbD (p % 64)

def State.bundlePorts (s : State) (b : Nat) : List Nat := s.mapPorts .BS_BUNDLE_MAP b

/-- A member is usable while its link is up and the Lodge does not hold it SUSPECT (R245). -/
def State.usable (s : State) (p : Nat) : Bool :=
  s.linkUp p && s.get F.LG_PORT_SUSPECT [p] = 0 &&
    (match s.slotOf p with
      | some i => s.slotState i = 2 || s.slotState i = 3
      | none => true)

/-- Cells in a port's egress queue of a class (R246). -/
def State.egressCells (s : State) (p c : Nat) : Nat := (s.classQ p c).pkts.foldl (fun n x => n + x.pkt.cells) 0

/-- The flow's member index (R247). -/
def flowIndex (h : Header) (n : Nat) : Nat :=
  (mix (BitVec.ofNat 64 (h.src * 2 ^ 40 ^^^ h.dst * 2 ^ 16 ^^^ h.tc * 2 ^ 12 ^^^ h.job ^^^ h.flow * 2 ^ 28))).toNat % n

/-- The member of a bundle that takes a packet: one of two drawn candidates where it may be sprayed (R246), else its
flow's (R247). -/
def State.pickMember (s : State) (b : Nat) (h : Header) : Option Nat × State :=
  let us := (s.bundlePorts b).filter s.usable
  let n := us.length
  if n = 0 then (none, s)
  else if h.spray && s.get F.BS_CTRL_SPRAY_EN = 1 then
    let (r, s) := s.fresh
    let c1 := (us[r.toNat % n]?).getD 0
    let c2 := (us[(r.toNat >>> 32) % n]?).getD 0
    (some (if s.egressCells c2 h.tc < s.egressCells c1 h.tc then c2 else c1), s.tally 0x13)
  else (us[flowIndex h n]?, s)

/-- Where a destination leads (R252): its entry, the site's target, or the class's miss action. -/
def State.destTarget (s : State) (pipe inPort : Nat) (h : Header) : Target × Option HEntry × State :=
  let key := hKey h.dst h.tc h.job
  let (e, s) := s.hLookup pipe key
  match e with
  | some e => (targetOf e.data, some e, s)
  | none =>
    let site := h.dst / 2 ^ 20
    if site ≠ s.get F.BS_CTRL_SITE then
      if s.get F.BS_SITE_VALID [site] = 1 then
        (if s.get F.BS_SITE_KIND [site] = 1 then .bundle (s.get F.BS_SITE_TARGET [site] % 256)
         else .port (s.get F.BS_SITE_TARGET [site]), none, s)
      else (.drop, none, s)
    else
      let s := s.notify pipe key inPort 2 0
      match bits (s.rd .BS_MISS) (2 * h.tc) 2 with
      | 1 => (.hm, none, s)
      | 2 => (.bundle (s.get F.BS_MISS_DEFAULT_BUNDLE), none, s)
      | _ => (.drop, none, s)

/-- A packet joins the Harbourmaster's local queue, which holds 4 MiB (R233). -/
def State.toLocal (s : State) (inPort : Nat) (pkt : Packet) : State :=
  if (s.basin.localQ.foldl (fun n p => n + p.size) 0) + pkt.size ≤ 4194304 then
    { s with basin := { s.basin with localQ := s.basin.localQ ++ [pkt] } }
  else (s.bump F.BS_DROP_BUF_COUNT).countDrop inPort pkt.hdr.tc

/-- A packet sent where a target says. -/
def State.deliver (s : State) (x : BPkt) (t : Target) : State :=
  match t with
  | .port p => s.queueTo { x with bundle := none } p
  | .bundle b =>
    let (m, s) := s.pickMember b x.pkt.hdr
    match m with
    | some p => s.queueTo { x with bundle := some b } p
    | none => s.dropDown x.port x.pkt.hdr.tc
  | .hm => s.toLocal x.port x.pkt
  | .drop => (s.bump F.BS_DROP_MISS_COUNT).countDrop x.port x.pkt.hdr.tc

/-- A packet of this module sent to an endpoint: looked up in pipeline 0 and queued at the port it leads to. -/
def State.sendTo (s : State) (pkt : Packet) : State :=
  let (t, _, s) := s.destTarget 0 0 pkt.hdr
  s.deliver ⟨pkt, 0, 0, true, (s.get F.BS_CTRL_LOSSLESS).testBit pkt.hdr.tc, none⟩ t

end Sys2Proof.Machine
end

