-- ==== Sys2Proof/Machine/RingOps.lean ====
section
/-! DEFINITION. Events, accepted commands and their ends (R97 to R115): what every family of ring commands shares. -/

namespace Sys2Proof.Machine

/-! ### Status codes (R114) -/

namespace St
def ok : Nat := 0x00
def zeroSize : Nat := 0x01
def badDescriptor : Nat := 0x02
def depFailed : Nat := 0x03
def fenced : Nat := 0x04
def memberLost : Nat := 0x05
def dataError : Nat := 0x06
def digestMismatch : Nat := 0x07
def divergent : Nat := 0x08
def unrecoverable : Nat := 0x09
def noResource : Nat := 0x0A
def timeout : Nat := 0x0B
def aborted : Nat := 0x0C
def epochStale : Nat := 0x0D
def notCommitted : Nat := 0x0E
def accessDenied : Nat := 0x0F
end St

/-! ### Events (R110 to R112) -/

def State.evVal (s : State) (e : Nat) : Nat := s.get F.WK_EVENT_VALUE [e]

def State.evFail (s : State) (e : Nat) : Bool := (s.get F.WK_EVFAIL_FAIL [e / 64]).testBit (e % 64)

/-- The event's value made `v`. -/
def State.evSet (s : State) (e v : Nat) : State := s.put F.WK_EVENT_VALUE [e] v

/-- A successful signal: `inc` added modulo 2^64. -/
def State.evAdd (s : State) (e inc : Nat) : State := s.advance F.WK_EVENT_VALUE [e] inc

/-- The FAIL flag set or cleared. -/
def State.evFailTo (s : State) (e : Nat) (b : Bool) : State :=
  let f : Fld := ⟨.WK_EVFAIL, e % 64, 1, .w1c, 0⟩
  s.put f [e / 64] b.toNat

/-! ### Accepted commands -/

/-- Word `i` of the descriptor. -/
def Cmd.word (c : Cmd) (i : Nat) : Word64 := (c.desc[i]?).getD 0

/-- Bits of descriptor word `i`. -/
def Cmd.fld (c : Cmd) (i lo width : Nat) : Nat := bits (c.word i) lo width

/-! The header of R105. -/

def Cmd.type (c : Cmd) : Nat := c.fld 0 8 8
def Cmd.serial (c : Cmd) : Bool := c.fld 0 16 1 = 1
def Cmd.w0En (c : Cmd) : Bool := c.fld 0 17 1 = 1
def Cmd.w1En (c : Cmd) : Bool := c.fld 0 18 1 = 1
def Cmd.sigEn (c : Cmd) : Bool := c.fld 0 19 1 = 1
def Cmd.irq (c : Cmd) : Bool := c.fld 0 20 1 = 1
def Cmd.sigEvent (c : Cmd) : Nat := c.fld 0 32 16
def Cmd.timeout (c : Cmd) : Nat := c.fld 0 48 16
def Cmd.w0Event (c : Cmd) : Nat := c.fld 1 0 16
def Cmd.w1Event (c : Cmd) : Nat := c.fld 1 16 16
def Cmd.sigInc (c : Cmd) : Nat := c.fld 1 32 32

/-- The accepted command of a ring with a sequence number. -/
def State.cmd? (s : State) (ring seq : Nat) : Option Cmd :=
  s.rings.cmds.find? fun c => c.ring == ring && c.seq == seq

/-- The accepted command of a ring with a sequence number changed by `f`. -/
def State.mapCmd (s : State) (ring seq : Nat) (f : Cmd → Cmd) : State :=
  { s with rings := { s.rings with
      cmds := s.rings.cmds.map fun c => if c.ring == ring && c.seq == seq then f c else c } }

/-- A command ends with a status (R107); a command that has ended keeps its own. -/
def State.endCmd (s : State) (ring seq status detail result result2 : Nat) : State :=
  s.mapCmd ring seq fun c =>
    if c.stage = .ended then c
    else { c with stage := .ended, endedAt := s.now, status := status, detail := detail, result := result, result2 := result2 }

/-- Why a start check fails: the status, and for a descriptor error where (R113, R433). -/
structure CheckFail where
  status : Nat
  detail : Nat
  result2 : Nat
deriving DecidableEq, Repr

/-- The byte offset of the lowest bit of `w` set outside the mask `m`, in the word at `off`. -/
def strayBit (off : Nat) (w m : Word64) : Option Nat :=
  let x := w &&& ~~~m
  if x = 0 then none else ((List.range 64).find? fun i => x.getLsbD i).map fun i => off + i / 8

/-- Payload bits not listed must be zero (R108): the first offending byte offset, for the allowed masks of the four
payload words. -/
def payloadBad (c : Cmd) (m4 m5 m6 m7 : Word64) : Option Nat :=
  (strayBit 0x20 (c.word 4) m4).orElse fun _ => (strayBit 0x28 (c.word 5) m5).orElse fun _ =>
    (strayBit 0x30 (c.word 6) m6).orElse fun _ => strayBit 0x38 (c.word 7) m7

/-- The lowest of the offsets whose condition holds (R433). -/
def lowestBad (l : List (Nat × Bool)) : Option Nat :=
  l.foldl (fun acc p => if p.2 then some (match acc with | none => p.1 | some a => min a p.1) else acc) none

/-- A BAD_DESCRIPTOR at the lower of two offsets. -/
def minOpt : Option Nat → Option Nat → Option Nat
  | none, b => b
  | a, none => a
  | some a, some b => some (min a b)

/-- A descriptor's own check: BAD_DESCRIPTOR at the first offending field. -/
def badAt (o : Option Nat) : Option CheckFail := o.map fun d => ⟨St.badDescriptor, d, 0⟩

/-- The check of an item in the structure that the pointer field at `ptr` names (R113, R115). -/
def badIn (ptr : Nat) (o : Option Nat) : Option CheckFail := o.map fun d => ⟨St.badDescriptor, ptr, d⟩

/-- The first failing check in the order of R107. -/
def firstFail : List (Option CheckFail) → Option CheckFail
  | [] => none
  | some f :: _ => some f
  | none :: rest => firstFail rest

/-- Whether every earlier command of the ring has its record (R105 SERIAL). -/
def State.serialReady (s : State) (ring seq : Nat) : Bool :=
  !(s.rings.cmds.takeWhile fun c => !(c.ring == ring && c.seq == seq)).any fun c => c.ring == ring

/-- Accepted commands of a ring without records. -/
def State.ringInflight (s : State) (ring : Nat) : Nat := (s.rings.cmds.filter fun c => c.ring == ring).length

/-- The in-flight counts shown in WK_RING_HEAD and WK_STATUS brought up to date. -/
def State.showInflight (s : State) (ring : Nat) : State :=
  (s.put F.WK_RING_HEAD_INFLIGHT [ring] (s.ringInflight ring)).put F.WK_STATUS_INFLIGHT [] s.rings.cmds.length

/-- Commands of one ring that are running, with what `f` needs of them. -/
def State.running? (s : State) (ring seq : Nat) : Option Cmd :=
  (s.cmd? ring seq).bind fun c => if c.stage = .running then some c else none

end Sys2Proof.Machine
end

