-- ==== Sys2Proof/Machine/Basin.lean ====
section
/-! DEFINITION. The Basin and Harbour commands (R229 to R260): arrival, matching, reassembly, the Harbour operations, the
ager, members that stop being usable. -/

namespace Sys2Proof.Machine

open Host (Outcome)

/-! ### Meters (R264 to R266) -/

/-- A meter's buckets brought up to date. -/
def Meter.upto (m : Meter) (now : Nat) : Meter :=
  { m with tc := min (m.cbs * 256000) (m.tc + m.cir * (now - m.upTo)),
           tp := min (m.pbs * 256000) (m.tp + m.pir * (now - m.upTo)), upTo := now }

/-- Meter `i`: one that no WRITE has loaded has every parameter zero, and the reset actions. -/
def State.meter (s : State) (i : Nat) : Meter := (spGet none s.sched.meters i).getD ⟨0, 0, 0, 0, 0, 2, 0, 0, 0, 0, 0, 0⟩

def State.setMeter (s : State) (i : Nat) (m : Meter) : State :=
  { s with sched := { s.sched with meters := spPut none s.sched.meters i (some m) } }

/-- A count of a meter, which saturates. -/
def meterCount (n : Nat) : Nat := min (n + 1) (2 ^ 32 - 1)

/-- What a meter does with a packet: the packet as it goes on, none where it is dropped (R264 to R266). Action 3 is treated as 0 for
yellow and as 2 for red. -/
def State.police (s : State) (p : Nat) (lossless : Bool) (pkt : Packet) : Option Packet × State :=
  let idx := 16 * p + pkt.hdr.tc
  if s.get F.SC_CTRL_METER_EN = 0 || s.get F.SC_METER_MAP_EN [idx] = 0 then (some pkt, s)
  else
    let i := (s.get F.SC_METER_MAP_BASE [idx] + pkt.hdr.job % 2 ^ (min 12 (s.get F.SC_METER_MAP_JOBBITS [idx]))) % 65536
    let m := (s.meter i).upto s.now
    let b := pkt.size * 4000
    let act (a : Nat) : Option Packet :=
      if a = 0 then some pkt
      else if a = 1 || lossless then some { pkt with hdr := { pkt.hdr with cm := true } }
      else none
    if m.tp < b then (act (if m.redAct = 3 then 2 else m.redAct), s.setMeter i { m with red := meterCount m.red })
    else if m.tc < b then
      (act (if m.yellowAct = 3 then 0 else m.yellowAct), s.setMeter i { m with tp := m.tp - b, yellow := meterCount m.yellow })
    else (some pkt, s.setMeter i { m with tc := m.tc - b, tp := m.tp - b, green := meterCount m.green })

/-! ### Mirroring (R244) -/

/-- A mirror copy for session `k`: always lossy. -/
def State.mirrorTo (s : State) (k p : Nat) (x : BPkt) : State :=
  let n := 64 * s.get F.BS_MIRROR_TRUNC64 [k]
  let body := if n = 0 then x.pkt.body else x.pkt.body.take n
  let c := s.get F.BS_MIRROR_TCLASS [k]
  let pkt : Packet := ⟨{ x.pkt.hdr with mirrored := true, tc := c, len := body.length }, body⟩
  if s.fits p c pkt.cells then
    s.toVoq { x with pkt := pkt.fill, port := p, orig := false, lossless := false, bundle := none } (s.get F.BS_MIRROR_DEST_PORT [k])
  else s.bump F.BS_DROP_MIRROR_COUNT

/-- The copies of the sessions whose source is the ingress (1) or egress (2) of a port. -/
def State.mirrorPort (s : State) (source p : Nat) (x : BPkt) : State :=
  (List.range 16).foldl (fun s k =>
    if s.get F.BS_MIRROR_SOURCE [k] = source && s.get F.BS_MIRROR_SRC_PORT [k] = p then s.mirrorTo k p x else s) s

/-! ### Arrival (R232 to R234) -/

/-- The header checks of R232. -/
def headerBad (pkt : Packet) : Bool :=
  let h := pkt.hdr
  h.hcrc ≠ h.crc || h.ver ≠ 1 || h.kind > 3 || h.len > 9216 || h.len ≠ pkt.body.length || (h.kind = 1 && h.len < 24)
    || (h.kind = 2 && h.len < 32) || (h.mc && h.kind ≠ 0 && h.kind ≠ 3) || (h.mc && h.dst ≥ 4096)

/-- The source lookup of a forwarded packet and its notifications (R252), with the entry hit. -/
def State.learnSource (s : State) (pipe : Nat) (x : BPkt) : Option HEntry × State :=
  let h := x.pkt.hdr
  let key := hKey h.src h.tc h.job
  let (e, s) := s.hLookup pipe key
  (e, match e with
    | none => s.notify pipe key x.port 0 0
    | some e =>
      match targetOf e.data with
      | .port p => if p = x.port then s else s.notify pipe key x.port 1 0
      | .bundle b => if (s.bundlePorts b).contains x.port then s else s.notify pipe key x.port 1 0
      | _ => s.notify pipe key x.port 1 0)

/-- The mirror session that a hit on an entry copies to (R244, R251). -/
def State.hitSession (s : State) (e : Option HEntry) : List Nat :=
  match e with
  | some e =>
    let k := bits e.data 11 4
    if bits e.data 15 1 = 1 && s.get F.BS_MIRROR_SOURCE [k] = 3 then [k] else []
  | none => []

/-- A packet looked up and sent where its destination leads; each session that an entry hit names gets one copy (R244, R252). -/
def State.lookedUp (s : State) (x : BPkt) : State :=
  let pipe := dieOf x.port
  let (t, d, s) := (s.tally 0x10).destTarget pipe x.port x.pkt.hdr
  let (e, s) := s.learnSource pipe x
  ((s.hitSession d ++ s.hitSession e).eraseDups.foldl (fun s k => s.mirrorTo k x.port x) s).deliver x t

/-- Whether a commit of set 0x180 is in progress: lookups, the ager and HB_OP wait for its end (R257, R258). -/
def State.pinning (s : State) : Bool :=
  match s.commit? 0x180 0 with
  | some c => s.timeCome c
  | none => false

/-- Forwarding by Harbour lookup (R234, R252); while lookups stop the packet stays in the buffer (R258). -/
def State.forward (s : State) (x : BPkt) : State :=
  let h := x.pkt.hdr
  if h.hops = 0 then (s.bump F.BS_DROP_HOPS_COUNT).countDrop x.port h.tc
  else
    let x := { x with pkt := { x.pkt with hdr := { h with hops := h.hops - 1 } } }
    if !s.pinning then s.lookedUp x
    else if x.lossless || s.fits x.port h.tc x.pkt.cells then
      { s.useCells (dieOf x.port) x.pkt.cells with basin := { s.basin with lookups := s.basin.lookups ++ [x] } }
    else (s.bump F.BS_DROP_BUF_COUNT).countDrop x.port h.tc

/-- Lookups resume: the packets that wait are looked up in the order they came. -/
def State.resumeLookups (s : State) : State :=
  s.basin.lookups.foldl (fun s x => (s.freeCells (dieOf x.port) x.pkt.cells).lookedUp x)
    { s with basin := { s.basin with lookups := [] } }

/-- Replication of a packet with MC set (R233, R234, R241, R242). -/
def State.replicate (s : State) (x : BPkt) : State :=
  let h := x.pkt.hdr
  if h.hops = 0 then (s.bump F.BS_DROP_HOPS_COUNT).countDrop x.port h.tc
  else
    let all := (s.mapPorts .BS_MCG_MAP h.dst).filter (· ≠ x.port)
    let up := all.filter s.linkUp
    let s := s.bump F.BS_DROP_MCDOWN_COUNT [] (all.length - up.length)
    let x := { x with pkt := { x.pkt with hdr := { h with hops := h.hops - 1 } } }
    if up.isEmpty then s
    else if x.lossless || s.fits x.port h.tc x.pkt.cells then
      let n := x.pkt.cells
      let s := up.foldl (fun s e => s.pcCount 2 (pktPass h.tc true) e |>.pcCount 3 (pktPass h.tc true) e x.pkt.size)
        (((s.useCells (dieOf x.port) n).pcCount 2 (pktPass h.tc false) x.port).pcCount 3 (pktPass h.tc false) x.port x.pkt.size)
      let m : McPkt := ⟨x, n, up, up⟩
      let b := s.basin
      let mine (f : McFifo) : Bool := f.ingress = x.port && f.cls = h.tc
      if b.mc.any mine then
        { s with basin := { b with mc := b.mc.map fun f => if mine f then { f with pkts := f.pkts ++ [m] } else f } }
      else { s with basin := { b with mc := b.mc ++ [⟨x.port, h.tc, [m]⟩] } }
    else (s.bump F.BS_DROP_BUF_COUNT).countDrop x.port h.tc

/-- The Mooring identifier of a collective extension (R138). -/
def extMoor (pkt : Packet) : Nat := bits (word64At pkt.body 0) 16 14

/-- A dropped steered packet of an unknown Mooring (R17, R123, R139). -/
def State.unknownMooring (s : State) (p cls : Nat) : State :=
  ((s.bump F.BS_DROP_UNKMOOR_COUNT).tally 0x14).countDrop p cls

/-- Steering (R17, R139): a packet of a context that is not ACTIVE, or of a CTYPE other than CONTRIB, is dropped, and in
WINTER every packet (R377); one of a lossy class that exceeds its limit is dropped whole (R236); any other waits to be admitted. -/
def State.steer (s : State) (p : Nat) (lossless : Bool) (pkt : Packet) : State :=
  if s.wintering || s.get F.MO_CTX_STATE_STATE [extMoor pkt] ≠ 1 || bits (word64At pkt.body 0) 0 4 ≠ 0 then s.unknownMooring p pkt.hdr.tc
  else if !lossless && !s.fits p pkt.hdr.tc pkt.cells then (s.bump F.BS_DROP_BUF_COUNT).countDrop p pkt.hdr.tc
  else { s.useCells (dieOf p) pkt.cells with basin := { s.basin with steered := s.basin.steered ++ [(p, pkt)] } }

/-- Disposition (R233). -/
def State.dispose (s : State) (x : BPkt) : State :=
  let h := x.pkt.hdr
  if h.mc then s.replicate x
  else if s.isOwn h.dst then
    match h.kind with
    | 1 => s.steer x.port x.lossless x.pkt
    | 2 => if s.wintering then s.bump F.BH_DROP_PEER else { s with basin := { s.basin with toBoathouse := s.basin.toBoathouse ++ [(x.port, x.pkt)] } }
    | _ => s.toLocal x.port x.pkt
  else s.forward x

/-- A packet as a Quay hands it over at this moment: its ingress timestamp, and whether its class is lossless (R236, R279). -/
def State.entering (s : State) (p : Nat) (pkt : Packet) : BPkt := ⟨pkt, p, s.ingressStamp p, false, s.lossless p pkt.hdr.tc, none⟩

/-- A packet handed over by a Quay. A PTP event message has its timestamp taken (R281). -/
def State.arrive (s : State) (x : BPkt) : State :=
  let p := x.port
  let pkt := x.pkt
  let s := { s with tal := { s.tal with rxBytes := spPut 0 s.tal.rxBytes p (spGet 0 s.tal.rxBytes p + pkt.size) } }
  if headerBad pkt then (s.bump F.BS_DROP_HDR_COUNT).countDrop p pkt.hdr.tc
  else
    let s := s.noteEvent p false pkt x.stamp
    let (r, s) := s.police p x.lossless pkt
    match r with
    | none => s.countDrop p pkt.hdr.tc
    | some pkt =>
      let x := { x with pkt := pkt }
      (s.mirrorPort 1 p x).dispose x

/-- PACKET_ARRIVAL (R233): of a packet that the Quay has handed over, or hands over now. -/
def execPacketArrival (port : Nat) (pkt : Packet) (s : State) : Out :=
  .next (match s.basin.handed.find? fun x => x.port = port && x.pkt = pkt with
    | some x => (({ s with basin := { s.basin with handed := s.basin.handed.erase x } } : State).arrive x).grantAll
    | none => (s.arrive (s.entering port pkt)).grantAll)

/-! ### Matching (R238, R239, R242, R263) -/

/-- A request: input slot and its port, egress port, and the multicast class or none for unicast. -/
structure Req where
  slot : Nat
  port : Nat
  egress : Nat
  mc : Option Nat
  level : Nat
deriving DecidableEq, Repr

/-- A matched pair of slots. -/
structure Match where
  req : Req
  out : Nat
deriving DecidableEq, Repr

/-- Whether a class is collective and its native port's priority bucket holds credit (R154). -/
def State.collCredit (s : State) (p c : Nat) : Bool :=
  !s.isEth p && (s.get F.MO_LINKPRIO_CLASS_MASK).testBit c && 0 < (spGet (0, 0) s.sched.prio p).1

/-- The priority bucket of a port brought up to date: it fills at CEILING / 256 of the rate up to BURST_KIB, in 1/256
byte. -/
def State.fillPrio (s : State) (p : Nat) : State :=
  let (b, t) := spGet (0, 0) s.sched.prio p
  let cap := s.get F.MO_LINKPRIO_BURST_KIB * 1024 * 256
  let b := min cap (b + s.get F.MO_LINKPRIO_CEILING * s.rateMbps p * (s.now - t) / 4000)
  { s with sched := { s.sched with prio := spPut (0, 0) s.sched.prio p (b, s.now) } }

/-- The queues of a pair of ingress Quay and egress port. -/
def State.pairQueues (s : State) (quay e : Nat) : List Voq :=
  s.basin.voqs.filter fun v => v.quay = quay && v.egress = e && !v.pkts.isEmpty

/-- Cells left in the queues of a pair. -/
def State.pairCells (s : State) (quay e : Nat) : Nat := (s.pairQueues quay e).foldl (fun n v => n + v.cells) 0

/-- Input ports with cells to send: those of the Quays that hold queues, and those of the multicast FIFOs. -/
def State.inPorts (s : State) : List Nat :=
  ((s.basin.voqs.flatMap fun v => ((List.range 8).map (8 * v.quay + ·)).filter s.isPort) ++ s.basin.mc.map (·.ingress)).eraseDups

/-- The requests of the unmatched input slots. A port's queues are those of its Quay (R238). -/
def State.requests (s : State) (done : List Match) : List Req :=
  s.inPorts.flatMap fun p =>
    ((List.range (s.portWidth p)).map (p + ·)).flatMap fun i =>
      if done.any fun m => m.req.slot = i then []
      else
        let es := ((s.basin.voqs.filter fun v => v.quay = p / 8 && !v.pkts.isEmpty).map (·.egress)).eraseDups
        let uni := es.filterMap fun e =>
          let used := (done.filter fun m => m.req.port / 8 = p / 8 && m.req.egress = e && m.req.mc = none).length
          if used < s.pairCells (p / 8) e then
            some ⟨i, p, e, none, if (s.pairQueues (p / 8) e).any fun v => s.collCredit e v.cls then 1 else 0⟩
          else none
        let mc := (s.basin.mc.filter fun f => f.ingress = p).flatMap fun f =>
          match f.pkts with
          | [] => []
          | h :: _ => (h.residue.filter fun e => !done.any fun m => m.req.port = p && m.req.mc = some f.cls && m.req.egress = e).map
              fun e => ⟨i, p, e, some f.cls, if s.collCredit e f.cls then 1 else 0⟩
        uni ++ mc

/-- The request an arbiter picks: level 1 before level 0, then the first key at or after its pointer. -/
def pickRr (key : Req × Nat → Nat) (ptr : Nat) (l : List (Req × Nat)) : Option (Req × Nat) :=
  let top := if l.any fun x => x.1.level = 1 then l.filter fun x => x.1.level = 1 else l
  let best (l : List (Req × Nat)) : Option (Req × Nat) :=
    l.foldl (fun a x => match a with | none => some x | some y => if key x < key y then some x else some y) none
  match best (top.filter fun x => ptr ≤ key x) with
  | some x => some x
  | none => best top

/-- One round (R239): request, grant, accept. Pointers move on the pairs of the first round. -/
def State.matchRound (first : Bool) (st : State × List Match) : State × List Match :=
  let (s, done) := st
  let reqs := s.requests done
  let outs := (reqs.map (·.egress)).eraseDups.flatMap fun e =>
    ((List.range (s.portWidth e)).map (e + ·)).filter fun o => !done.any fun m => m.out = o
  let grants : List (Req × Nat) := outs.filterMap fun o =>
    pickRr (·.1.slot) (spGet 0 s.basin.grantPtr o)
      ((reqs.filter fun r => s.portOf o = r.egress).map fun r => (r, o))
  let ins := (grants.map (·.1.slot)).eraseDups
  let accepted : List Match := ins.flatMap fun i =>
    match pickRr (·.2) (spGet 0 s.basin.acceptPtr i) (grants.filter fun g => g.1.slot = i) with
    | none => []
    | some (r, o) =>
      match r.mc with
      | none => [⟨r, o⟩]
      | some _ =>
        (((grants.filter fun g => g.1.slot = i && g.1.mc = r.mc).foldl (fun (l : List Match) g =>
          if l.any fun m => m.req.egress = g.1.egress then l else l ++ [⟨g.1, g.2⟩]) []))
  let s := if first then accepted.foldl (fun s m =>
      { s with basin := { s.basin with grantPtr := spPut 0 s.basin.grantPtr m.out ((m.req.slot + 1) % 512),
                                       acceptPtr := spPut 0 s.basin.acceptPtr m.req.slot ((m.out + 1) % 512) } }) s
    else s
  (s, done ++ accepted)

/-- The class whose cell a matched pair sends: collective classes with credit first, then by the finish tags of the head cells with
the egress port's weights, a class whose gate is closed only where no other holds cells (R239, R263). -/
def State.pairClass (s : State) (quay e : Nat) (gateOpen : Nat → Bool) : Option Nat :=
  let cs := (List.range 16).filter fun c => (s.pairQueues quay e).any fun v => v.cls = c
  let cs := if cs.any gateOpen then cs.filter gateOpen else cs
  match cs.find? (s.collCredit e) with
  | some c => some c
  | none =>
    let tag c := spGet 0 s.basin.pairTag (pairKey quay e c)
    match (cs.filter fun c => 0 < s.weight e c) with
    | [] => cs.head?
    | c :: rest => some (rest.foldl (fun a x => if tagLe (tag a) (tag x) then a else x) c)

/-- The head packet of a queue as its next cell crosses: a packet of this module's own takes its TSTAMP with its first (R235). -/
def State.crossing (s : State) (q : Queued) : Queued :=
  if q.pkt.orig && q.crossed = 0 then
    { q with pkt := { q.pkt with pkt := { q.pkt.pkt with hdr := { q.pkt.pkt.hdr with tstamp := s.ts32 } } } }
  else q

/-- One cell of a pair crosses: V becomes its tag, the next cell takes its own (R262), and a packet whose last cell has crossed awaits
reassembly. -/
def State.crossUnicast (s : State) (quay e : Nat) (gateOpen : Nat → Bool) : State :=
  match s.pairClass quay e gateOpen with
  | none => s
  | some c =>
    match s.basin.voqs.find? (·.is quay e c) with
    | some ⟨_, _, _, q :: rest⟩ =>
      let q := s.crossing q
      let b := s.basin
      let done := q.crossed + 1 = q.cells
      let left := if done then rest else { q with crossed := q.crossed + 1 } :: rest
      let b : Basin := { b with
        voqs := (b.voqs.map fun v => if v.is quay e c then { v with pkts := left } else v).filter fun v => !v.pkts.isEmpty,
        reasm := if done then b.reasm ++ [(e, q.pkt)] else b.reasm,
        pairTime := if s.weight e c = 0 then b.pairTime
          else spPut 0 b.pairTime (512 * quay + e) (spGet 0 b.pairTag (pairKey quay e c)) }
      let die := dieOf q.pkt.port
      let s := (({ s with basin := b } : State).freeCells die 1).tally 0x11
      let s := if left.isEmpty then s else s.pairHead quay e c false
      if die = dieOf e then s else s.tally 0x12
    | _ => s

/-- One multicast cell copied to a port that accepted (R242). -/
def State.crossMulticast (s : State) (p cls e : Nat) : State :=
  let b := s.basin
  let mine (f : McFifo) : Bool := f.ingress = p && f.cls = cls
  let out := (b.mc.filter mine).flatMap fun f =>
    match f.pkts with
    | h :: _ => if h.left = 1 && h.residue.contains e then [(e, h.pkt)] else []
    | [] => []
  let freed := b.mc.any fun f => mine f && match f.pkts with | h :: _ => h.residue = [e] | [] => false
  let step (f : McFifo) : McFifo :=
    match f.pkts with
    | h :: rest =>
      let r := h.residue.erase e
      if !r.isEmpty then { f with pkts := { h with residue := r } :: rest }
      else if h.left ≤ 1 then { f with pkts := rest }
      else { f with pkts := { h with left := h.left - 1, residue := h.ports } :: rest }
    | [] => f
  let b := { b with mc := (b.mc.map fun f => if mine f then step f else f).filter fun f => !f.pkts.isEmpty,
                    reasm := b.reasm ++ out }
  let s := ({ s with basin := b } : State).tally 0x11
  let s := if freed then s.freeCells (dieOf p) 1 else s
  if dieOf p = dieOf e then s else s.tally 0x12

def cycleOf (l : List Word64) : Nat := l.foldl (fun n e => n + gateDur e) 0

/-- Network time since a list's BASE, in ns (R269). -/
def State.sinceBase (s : State) (p : Nat) (t : Nat) : Int :=
  ((t : Nat) : Int) - (s.cget F.SC_GATE_BASE_S_SECONDS [p] * 1000000000 + s.cget F.SC_GATE_BASE_NS_NS [p] : Nat)

/-- The phase of a list now (R269). -/
def State.gatePhase (s : State) (p : Nat) (cycle : Nat) : Nat := ((s.sinceBase p s.ctNs).emod cycle).toNat

/-- The entry in which a phase falls, and the ns left in it. -/
def entryAt : List Word64 → Nat → Nat × Nat
  | [], ph => (0, ph)
  | e :: rest, ph => if ph < gateDur e then (0, gateDur e - ph) else let r := entryAt rest (ph - gateDur e); (r.1 + 1, r.2)

/-- The mask of classes that a port's gate leaves open now: that of the entry in which the present phase falls; all where gates are off
or the list is empty (R269, R270). -/
def State.gateMask (s : State) (p : Nat) : Nat :=
  let es := s.gateEntries p
  if s.get F.SC_CTRL_GATE_EN = 0 || es.isEmpty then 0xFFFF
  else gateOpen (s.inForce p ((es[(entryAt es (s.gatePhase p (cycleOf es))).1]?).getD 0))

/-- The matches that cross: where slots of a port were matched to the same port for one multicast head, one copy goes (R242). -/
def copies (ms : List Match) : List Match :=
  ms.foldl (fun l m =>
    if m.req.mc.isSome && l.any fun x => x.req.port = m.req.port && x.req.mc = m.req.mc && x.req.egress = m.req.egress then l
    else l ++ [m]) []

/-- MATCHING (R239). -/
def execMatching (s : State) : Out :=
  let es := ((s.basin.voqs.map (·.egress)) ++ s.basin.mc.flatMap fun f => f.pkts.flatMap (·.residue)).eraseDups
  let s := es.foldl (fun s e => s.fillPrio e) s
  let (s, ms) := State.matchRound false (State.matchRound false (State.matchRound true (s, [])))
  .next ((copies ms).foldl (fun (s : State) m =>
    match m.req.mc with
    | none => s.crossUnicast (m.req.port / 8) m.req.egress (fun c => (s.gateMask m.req.egress).testBit c)
    | some c => s.crossMulticast m.req.port c m.req.egress) s).grantAll

/-- A packet that reassembly finds uncorrectable (R355): it is dropped whole; a RESULT, GRANT or REREQ of this module's own is
built again and crosses again, any other is left to its endpoints. -/
def State.dropBad (s : State) (port : Nat) (x : BPkt) : State :=
  let s := (s.tally 0x15).countDrop x.port x.pkt.hdr.tc
  if x.orig && x.pkt.hdr.kind = 1 then s.queueTo x port else s

/-- EGRESS_REASSEMBLY (R238, R355): the oldest packet whose last cell has reached `port`; `bad` says that a word of it is
uncorrectable. -/
def execEgressReassembly (port : Nat) (bad : Bool) (s : State) : Out :=
  match s.basin.reasm.find? fun x => x.1 = port with
  | none => .next s
  | some x =>
    let s := { s with basin := { s.basin with reasm := s.basin.reasm.erase x } }
    .next (if bad then s.dropBad port x.2 else s.toClassQ port x.2)

/-! ### Down ports (R242, R249) -/

/-- The virtual output queues without the packets that `gone` names, whose cells are free; a queue whose head goes gives its next cell
a tag of its own. The packets taken out are answered. -/
def State.takeQueued (s : State) (p : Nat) (gone : BPkt → Bool) : List BPkt × State :=
  let mine := s.basin.voqs.filter fun v => v.egress = p && v.pkts.any fun q => gone q.pkt
  mine.foldl (fun (l, s) v =>
    let lost := v.pkts.filter fun q => gone q.pkt
    let keep := v.pkts.filter fun q => !gone q.pkt
    let b := s.basin
    let s : State := { s with basin := { b with
      voqs := (b.voqs.map fun w => if w = v then { w with pkts := keep } else w).filter fun w => !w.pkts.isEmpty } }
    let s := if keep.isEmpty || keep.head? = v.pkts.head? then s else s.pairHead v.quay p v.cls false
    (l ++ lost.map (·.pkt), lost.foldl (fun s q => s.freeCells (dieOf q.pkt.port) q.rest) s)) ([], s)

/-- The same of a port's packets that await reassembly, and of its class queues. -/
def State.takeEgress (s : State) (p : Nat) (gone : BPkt → Bool) : List BPkt × State :=
  let b := s.basin
  let lost := (b.reasm.filter fun x => x.1 = p && gone x.2).map (·.2)
  let s : State := { s with basin := { b with reasm := b.reasm.filter fun x => !(x.1 = p && gone x.2) } }
  (List.range 16).foldl (fun (l, s) c =>
    let q := s.classQ p c
    let keep := q.pkts.filter fun x => !gone x
    if keep.length = q.pkts.length then (l, s)
    else
      let tag := if keep.head? = q.pkts.head? then q.tag
        else match keep with
          | x :: _ => s.headTag p c false q.tag x.pkt
          | [] => q.tag
      (l ++ q.pkts.filter gone, s.setClassQ p c ⟨keep, tag⟩)) (lost, s)

/-- Every packet on its way to a port that `gone` names, taken out. -/
def State.takeAll (s : State) (p : Nat) (gone : BPkt → Bool) : List BPkt × State :=
  let (a, s) := s.takeQueued p gone
  let (b, s) := s.takeEgress p gone
  (a ++ b, s)

/-- The packets on their way to a port that `gone` names are dropped. -/
def State.dropQueued (s : State) (p : Nat) (gone : BPkt → Bool) : State :=
  let (l, s) := s.takeAll p gone
  l.foldl (fun s x => s.dropDown x.port x.pkt.hdr.tc) s

/-- A multicast packet without a port: a cell whose residue is now empty is free, and a packet without ports ends. -/
def McPkt.without (p : Nat) (m : McPkt) : McPkt :=
  let ports := m.ports.erase p
  let residue := m.residue.erase p
  if ports.isEmpty then { m with left := 0, residue := [], ports := [] }
  else if !residue.isEmpty then { m with residue := residue, ports := ports }
  else { m with left := m.left - 1, residue := ports, ports := ports }

/-- A port whose link is down leaves every residue; each copy it had not received whole is counted (R242). -/
def State.mcDown (s : State) (p : Nat) : State :=
  let b := s.basin
  let lost := b.mc.foldl (fun n f => n + (f.pkts.filter fun m => m.residue.contains p || (m.ports.contains p && 1 < m.left)).length) 0
  let freed := b.mc.flatMap fun f => f.pkts.map fun m => (dieOf f.ingress, if m.ports.contains p then m.left - (m.without p).left else 0)
  let mc : List McFifo := b.mc.map fun f => { f with pkts := (f.pkts.map fun m => if m.ports.contains p then m.without p else m).filter (0 < ·.left) }
  let s : State := { s with basin := { b with mc := mc.filter fun f => !f.pkts.isEmpty } }
  (freed.foldl (fun s x => s.freeCells x.1 x.2) s).bump F.BS_DROP_MCDOWN_COUNT [] lost

/-- A member that can no longer be used: lossless bundle packets are re-pathed, other lossless packets wait, lossy ones are dropped; where
its link is down it leaves every residue. -/
def State.portDown (s : State) (p : Nat) : State :=
  let s := s.dropQueued p fun x => !x.lossless
  let s := if s.linkUp p then s
    else (({ s with basin := { s.basin with downAt := spPut none s.basin.downAt p (some ((spGet none s.basin.downAt p).getD s.now)) } } : State).mcDown p)
  let (l, s) := s.takeAll p fun x => x.bundle.isSome
  l.foldl (fun s x => match x.bundle with
    | some b => s.deliver x (.bundle b)
    | none => s) s

/-- MEMBER_UNUSABLE (R249): where the port is indeed not usable. -/
def execMemberUnusable (port : Nat) (s : State) : Out :=
  .next (if s.usable port then s else (s.portDown port).grantAll)

/-- DOWN_HOLD_EXPIRY (R249, R323): DOWN_HOLD_US after the port went down its packets are dropped; on a channel in service, those
of a class that withdrawals have blocked for so long. A port whose link has come back is down no more. -/
def execDownHoldExpiry (port : Nat) (s : State) : Out :=
  let past (t : Option Nat) : Bool := match t with | some t => t + us (s.get F.BS_CTRL_DOWN_HOLD_US) ≤ s.now | none => false
  .next (if s.linkUp port then
      (({ s with basin := { s.basin with downAt := spPut none s.basin.downAt port none } } : State).dropQueued port
        fun x => past (s.blockedAt port x.pkt.hdr.tc)).grantAll
    else if past (spGet none s.basin.downAt port) then (s.dropQueued port fun _ => true).grantAll
    else s)

/-! ### The ager (R253, R254, R257) -/

/-- Whether an entry's age is at its limit. -/
def State.aged (s : State) (pipe : Nat) (e : HEntry) : Bool :=
  !e.data.getLsbD 16 && s.get F.HB_AGE_LIMIT [pipe] ≤
    (s.get F.HB_AGE_NOW [pipe] + 65536 - bits e.data 32 16) % 65536

/-- The entries of one place of the ager's sweep: a bucket, or one overflow entry. -/
def placeEntries (t : Sp (Option HEntry)) (at_ : Nat) : List (Nat × HEntry) :=
  t.filterMap fun e =>
    match e.2 with
    | some x => if (at_ < 262144 && e.1 / 4 = at_ && e.1 < ovfBase) || (262144 ≤ at_ && e.1 = ovfBase + (at_ - 262144)) then some (e.1, x) else none
    | none => none

/-- AGER_VISIT (R253, R258). -/
def execAgerVisit (pipe : Nat) (s : State) : Out :=
  if s.get F.HB_AGE_ENABLE [pipe] = 0 || s.wintering || s.pinning then .next s
  else
    let at_ := (s.harbour.ager[pipe]?).getD 0
    let s' := (placeEntries (s.hTable pipe) at_).foldl (fun s e =>
      if e.2.badParity then s.parityError pipe e.1 e.2.key
      else if s.aged pipe e.2 then
        let s := s.hSet pipe e.1 none
        if s.cget F.HB_LEARN_CFG_AGE_NOTIFY [pipe] = 1 then s.notify pipe e.2.key 0 4 e.1 else s
      else s) s
    .next { s' with harbour := { s'.harbour with ager := s'.harbour.ager.set pipe ((at_ + 1) % (262144 + 8192)) } }

/-- AGEING_TICK (R253): UNIT_MS ms of network time after the last one; UNIT_MS 0 stops NOW (R259). -/
def execAgeingTick (pipe : Nat) (s : State) : Out :=
  let unit := s.get F.HB_AGE_UNIT_MS [pipe]
  let ms := s.ctNs / 1000000
  let last := (s.harbour.ageMs[pipe]?).getD 0
  if unit = 0 || s.wintering || ms < last + unit then .next s
  else
    let s := s.advance F.HB_AGE_NOW [pipe]
    .next { s with harbour := { s.harbour with ageMs := s.harbour.ageMs.set pipe (last + unit) } }

/-! ### HB_OP (R256) -/

/-- The outcome of an operation shown in HB_OP_STATUS. -/
def State.opDone (s : State) (pipe result index : Nat) : State :=
  (s.put F.HB_OP_STATUS_RESULT [pipe] result).put F.HB_OP_STATUS_INDEX [pipe] index

/-- The first free place for a key: a way of its bucket, else an overflow entry. -/
def State.freePlace (s : State) (pipe key : Nat) : Option Nat :=
  let b := hBucket key
  match (List.range 4).find? fun w => s.hEntry pipe (4 * b + w) = none with
  | some w => some (4 * b + w)
  | none => ((List.range 8192).find? fun i => s.hEntry pipe (ovfBase + i) = none).map (ovfBase + ·)

/-- INSERT with the data of HB_OP_DATA. -/
def State.hInsert (s : State) (pipe key : Nat) : State :=
  let d := s.rd .HB_OP_DATA [pipe]
  let w := putBits (putBits (putBits (BitVec.ofNat 64 (bits d 0 16)) 16 1 0) 32 16 (s.get F.HB_AGE_NOW [pipe])) 63 1 1
  let (r, s) := s.hFind pipe key
  if bits d 0 2 = 1 && bits d 2 9 > 255 then s.opDone pipe St.badDescriptor 0
  else
    match r with
    | some (i, e) => if e.data.getLsbD 16 then s.opDone pipe St.badDescriptor i
        else (s.hSet pipe i (some ⟨key, w, false⟩)).opDone pipe St.ok i
    | none =>
      match s.freePlace pipe key with
      | some i => (s.hSet pipe i (some ⟨key, w, false⟩)).opDone pipe St.ok i
      | none => s.opDone pipe St.noResource 0

def State.hDelete (s : State) (pipe key : Nat) : State :=
  let (r, s) := s.hFind pipe key
  match r with
  | some (i, e) => if e.data.getLsbD 16 then s.opDone pipe St.badDescriptor i
      else (s.hSet pipe i none).opDone pipe St.ok i
  | none => s.opDone pipe St.ok 0

def State.hRead (s : State) (pipe key : Nat) : State :=
  let (r, s) := s.hFind pipe key
  match r with
  | some (i, e) => (s.wr .HB_OP_DATA [pipe] (putBits e.data 63 1 1)).opDone pipe St.ok i
  | none => (s.wr .HB_OP_DATA [pipe] 0).opDone pipe St.ok 0

/-- An operation carried out (R256): codes 4 to 7 are refused. -/
def State.hRun (s : State) (pipe key cmd : Nat) : State :=
  match cmd with
  | 1 => s.hInsert pipe (key % 2 ^ 40)
  | 2 => s.hDelete pipe (key % 2 ^ 40)
  | 3 => s.hRead pipe (key % 2 ^ 40)
  | _ => s.opDone pipe St.badDescriptor 0

/-- A write to HB_OP with a CMD: 0 does nothing; while a commit of set 0x180 is in progress the operation waits, with BUSY set
(R257). -/
def State.hOp (s : State) (pipe key cmd : Nat) : State :=
  let s := s.put F.HB_OP_KEY [pipe] key
  if cmd = 0 then s
  else if s.pinning then
    ({ s with harbour := { s.harbour with waiting := s.harbour.waiting ++ [(pipe, key, cmd)] } } : State).put F.HB_OP_STATUS_BUSY [pipe] 1
  else s.hRun pipe key cmd

/-- The commit has ended: the operations that wait run in the order they were written, and lookups resume. -/
def State.pinsEnd (s : State) : State :=
  let s := s.harbour.waiting.foldl (fun s x => (s.put F.HB_OP_STATUS_BUSY [x.1] 0).hRun x.1 x.2.1 x.2.2)
    { s with harbour := { s.harbour with waiting := [] } }
  s.resumeLookups

/-- INSERT (R256). -/
def execInsert (req : Requester) (pipe key : Nat) (s : State) : Out :=
  .next (s.rowWrite req .HB_OP [pipe] (·.hOp pipe key 1))

/-- DELETE (R256). -/
def execDelete (req : Requester) (pipe key : Nat) (s : State) : Out :=
  .next (s.rowWrite req .HB_OP [pipe] (·.hOp pipe key 2))

/-- LOOKUP (R256). -/
def execLookup (req : Requester) (pipe key : Nat) (s : State) : Out :=
  .next (s.rowWrite req .HB_OP [pipe] (·.hOp pipe key 3))

end Sys2Proof.Machine
end

