-- ==== Sys2Proof/Machine/Clocktower.lean ====
section
/-! DEFINITION. Meters by register (R267), gate lists (R268 to R274), the Clocktower and its pulse per second (R275 to
R284). -/

namespace Sys2Proof.Machine

open Host (Outcome)

/-! ### Meter operations (R267) -/

/-- A write to SC_METER_SEL with an index and an OP: 0 none, 1 WRITE, 2 READ, 3 CLEAR_COUNTS; other codes are refused. -/
def State.meterOp (s : State) (index op : Nat) : State :=
  let i := index % 65536
  let s := s.put F.SC_METER_SEL_INDEX [] i
  match op with
  | 1 =>
    let cir := s.get F.SC_METER_RATE_CIR
    let pir := s.get F.SC_METER_RATE_PIR
    if pir < cir then s.put F.SC_METER_STATUS_RESULT [] St.badDescriptor
    else
      let cbs := s.get F.SC_METER_BURST_CBS
      let pbs := s.get F.SC_METER_BURST_PBS
      let m := s.meter i
      (s.setMeter i { m with
        cir := cir, pir := pir, cbs := cbs, pbs := pbs,
        yellowAct := s.get F.SC_METER_ACT_YELLOW, redAct := s.get F.SC_METER_ACT_RED,
        tc := cbs * 256000, tp := pbs * 256000, upTo := s.now }).put F.SC_METER_STATUS_RESULT [] St.ok
  | 2 =>
    let m := s.meter i
    let s := (s.put F.SC_METER_RATE_CIR [] m.cir).put F.SC_METER_RATE_PIR [] m.pir
    let s := (s.put F.SC_METER_BURST_CBS [] m.cbs).put F.SC_METER_BURST_PBS [] m.pbs
    let s := (s.put F.SC_METER_ACT_YELLOW [] m.yellowAct).put F.SC_METER_ACT_RED [] m.redAct
    let s := (s.put F.SC_METER_CNT_GREEN [] m.green).put F.SC_METER_CNT_YELLOW [] m.yellow
    (s.put F.SC_METER_RED_RED [] m.red).put F.SC_METER_STATUS_RESULT [] St.ok
  | 3 => (s.setMeter i { s.meter i with green := 0, yellow := 0, red := 0 }).put F.SC_METER_STATUS_RESULT [] St.ok
  | 0 => s
  | _ => s.put F.SC_METER_STATUS_RESULT [] St.badDescriptor

/-- METER_WRITE (R267). -/
def execMeterWrite (req : Requester) (index : Nat) (s : State) : Out :=
  .next (s.rowWrite req .SC_METER_SEL [] (·.meterOp index 1))

/-- METER_READ (R267). -/
def execMeterRead (req : Requester) (index : Nat) (s : State) : Out :=
  .next (s.rowWrite req .SC_METER_SEL [] (·.meterOp index 2))

/-- CLEAR_COUNTS (R267). -/
def execClearCounts (req : Requester) (index : Nat) (s : State) : Out :=
  .next (s.rowWrite req .SC_METER_SEL [] (·.meterOp index 3))

/-! ### Gate lists (R268 to R272) -/

/-- The ns to the end of the run of consecutive open entries that contains the present time; none where the class never
closes (R272). -/
def runLeft (l : List Word64) (c i left : Nat) : Option Nat :=
  if l.all fun e => classOpen e c then none
  else
    let rot := l.drop (i + 1) ++ l.take (i + 1)
    some (left + (rot.takeWhile fun e => classOpen e c).foldl (fun n e => n + gateDur e) 0)

/-- Whether GUARD lets a packet of `l` bytes start (R272). -/
def State.guardFits (s : State) (p c l : Nat) : Bool :=
  let es := (s.gateEntries p).map (s.inForce p)
  if s.get F.SC_CTRL_GATE_EN = 0 || es.isEmpty || s.cget F.SC_GATE_CTL_GUARD [p] = 0 then true
  else
    let (i, left) := entryAt es (s.gatePhase p (cycleOf es))
    match runLeft es c i left with
    | none => true
    | some n => (l + 24) * 8000 < n * s.rateMbps p

/-- The longest run of consecutive open entries of a class over the cycle; none where it never closes. -/
def longestRun (l : List Word64) (c : Nat) : Option Nat :=
  if l.all fun e => classOpen e c then none
  else some (((List.range l.length).map fun i =>
    ((l.drop i ++ l.take i).takeWhile fun e => classOpen e c).foldl (fun n e => n + gateDur e) 0).foldl max 0)

/-! ### The Clocktower (R275, R276, R283) -/

/-- A time write noted: FREERUN clears and the servo timer restarts. -/
def State.timeWrite (s : State) : State :=
  ({ s with clock := { s.clock with wroteAt := s.now } } : State).put F.CT_STATUS_FREERUN [] 0

/-- A step or set counted. -/
def State.timeStepped (s : State) : State := (s.advance F.CT_STATUS_STEPS).put F.CT_STATUS_VALID [] 1

/-- A write to CT_RATE: dropped where it is further than 500 ppm from 2^39. -/
def State.setRate (s : State) (v : Word64) : State :=
  let inc := bits v 0 48
  let d := if inc < 2 ^ 39 then 2 ^ 39 - inc else inc - 2 ^ 39
  if d * 1000000 > 500 * 2 ^ 39 then s.put F.CT_STATUS_RATE_REFUSED [] 1
  else (s.put F.CT_RATE_INC [] inc).timeWrite

/-- RATE (R276). -/
def execRate (req : Requester) (value : Word64) (s : State) : Out :=
  .next (s.rowWrite req .CT_RATE [] (·.setRate value))

/-- The time made `t` ns; seconds wrap at 2^48. -/
def State.setNs (s : State) (t : Nat) : State :=
  { s with clock := { s.clock with sec := t / 1000000000 % 2 ^ 48, ns := t % 1000000000, carried := false } }

/-! ### Boundaries on network time (R271, R285) -/

/-- AT_TIME in ns. -/
def Commit.timeNs (c : Commit) : Option Nat := c.atTime.map fun t => t.1 * 1000000000 + t.2

/-- The network time from which a commit's own boundary is sought, at time `t`: that of its request or of a step, else TIME once it has
come. -/
def Commit.from? (c : Commit) (t : Nat) : Option Nat :=
  match c.since, c.timeNs with
  | some n, _ => some n
  | none, some n => if n ≤ t then some n else none
  | none, none => none

/-- Whether a cycle of a port's committed list has started from `a` to `b`, both included; a list of COUNT 0 always has. -/
def State.cycleStarted (s : State) (p a b : Nat) : Bool :=
  let es := s.gateEntries p
  let n : Int := cycleOf es
  es.isEmpty || (s.sinceBase p a + n - 1).ediv n ≤ (s.sinceBase p b).ediv n

/-- Whether the old list's boundary for a commit has been reached (R271). -/
def State.gateBoundary (s : State) (p : Nat) (c : Commit) : Bool :=
  c.due || match c.from? s.ctNs with
    | some a => s.cycleStarted p a s.ctNs
    | none => false

/-- The commits as the time goes from `s`'s to `t`: what TIME and boundaries had been reached before stays reached, TIME stepped over is
reached at once, and a boundary still to come is sought from the new time on. -/
def State.rebased (s : State) (t : Nat) : List Commit :=
  s.commits.map fun c =>
    match c.from? s.ctNs with
    | some _ => { c with since := some t, due := c.due || (c.set = 0x1C0 && s.gateBoundary c.inst c) }
    | none => { c with since := (c.from? t).map fun _ => t }

/-- The cycle of a port's list that the present time lies in. -/
def State.gateCycleNow (s : State) (p : Nat) : Int := (s.sinceBase p s.ctNs).ediv (cycleOf (s.gateEntries p) : Nat)

/-- The time copied to a pair of registers. -/
def State.captureTo (s : State) (fs fn : Fld) : State := (s.put fs [] s.clock.sec).put fn [] s.clock.ns

/-- CAPTURE (R277). -/
def execCapture (req : Requester) (s : State) : Out :=
  .next (s.rowWrite req .CT_SNAP_CMD [] (·.captureTo F.CT_SNAP_S_SECONDS F.CT_SNAP_NS_NS))

/-- PPS_IN_EDGE (R284): captured where PPS_IN_EN is set. -/
def execPpsInEdge (s : State) : Out :=
  .next (if s.get F.CT_CTRL_PPS_IN_EN = 1 then
    (s.captureTo F.CT_PPS_IN_S_SECONDS F.CT_PPS_IN_NS_NS).put F.CT_STATUS_PPS_IN_SEEN [] 1 else s)

/-- PPS_OUT_RISE (R284): with PPS_OUT_EN and a nonzero width, in the cycle in which the nanoseconds carried. -/
def execPpsOutRise (s : State) : Out :=
  .next (if s.get F.CT_CTRL_PPS_OUT_EN = 1 && s.get F.CT_CTRL_PPS_WIDTH_US ≠ 0 && s.clock.carried && !s.clock.ppsHigh then
    { s with clock := { s.clock with ppsHigh := true, ppsAt := s.now } } else s)

/-- PPS_OUT_FALL (R284): PPS_WIDTH_US after the rise. -/
def execPpsOutFall (s : State) : Out :=
  .next (if s.clock.ppsHigh && s.clock.ppsAt + us (s.get F.CT_CTRL_PPS_WIDTH_US) ≤ s.now then
    { s with clock := { s.clock with ppsHigh := false } } else s)

/-- FREERUN (R283): SERVO_TIMEOUT_MS after the last time write; never where it is 0. -/
def execFreerun (s : State) : Out :=
  let t := s.get F.CT_CTRL_SERVO_TIMEOUT_MS
  .next (if t ≠ 0 && s.clock.wroteAt + us (1000 * t) ≤ s.now then s.put F.CT_STATUS_FREERUN [] 1 else s)

/-- A tick of four swc cycles, the model's mgc cycle: CT_RATE.INC is added four times (R275). -/
def Clock.tick (c : Clock) (inc : Nat) : Clock :=
  let f := c.frac + 4 * inc
  let n := c.ns + f / 2 ^ 40
  { c with frac := f % 2 ^ 40, ns := n % 1000000000, sec := (c.sec + n / 1000000000) % 2 ^ 48, carried := 1000000000 ≤ n }

end Sys2Proof.Machine
end

