-- ==== Sys2Proof/Machine/Lighthouse.lean ====
section
/-! DEFINITION. The link layer's transmit side (R295 to R301), and the Lighthouse: retuning, confirmation, withdrawal and
calibration of colour circuits (R315 to R325), with the gate entries that drive them (R269). -/

namespace Sys2Proof.Machine

open Host (Outcome)

/-! ### Identity (R308) -/

/-- log2 of a port width. -/
def widthLog (w : Nat) : Nat := Nat.log2 w

/-- The features Sprintal offers: INNER, BEACON10 and COLL; INNER only at generation 3 (R309). -/
def State.ownFeatures (s : State) (p : Nat) : Nat := if s.get F.QY_PORT_STATUS_GEN (pidx p) = 3 then 7 else 6

/-- The identity record of a port. -/
def State.identRecord (s : State) (p : Nat) : List Byte :=
  leBytes (0x4A58 + (bits (genIdWord s.fuses.grade) 32 16) * 2 ^ 16 + 3 * 2 ^ 32 + s.ownFeatures p * 2 ^ 40
      + s.get F.BS_CTRL_LOSSLESS * 2 ^ 48) 8
    ++ leBytes (s.cget F.BS_SELF_ENDPOINT [0] + p * 2 ^ 24 + widthLog (s.portWidth p) * 2 ^ 33) 8
    ++ leBytes s.fuses.serial.toNat 8 ++ leBytes 256 8 ++ leBytes (s.port p).random 8

/-- ID_HASH: the low 32 bits of the fold of R151 over a record's five words. -/
def idHash (record : List Byte) : Nat := (granuleDigest record).toNat % 2 ^ 32

def State.ownHash (s : State) (p : Nat) : Nat := idHash (s.identRecord p)

/-! ### Sending (R296, R298, R301, R303) -/

/-- Whether a port's lanes use the inner code (R294, R309): at generation 3, unless the partner of stage 6 has not agreed to it. -/
def State.inner (s : State) (p : Nat) : Bool := s.get F.QY_PORT_STATUS_GEN (pidx p) = 3 && (s.stage p < 6 || s.feature p 0)

/-- The codeword time of a port's lanes, in units of 1/10 ns: 12.8 ns at generation 3 (R291, R309). -/
def State.codewordTime (s : State) (p : Nat) : Nat := 128 * 2 ^ (3 - s.get F.QY_PORT_STATUS_GEN (pidx p))


/-- Colours that a committed gate list names. -/
def State.listColours (s : State) (p : Nat) : List Nat :=
  ((s.gateEntries p).map gateCsel).filter (· < 64) |>.eraseDups

/-- The replay buffer a link has: 256 KiB per lane, divided among the colours of a channel (R298, R317). -/
def State.replayBytes (s : State) (p : Nat) : Nat :=
  let n := 262144 * s.portWidth p
  if s.lhPort p then n / max 1 (s.listColours p).length else n

/-- Whether a frame of `pkt` fits the replay buffer now. -/
def State.replayFits (s : State) (p : Nat) (pkt : Packet) : Bool :=
  ((s.link p).replay.foldl (fun n x => n + frameBytes x.2) 0) + frameBytes pkt ≤ s.replayBytes p

/-- Whether the partner's CREDIT_MASK holds a class: bits 63 to 48 of its first identity word. -/
def State.credited (s : State) (p c : Nat) : Bool := (bits (s.rd .QY_PARTNER (pidx p ++ [0])) 48 16).testBit c

/-- Whether a class holds the credits that a frame needs: those granted, counted modulo 2^32, less those used (R299). -/
def State.hasCredit (s : State) (p : Nat) (pkt : Packet) : Bool :=
  let c := pkt.hdr.tc
  let l := s.link p
  !s.credited p c || frameCredits pkt ≤ (spGet 0 l.granted c + 2 ^ 32 - spGet 0 l.used c % 2 ^ 32) % 2 ^ 32

/-- A frame given to the PCS (R296); an armed CRC error goes with it. -/
def State.putFrame (s : State) (p lseq : Nat) (pkt : Packet) : State :=
  let bs := (frameOf lseq (s.port p).badCrc pkt).zipIdx.map fun b => (b.2 == 0, b.1)
  ((s.send (.frame p lseq pkt)).mapPort p fun x => { x with badCrc := false }).mapLink p fun l =>
    { l with tx := { l.tx with stream := l.tx.stream ++ bs } }

/-- A native frame sent: it takes the next LSEQ, charges its class and stays in the replay buffer. -/
def State.sendFrame (s : State) (p : Nat) (pkt : Packet) : State :=
  let l := s.link p
  let c := pkt.hdr.tc
  let l := { l with
    txNext := (l.txNext + 1) % 2 ^ 32, replay := l.replay ++ [(l.txNext, pkt)],
    ackAt := if l.replay.isEmpty then s.now else l.ackAt,
    used := if s.credited p c then spPut 0 l.used c (spGet 0 l.used c + frameCredits pkt) else l.used }
  (s.setLink p l).putFrame p (s.link p).txNext pkt

/-- The bytes of a number, the most significant first. -/
def beBytes (v n : Nat) : List Byte := (leBytes v n).reverse

/-- The MAC addresses and the tag of a frame from a port: VID, and of the packet it carries PCP and DEI (R303, R330). -/
def State.macBytes (s : State) (p : Nat) (h : Option Header) : List Byte :=
  let pcp : Nat := match h with
    | some h => (h.tc % 8) * 2 ^ 13 + (if s.cget F.QY_ETH_CFG_CM_DEI (pidx p) = 1 && h.cm then 2 ^ 12 else 0)
    | none => 0
  let tag := if s.cget F.QY_ETH_CFG_TAG_EN (pidx p) = 1 then
      beBytes 0x8100 2 ++ beBytes (s.cget F.QY_ETH_CFG_VID (pidx p) + pcp) 2 else []
  beBytes (s.cget F.QY_ETH_PEER_PEER (pidx p)) 6 ++ beBytes (s.cget F.QY_ETH_MAC_MAC (pidx p)) 6 ++ tag

/-- An Ethernet frame of a packet without its FCS (R303). -/
def State.etherBytes (s : State) (p : Nat) (pkt : Packet) : List Byte :=
  s.macBytes p (some pkt.hdr) ++ beBytes (s.cget F.QY_ETH_CFG_ETYPE (pidx p)) 2 ++ pkt.bytes

/-- A packet put on a port's line. -/
def State.transmit (s : State) (p : Nat) (pkt : Packet) : State :=
  if s.isEth p then s.send (.ether p (etherFrame (s.etherBytes p pkt))) else s.sendFrame p pkt

/-- A BEACON sent, or suppressed by an injection (R301, R311); the next ones follow from cycle `at_` on. -/
def State.sendBeacon (s : State) (p at_ : Nat) : State :=
  let x := s.port p
  let s := s.setPort p { x with
    beaconAt := some at_, beaconCount := (x.beaconCount + 1) % 2 ^ 16, suppress := x.suppress - 1 }
  if x.suppress ≠ 0 then s
  else if s.isEth p then
    let (pkt, s) := s.build 3 0 0 0 0xBEAC (leBytes (s.ownHash p) 4 ++ leBytes x.beaconCount 4)
    s.transmit p pkt
  else s.sendCtl p Ctl.beacon (s.ownHash p + x.beaconCount * 2 ^ 32)

/-! ### Circuits (R316 to R323) -/

def State.lhState (s : State) (q k : Nat) : Nat := s.get F.LH_CIRCUIT_STATE [q, k]

/-- Whether credits are granted on what a port has lit: on a channel, on a CONFIRMED circuit, which alone carries frames (R322). -/
def State.carries (s : State) (p : Nat) : Bool :=
  !s.lhPort p || match (s.channel (p / 8)).lit with
    | some k => s.lhState (p / 8) k = 2
    | none => false

/-- Each credited class of ours that has been given no credits on the link is given INIT_CELLS (R299). -/
def State.firstCredits (s : State) (p : Nat) : State :=
  let init := s.cget F.QY_PORT_CTRL_INIT_CELLS (pidx p)
  if !s.carries p || init = 0 then s
  else ((List.range 16).filter fun c => (s.get F.BS_CTRL_LOSSLESS).testBit c && spGet 0 (s.link p).given c = 0).foldl (fun s c =>
    (s.mapLink p fun l => { l with given := spPut 0 l.given c init }).sendCtl p Ctl.credit (c + init * 2 ^ 8)) s

/-- Whether bits of a word are odd in number. -/
def oddParity (n : Nat) : Bool := ((List.range 16).foldl (fun c i => c + (n.testBit i).toNat) 0) % 2 = 1

/-- The select word (R319): even parity in bit 0. -/
def selectWord (midx : Nat) (dark : Bool) : Nat :=
  let w := 2 ^ 15 + midx * 2 ^ 8 + (if dark then 2 ^ 7 else 0)
  if oddParity w then w + 1 else w

/-- The lit interval ends: a circuit that heard no BEACON equal to PEER in it has missed one (R322). -/
def State.unlight (s : State) (q : Nat) : State :=
  let c := s.channel q
  match c.lit with
  | none => s
  | some k =>
    let x := c.circuit k
    s.setChannel q ({ c with lit := none }.setCircuit k { x with misses := if c.heard then 0 else x.misses + 1 })

/-- The transmitter goes dark. -/
def State.goDark (s : State) (q : Nat) : State :=
  let s := s.unlight q
  (s.setChannel q { s.channel q with tuning := none }).send (.select q (selectWord 0 true))

/-- The colour of an entry that names `k`: a WITHDRAWN circuit's entry is dark (R316, R322). -/
def State.entryColour (s : State) (q k : Nat) : Nat := if 64 ≤ k || s.lhState q k = 3 then 0x3FF else k

/-- A retune to colour `k` starts: every class stays closed for HOLD_NS (R318). -/
def State.retune (s : State) (q k : Nat) : State :=
  if 64 ≤ s.entryColour q k then s.goDark q
  else
    let s := s.unlight q
    let hold := (s.get F.LH_PORT_STATUS_HOLD_NS [q] + 1) / 2
    (s.setChannel q { s.channel q with tuning := some (k, s.now + hold) }).send
      (.select q (selectWord (s.cget F.LH_COLOUR_MIDX [q, k]) false))

/-- Requests waiting for calibration shown. -/
def State.showCal (s : State) : State := s.put F.LH_CAL_STATUS_QUEUED [] s.quays.calQueue.length

/-- A channel queued for calibration, once (R325). -/
def State.queueCal (s : State) (r : CalReq) : State :=
  if s.quays.calQueue.any (fun x => x.quay = r.quay) || (match s.quays.cal with | some c => c.req.quay = r.quay | none => false) then s
  else ({ s with quays := { s.quays with calQueue := s.quays.calQueue ++ [r] } } : State).showCal

/-- A circuit WITHDRAWN with a CAUSE (R322, R323): lossy packets of a class that this leaves no circuit are dropped. -/
def State.withdraw (s : State) (q k cause : Nat) : State :=
  let s := (s.put F.LH_CIRCUIT_STATE [q, k] 3).put F.LH_CIRCUIT_CAUSE [q, k] cause
  let s := s.bump F.LH_WITHDRAW_CNT_COUNT
  let s := if (s.channel q).lit = some k || ((s.channel q).tuning.map (·.1)) = some k then s.goDark q else s
  let c := s.channel q
  let s := s.setChannel q (c.setCircuit k { c.circuit k with withdrawnAt := some s.now })
  let s := s.dropQueued (8 * q) fun x => (s.blockedAt (8 * q) x.pkt.hdr.tc).isSome && !x.lossless
  let calibrating := match s.quays.cal with | some c => c.req.quay = q | none => false
  if s.get F.LH_CTRL_AUTO_RECAL = 1 && !calibrating then
    s.queueCal ⟨q, s.get F.LH_CAL_INT_US, s.get F.LH_CAL_TOL, s.get F.LH_CAL_ITER_MAX⟩
  else s

/-- A CONFIRMING circuit that has heard its PEER and its echo is CONFIRMED. -/
def State.confirm (s : State) (q k : Nat) : State :=
  let x := (s.channel q).circuit k
  if s.lhState q k = 1 && x.gotBeacon && x.gotEcho && s.now ≤ x.firstLock + us 20 then
    ((s.put F.LH_CIRCUIT_STATE [q, k] 2).put F.LH_CIRCUIT_CAUSE [q, k] 0).firstCredits (8 * q)
  else s

/-- The transmitter locks on a circuit: a BEACON goes out first; a first lock starts its confirmation (R318, R321,
R322). The circuit's codeword numbers go on from where they stood, and its timers run anew (R317). -/
def State.lockOn (s : State) (q k : Nat) : State :=
  let c := s.channel q
  let first := s.lhState q k = 0
  let c := { c with tuning := none, lit := some k, heard := false }
  let c := if first then c.setCircuit k { c.circuit k with firstLock := s.now, gotBeacon := false, gotEcho := false, misses := 0 } else c
  let s := (s.setChannel q c).put F.LH_PORT_STATUS_CUR [q] k
  let s := if first then s.put F.LH_CIRCUIT_STATE [q, k] 1 else s
  let s := s.setLink (8 * q) (let l := s.link (8 * q)
    { l with ackAt := s.now, nakAt := l.nakAt.map fun _ => s.now,
             tx := { l.tx with since := s.now - l.tx.count / s.portWidth (8 * q) * s.codewordTime (8 * q) / 20 } })
  if s.stage (8 * q) = 6 then (s.sendBeacon (8 * q) s.now).firstCredits (8 * q) else s

/-- LOCK (R318): the hold of the present retune has ended. -/
def execLock (quay : Nat) (s : State) : Out :=
  .next (match (s.channel quay).tuning with
    | some (k, t) => if t ≤ s.now then s.lockOn quay k else s
    | none => s)

/-- A BEACON received on a channel's lit circuit (R321, R322): the echo follows it. -/
def State.lhBeacon (s : State) (q hash : Nat) : State :=
  match (s.channel q).lit with
  | none => s
  | some k =>
    let s := s.put F.LH_CIRCUIT_LAST_HEARD [q, k] hash
    let (pkt, s) := s.build 3 0 0 0 0x11C0 (leBytes hash 4 ++ leBytes k 4)
    let s := s.transmit (8 * q) pkt
    if hash ≠ s.cget F.LH_COLOUR_PEER [q, k] then
      (if s.lhState q k = 1 || s.lhState q k = 2 then s.withdraw q k 1 else s)
    else
      let c := s.channel q
      (s.setChannel q (({ c with heard := true }).setCircuit k { c.circuit k with gotBeacon := true })).confirm q k

/-- An echo received on the lit circuit of a channel, with its HEARD (R322). -/
def State.takeEcho (s : State) (q heard : Nat) : State :=
  match (s.channel q).lit with
  | none => s
  | some k =>
    if heard = s.ownHash (8 * q) then
      let c := s.channel q
      (s.setChannel q (c.setCircuit k { c.circuit k with gotEcho := true })).confirm q k
    else if s.lhState q k = 1 || s.lhState q k = 2 then s.withdraw q k 2
    else s

/-- ECHO (R322). -/
def execEcho (quay heard : Nat) (s : State) : Out := .next (s.takeEcho quay heard)

/-- CONFIRM_TIMEOUT (R322). -/
def execConfirmTimeout (quay colour : Nat) (s : State) : Out :=
  .next (if s.lhState quay colour = 1 && ((s.channel quay).circuit colour).firstLock + us 20 ≤ s.now
    then s.withdraw quay colour 3 else s)

/-- MISS (R322): MISS_MAX lit intervals in a row without a BEACON; 0 is treated as 1 (R327). -/
def execMiss (quay colour : Nat) (s : State) : Out :=
  .next (if s.lhState quay colour = 2 && max 1 (s.get F.LH_CTRL_MISS_MAX) ≤ ((s.channel quay).circuit colour).misses
    then s.withdraw quay colour 4 else s)

/-- LOCK_LOST (R322): of the circuit in force. -/
def execLockLost (quay : Nat) (s : State) : Out :=
  .next (match (s.channel quay).lit with
    | some k => if s.lhState quay k = 2 then s.withdraw quay k 5 else s
    | none => s)

/-! ### Gate entries (R269, R273, R318) -/

/-- The colour that a channel is on or tunes to. -/
def State.colourNow (s : State) (q : Nat) : Nat :=
  match (s.channel q).tuning, (s.channel q).lit with
  | some (k, _), _ => k
  | none, some k => k
  | none, none => 0x3FF

/-- From entry `j` of its list on, a channel belongs on that entry's colour, or on that of the entry after a run of closed ones: it retunes
where that is another (R318). -/
def State.steerLight (s : State) (p j : Nat) : State :=
  let es := s.gateEntries p
  match (es.drop j ++ es.take j).find? fun x => gateOpen x ≠ 0 with
  | some x => if s.entryColour (p / 8) (gateCsel x) = s.colourNow (p / 8) then s else s.retune (p / 8) (gateCsel x)
  | none => s

/-- What moving from entry `i` to entry `j` does to a channel's colour (R318). -/
def State.lhEntry (s : State) (p i j : Nat) : State :=
  let closed (n : Nat) : Bool := gateOpen (((s.gateEntries p)[n]?).getD 0) = 0
  if !s.lhPort p || s.get F.LH_PORT_STATUS_CALIBRATING [p / 8] = 1 || (closed i && closed j) then s else s.steerLight p j

/-- The entry and cycle of a port's list that R269 gives for the present time noted. -/
def State.noteGate (s : State) (p : Nat) : State :=
  let es := s.gateEntries p
  let j := if es.isEmpty then 0 else (entryAt es (s.gatePhase p (cycleOf es))).1
  let sc := s.sched
  ({ s with sched := { sc with gateAt := spPut 0 sc.gateAt p j, gateCycle := spPut 0 sc.gateCycle p (s.gateCycleNow p) } } : State).put
    F.SC_GATE_STATUS_ENTRY [p] j

/-- A port's list taken up at the entry that R269 gives for the present time; each cycle started is counted, but none on account of a
step of the time (R273). -/
def State.enterGate (s : State) (p : Nat) (stepped : Bool) : State :=
  if (s.gateEntries p).isEmpty then s
  else
    let i := spGet 0 s.sched.gateAt p
    let was := spGet 0 s.sched.gateCycle p
    let s := s.noteGate p
    let s := if stepped then s else s.advance F.SC_GATE_STATUS_CYCLES [p] (spGet 0 s.sched.gateCycle p - was).toNat
    let j := spGet 0 s.sched.gateAt p
    if i = j then s else s.lhEntry p i j

/-- The time made another by a set or a step (R273, R276, R285): every list takes up its entry for the new time, and commits seek their
boundaries from it. -/
def State.moveTime (s : State) (t : Nat) : State :=
  let s := ({ s with commits := s.rebased t } : State).setNs t
  let s := (((s.sched.gateList.map (·.1 / 1024)).eraseDups).filter (· < 512)).foldl (fun s p => s.enterGate p true) s
  s.timeStepped.timeWrite

/-- A signed step of the time: below zero becomes 0 s 0 ns. -/
def State.stepTime (s : State) (v : Word64) : State := s.moveTime ((s.ctNs : Int) + v.toInt).toNat

/-- STEP (R276). -/
def execStep (req : Requester) (value : Word64) (s : State) : Out :=
  .next (s.rowWrite req .CT_STEP [] (·.stepTime value))

/-- GATE_ENTRY (R269, R318). -/
def execGateEntry (port : Nat) (s : State) : Out := .next (s.enterGate port false)

/-! ### Calibration (R324, R325) -/

/-- A write to LH_CAL (R325, R327). -/
def State.lhCal (s : State) (v : Word64) : State :=
  let p := applyFields false (regDesc .LH_CAL).fields (s.rd .LH_CAL) v
  let s := s.wr .LH_CAL [] p.1
  if bits v 6 1 = 0 then s
  else if bits v 7 12 = 0 then s.put F.LH_CAL_STATUS_RESULT [] St.zeroSize
  else s.queueCal ⟨bits v 0 6, bits v 7 12, bits v 19 8, bits v 27 4⟩

/-- LH_CAL_GO (R325). -/
def execLhCalGo (req : Requester) (value : Word64) (s : State) : Out :=
  .next (s.rowWrite req .LH_CAL [] (·.lhCal value))

def State.setCal (s : State) (c : Option CalRun) : State := { s with quays := { s.quays with cal := c } }

/-- The calibration ends: OK when every colour is CONFIRMED; the list is in service again. -/
def State.endCal (s : State) (c : CalRun) : State :=
  let q := c.req.quay
  let s := (s.setCal none).put F.LH_CAL_STATUS_RESULT [] (if c.allGood then St.ok else St.badDescriptor)
  let s := (s.put F.LH_CAL_STATUS_BUSY [] 0).put F.LH_PORT_STATUS_CALIBRATING [q] 0
  s.steerLight (8 * q) (spGet 0 s.sched.gateAt (8 * q))

/-- A measurement asked of the module: INT_US, then MEASURE, on page 0xB0 (R325, R326). -/
def State.measure (s : State) (r : CalReq) : State :=
  s.send (.cmis r.quay true 0 0xB0 152 3 ((leBytes r.intUs 2).reverse ++ [1#8]))

/-- The next colour is selected, held and measured, or the calibration ends. -/
def State.nextColour (s : State) (c : CalRun) : State :=
  match c.todo with
  | [] => s.endCal c
  | k :: _ =>
    let s := (s.setCal (some { c with iter := 0, since := s.now, confirming := false })).put F.LH_CAL_STATUS_COLOUR [] k
    (s.send (.select c.req.quay (selectWord (s.cget F.LH_COLOUR_MIDX [c.req.quay, k]) false))).measure c.req

/-- CALIBRATION (R325): the next queued channel is taken out of service, or the running calibration goes on to its next
colour once the present one has been confirmed or withdrawn. While the device winters the queue waits (R377). A Quay whose port is not under
Lighthouse control has no list that names a colour (R327). -/
def execCalibration (s : State) : Out :=
  .next (match s.quays.cal with
    | some c =>
      match c.todo with
      | k :: rest =>
        let st := s.lhState c.req.quay k
        if c.confirming && st ≠ 1 then
          (s.unlight c.req.quay).nextColour { c with todo := rest, allGood := c.allGood && st = 2 }
        else s
      | [] => s.endCal c
    | none =>
      match s.quays.calQueue with
      | [] => s
      | r :: rest =>
        if s.wintering then s else
        let s := ({ s with quays := { s.quays with calQueue := rest } } : State).showCal
        if !s.lhPort (8 * r.quay) then (s.put F.LH_CAL_STATUS_QUAY [] r.quay).put F.LH_CAL_STATUS_RESULT [] St.ok else
        let s := (s.put F.LH_CAL_STATUS_BUSY [] 1).put F.LH_CAL_STATUS_QUAY [] r.quay
        let s := (s.put F.LH_PORT_STATUS_CALIBRATING [r.quay] 1).goDark r.quay
        let named := s.listColours (8 * r.quay)
        let ks := (List.range 64).filter fun k => named.contains k && s.cget F.LH_COLOUR_VALID [r.quay, k] = 1
        s.nextColour ⟨r, ks, 0, s.now, true, false⟩)

/-- CAL_MEASUREMENT (R325): the offsets measured on the held colour, in units of 10 MHz, INT_US after the measurement
began. -/
def execCalMeasurement (offsets : List Int) (s : State) : Out :=
  .next (match s.quays.cal with
    | none => s
    | some c =>
      match c.todo with
      | [] => s
      | k :: rest =>
        let q := c.req.quay
        if c.confirming || s.now < c.since + us c.req.intUs then s
        else if offsets.all fun o => o.natAbs ≤ c.req.tol then
          let s := s.setCal (some { c with confirming := true })
          let s := s.put F.LH_CIRCUIT_STATE [q, k] 0
          s.lockOn q k
        else if c.req.iterMax ≤ c.iter + 1 then
          let s := if s.lhState q k = 3 then s.put F.LH_CIRCUIT_CAUSE [q, k] 5 else s.withdraw q k 5
          s.nextColour { c with todo := rest, allGood := false }
        else
          let midx := s.cget F.LH_COLOUR_MIDX [q, k]
          let s := (List.range offsets.length).foldl (fun (s : State) l =>
            let key := 64 * (8 * q + l) + midx
            let f := spGet 0 s.quays.fine key - (offsets[l]?).getD 0
            ({ s with quays := { s.quays with fine := spPut 0 s.quays.fine key f } } : State).send
              (.cmis q true 0 (0xB8 + l) (128 + 2 * midx) 2 ((leBytes (BitVec.ofInt 16 f).toNat 2).reverse))) s
          (s.setCal (some { c with iter := c.iter + 1, since := s.now })).measure c.req)

end Sys2Proof.Machine
end

