-- ==== Sys2Proof/Machine/PavCore.lean ====
section
/-! DEFINITION. A Pavilion's registers, tile memory and state machine (R29 to R33, R57 to R63), and the clock it counts
by. -/

namespace Sys2Proof.Machine

/-! ### A Pavilion's state -/

def Pav.fresh : Pav :=
  ⟨[], 0, [], [], [], 0, 0, 0, 0, 0, 0, 0, 0, 0, 0, [], [], [], [], 0, 0, none, none, 0, 0, [], [], 0, 0⟩

def State.pav (s : State) (n : Nat) : Pav := (spGet none s.pv.pavs n).getD Pav.fresh

def State.setPav (s : State) (n : Nat) (p : Pav) : State :=
  { s with pv := { s.pv with pavs := spPut none s.pv.pavs n (some p) } }

def State.mapPav (s : State) (n : Nat) (f : Pav → Pav) : State := s.setPav n (f (s.pav n))

/-! The codes of PV_RUN.STATE. -/

namespace Ps
def gated : Nat := 0
def waking : Nat := 1
def idle : Nat := 2
def running : Nat := 3
def waiting : Nat := 4
def faulted : Nat := 5
end Ps

def State.pvState (s : State) (n : Nat) : Nat := s.get F.PV_RUN_STATE [n]

/-- PV_STATUS brought up to date. -/
def State.showPv (s : State) : State :=
  let ns := List.range s.pavCount
  let st := ns.map s.pvState
  let faulted := ns.filter fun n => s.pvState n = Ps.faulted
  let s := s.put F.PV_STATUS_RUNNING [] (st.filter fun x => x = Ps.running || x = Ps.waiting).length
  let s := (s.put F.PV_STATUS_FAULTED [] faulted.length).put F.PV_STATUS_GATED [] (st.filter (· = Ps.gated)).length
  s.put F.PV_STATUS_FIRST_FAULT [] (faulted.head?.getD 0xFFF)

def State.setPvState (s : State) (n st : Nat) : State :=
  ((s.put F.PV_RUN_STATE [n] st).mapPav n fun p => { p with since := s.now }).showPv

/-- A Pavilion's kernel is gone: nothing is outstanding, MOORING is no longer meaningful. -/
def State.clearKern (s : State) (n : Nat) : State :=
  (s.mapPav n fun p => { p with kern := none, wait := none, out := [] }).put F.PV_RUN_MOORING_VALID [n] 0

/-- A kernel stopped without a fault: its staged writes are discarded and the Pavilion is IDLE (R352, R357). -/
def State.stopKern (s : State) (n : Nat) : State :=
  if s.pvState n = Ps.running || s.pvState n = Ps.waiting then (s.clearKern n).setPvState n Ps.idle else s

/-- The Pavilions whose running kernel satisfies `f`. -/
def State.kernsWhere (s : State) (f : Kern → Bool) : List Nat :=
  s.pv.pavs.filterMap fun x =>
    match x.2 with
    | some p => match p.kern with
      | some k => if f k && (s.pvState x.1 = Ps.running || s.pvState x.1 = Ps.waiting) then some x.1 else none
      | none => none
    | none => none

/-! ### pvc cycles (R20, R86) -/

/-- The pvc divider of the row in force (R19, R368). -/
def pvcDivider : Nat → Nat
  | 0 => 5
  | 1 => 6
  | 2 => 7
  | 3 => 8
  | 4 => 10
  | _ => 12

/-- pvc cycles since power-on. -/
def State.pvc (s : State) : Nat := s.pv.clock / 840

/-- pvc cycles since dispatch (c11). -/
def State.cycles (s : State) (k : Kern) : Nat := s.pvc - k.startedAt

/-- The watchdog's remaining budget (R86): the built-in kernels' never decreases. -/
def State.wdog (s : State) (k : Kern) : Nat := if k.kid = 0 then k.wdog else k.wdog - (s.pvc - k.wdogAt) / 1024

/-! ### Scalar registers and predicates (R58) -/

def Pav.reg (p : Pav) (r : BitVec 5) : Word64 := spGet 0 p.s r.toNat

/-- Writes to s0 are discarded. -/
def Pav.setReg (p : Pav) (r : BitVec 5) (v : Word64) : Pav :=
  if r = 0 then p else { p with s := spPut 0 p.s r.toNat v }

/-- p0 reads 1. -/
def Pav.pred (p : Pav) (i : BitVec 3) : Bool := i = 0 || p.p.testBit i.toNat

/-- Writes to p0 are discarded. -/
def Pav.setPred (p : Pav) (i : BitVec 3) (b : Bool) : Pav :=
  if i = 0 then p else { p with p := if b then p.p ||| 2 ^ i.toNat else p.p &&& (255 ^^^ 2 ^ i.toNat) }

/-- The guard's value (R66). -/
def Pav.guard (p : Pav) (g : Guard) : Bool := p.pred g.pred != g.inv

/-! ### Vector and accumulator state -/

def Pav.lane (p : Pav) (r : BitVec 5) (i : Nat) : Word32 := spGet 0 p.v (64 * r.toNat + i)

def Pav.setLane (p : Pav) (r : BitVec 5) (i : Nat) (w : Word32) : Pav :=
  { p with v := spPut 0 p.v (64 * r.toNat + i) w }

/-- Lanes from 0 on made the words of a list. -/
def Pav.setLanes (p : Pav) (r : BitVec 5) (l : List Word32) : Pav :=
  (l.zipIdx).foldl (fun q x => q.setLane r x.2 x.1) p

def Pav.acc (p : Pav) (a : BitVec 3) (i : Nat) : Exact := spGet Exact.zero p.a (64 * a.toNat + i)

def Pav.setAcc (p : Pav) (a : BitVec 3) (i : Nat) (x : Exact) : Pav :=
  { p with a := spPut Exact.zero p.a (64 * a.toNat + i) x }

def Pav.cell (p : Pav) (t i j : Nat) : Word32 := spGet 0 p.t (1024 * t + 32 * i + j)

def Pav.setCell (p : Pav) (t i j : Nat) (w : Word32) : Pav := { p with t := spPut 0 p.t (1024 * t + 32 * i + j) w }

/-! ### Tile memory (R31 to R33, R61) -/

/-- Bytes of tile memory. -/
def tileSize : Nat := 0x80000

def Pav.bytes (p : Pav) (a n : Nat) : List Byte := (List.range n).map fun i => spGet 0 p.tile (a + i)

/-- The words of eight bytes that `n` bytes at `a` touch. -/
def wordsOf (a n : Nat) : List Nat :=
  if n = 0 then [] else (List.range ((a + n - 1) / 8 - a / 8 + 1)).map (a / 8 + ·)

/-- The first uncorrectable word that a range touches. -/
def Pav.badWord (p : Pav) (a n : Nat) : Option Nat := (wordsOf a n).find? p.bad.contains

/-- A read counted: its corrected words, and its first uncorrectable one (R33). -/
def State.countTile (s : State) (n a len : Nat) : State :=
  let p := s.pav n
  let s := s.bump F.PV_TILE_ERR_CORRECTED [] ((wordsOf a len).filter p.weak.contains).length
  if (p.badWord a len).isSome then s.bump F.PV_TILE_ERR_UNCORRECTED else s

/-- Bytes written: a word written whole has fresh check bits, a word written in part keeps an uncorrectable error. -/
def Pav.store (p : Pav) (a : Nat) (bs : List Byte) : Pav :=
  let whole (w : Nat) : Bool := a ≤ 8 * w && 8 * w + 8 ≤ a + bs.length
  let touched (w : Nat) : Bool := (wordsOf a bs.length).contains w
  { p with tile := (bs.zipIdx).foldl (fun m x => spPut 0 m (a + x.2) x.1) p.tile,
           bad := p.bad.filter fun w => !whole w,
           weak := p.weak.filter fun w => !touched w }

/-- PV_INJECT takes effect on a tile write of the kernel's own (R33): a word of the range, whichever it is. -/
def State.injectTile (s : State) (n a len : Nat) : State :=
  if s.get F.PV_INJECT_ARM = 1 && s.get F.PV_INJECT_TARGET = n && len ≠ 0 then
    let (r, s) := s.fresh
    let ws := wordsOf a len
    let w := (ws[r.toNat % ws.length]?).getD 0
    let s := s.put F.PV_INJECT_ARM [] 0
    if s.get F.PV_INJECT_KIND = 1 then s.mapPav n fun p => { p with weak := if p.bad.contains w then p.weak else w :: p.weak.erase w }
    else s.mapPav n fun p => { p with bad := w :: p.bad.erase w, weak := p.weak.erase w }
  else s

/-- A tile write that an instruction of the kernel makes. -/
def State.tileStore (s : State) (n a : Nat) (bs : List Byte) : State :=
  (s.mapPav n fun p => p.store a bs).injectTile n a bs.length

/-- Whether two byte ranges share a byte. -/
def overlaps (a n b m : Nat) : Bool := a < b + m && b < a + n && n ≠ 0 && m ≠ 0

/-- Whether an incomplete transfer is writing a tile range (R32). -/
def Pav.rangeBusy (p : Pav) (a n : Nat) : Bool :=
  p.out.any fun o => match o.op with
    | .xld _ t l => overlaps a n t l
    | _ => false

/-! ### Faults of PV_FAULT -/

namespace Fc
def illegal : Nat := 1
def misaligned : Nat := 2
def tileRange : Nat := 3
def tileUncorr : Nat := 4
def denied : Nat := 5
def data : Nat := 6
def watchdog : Nat := 7
end Fc

/-- PV_FAULT and PV_FAULT_ADDR take a fault; one that finds VALID set only sets OVERRUN. -/
def State.recordFault (s : State) (n cls itag pc addr : Nat) : State :=
  if s.get F.PV_FAULT_VALID [n] = 1 then s.put F.PV_FAULT_OVERRUN [n] 1
  else
    (s.wr .PV_FAULT [n] (BitVec.ofNat 64
      (1 + (s.get F.PV_FAULT_OVERRUN [n]) * 2 + cls * 2 ^ 4 + itag * 2 ^ 8 + pc * 2 ^ 16))).wr
      .PV_FAULT_ADDR [n] (BitVec.ofNat 64 addr)

/-! ### Granules (R52, R53) -/

/-- The logical Pavilion that owns granule `g` of Mooring `m` in parcel sequence `p`. -/
def Ctx.owner (c : Ctx) (m g p : Nat) : Nat := (c.sliceMap[16 * sliceOfGranule m g + p % 2 ^ c.spreadLog]?).getD 0

/-- The set of Pavilions named in a Mooring's map (R81). -/
def Ctx.group (c : Ctx) : List Nat :=
  ((List.range 64).flatMap fun s => (List.range (2 ^ c.spreadLog)).map fun j => (c.sliceMap[16 * s + j]?).getD 0).eraseDups

end Sys2Proof.Machine
end

