-- ==== Sys2Proof/Machine/MooringOps.lean ====
section
/-! DEFINITION. Moorings: contexts and their images (R123 to R132), charges and floors (R142, R143), parcels and their
packets (R136 to R139), and how a COLLECTIVE ends (R156, R158, R357). -/

namespace Sys2Proof.Machine

/-! ### Contexts -/

namespace Cs
def free : Nat := 0
def active : Nat := 1
def retained : Nat := 2
end Cs

def Ctx.none : Ctx := ⟨false, 0, 0, 0, 0, 0, 0, 0, 0, 0, 0, 0, false, false, 0, [], [], [], 0, 0, 0, 0, 0, 0, [], false⟩

def State.ctx (s : State) (m : Nat) : Ctx := (spGet Option.none s.mo.ctx m).getD Ctx.none

def State.setCtx (s : State) (m : Nat) (c : Option Ctx) : State :=
  { s with mo := { s.mo with ctx := spPut Option.none s.mo.ctx m c } }

def State.ctxState (s : State) (m : Nat) : Nat := s.get F.MO_CTX_STATE_STATE [m]
def State.epoch (s : State) (m : Nat) : Nat := s.get F.MO_CTX_STATE_EPOCH [m]
def State.job (s : State) (m : Nat) : Nat := s.get F.MO_CTX_STATE_JOB [m]
def State.pseqNext (s : State) (m : Nat) : Nat := s.get F.MO_CTX_SEQ_PSEQ_NEXT [m]
def State.gateNext (s : State) (m : Nat) : Nat := s.get F.MO_CTX_SEQ_GATE_NEXT [m]

/-- Members in the bitmap, in ascending index: the Mooring's ring. -/
def Ctx.ring (c : Ctx) : List Nat := (List.range c.members).filter c.bitmap.testBit

def Ctx.endpoint (c : Ctx) (i : Nat) : Nat := ((c.table[i]?).map (·.1)).getD 0
def Ctx.portOf (c : Ctx) (i : Nat) : Nat := ((c.table[i]?).map (·.2)).getD 0

def Ctx.fenced (c : Ctx) (i : Nat) : Bool := c.fences.testBit i

/-- Contexts in a state, ascending. -/
def State.ctxsIn (s : State) (st : Nat) : List Nat := (s.mo.ctx.map (·.1)).filter fun m => s.ctxState m = st

/-! ### The image (R131, R132) -/

/-- Bits set. -/
def popcount : Nat → Nat → Nat
  | 0, _ => 0
  | n + 1, x => x % 2 + popcount n (x / 2)

/-- The header of an image as a context; tables are filled in from a full image. -/
def parseHeader (bs : List Byte) : Ctx :=
  let w (i : Nat) : Word64 := word64At bs (8 * i)
  { permEn := bits (w 0) 17 1 = 1, members := bits (w 0) 32 13, parcelGr := bits (w 1) 0 5, spreadLog := bits (w 1) 8 3,
    land := bits (w 1) 16 5, root := bits (w 1) 32 12, tclass := bits (w 1) 44 4, shiftDist := bits (w 1) 48 12,
    leaseMs := bits (w 2) 0 10, shard := bits (w 2) 16 16, planIn := bits (w 3) 0 4, planOut := bits (w 3) 4 4,
    planExact := bits (w 3) 8 1 = 1, planMove := bits (w 3) 9 1 = 1,
    bitmap := 0, sliceMap := [], table := [], perm := [], fences := 0, store := 0, since := 0, fencedAt := 0, verdictAt := 0,
    verdicts := 0, pages := [], lost := false }

def imgRetain (bs : List Byte) : Bool := bits (word64At bs 0) 16 1 = 1
def imgCount (bs : List Byte) : Nat := bits (word64At bs 0) 48 13
def imgPseq (bs : List Byte) : Nat := bits (word64At bs 0x10) 32 32

/-- A whole image. -/
def parseImage (bs : List Byte) : Ctx :=
  let h := parseHeader bs
  let n := h.members
  { h with
    bitmap := natAt bs 0x40 512,
    sliceMap := (List.range 1024).map fun i => natAt bs (0x240 + 2 * i) 2 % 1024,
    table := (List.range n).map fun i => (natAt bs (0xA40 + 8 * i) 3, natAt bs (0xA44 + 8 * i) 2 % 512),
    perm := if h.permEn then (List.range n).map fun i => natAt bs (0xA40 + 8 * n + 2 * i) 2 % 4096 else [],
    store := roundUp bs.length 4096 }

/-- The length that R132 asks of an image of N members. -/
def imageLen (n : Nat) (perm : Bool) : Nat := 0xA40 + 8 * n + (if perm then 64 * ((2 * n + 63) / 64) else 0)

/-- Whether a zero field makes the image empty (R132, R159). -/
def imageZero (bs : List Byte) : Bool :=
  let h := parseHeader bs
  h.members = 0 || imgCount bs = 0 || h.parcelGr = 0 || h.land = 0 || h.leaseMs = 0

/-- An integer format's code. -/
def isIntCode (f : Nat) : Bool := f = 3 || f = 4

/-- The first offending byte offset of a header (R132), for a member table of `n` entries. -/
def headerFault (bs : List Byte) (n : Nat) : Option Nat :=
  let h := parseHeader bs
  let w (i : Nat) : Word64 := word64At bs (8 * i)
  minOpt (minOpt (strayBit 0 (w 0) 0x1FFF1FFF0003FFFF#64) (strayBit 8 (w 1) 0x0FFFFFFF001F071F#64))
    (minOpt (minOpt (strayBit 0x10 (w 2) 0xFFFFFFFFFFFF03FF#64) (strayBit 0x18 (w 3) 0x3FF#64))
      (minOpt (lowestBad ((List.range 4).map fun i => (0x20 + 8 * i, w (4 + i) ≠ 0)))
        (lowestBad [(0, bits (w 0) 0 16 ≠ 1), (4, h.members > 4096), (8, h.parcelGr > 16), (9, h.spreadLog > 4),
          (10, h.land > 16), (12, h.root ≥ n), (0x10, h.leaseMs > 1000), (0x12, h.shard ≠ 0xFFFF && h.shard > 4095),
          (0x18, h.planIn > 9 || h.planOut > 9), (0x19, h.planExact && isIntCode h.planIn)])))

/-- Whether another ACTIVE or RETAINED context names the shard (R167). -/
def State.shardTaken (s : State) (m shard : Nat) : Bool :=
  s.mo.ctx.any fun x => x.1 ≠ m && s.ctxState x.1 ≠ Cs.free && match x.2 with | some c => c.shard = shard | none => false

/-- The shard an image names: none, or one no other context names. -/
def State.shardBad (s : State) (m : Nat) (bs : List Byte) : Bool :=
  let sh := (parseHeader bs).shard
  sh ≠ 0xFFFF && s.shardTaken m sh

/-- The first offending byte offset of the tables of a full image (R132). -/
def State.tableFault (s : State) (bs : List Byte) : Option Nat :=
  let c := parseImage bs
  let n := c.members
  let p := 0xA40 + 8 * n
  let mem (i : Nat) : Bool := i < n && c.bitmap.testBit i
  let perm := c.perm
  minOpt (minOpt
      (lowestBad [(0x40 + n / 8, c.bitmap ≥ 2 ^ n), (0x40, popcount n c.bitmap ≠ imgCount bs)])
      (lowestBad ((List.range 1024).map fun i =>
        (0x240 + 2 * i, natAt bs (0x240 + 2 * i) 2 ≥ 1024 || (i % 16 ≥ 2 ^ c.spreadLog && natAt bs (0x240 + 2 * i) 2 ≠ 0)
          || natAt bs (0x240 + 2 * i) 2 ≥ s.pavCount))))
    (minOpt
      (lowestBad ((List.range n).flatMap fun i =>
        let w := word64At bs (0xA40 + 8 * i)
        [(0xA43 + 8 * i, bits w 24 8 ≠ 0), (0xA44 + 8 * i, !s.nativePort (bits w 32 9)), (0xA45 + 8 * i, bits w 41 23 ≠ 0)]))
      (if c.permEn then
        minOpt
          (lowestBad ((List.range n).map fun i => (p + 2 * i, natAt bs (p + 2 * i) 2 ≥ 4096
            || (mem i && (!mem ((perm[i]?).getD 0)
              || (List.range i).any fun j => mem j && (perm[j]?).getD 0 = (perm[i]?).getD 0)))))
          (lowestBad ((List.range (bs.length - (p + 2 * n))).map fun i => (p + 2 * n + i, natAt bs (p + 2 * n + i) 1 ≠ 0)))
      else none))

/-! ### Charges and floors (R142, R143) -/

/-- Bytes of `e` elements of a format. -/
def elemBytes (f : Fmt) (e : Nat) : Nat := (e * f.width + 7) / 8

/-- The shard's planes P and side bytes D (R164). -/
def State.shard (s : State) (n : Nat) : Option Shard := spGet none s.bh.shards n

/-- Bytes of a state block. -/
def Shard.blockBytes (x : Shard) : Nat := 4096 * x.planes + x.side

/-- What one granule charges beside its landing berths: `e` elements of output in `out` where it has one, the exact
area, the staged state of an existing shard. -/
def granCharge (e : Nat) (out : Option Fmt) (exact : Bool) (block : Option Nat) : Nat :=
  (match out with | some f => (elemBytes f e + 4095) / 4096 | none => 0)
    + (if exact then (e * 81 + 8191) / 8192 else 0)
    + (match block with | some b => ((e + 1023) / 1024 * b + 4095) / 4096 | none => 0)

/-- The charge of a parcel of granules with the given elements and `c` contributors each (R142). -/
def chargeOf (strict : Bool) (land c : Nat) (es : List Nat) (out : Option Fmt) (exact : Bool) (block : Option Nat) : Nat :=
  es.foldl (fun n e => n + (if strict then c else min land c) + granCharge e out exact block) 0
    + (es.length * c + 32767) / 32768

/-- The charge of one full parcel of a context's plan (R142, R143). -/
def State.planCharge (s : State) (c : Ctx) (count : Nat) (strict : Bool) : Nat :=
  let inF := (Fmt.ofCode c.planIn).getD .fp32
  let outF := (Fmt.ofCode c.planOut).getD .fp32
  let block := if c.shard = 0xFFFF then none else (s.shard c.shard).map Shard.blockBytes
  chargeOf strict c.land count (List.replicate c.parcelGr (elemCount inF 4096)) (if c.planMove then none else some outF)
    c.planExact block

/-- The shared pool: S = 32,768 - FB berths. -/
def State.sharedPool (s : State) : Nat := 32768 - s.get F.MO_SLIP_CFG_FLOOR_BERTHS

/-- The floors of ACTIVE contexts other than `m`. -/
def State.otherFloors (s : State) (m : Nat) : Nat :=
  (s.ctxsIn Cs.active).foldl (fun n x => if x = m then n else n + s.get F.MO_CTX_SLIP_FLOOR [x]) 0

/-- The two limits of R143. -/
def State.floorsFit (s : State) (m : Nat) (c : Ctx) (count : Nat) : Bool :=
  s.otherFloors m + s.planCharge c count false ≤ s.get F.MO_SLIP_CFG_FLOOR_BERTHS
    && s.planCharge c count true ≤ s.sharedPool

/-! ### The context store (R126, R208) -/

/-- The context store's free bytes in one copy (R126). -/
def State.storeFree (s : State) : Nat :=
  402653184 - s.mo.ctx.foldl (fun n x => match x.2 with | some c => n + c.store | none => n) 0

/-- The pages of 4,096 bytes of the store that no context but `m` has. -/
def State.pagesUsed (s : State) (m : Nat) : List Nat :=
  s.mo.ctx.flatMap fun x => if x.1 = m then [] else match x.2 with | some c => c.pages | none => []

/-- The lowest `count` pages not in use, from `page` on. -/
def freePages (used : List Nat) : Nat → Nat → Nat → List Nat
  | 0, _, _ => []
  | _, _, 0 => []
  | fuel + 1, page, count + 1 =>
    if used.contains page then freePages used fuel (page + 1) (count + 1) else page :: freePages used fuel (page + 1) count

/-- Where a page lies in each of the two copies. -/
def pageAddr (copy page : Nat) : Nat := dockBytes - 805306368 + 402653184 * copy + 4096 * page

/-- A context's pages written in both copies. -/
def State.storeCtx (s : State) (pages : List Nat) : State :=
  pages.foldl (fun s p => (s.storeWrite (pageAddr 0 p) 4096).storeWrite (pageAddr 1 p) 4096) s

/-- A line of a context read: from the mirror where the first copy fails, and that copy is then rewritten; true where both
fail. -/
def State.readCtxLine (s : State) (line : Nat) : State × Bool :=
  let mirror := line + 402653184 / 64
  let s' := s.touchLine 3 line
  if !s.dockBad line then (s', false)
  else
    let s'' := s'.touchLine 3 mirror
    if s'.dockBad mirror then (s'', true) else (s''.storeWrite (64 * line) 64, false)

/-- A context read from the store: it is lost where a line fails in both copies. -/
def State.readCtx (s : State) (m : Nat) : State :=
  let c := s.ctx m
  let r := (c.pages.flatMap fun p => linesOf (pageAddr 0 p) 4096).foldl (fun (a : State × Bool) l =>
    let (s, bad) := a.1.readCtxLine l
    (s, a.2 || bad)) (s, c.lost)
  if r.2 = c.lost then r.1 else r.1.setCtx m (some { c with lost := true })

/-! ### Collectives and parcels (R136) -/

/-- Granules per parcel, contribution bytes per parcel. -/
def State.parcelGr (s : State) (m : Nat) : Nat := max 1 (s.ctx m).parcelGr

/-- The contribution bytes of the granules of parcel `k`: 4,096 each, the last perhaps shorter; a BARRIER's is empty. -/
def State.granLens (s : State) (c : Coll) (k : Nat) : List Nat :=
  if c.op = 7 then [0]
  else
    let gr := s.parcelGr c.moor
    let left := min (4096 * gr) (c.len - 4096 * gr * k)
    (List.range ((left + 4095) / 4096)).map fun e => min 4096 (left - 4096 * e)

/-- Bytes of a contribution to a granule: MXFP6 sends 4,080 of 4,096 (R136). -/
def contribLen (f : Fmt) (len : Nat) : Nat :=
  match f with
  | .e2m3 | .e3m2 => min len 4080
  | _ => len

/-- Elements of each granule of a parcel. -/
def State.granElems (s : State) (c : Coll) (k : Nat) : List Nat := (s.granLens c k).map (elemCount c.inFmt)

/-- The granule number of an entry, of 32 bits (R138). -/
def State.granNo (s : State) (c : Coll) (k e : Nat) : Nat := (c.offset / 4096 + k * s.parcelGr c.moor + e) % 2 ^ 32

/-- A parcel's sequence number. -/
def Coll.pseq (c : Coll) (k : Nat) : Nat := (c.pseq0 + k) % 2 ^ 32

/-- Whether the operation reduces (R133). -/
def Coll.reduces (c : Coll) : Bool := c.op ≤ 2 || c.op = 8

/-- The members that contribute (R133). -/
def State.contributors (s : State) (c : Coll) : List Nat :=
  let x := s.ctx c.moor
  if c.op = 4 then (if x.bitmap.testBit x.root then [x.root] else []) else x.ring

/-- The contribution of entry `e` of member `i`, where it has landed. -/
def Parcel.arrival (p : Parcel) (e i : Nat) : Option Arrival := p.arrivals.find? fun a => a.entry = e && a.member = i

/-- Whether every contribution of an entry has landed. -/
def State.entryDone (s : State) (c : Coll) (p : Parcel) (e : Nat) : Bool :=
  (s.contributors c).all fun i => (p.arrival e i).isSome

/-- Whether every contribution of a parcel has landed. -/
def State.parcelDone (s : State) (c : Coll) (p : Parcel) : Bool :=
  (List.range (s.granLens c p.k).length).all fun e => s.entryDone c p e

/-- GEN_CTRL.STRICT_ORDER. -/
def State.strict (s : State) : Bool := s.get F.GEN_CTRL_STRICT_ORDER = 1

/-- The charge of parcel `k` (R142); a BARRIER's is 1. -/
def State.parcelCharge (s : State) (c : Coll) (k : Nat) (strict : Bool) : Nat :=
  if c.op = 7 then 1
  else
    let block := if c.op = 8 then (s.shard c.shard).map Shard.blockBytes else none
    chargeOf strict (s.ctx c.moor).land (s.contributors c).length (s.granElems c k)
      (if c.reduces then some c.outFmt else none) (c.kind = 1 && c.reduces) block

/-- Elements before entry `e`: EBASE (R93). -/
def State.ebase (s : State) (c : Coll) (k e : Nat) : Nat := ((s.granElems c k).take e).foldl (· + ·) 0

/-- OFF of an entry: the element bytes of the entries before it. -/
def State.offOf (s : State) (c : Coll) (k e : Nat) : Nat :=
  ((s.granElems c k).take e).foldl (fun n x => n + elemBytes c.outFmt x) 0

/-- Output element bytes of one member's part (Bo of R133), or of the whole output of a reduction. -/
def State.partBytes (s : State) (c : Coll) (k : Nat) : Nat :=
  (s.granElems c k).foldl (fun n x => n + elemBytes c.outFmt x) 0

/-- Granules of the whole command (R133). -/
def Coll.granules (c : Coll) : Nat := (c.len + 4095) / 4096

/-! ### Running collectives -/

def State.coll? (s : State) (ring seq : Nat) : Option Coll := s.mo.colls.find? fun c => c.ring = ring && c.seq = seq

def State.mapColl (s : State) (ring seq : Nat) (f : Coll → Coll) : State :=
  { s with mo := { s.mo with colls := s.mo.colls.map fun c => if c.ring = ring && c.seq = seq then f c else c } }

def State.mapParcel (s : State) (ring seq k : Nat) (f : Parcel → Parcel) : State :=
  s.mapColl ring seq fun c => { c with live := c.live.map fun p => if p.k = k then f p else p }

/-- The command and live parcel of a Mooring with a sequence number. -/
def State.findParcel (s : State) (m pseq : Nat) : Option (Coll × Parcel) :=
  s.mo.colls.findSome? fun c =>
    if c.moor = m then (c.live.find? fun p => c.pseq p.k = pseq).map fun p => (c, p) else none

/-- Shared berths that a Mooring holds, and whether a parcel holds its floor. -/
def State.sharedHeld (s : State) (m : Nat) : Nat :=
  s.mo.colls.foldl (fun n c => if c.moor = m then c.live.foldl (fun n p => if p.inFloor then n else n + p.charge) n else n) 0

def State.floorBusy (s : State) (m : Nat) : Bool := s.mo.colls.any fun c => c.moor = m && c.live.any (·.inFloor)

/-- Free berths of the shared pool. -/
def State.sharedBerths (s : State) : Nat :=
  s.sharedPool - s.mo.colls.foldl (fun n c => c.live.foldl (fun n p => if p.inFloor then n else n + p.charge) n) 0

/-- The Mooring registers that show parcels and berths brought up to date. -/
def State.showMoor (s : State) (m : Nat) : State :=
  let adm (f : Nat → Bool) := s.mo.colls.foldl (fun n c => if f c.moor then n + c.live.length else n) 0
  let s' := s.put F.MO_CTX_SLIP_SHARED_HELD [m] (s.sharedHeld m)
  let s' := (s'.put F.MO_CTX_SLIP_ADMITTED [m] (adm (· = m))).put F.MO_CTX_SLIP_FLOOR_BUSY [m] (s.floorBusy m).toNat
  let s' := s'.put F.MO_CTX_SLIP_QUEUED [m] (s.mo.overflow.contains m).toNat
  let s' := (s'.put F.MO_SLIP_STATUS_SHARED_FREE [] s.sharedBerths).put F.MO_SLIP_STATUS_QUEUED [] s.mo.overflow.length
  let s' := s'.put F.MO_SLIP_STATUS_ADMITTED [] (adm fun _ => true)
  s'.put F.MO_SLIP_STATUS_FLOOR_RESERVED [] (s.otherFloors 16384)

/-- The registers that show contexts brought up to date. -/
def State.showCtxs (s : State) : State :=
  let s' := (s.put F.MO_STATUS_ACTIVE [] (s.ctxsIn Cs.active).length).put F.MO_STATUS_RETAINED [] (s.ctxsIn Cs.retained).length
  s'.put F.MO_STATUS_STORE_FREE_MIB [] (s.storeFree / 2 ^ 20)

/-- The fences of the selected Mooring shown in MO_FENCE_MAP and the counts of MO_CTX_LIVE. -/
def State.showFences (s : State) (m : Nat) : State :=
  let c := s.ctx m
  let n := popcount 4096 c.fences
  let s' := (s.put F.MO_CTX_LIVE_FENCED [m] n).put F.MO_CTX_STATE_FENCE_ANY [m] (n ≠ 0 : Bool).toNat
  let sel := s'.get F.MO_FENCE_SEL_MOORING
  let fs := if s'.ctxState sel = Cs.active then (s'.ctx sel).fences else 0
  (List.range 64).foldl (fun s k => s.put F.MO_FENCE_MAP_FENCED [k] (fs / 2 ^ (64 * k))) s'

/-! ### Packets to members (R138, R139, R154) -/

/-- The collective extension (R138). -/
def extBytes (ctype job moor epoch member pseq gidx len gran aux : Nat) : List Byte :=
  leBytes (ctype + job * 2 ^ 4 + moor * 2 ^ 16 + epoch * 2 ^ 32 + member * 2 ^ 48) 8
    ++ leBytes (pseq + gidx * 2 ^ 32 + len * 2 ^ 36) 8 ++ leBytes (gran % 2 ^ 32 + aux * 2 ^ 32) 8

/-- A collective packet to a member, through the port by which it attaches. -/
def State.sendMember (s : State) (m i ctype pseq gidx len gran aux : Nat) (payload : List Byte) : State :=
  let c := s.ctx m
  let (pkt, s) := s.build 1 c.tclass (c.endpoint i) (s.job m) m
    (extBytes ctype (s.job m) m (s.epoch m) i pseq gidx len gran aux ++ payload)
  s.sendPort (c.portOf i) pkt

/-- GRANT (R139): everything below `pseq`. -/
def State.sendGrant (s : State) (m i pseq : Nat) : State := s.sendMember m i 2 (pseq % 2 ^ 32) 0 0 0 0 []

/-- REREQ (R139, R141), counted. -/
def State.sendRereq (s : State) (c : Coll) (k e i : Nat) : State :=
  (s.sendMember c.moor i 3 (c.pseq k) e 0 (s.granNo c k e) 0 []).bump F.MO_REREQ_SENT_COUNT

/-- A RESULT in pieces of at most 4,096 element bytes, MX pieces in whole blocks with their scales (R139). -/
def State.sendResult (s : State) (m i pseq e gran aux : Nat) (f : Fmt) (elems scales : List Byte) : State :=
  let step := if f.isMx then 4096 / (4 * f.width) * (4 * f.width) else 4096
  let n := max 1 ((elems.length + step - 1) / step)
  (List.range n).foldl (fun s j =>
    let es := (elems.drop (j * step)).take step
    let sc := if f.isMx then (scales.drop (j * (step / (4 * f.width)))).take ((es.length + 4 * f.width - 1) / (4 * f.width)) else []
    s.sendMember m i 1 pseq e es.length gran (aux + j * step) (es ++ sc)) s

/-! ### The end of a COLLECTIVE (R156, R158, R357) -/

/-- RESULT2 of a COLLECTIVE: parcels applied and the member concerned. -/
def collResult2 (applied : Nat) (member : Option Nat) : Nat :=
  applied % 2 ^ 32 + match member with | some i => i * 2 ^ 32 + 2 ^ 44 | none => 0

/-! ### Spans (R341 to R345) -/

def State.spanValid (s : State) (j : Nat) : Bool := s.cget F.BW_SPAN_CFG_VALID [j] = 1

/-- The span of a Mooring. -/
def State.spanOf (s : State) (m : Nat) : Option Nat :=
  (List.range 64).find? fun j => s.spanValid j && s.cget F.BW_SPAN_CFG_MOORING [j] = m

def State.site (s : State) : Nat := s.get F.BS_CTRL_SITE

/-- The sites of a span, ascending. -/
def State.spanSites (s : State) (j : Nat) : List Nat := (List.range 16).filter (s.cget F.BW_SPAN_CFG_SITE_MASK [j]).testBit

/-- Whether a span applies to a command (R342). -/
def Coll.spanned (c : Coll) : Bool := c.span.isSome && c.reduces

/-- The sites whose partial of some entry of an admitted parcel has not come whole, shown in BW_SPAN_STATUS. -/
def State.showSpan (s : State) (j : Nat) : State :=
  let cs := s.mo.colls.filter fun c => c.span = some j && c.spanned
  let waits (site : Nat) : Bool := site ≠ s.site && cs.any fun c => c.live.any fun x =>
    (List.range (s.granLens c x.k).length).any fun e =>
      !(x.siteSums.any fun y => y.1 = e && y.2.1 = site) && !(x.codecs.any fun y => y.entry = e && y.site = site)
  s.put F.BW_SPAN_STATUS_WAITING [j] (((s.spanSites j).filter waits).foldl (fun n i => n + 2 ^ i) 0)

/-- The span of a Mooring, if any, shown. -/
def State.showSpanOf (s : State) (m : Nat) : State :=
  match s.spanOf m with
  | some j => s.showSpan j
  | none => s

/-- A COLLECTIVE leaves: its live parcels are discarded and their berths released, its kernels are stopped and their
staged writes discarded, its Mooring leaves the overflow queue where nothing of it waits. -/
def State.dropColl (s : State) (c : Coll) : State :=
  let s := (s.kernsWhere fun k => k.bound && k.ring = c.ring && k.seq = c.seq).foldl (fun s n => s.stopKern n) s
  let colls := s.mo.colls.filter fun x => !(x.ring = c.ring && x.seq = c.seq)
  let more := colls.any fun x => x.moor = c.moor && x.nextAdmit < x.parcels
  let ovf := if more then s.mo.overflow else s.mo.overflow.filter (· ≠ c.moor)
  ({ s with mo := { s.mo with colls := colls, overflow := ovf } } : State).showMoor c.moor |>.showSpanOf c.moor

/-- A running COLLECTIVE stops with a status (R156, R357): parcels already applied stay, nothing else of it does. -/
def State.stopColl (s : State) (ring seq status detail : Nat) (member : Option Nat) : State :=
  match s.coll? ring seq with
  | none => s.endCmd ring seq status detail 0 0
  | some c => (s.dropColl c).endCmd ring seq status detail c.nondet (collResult2 c.applied member)

/-- Every running COLLECTIVE of a Mooring stops. -/
def State.stopMoor (s : State) (m status : Nat) (member : Option Nat) : State :=
  (s.mo.colls.filter fun c => c.moor = m).foldl (fun s c => s.stopColl c.ring c.seq status 0 member) s

/-- The status and member that a standing fence gives (R156). -/
def State.fenceStatus (s : State) (m : Nat) : Nat × Option Nat :=
  (if s.get F.MO_CTX_STATE_FENCE_BY_VERDICT [m] = 1 then St.memberLost else St.fenced,
   if s.get F.MO_CTX_LIVE_FIRST_VALID [m] = 1 then some (s.get F.MO_CTX_LIVE_FIRST_FENCED [m]) else none)

/-- The first fence of a Mooring, by an EVICT of this mgc cycle, is recorded as a verdict's (R155); so are the ends it gave. -/
def State.fenceByVerdict (s : State) (m : Nat) : State :=
  let s := s.put F.MO_CTX_STATE_FENCE_BY_VERDICT [m] 1
  { s with rings := { s.rings with cmds := s.rings.cmds.map fun c =>
    if c.stage = .ended && c.endedAt = s.now && c.type = 2 && c.fld 4 0 14 = m && c.status = St.fenced then
      { c with status := St.memberLost }
    else c } }

/-- A member is fenced, by a verdict or by EVICT (R155 to R157); one that is fenced already stays as it is, but for a verdict
that falls in the cycle of its EVICT. A member out of the bitmap is not fenced. -/
def State.fence (s : State) (m i : Nat) (verdict : Bool) : State :=
  let c := s.ctx m
  if s.ctxState m ≠ Cs.active || !c.bitmap.testBit i then s
  else if c.fenced i then
    (if verdict && c.fencedAt = s.now && s.get F.MO_CTX_LIVE_FIRST_VALID [m] = 1 && s.get F.MO_CTX_LIVE_FIRST_FENCED [m] = i then
      s.fenceByVerdict m
    else s)
  else
    let first := s.get F.MO_CTX_LIVE_FIRST_VALID [m] = 0
    let s := s.setCtx m (some { c with
      fences := c.fences ||| 2 ^ i, fencedAt := if first then s.now else c.fencedAt,
      verdictAt := if verdict then s.now else c.verdictAt,
      verdicts := if verdict then (if c.verdictAt = s.now then c.verdicts else 0) ||| 2 ^ i else c.verdicts })
    let s := if first then
        ((s.put F.MO_CTX_LIVE_FIRST_FENCED [m] i).put F.MO_CTX_LIVE_FIRST_VALID [m] 1).put
          F.MO_CTX_STATE_FENCE_BY_VERDICT [m] verdict.toNat
      else s
    let s := s.showFences m
    let (st, who) := s.fenceStatus m
    s.stopMoor m st who

end Sys2Proof.Machine
end

