-- ==== Sys2Proof/Machine/BwOps.lean ====
section
/-! DEFINITION. Breakwater's shared operations (R328 to R338): slots, frames with their protection, the window, coding
blocks and the field they use (R187). -/

namespace Sys2Proof.Machine

/-! ### The field GF(2^8) of R187 -/

/-- `n` bit steps of the product of `a` and `b` modulo 0x11D. -/
def gfMulSteps : Nat → Nat → Nat → Nat → Nat
  | 0, _, _, r => r
  | n + 1, a, b, r =>
    let r := if b % 2 = 1 then r ^^^ a else r
    let a := a * 2
    gfMulSteps n (if a ≥ 256 then a ^^^ 0x11D else a) (b / 2) r

def gfMul (a b : Nat) : Nat := gfMulSteps 8 a b 0

/-- The inverse: the 254th power. -/
def gfInv (a : Nat) : Nat :=
  let a2 := gfMul a a; let a4 := gfMul a2 a2; let a8 := gfMul a4 a4; let a16 := gfMul a8 a8
  let a32 := gfMul a16 a16; let a64 := gfMul a32 a32; let a128 := gfMul a64 a64
  gfMul a128 (gfMul a64 (gfMul a32 (gfMul a16 (gfMul a8 (gfMul a4 a2)))))

/-- c[i][j] of the Cauchy matrix with `m` parity units (R187). -/
def cauchy (m i j : Nat) : Nat := gfInv (i ^^^ (m + j))

/-- The XOR of coded units of `u` bytes, each times its coefficient. -/
def gfCombine (u : Nat) (l : List (Nat × List Byte)) : List Byte :=
  (List.range u).map fun b =>
    BitVec.ofNat 8 (l.foldl (fun acc x => acc ^^^ gfMul x.1 ((x.2[b]?).getD 0).toNat) 0)

/-- Row `r` of a matrix divided by its pivot at `c`, and every other row cleared at `c`. -/
def gfPivot (rows : List (List Nat)) (r c : Nat) : List (List Nat) :=
  let p := (rows[r]?).getD []
  let inv := gfInv ((p[c]?).getD 0)
  let p := p.map (gfMul inv)
  (rows.zipIdx).map fun x =>
    if x.2 = r then p else
      let f := (x.1[c]?).getD 0
      (x.1.zip p).map fun y => y.1 ^^^ gfMul f y.2

/-- Gauss-Jordan elimination of `n` columns of an augmented matrix. -/
def gfSolve (n : Nat) (rows : List (List Nat)) : List (List Nat) :=
  (List.range n).foldl (fun rows c =>
    match (List.range rows.length).find? fun r => c ≤ r && ((rows[r]?.getD [])[c]?).getD 0 ≠ 0 with
    | none => rows
    | some r =>
      let a := (rows[r]?).getD []
      let b := (rows[c]?).getD []
      gfPivot ((rows.set c a).set r (if r = c then a else b)) c c) rows

/-- The coefficients by which `k` units, each given by its row over the data units, yield data unit `j`: the row `j` of
the inverse. -/
def gfInverse (k : Nat) (rows : List (List Nat)) : List (List Nat) :=
  (gfSolve k ((rows.zipIdx).map fun x => x.1 ++ (List.range k).map fun i => if i = x.2 then 1 else 0)).map (·.drop k)

/-- The row of unit `i` over `k` data units: a data unit itself, or a parity's coefficients. -/
def unitRow (k m i : Nat) : List Nat :=
  if i < k then (List.range k).map fun j => if j = i then 1 else 0 else (List.range k).map fun j => cauchy m (i - k) j

/-- The data units decoded from `k` units, given with their positions (R187, R337). -/
def decodeUnits (k m u : Nat) (have_ : List (Nat × List Byte)) : List (List Byte) :=
  let us := have_.take k
  let inv := gfInverse k (us.map fun x => unitRow k m x.1)
  inv.map fun row => gfCombine u (row.zip (us.map (·.2)))

/-! ### Slots -/

namespace Bw
def down : Nat := 0
def resync : Nat := 1
def up : Nat := 2
def stalled : Nat := 3
def outage : Nat := 4
end Bw

def BwSlot.fresh : BwSlot :=
  ⟨[], [], 0, [], 0, 0, [], 0, [], [], [], [], 0, 0, 0, 0, 0, 0, 0, [], none, 0⟩

def State.slot (s : State) (i : Nat) : BwSlot := (spGet none s.bw.slots i).getD BwSlot.fresh

def State.setSlot (s : State) (i : Nat) (x : BwSlot) : State :=
  { s with bw := { s.bw with slots := spPut none s.bw.slots i (some x) } }

def State.mapSlot (s : State) (i : Nat) (f : BwSlot → BwSlot) : State := s.setSlot i (f (s.slot i))

/-- A slot's state changes (R346). -/
def State.setSlotState (s : State) (i st : Nat) : State :=
  (s.put F.BW_LH_STATUS_STATE [i] st).mapSlot i fun x => { x with stateAt := s.now }

def MiB : Nat := 2 ^ 20

def BwSlot.windowBytes (x : BwSlot) : Nat := x.window.foldl (fun n p => n + p.payload.length) 0
def BwSlot.rxBytes (x : BwSlot) : Nat := x.rx.foldl (fun n p => n + p.2.length) 0

/-- The used areas shown in BW_LH_STATUS. -/
def State.showSlot (s : State) (i : Nat) : State :=
  let x := s.slot i
  (s.put F.BW_LH_STATUS_WIN_USED_MIB [i] ((x.windowBytes + MiB - 1) / MiB)).put
    F.BW_LH_STATUS_RX_USED_MIB [i] ((x.rxBytes + MiB - 1) / MiB)

/-- Whether the window still takes a packet (R332). -/
def State.windowOpen (s : State) (i : Nat) : Bool := (s.slot i).windowBytes < s.cget F.BW_LH_WIN_WIN_MIB [i] * MiB

/-! ### Protection (R330, R338, R339) -/

def saKey (i an w : Nat) : Nat := 32 * i + 8 * an + w

/-- Key word `w` of an association in force. -/
def State.saWord (s : State) (i an w : Nat) : Nat := ((spGet none s.bw.ckeys (saKey i an w)).getD 0).toNat

def State.sak (s : State) (i an : Nat) : BitVec 256 :=
  BitVec.ofNat 256 ((List.range 4).foldl (fun n w => n + s.saWord i an w * 2 ^ (64 * w)) 0)

/-- The 12-byte nonce: SSCI and PN, big-endian, XOR the salt. -/
def State.bwNonce (s : State) (i an ssci pn : Nat) : List Byte :=
  let salt := leBytes (s.saWord i an 4 + s.saWord i an 5 * 2 ^ 64) 12
  let iv := (leBytes ssci 4).reverse ++ (leBytes pn 8).reverse
  (iv.zip salt).map fun x => x.1 ^^^ x.2

/-- SSCI of the sender of an association: this side's for what it sends, else the other of 1 and 2 (R340). -/
def State.ssci (s : State) (i an : Nat) (own : Bool) : Nat :=
  let n := s.saWord i an 6 % 2 ^ 32
  if own then n else 3 - n

/-- The 8-byte SecTAG without SCI: EtherType, TCI with E and C set and the AN, short length, low PN. -/
def secTag (an len pn : Nat) : List Byte :=
  [0x88, 0xE5, BitVec.ofNat 8 (0x0C + an % 4), BitVec.ofNat 8 (if len < 48 then len else 0)] ++ (leBytes pn 4).reverse

/-- The Breakwater header (R331). -/
structure BwHdr where
  btype : Nat
  ver : Nat
  km1 : Nat
  m : Nat
  idx : Nat
  block : Nat
  tseq : Nat
  plen : Nat
deriving DecidableEq, Repr

def BwHdr.bytes (h : BwHdr) : List Byte :=
  leBytes (h.btype + h.ver * 2 ^ 4 + h.km1 * 2 ^ 8 + h.m * 2 ^ 14 + h.idx * 2 ^ 19 + h.block * 2 ^ 32) 8
    ++ leBytes (h.tseq + h.plen * 2 ^ 48) 8

def bwHdr (btype : Nat) : BwHdr := ⟨btype, 1, 0, 0, 0, 0, 0, 0⟩

/-- The protected data of a Breakwater frame: EtherType, header and payload. -/
def State.bwData (s : State) (h : BwHdr) (payload : List Byte) : List Byte :=
  (leBytes (s.get F.BW_CTRL_ETYPE) 2).reverse ++ { h with plen := payload.length }.bytes ++ payload

/-! ### Key agreement, the initiator's start (R339, R340) -/

/-- A KEYX message signed by this side's Gatehouse. -/
def State.keyxMsg (s : State) (ktype an counter epI epR : Nat) (body : List Byte) : List Byte :=
  let m := leBytes ktype 1 ++ leBytes an 1 ++ leBytes counter 8 ++ leBytes epI 3 ++ leBytes epR 3
    ++ body.take 1568 ++ List.replicate (1568 - body.length) 0
  m ++ Config.mldsaSign s.fuses.serial s.freeCtr m

/-- A KEYX frame, which leaves out SecTAG and ICV. -/
def State.sendKeyx (s : State) (i : Nat) (msg : List Byte) : State :=
  let p := s.slotPort i
  if s.linkUp p then s.send (.ether p (etherFrame (s.macBytes p none ++ s.bwData (bwHdr 6) msg))) else s

/-- The Gatehouse is asked for a new SAK: where this end is the initiator, the lower endpoint, it offers one for the next
association. The peer's endpoint is that of the slot's last exchange; before one, the specification names none. -/
def State.askRekey (s : State) (i : Nat) : State :=
  let x := s.slot i
  let own := s.primary
  let an := (s.cget F.BW_SA_CFG_TX_AN [i] + 1) % 4
  let (ep, s) : Nat × State := match x.keyx with
    | some k => (if k.initiator then k.epR else k.epI, s)
    | none => (s.fresh.1.toNat % 2 ^ 24, s.fresh.2)
  if s.get F.GH_STATUS_FAULT = 1 || ep ≤ own || (match x.keyx with | some k => k.waiting | none => false) then s
  else
    let n := s.freeCtr
    let c := (x.counter + 1) % 2 ^ 64
    let msg := s.keyxMsg 0 an c own ep (Config.mlkemKey n)
    let s : State := { s with freeCtr := n + 1 }
    (s.setSlot i { x with counter := c, keyx := some ⟨true, an, c, msg, s.now, n, [], own, ep, true⟩ }).sendKeyx i msg

/-- A protected Breakwater frame sent under TX_AN (R330), each taking the next PN, which never passes 2^64 - 1; at 2^63 a
rekey is asked for (R339). A DATA frame's tag is that of the packet it carries. Without an installed association nothing is sent. -/
def State.sendBw (s : State) (i : Nat) (h : BwHdr) (payload : List Byte) : State :=
  let p := s.slotPort i
  let data := s.bwData h payload
  let an := s.cget F.BW_SA_CFG_TX_AN [i]
  let pn := s.get F.BW_SA_PN_NEXT_PN [i, an]
  if pn ≥ 2 ^ 64 - 1 || !(s.cget F.BW_SA_CFG_RX_EN [i]).testBit an then s
  else
    let macs := s.macBytes p (if h.btype = 0 then some (packetOf payload).hdr else none)
    let aad := macs.take 12 ++ secTag an data.length pn
    let r := Config.gcmSeal (s.sak i an) (s.bwNonce i an (s.ssci i an true) pn) aad data
    let s := (s.put F.BW_SA_PN_NEXT_PN [i, an] (pn + 1)).send (.ether p (etherFrame (macs ++ secTag an data.length pn ++ r.1 ++ r.2)))
    if pn + 1 = 2 ^ 63 then s.askRekey i else s

/-- A slot enters RESYNC and, where its link is up, sends a RESYNC frame (R331, R346). -/
def State.enterResync (s : State) (i : Nat) : State :=
  let s := s.setSlotState i Bw.resync
  if !s.linkUp (s.slotPort i) then s
  else if (s.cget F.BW_SA_CFG_RX_EN [i]).testBit (s.cget F.BW_SA_CFG_TX_AN [i]) then s.sendBw i (bwHdr 7) []
  else s.askRekey i

/-- A slot's held packets are discarded as it turns to RESYNC (R346). -/
def State.dropHeld (s : State) (i : Nat) : State :=
  let x := s.slot i
  let s := s.bump F.BW_LH_CNT2_LOST [i] (x.window.length + x.rx.length)
  ((s.setSlot i { x with window := [], units := [], rx := [], blocks := [] }).enterResync i).showSlot i

/-- A slot enters OUTAGE; with HOLD_S 0 it turns at once to RESYNC (R346, R347), but for WINTER and STANDBY, in which it is held. -/
def State.enterOutage (s : State) (i : Nat) : State :=
  let s := s.setSlotState i Bw.outage
  if s.get F.BW_TIMERS_HOLD_S = 0 && !s.wintering then s.dropHeld i else s

/-- The slot of a port whose link is gone: UP and STALLED go to OUTAGE (R346). -/
def State.slotLinkDown (s : State) (p : Nat) : State :=
  match s.slotOf p with
  | some i => if s.slotState i = Bw.up || s.slotState i = Bw.stalled then s.enterOutage i else s
  | none => s

/-- The slot of a port whose link is up: DOWN goes to RESYNC, and RESYNC asks again (R346); in WINTER and STANDBY slots are held. -/
def State.slotLinkUp (s : State) (p : Nat) : State :=
  match s.slotOf p with
  | some i =>
    if s.wintering then s
    else if s.slotState i = Bw.down || s.slotState i = Bw.resync then s.enterResync i else s
  | none => s

/-! ### Sending packets and blocks (R332, R336) -/

/-- The coded unit of a packet, padded to `u` bytes. -/
def codedUnit (u : Nat) (payload : List Byte) : List Byte :=
  let x := leBytes payload.length 2 ++ payload
  x ++ List.replicate (u - x.length) 0

/-- The open block closes: its parity packets follow at once (R336). -/
def State.closeBlock (s : State) (i : Nat) : State :=
  let x := s.slot i
  match x.units with
  | [] => s
  | first :: _ =>
    let k := x.units.length
    let m := s.cget F.BW_LH_CFG_M [i]
    let u := 2 + (x.units.map (·.payload.length)).foldl max 0
    let us := x.units.map fun p => codedUnit u p.payload
    let s := (List.range m).foldl (fun s r =>
      s.sendBw i { bwHdr 1 with km1 := k - 1, m := m, idx := k + r, block := x.block, tseq := first.tseq }
        (gfCombine u ((us.zipIdx).map fun y => (cauchy m r y.2, y.1)))) s
    s.mapSlot i fun x => { x with units := [], block := (x.block + 1) % 2 ^ 32 }

/-- A packet takes the next TSEQ, joins the window and the open block, and leaves. -/
def State.bwSend (s : State) (i : Nat) (isPartial : Bool) (payload : List Byte) : State :=
  let x := s.slot i
  let t := s.get F.BW_LH_SEQ_TX_NEXT [i]
  let coded := s.cget F.BW_LH_CFG_M [i] ≠ 0
  let pk : BwPkt := ⟨t, x.block, if coded then x.units.length else 0, isPartial, payload⟩
  let s := (s.put F.BW_LH_SEQ_TX_NEXT [i] ((t + 1) % 2 ^ 48)).setSlot i { x with
    window := x.window ++ [pk], units := if coded then x.units ++ [pk] else [],
    openAt := if x.units.isEmpty then s.now else x.openAt,
    ackMoved := if x.window.isEmpty then s.now else x.ackMoved }
  let s := s.sendBw i { bwHdr (if isPartial then 5 else 0) with idx := pk.idx, block := pk.block, tseq := t } payload
  let s := if coded && s.cget F.BW_LH_CFG_K [i] ≤ (s.slot i).units.length then s.closeBlock i else s
  s.showSlot i

/-- Partials that wait leave while the slot is UP or STALLED and its window is open; `n` at most. -/
def State.drainPartials (s : State) (i : Nat) : Nat → State
  | 0 => s
  | n + 1 =>
    let x := s.slot i
    match x.queue with
    | [] => s
    | b :: rest =>
      if (s.slotState i = Bw.up || s.slotState i = Bw.stalled) && s.windowOpen i then
        ((s.setSlot i { x with queue := rest }).bwSend i true b).drainPartials i n
      else s

/-- A partial's packet put in line for a slot. -/
def State.sendPartial (s : State) (i : Nat) (payload : List Byte) : State :=
  let s := s.mapSlot i fun x => { x with queue := x.queue ++ [payload] }
  s.drainPartials i (s.slot i).queue.length

/-! ### Spans (R341 to R345) -/

/-- The slot of a span toward a site. -/
def State.spanSlot (s : State) (j site : Nat) : Nat :=
  bits (s.crd (if site < 8 then .BW_SPAN_SLOTS_LO else .BW_SPAN_SLOTS_HI) [j]) (8 * (site % 8)) 5

/-- The packets of a form of `total` bytes toward every peer site (R343). -/
def State.sendForm (s : State) (c : Coll) (j k e form : Nat) (stow : Bool) (bytes : List Byte) : State :=
  let n := max 1 ((bytes.length + 8191) / 8192)
  let peers := (s.spanSites j).filter (· ≠ s.site)
  peers.foldl (fun s site =>
    (List.range n).foldl (fun s q =>
      let sub := leBytes (c.moor + s.job c.moor * 2 ^ 14 + s.cget F.BW_SPAN_CFG_SPAN_EPOCH [j] * 2 ^ 26 + s.site * 2 ^ 42
          + e * 2 ^ 46 + form * 2 ^ 50 + stow.toNat * 2 ^ 52) 8
        ++ leBytes (c.pseq k + s.granNo c k e * 2 ^ 32) 8 ++ leBytes (8192 * q + bytes.length * 2 ^ 32) 8
      s.sendPartial (s.spanSlot j site) (sub ++ (bytes.drop (8192 * q)).take 8192)) s) s

end Sys2Proof.Machine
end

