-- ==== Sys2Proof/Machine/Kernels.lean ====
section
/-! DEFINITION. How a Pavilion executes (R58 to R68): the wrapper every Beloc instruction goes through, faults (R85 to
R88, R356), sampling (R96, R414, R415), and the end of a kernel (R95, R343, R344). -/

namespace Sys2Proof.Machine

open Host (Outcome)

/-! ### Launches (R92, R109) -/

def State.mapLaunch (s : State) (ring seq : Nat) (f : Launch → Launch) : State :=
  { s with pv := { s.pv with launches := s.pv.launches.map fun l => if l.ring = ring && l.seq = seq then f l else l } }

/-- The status of a LAUNCH whose first failure has a fault CLASS (R109). -/
def launchStatus (cls : Nat) : Nat :=
  if cls = Fc.tileUncorr || cls = Fc.data then St.dataError
  else if cls = Fc.denied then St.accessDenied
  else if cls = Fc.watchdog then St.timeout
  else St.aborted

/-- A LAUNCH ends once every Pavilion of its set has (R92, R95, R115). -/
def State.launchDone (s : State) (ring seq : Nat) : State :=
  match s.pv.launches.find? fun l => l.ring = ring && l.seq = seq with
  | none => s
  | some l =>
    if !l.left.isEmpty then s
    else
      let s := { s with pv := { s.pv with launches := s.pv.launches.filter fun x => !(x.ring = ring && x.seq = seq) } }
      match l.failed with
      | none => s.endCmd ring seq St.ok 0 0x3FF 0
      | some (n, cls, code) =>
        s.endCmd ring seq (if cls = 0 then St.aborted else launchStatus cls) (if cls = 0 then code else 0) n cls

/-- A Pavilion of a launch set has ended, with a fault CLASS or an END code where it failed. -/
def State.launchLeft (s : State) (ring seq n : Nat) (fail : Option (Nat × Nat)) : State :=
  (s.mapLaunch ring seq fun l =>
    { l with left := l.left.erase n,
             failed := l.failed.orElse fun _ => fail.map fun x => (n, x.1, x.2) }).launchDone ring seq

/-- A LAUNCH leaves before its end: its kernels stop and its Pavilions return to IDLE. -/
def State.dropLaunch (s : State) (ring seq : Nat) : State :=
  let s := (s.kernsWhere fun k => !k.bound && k.ring = ring && k.seq = seq).foldl (fun s n => s.stopKern n) s
  { s with pv := { s.pv with launches := s.pv.launches.filter fun x => !(x.ring = ring && x.seq = seq) } }

/-! ### Faults (R85 to R87, R356, R357) -/

/-- The status of a COLLECTIVE whose kernel faults (R356). -/
def boundStatus (cls : Nat) : Nat :=
  if cls = Fc.tileUncorr || cls = Fc.data then St.dataError
  else if cls = Fc.watchdog then St.timeout
  else St.aborted

/-- A fault recorded (R87): the Pavilion is FAULTED and its command meets R356 or R109; a further tagged fault only
sets OVERRUN. A bound kernel's staged writes are discarded. -/
def State.raiseFault (s : State) (n cls itag pc addr : Nat) : State :=
  let had := s.get F.PV_FAULT_VALID [n] = 1
  let s := s.recordFault n cls itag pc addr
  if had then s
  else
    match (s.pav n).kern with
    | none => s.setPvState n Ps.faulted
    | some k =>
      if k.bound then (((s.clearKern n).setPvState n Ps.faulted).stopColl k.ring k.seq (boundStatus cls) 0 none)
      else ((s.mapPav n fun p => { p with wait := none }).setPvState n Ps.faulted).launchLeft k.ring k.seq n (some (cls, 0))

/-! ### Sampling (R96, R414, R415) -/

/-- One step of the 32-bit generator. -/
def xorshift (x : Nat) : Nat :=
  let x := (x ^^^ (x <<< 13)) % 2 ^ 32
  let x := x ^^^ (x >>> 17)
  (x ^^^ (x <<< 5)) % 2 ^ 32

/-- The next gap and the generator after it; zeros are drawn again. -/
def drawGap (n : Nat) : Nat → Nat → Nat × Nat
  | 0, x => (1, x)
  | f + 1, x =>
    let x := xorshift x
    let v := x >>> (31 - n)
    if v = 0 then drawGap n f x else (v, x)

/-- n of R96: EXP held to 4 to 24. -/
def State.sampleExp (s : State) : Nat := max 4 (min 24 (s.get F.TL_SAMPLE_CTL_EXP))

/-- The generator's state after SEED is written or EN is set (R414). -/
def sampleSeed (seed n : Nat) : Nat :=
  let x := (mix (BitVec.ofNat 64 (seed * 2 ^ 10 ||| n))).toNat % 2 ^ 32
  if x = 0 then 1 else x

/-- Every Pavilion's generator set and its first gap drawn. -/
def State.seedAll (s : State) : State :=
  (List.range s.pavCount).foldl (fun s n =>
    let g := drawGap s.sampleExp 4096 (sampleSeed (s.get F.TL_SAMPLE_CTL_SEED) n)
    s.mapPav n fun p => { p with gap := g.1, gen := g.2 }) s

/-- A sample record written to the ring, or discarded where the ring is full (R415). -/
def State.sampleWrite (s : State) (bytes : List Byte) : State :=
  if s.get F.TL_SAMPLE_RING_EN = 0 then s
  else
    let slots := 2 ^ min 24 (s.get F.TL_SAMPLE_RING_SLOTS_LOG)
    let prod := s.get F.TL_SAMPLE_PTR_PROD
    if (prod + 2 ^ 32 - s.get F.TL_SAMPLE_PTR_CONS) % 2 ^ 32 = slots then s.bump F.TL_SAMPLE_LOST_FULL
    else
      ((s.dockWrite (s.get F.TL_SAMPLE_RING_ADDR + 32 * (prod % slots)) bytes).put F.TL_SAMPLE_PTR_PROD [] (prod + 1)).tally 0x33

/-- An executed instruction counts toward the gap; the one that ends it is recorded as it retires or faults: at once, or
where it stays outstanding when its tag completes. It was issued in the pvc cycle `issue`, or in this one. WAIT, EXEC and
CAUSE are free values. -/
def State.sampleOne (s : State) (n pc opcode tag : Nat) (k : Kern) (fault : Bool) (addr : Nat) (issue : Option Nat := none) :
    State :=
  let p := s.pav n
  if s.get F.TL_SAMPLE_CTL_EN = 0 then s
  else if p.gap > 1 then s.setPav n { p with gap := p.gap - 1 }
  else
    let g := drawGap s.sampleExp 4096 p.gen
    let s := s.setPav n { p with gap := g.1, gen := g.2 }
    let (r, s) := s.fresh
    let bs := leBytes (pc + k.kid * 2 ^ 48) 8
      ++ leBytes (n + opcode * 2 ^ 16 + tag * 2 ^ 24 + ((issue.getD s.pvc) - k.startedAt) % 2 ^ 32 * 2 ^ 32) 8
      ++ leBytes (r.toNat % 2 ^ 36 + fault.toNat * 2 ^ 36 + r.toNat / 2 ^ 37 % 2 * 2 ^ 37) 8 ++ leBytes addr 8
    if (s.pav n).out.any fun o => o.tag = tag && tag ≠ 0 then
      s.mapPav n fun p => { p with out := p.out.map fun o => if o.tag = tag then { o with sample := some bs } else o }
    else s.sampleWrite bs

/-- The record of a selected instruction whose tag completes or faults. -/
def State.sampleOut (s : State) (o : Outst) (fault : Bool) : State :=
  match o.sample with
  | none => s
  | some bs => s.sampleWrite (if fault then bs.set 20 ((bs[20]?).getD 0 ||| 16) else bs)

/-! ### Results of an instruction -/

/-- What an instruction does once it may execute: it retires with the state as it leaves it (and its tag and address for a
sample), it moves the PC itself, it cannot issue yet, it faults with CLASS and address, it issues and reports a tagged fault, or it
waits. -/
inductive Res where
  | done (s : State) (tag addr : Nat)
  | jump (s : State) (pc : Nat)
  | stall
  | fault (s : State) (cls addr : Nat)
  | tagged (s : State) (tag cls addr : Nat)
  | wait (w : PvWait)

/-- An instruction retires; END that has met an uncorrectable word has faulted instead (R33). -/
def State.retire (s : State) (n opcode bytes tag addr : Nat) (k : Kern) (pc : Nat) (dest : Option Nat)
    (issue : Option Nat := none) : State :=
  if s.pvState n = Ps.faulted then s.sampleOne n pc opcode tag k true addr issue
  else (s.mapPav n fun p => { p with pc := (dest.getD (pc + bytes)) % 2 ^ 48 }).sampleOne n pc opcode tag k false addr issue

/-- The line that holds the instruction at the PC, where it is uncorrectable (R208): the code section follows the image's
header in the image store. -/
def State.fetchBad (s : State) (k : Kern) (pc : Nat) : Option Nat :=
  match spGet none s.pv.images k.kid with
  | some i => let l := (i.place + 64 + pc) / 64; if pc < k.codeLen && s.dockBad l then some l else none
  | none => none

/-- What every Beloc instruction does (R65, R66, R85, R208): only a RUNNING Pavilion issues; an instruction that cannot be
fetched faults; the guard !p0 is illegal; an
instruction whose guard is 0 has no effect but its issue and raises nothing; a 64-bit instruction lies on eight bytes; a
stalled one changes nothing yet. -/
def State.beloc (s : State) (n : Nat) (g : Guard) (opcode bytes : Nat) (f : Pav → Kern → Res) : State :=
  let p := s.pav n
  match p.kern with
  | none => s
  | some k =>
    if s.pvState n ≠ Ps.running then s
    else match s.fetchBad k p.pc with
    | some l => (s.touchLine 0 l).raiseFault n Fc.data 0 p.pc (64 * l)
    | none =>
    if g.pred = 0 && g.inv then (s.sampleOne n p.pc opcode 0 k true 0).raiseFault n Fc.illegal 0 p.pc 0
    else if !p.guard g then s.setPav n { p with pc := (p.pc + bytes) % 2 ^ 48 }
    else if bytes = 8 && p.pc % 8 ≠ 0 then
      (s.sampleOne n p.pc opcode 0 k true p.pc).raiseFault n Fc.misaligned 0 p.pc p.pc
    else
      match f p k with
      | .done s tag addr => s.retire n opcode bytes tag addr k p.pc none
      | .jump s pc => s.retire n opcode bytes 0 0 k p.pc (some pc)
      | .stall => s
      | .fault s cls addr => (s.sampleOne n p.pc opcode 0 k true addr).raiseFault n cls 0 p.pc addr
      | .tagged s tag cls addr =>
        ((s.mapPav n fun p => { p with pc := (p.pc + bytes) % 2 ^ 48 }).sampleOne n p.pc opcode tag k true addr).raiseFault
          n cls tag p.pc addr
      | .wait w => (s.mapPav n fun p => { p with wait := some w, issueAt := s.pvc }).setPvState n Ps.waiting

/-- A register-only instruction's result. -/
def State.doneWith (s : State) (n : Nat) (p : Pav) : Res := .done (s.setPav n p) 0 0

/-! ### Tile accesses by an instruction (R32, R33, R61) -/

/-- The checks of an access of `len` bytes at `a`, aligned to `al`; then `f`. -/
def State.tileAccess (s : State) (p : Pav) (a len al : Nat) (f : Unit → Res) : Res :=
  if a % al ≠ 0 then .fault s Fc.misaligned a
  else if len = 0 then f ()
  else if a + len > tileSize then .fault s Fc.tileRange a
  else if p.rangeBusy a len then .stall
  else f ()

/-- A checked read: `f` gets the bytes and the state that has counted the read. -/
def State.tileRead (s : State) (n : Nat) (p : Pav) (a len al : Nat) (f : State → List Byte → Res) : Res :=
  s.tileAccess p a len al fun _ =>
    let s := s.countTile n a len
    match p.badWord a len with
    | some w => .fault s Fc.tileUncorr (8 * w)
    | none => f s (p.bytes a len)

/-- A checked write. -/
def State.tileWrite (s : State) (n : Nat) (p : Pav) (a al : Nat) (bs : List Byte) : Res :=
  s.tileAccess p a bs.length al fun _ => .done (s.tileStore n a bs) 0 a

/-! ### Tags (R68) -/

/-- The tag that the next tagged instruction receives. -/
def Pav.nextTag (p : Pav) : Nat := if p.lastTag ≥ 255 then 1 else p.lastTag + 1

def Pav.tagBusy (p : Pav) : Bool := p.out.any fun o => o.tag = p.nextTag

def PvOp.isProduct : PvOp → Bool
  | .product .. => true
  | _ => false

/-- Transfers and multicasts outstanding. -/
def Pav.transfers (p : Pav) : Nat := (p.out.filter fun o => !o.op.isProduct).length

/-- Products outstanding on an array. -/
def Pav.products (p : Pav) (array : Nat) : List Outst :=
  p.out.filter fun o => match o.op with | .product a _ _ _ _ => a = array | _ => false

/-- The tag taken and written to s[rt]; the instruction is outstanding where `op` is given. -/
def Pav.takeTag (p : Pav) (rt : BitVec 5) (op : Option PvOp) (bad : Option (Nat × Nat)) : Pav :=
  let t := p.nextTag
  let p' := { p with lastTag := t, issued := p.issued + 1 }.setReg rt (BitVec.ofNat 64 t)
  match op with
  | none => p'
  | some o => { p' with out := p.out ++ [⟨t, p.pc, p.issued, o, bad, none⟩] }

/-! ### The end of a kernel (R95, R343, R344) -/

/-- Whether the classes of a fence mask are complete (R83): transfers, tensor, multicast. -/
def Pav.fenceMet (p : Pav) (mask : Nat) : Bool :=
  !p.out.any fun o =>
    match o.op with
    | .product .. => mask.testBit 1
    | .pmc .. => mask.testBit 2
    | _ => mask.testBit 0

/-- What a bound kernel hands to the gate with END 0: staged writes, DIGEST fields of its entries (R93, R95). -/
def handOutputs (p : Pav) (k : Kern) (n : Nat) (x : Parcel) : Parcel :=
  let seg0 := k.staged.filter fun w => w.1 = 0
  let seg1 := k.staged.filter fun w => w.1 = 1
  { x with
    outBytes := seg0.foldl (fun m w => (w.2.2.zipIdx).foldl (fun m b => spIns m (w.2.1 + b.2) b.1) m) x.outBytes,
    stateWrites := x.stateWrites ++ seg1.map fun w => (n, w.2),
    digests := (k.entries.zipIdx).foldl (fun m e =>
      spIns m e.1 (BitVec.ofNat 64 (leNat (p.bytes (0x7FC50 + 32 * e.2) 8)))) x.digests,
    doneBy := n :: x.doneBy.erase n }

/-- A coding kernel's END 0 (R343, R344): an encoder leaves coded bytes at 0x4_0000 and their count in s10, which go to
every peer site and, as this site's own, to the decoder; a decoder leaves FP32 values at 0. -/
def State.codecDone (s : State) (p : Pav) (k : Kern) (w : Codec) : State :=
  match s.coll? k.ring k.seq with
  | none => s
  | some c =>
    let e := ((s.granElems c k.parcel)[w.entry]?).getD 0
    let s := s.mapParcel k.ring k.seq k.parcel fun x => { x with codecs := x.codecs.erase w }
    if w.encode then
      let coded := p.bytes 0x40000 (min (p.reg 10).toNat (4 * e))
      match c.span with
      | none => s
      | some j =>
        let s := s.sendForm c j k.parcel w.entry 2 false coded
        let o := s.mo.order
        ({ s with mo := { s.mo with order := o + 1 } } : State).mapParcel k.ring k.seq k.parcel fun x =>
          { x with codecs := x.codecs ++ [⟨w.entry, w.site, false, coded, o⟩] }
    else
      s.mapParcel k.ring k.seq k.parcel fun x => { x with siteSums := x.siteSums ++ [(w.entry, w.site, p.bytes 0 (4 * e))] }

/-- The tile ranges, address and length, that the end of a bound kernel reads: its DIGEST fields, or what a coding kernel
leaves (R93, R343). -/
def State.endReads (s : State) (p : Pav) (k : Kern) : List (Nat × Nat) :=
  if !k.bound then []
  else
    match k.codec with
    | none => (List.range k.entries.length).map fun i => (0x7FC50 + 32 * i, 8)
    | some w =>
      match s.coll? k.ring k.seq with
      | none => []
      | some c =>
        let e := ((s.granElems c k.parcel)[w.entry]?).getD 0
        [if w.encode then (0x40000, min (p.reg 10).toNat (4 * e)) else (0, 4 * e)]

/-- The kernel of a Pavilion ends with a code; an uncorrectable word of what its end reads is a TILE_UNCORR fault (R33). -/
def State.endKernel (s : State) (n code : Nat) : State :=
  let p := s.pav n
  match p.kern with
  | none => s
  | some k =>
    let reads := if code = 0 then s.endReads p k else []
    let s := reads.foldl (fun s r => s.countTile n r.1 r.2) s
    match reads.findSome? fun r => p.badWord r.1 r.2 with
    | some w => s.raiseFault n Fc.tileUncorr 0 p.pc (8 * w)
    | none =>
    let s := (s.clearKern n).setPvState n Ps.idle
    if !k.bound then s.launchLeft k.ring k.seq n (if code = 0 then none else some (0, code))
    else
      match k.codec with
      | some w =>
        if code = 0 then s.codecDone p k w
        else if w.encode then s.stopColl k.ring k.seq St.aborted code none
        else s.stopColl k.ring k.seq St.dataError 0 none
      | none =>
        if code ≠ 0 then s.stopColl k.ring k.seq St.aborted code none
        else s.mapParcel k.ring k.seq k.parcel (handOutputs p k n)

end Sys2Proof.Machine
end

