-- ==== Sys2Proof/Machine/BelocDecode.lean ====
section
/-! DEFINITION. Which words are assigned instructions of Beloc (R65, R66, R69 to R84). -/

namespace Sys2Proof.Machine

open Host (Outcome)

/-- Whether bits `lo + n - 1` to `lo` of an instruction are zero. -/
def fieldZero (w : Word64) (lo n : Nat) : Bool := bits w lo n = 0

/-- Whether the function and reserved fields of an exact-accumulator instruction are as R74 lists them; bits it does not
list are zero. -/
def exactLegal (op : Nat) (w : Word64) : Bool :=
  fieldZero w 30 2 &&
    (match op with
     | 0x30 => fieldZero w 14 7
     | 0x31 => fieldZero w 19 7
     | 0x32 => fieldZero w 14 16
     | 0x33 => fieldZero w 11 5
     | 0x34 => fieldZero w 21 5
     | 0x35 | 0x36 => fieldZero w 21 9 && fieldZero w 14 2
     | _ => fieldZero w 21 9 && fieldZero w 11 5)

/-- Whether the vector type of a function is one R70 allows: T must be 3 for bitwise functions and shifts, and not 3 for
square root and quotient. -/
def vectorLegal (scalar : Bool) (w : Word64) : Bool :=
  let f := bits w 28 4
  let t := bits w 26 2
  if f ≤ 4 then true
  else if f ≤ 0xA then t = 3
  else if scalar then false
  else if f = 0xB then t ≠ 3 && fieldZero w 21 5
  else f = 0xC && t ≠ 3

/-- Whether a word is an assigned instruction whose reserved fields are zero. The guard, the control register named,
the pair of formats of VCVT and the tensor formats are checked by the instructions themselves. -/
def assigned (w : Word64) : Bool :=
  let op := bits w 0 7
  let f6 := bits w 26 6
  if op = 0x01 then f6 ≤ 0x0D || (f6 = 0x0F && fieldZero w 21 5)
  else if op = 0x06 then fieldZero w 29 3
  else if op = 0x08 then
    fieldZero w 14 2 && (f6 ≤ 5 || (0x10 ≤ f6 && f6 ≤ 0x13 && fieldZero w 19 2 && fieldZero w 24 2 && (f6 ≠ 0x13 || fieldZero w 21 5)))
  else if op = 0x15 then fieldZero w 26 6 && fieldZero w 16 5
  else if op = 0x16 then fieldZero w 26 6 && fieldZero w 11 5
  else if 0x02 ≤ op && op ≤ 0x14 then true
  else if op = 0x20 then vectorLegal false w
  else if op = 0x21 then bits w 28 4 ≤ 2 && bits w 26 2 ≠ 3
  else if op = 0x22 then vectorLegal true w
  else if op = 0x23 then fieldZero w 21 3
  else if op = 0x24 || op = 0x25 then true
  else if op = 0x26 then fieldZero w 21 11
  else if op = 0x27 then f6 ≤ 3
  else if op = 0x28 then fieldZero w 27 4
  else if op = 0x29 then fieldZero w 21 11 && fieldZero w 11 5
  else if op = 0x2A then bits w 28 4 ≤ 2 && fieldZero w 16 5
  else if 0x30 ≤ op && op ≤ 0x37 then exactLegal op w
  else if op = 0x38 || op = 0x39 || op = 0x3B || op = 0x3C || op = 0x3D then fieldZero w 26 6
  else if op = 0x3A then fieldZero w 24 8 && fieldZero w 11 10
  else if op = 0x3E then fieldZero w 29 3 && fieldZero w 11 10
  else if op = 0x60 then fieldZero w 43 21
  else if op = 0x61 then fieldZero w 43 21 && fieldZero w 17 21 && fieldZero w 11 5
  else if op = 0x62 || op = 0x63 then fieldZero w 43 21 && fieldZero w 28 10 && fieldZero w 14 9
  else if op = 0x68 || op = 0x69 then fieldZero w 31 33
  else op = 0x70 && fieldZero w 32 32

/-- The guard that bits 10 to 7 of a word spell (R66). -/
def guardOf (w : Word64) : Guard := ⟨BitVec.ofNat 3 (bits w 7 3), bits w 10 1 = 1⟩

/-- Bytes of the instruction that a word begins (R65). -/
def lengthOf (w : Word64) : Nat := if bits w 0 7 < 0x60 then 4 else 8

/-- ILLEGAL_OPCODE (R65, R66): the word fetched is not an assigned instruction; where its guard is 1 the Pavilion faults with
ILLEGAL. -/
def execIllegalOpcode (pav : Nat) (word : Word64) (s : State) : Out :=
  .next <|
    let w := if lengthOf word = 4 then BitVec.ofNat 64 (bits word 0 32) else word
    let g := guardOf w
    if assigned w && !(g.pred = 0 && g.inv) then s
    else s.beloc pav g (bits w 0 7) (lengthOf w) fun _ _ => .fault s Fc.illegal 0

end Sys2Proof.Machine
end

