-- ==== Sys2Proof/Machine/Flags.lean ====
section
/-! DEFINITION. The sticky floating-point flags of FSTAT (R59, R88): bit 0 invalid, 1 division by zero, 2 overflow,
3 underflow, 4 inexact, as IEEE 754 raises them (R40). -/

namespace Sys2Proof.Machine

/-- Whether a code is a signaling NaN: a NaN whose leading mantissa bit is clear. -/
def isSNaN (f : Fmt) (code : Nat) : Bool :=
  let (_, M, _) := f.layout
  !f.isInt && !f.isMx && decodeVal f code = .nan && !code.testBit (M - 1)

/-- Whether a code's value is exactly the finite value given. -/
def codeIs (f : Fmt) (code : Nat) (neg : Bool) (mant : Nat) (exp : Int) : Bool :=
  match decodeVal f code with
  | .fin n m e => let x := min e exp; toIntAt n m e x = toIntAt neg mant exp x
  | _ => false

/-- Overflow, underflow and inexact of a finite value rounded into an IEEE format (R44, R45). Whether a value that rounds up
to the smallest normal number was tiny is left to the implementation by IEEE 754. -/
def roundFlags (f : Fmt) (v : Val) (code : Nat) : Nat :=
  match v with
  | .fin neg mant exp =>
    let (E, M, bias) := f.layout
    let huge := decodeVal f code = .inf neg
    let inexact := !codeIs f code neg mant exp
    let mag := code % 2 ^ (E + M)
    let below := mant ≠ 0 && (mant.log2 : Int) + exp < 1 - (bias : Int)
    let tiny := mag < 2 ^ M && below || (mag = 2 ^ M && below && Config.tiny neg mant exp)
    (if huge then 4 else 0) + (if tiny && inexact then 8 else 0) + (if inexact then 16 else 0)
  | _ => 0

/-- An operation's code and flags in an IEEE format: its operands' codes, its exact value, and whether it divided a finite
number by zero. -/
def fpResult (f : Fmt) (ins : List Nat) (v : Val) (div0 : Bool) : Nat × Nat :=
  let code := roundIeee f .rne v
  let invalid := ins.any (isSNaN f) || (v = .nan && !ins.any fun c => decodeVal f c = .nan)
  (code, (if invalid then 1 else 0) + (if div0 then 2 else 0) + roundFlags f v code)

/-- The flags of a conversion into a format that is not MX (R44, R71): a number whose rounding lies beyond an integer format
is invalid. -/
def cvtFlags (src dst : Fmt) (r : Rnd) (input : Nat) (v : Val) (code : Nat) : Nat :=
  if dst.isInt then
    if src.isInt then 0
    else
      match v with
      | .fin neg mant exp =>
        if codeIs dst code neg mant exp then 0
        else if roundAt r mant exp 0 > 2 ^ (dst.width - 1) - (if neg then 0 else 1) then 1
        else 16
      | _ => 1
  else (if isSNaN src input then 1 else 0) + roundFlags dst v code

end Sys2Proof.Machine
end

