-- ==== Sys2Proof/Machine/Scalar.lean ====
section
/-! DEFINITION. The scalar instructions of Beloc (R69) with their control registers (R59): one meaning per row. -/

namespace Sys2Proof.Machine

open Host (Outcome)

/-- A sign-extended 11-bit immediate. -/
def sext11 (imm : BitVec 11) : Word64 := imm.signExtend 64

/-- `rd = v` computed from the Pavilion's registers. -/
def State.scalarOp (s : State) (n : Nat) (g : Guard) (opcode : Nat) (rd : BitVec 5) (v : Pav → Word64) : State :=
  s.beloc n g opcode 4 fun p _ => s.doneWith n (p.setReg rd (v p))

/-- A form A operation of two registers. -/
def State.aluOp (s : State) (n : Nat) (g : Guard) (rd rs1 rs2 : BitVec 5) (f : Word64 → Word64 → Word64) : State :=
  s.scalarOp n g 0x01 rd fun p => f (p.reg rs1) (p.reg rs2)

/-- A form I operation of a register and an immediate. -/
def State.immOp (s : State) (n : Nat) (g : Guard) (opcode : Nat) (rd rs1 : BitVec 5) (imm : BitVec 11)
    (f : Word64 → Word64 → Word64) : State :=
  s.scalarOp n g opcode rd fun p => f (p.reg rs1) (sext11 imm)

/-- The amount of a shift: rs2[5:0]. -/
def shiftBy (b : Word64) : Nat := bits b 0 6

/-- ADD (R69). -/
def execAdd (pav : Nat) (g : Guard) (rd rs1 rs2 : BitVec 5) (s : State) : Out :=
  .next (s.aluOp pav g rd rs1 rs2 (· + ·))

/-- SUB (R69). -/
def execSub (pav : Nat) (g : Guard) (rd rs1 rs2 : BitVec 5) (s : State) : Out :=
  .next (s.aluOp pav g rd rs1 rs2 (· - ·))

/-- AND (R69). -/
def execAnd (pav : Nat) (g : Guard) (rd rs1 rs2 : BitVec 5) (s : State) : Out :=
  .next (s.aluOp pav g rd rs1 rs2 (· &&& ·))

/-- OR (R69). -/
def execOr (pav : Nat) (g : Guard) (rd rs1 rs2 : BitVec 5) (s : State) : Out :=
  .next (s.aluOp pav g rd rs1 rs2 (· ||| ·))

/-- XOR (R69). -/
def execXor (pav : Nat) (g : Guard) (rd rs1 rs2 : BitVec 5) (s : State) : Out :=
  .next (s.aluOp pav g rd rs1 rs2 (· ^^^ ·))

/-- SLL (R69). -/
def execSll (pav : Nat) (g : Guard) (rd rs1 rs2 : BitVec 5) (s : State) : Out :=
  .next (s.aluOp pav g rd rs1 rs2 fun a b => a <<< shiftBy b)

/-- SRL (R69). -/
def execSrl (pav : Nat) (g : Guard) (rd rs1 rs2 : BitVec 5) (s : State) : Out :=
  .next (s.aluOp pav g rd rs1 rs2 fun a b => a >>> shiftBy b)

/-- SRA (R69). -/
def execSra (pav : Nat) (g : Guard) (rd rs1 rs2 : BitVec 5) (s : State) : Out :=
  .next (s.aluOp pav g rd rs1 rs2 fun a b => a.sshiftRight (shiftBy b))

/-- MUL: the low 64 bits (R69). -/
def execMul (pav : Nat) (g : Guard) (rd rs1 rs2 : BitVec 5) (s : State) : Out :=
  .next (s.aluOp pav g rd rs1 rs2 (· * ·))

/-- MULHU: the high 64 bits, unsigned (R69). -/
def execMulhu (pav : Nat) (g : Guard) (rd rs1 rs2 : BitVec 5) (s : State) : Out :=
  .next (s.aluOp pav g rd rs1 rs2 fun a b => BitVec.ofNat 64 (a.toNat * b.toNat / 2 ^ 64))

/-- MIN, signed (R69). -/
def execMin (pav : Nat) (g : Guard) (rd rs1 rs2 : BitVec 5) (s : State) : Out :=
  .next (s.aluOp pav g rd rs1 rs2 fun a b => if b.slt a then b else a)

/-- MAX, signed (R69). -/
def execMax (pav : Nat) (g : Guard) (rd rs1 rs2 : BitVec 5) (s : State) : Out :=
  .next (s.aluOp pav g rd rs1 rs2 fun a b => if a.slt b then b else a)

/-- MINU (R69). -/
def execMinu (pav : Nat) (g : Guard) (rd rs1 rs2 : BitVec 5) (s : State) : Out :=
  .next (s.aluOp pav g rd rs1 rs2 fun a b => if b.ult a then b else a)

/-- MAXU (R69). -/
def execMaxu (pav : Nat) (g : Guard) (rd rs1 rs2 : BitVec 5) (s : State) : Out :=
  .next (s.aluOp pav g rd rs1 rs2 fun a b => if a.ult b then b else a)

/-- MIX: the function of R46 (R69). -/
def execMix (pav : Nat) (g : Guard) (rd rs1 : BitVec 5) (s : State) : Out :=
  .next (s.scalarOp pav g 0x01 rd fun p => mix (p.reg rs1))

/-- ADDI (R69). -/
def execAddi (pav : Nat) (g : Guard) (rd rs1 : BitVec 5) (imm : BitVec 11) (s : State) : Out :=
  .next (s.immOp pav g 0x02 rd rs1 imm (· + ·))

/-- ANDI (R69). -/
def execAndi (pav : Nat) (g : Guard) (rd rs1 : BitVec 5) (imm : BitVec 11) (s : State) : Out :=
  .next (s.immOp pav g 0x03 rd rs1 imm (· &&& ·))

/-- ORI (R69). -/
def execOri (pav : Nat) (g : Guard) (rd rs1 : BitVec 5) (imm : BitVec 11) (s : State) : Out :=
  .next (s.immOp pav g 0x04 rd rs1 imm (· ||| ·))

/-- XORI (R69). -/
def execXori (pav : Nat) (g : Guard) (rd rs1 : BitVec 5) (imm : BitVec 11) (s : State) : Out :=
  .next (s.immOp pav g 0x05 rd rs1 imm (· ^^^ ·))

/-- SHI: `kind` 0 SLL, 1 SRL, 2 SRA, 3 rotate right (R69). -/
def execShi (pav : Nat) (g : Guard) (rd rs1 : BitVec 5) (amount : BitVec 6) (kind : BitVec 2) (s : State) : Out :=
  .next (s.scalarOp pav g 0x06 rd fun p =>
    let a := p.reg rs1
    match kind.toNat with
    | 0 => a <<< amount.toNat
    | 1 => a >>> amount.toNat
    | 2 => a.sshiftRight amount.toNat
    | _ => a.rotateRight amount.toNat)

/-- SHIN (R69). -/
def execShin (pav : Nat) (g : Guard) (rd : BitVec 5) (imm : BitVec 16) (s : State) : Out :=
  .next (s.scalarOp pav g 0x07 rd fun p => (p.reg rd <<< 16) ||| imm.zeroExtend 64)

/-! ### Compares and predicates -/

/-- The condition of two words. -/
def condHolds (c : Cond) (a b : Word64) : Bool :=
  match c with
  | .eq => a = b
  | .ne => a ≠ b
  | .lt => a.slt b
  | .ltu => a.ult b
  | .ge => !a.slt b
  | .geu => !a.ult b

/-- `p[pd] = v`. -/
def State.predOp (s : State) (n : Nat) (g : Guard) (opcode : Nat) (pd : BitVec 3) (v : Pav → Bool) : State :=
  s.beloc n g opcode 4 fun p _ => s.doneWith n (p.setPred pd (v p))

/-- CMP.cc (R69). -/
def execCmpCc (pav : Nat) (g : Guard) (cc : Cond) (pd : BitVec 3) (rs1 rs2 : BitVec 5) (s : State) : Out :=
  .next (s.predOp pav g 0x08 pd fun p => condHolds cc (p.reg rs1) (p.reg rs2))

/-- PAND (R69). -/
def execPand (pav : Nat) (g : Guard) (pd p1 p2 : BitVec 3) (s : State) : Out :=
  .next (s.predOp pav g 0x08 pd fun p => p.pred p1 && p.pred p2)

/-- POR (R69). -/
def execPor (pav : Nat) (g : Guard) (pd p1 p2 : BitVec 3) (s : State) : Out :=
  .next (s.predOp pav g 0x08 pd fun p => p.pred p1 || p.pred p2)

/-- PXOR (R69). -/
def execPxor (pav : Nat) (g : Guard) (pd p1 p2 : BitVec 3) (s : State) : Out :=
  .next (s.predOp pav g 0x08 pd fun p => p.pred p1 != p.pred p2)

/-- PNOT (R69). -/
def execPnot (pav : Nat) (g : Guard) (pd p1 : BitVec 3) (s : State) : Out :=
  .next (s.predOp pav g 0x08 pd fun p => !p.pred p1)

/-- CMPI.cc: `cc` 0 EQ, 1 NE, 2 LT, 3 LTU (R69). -/
def execCmpiCc (pav : Nat) (g : Guard) (cc : BitVec 2) (pd : BitVec 3) (rs1 : BitVec 5) (imm : BitVec 11) (s : State) : Out :=
  .next (s.predOp pav g 0x09 pd fun p =>
    condHolds (match cc.toNat with | 0 => .eq | 1 => .ne | 2 => .lt | _ => .ltu) (p.reg rs1) (sext11 imm))

/-! ### Loads and stores (R61, R69) -/

/-- The effective address: modulo 2^64. -/
def effAddr (p : Pav) (rs1 : BitVec 5) (imm : BitVec 11) : Nat := (p.reg rs1 + sext11 imm).toNat

/-- A scalar load of `w` bytes. -/
def State.loadOp (s : State) (n : Nat) (g : Guard) (opcode w : Nat) (rd rs1 : BitVec 5) (imm : BitVec 11) : State :=
  s.beloc n g opcode 4 fun p _ =>
    let a := effAddr p rs1 imm
    s.tileRead n p a w w fun s bs => .done (s.setPav n (p.setReg rd (BitVec.ofNat 64 (leNat bs)))) 0 a

/-- LDB (R69). -/
def execLdb (pav : Nat) (g : Guard) (rd rs1 : BitVec 5) (imm : BitVec 11) (s : State) : Out :=
  .next (s.loadOp pav g 0x0A 1 rd rs1 imm)

/-- LDH (R69). -/
def execLdh (pav : Nat) (g : Guard) (rd rs1 : BitVec 5) (imm : BitVec 11) (s : State) : Out :=
  .next (s.loadOp pav g 0x0B 2 rd rs1 imm)

/-- LDW (R69). -/
def execLdw (pav : Nat) (g : Guard) (rd rs1 : BitVec 5) (imm : BitVec 11) (s : State) : Out :=
  .next (s.loadOp pav g 0x0C 4 rd rs1 imm)

/-- LDD (R69). -/
def execLdd (pav : Nat) (g : Guard) (rd rs1 : BitVec 5) (imm : BitVec 11) (s : State) : Out :=
  .next (s.loadOp pav g 0x0D 8 rd rs1 imm)

/-- A scalar store of `w` bytes. -/
def State.storeOp (s : State) (n : Nat) (g : Guard) (opcode w : Nat) (rs2 rs1 : BitVec 5) (imm : BitVec 11) : State :=
  s.beloc n g opcode 4 fun p _ => s.tileWrite n p (effAddr p rs1 imm) w (leBytes (p.reg rs2).toNat w)

/-- STB (R69). -/
def execStb (pav : Nat) (g : Guard) (rs2 rs1 : BitVec 5) (imm : BitVec 11) (s : State) : Out :=
  .next (s.storeOp pav g 0x0E 1 rs2 rs1 imm)

/-- STH (R69). -/
def execSth (pav : Nat) (g : Guard) (rs2 rs1 : BitVec 5) (imm : BitVec 11) (s : State) : Out :=
  .next (s.storeOp pav g 0x0F 2 rs2 rs1 imm)

/-- STW (R69). -/
def execStw (pav : Nat) (g : Guard) (rs2 rs1 : BitVec 5) (imm : BitVec 11) (s : State) : Out :=
  .next (s.storeOp pav g 0x10 4 rs2 rs1 imm)

/-- STD (R69). -/
def execStd (pav : Nat) (g : Guard) (rs2 rs1 : BitVec 5) (imm : BitVec 11) (s : State) : Out :=
  .next (s.storeOp pav g 0x11 8 rs2 rs1 imm)

/-! ### Branches (R69, R85) -/

/-- A branch to `t`, made through `p'`: a target that is no multiple of 4 or lies at or beyond CODE_LEN faults at the
branch, ILLEGAL before MISALIGNED. -/
def State.branchTo (s : State) (n : Nat) (k : Kern) (p' : Pav) (t : Nat) : Res :=
  if t ≥ k.codeLen then .fault s Fc.illegal 0
  else if t % 4 ≠ 0 then .fault s Fc.misaligned t
  else .jump (s.setPav n p') t

/-- PC + 4 x sext(off21), modulo the 48 bits of the PC. -/
def relTarget (p : Pav) (off : BitVec 21) : Nat := ((BitVec.ofNat 48 p.pc) + (off.signExtend 48 <<< 2)).toNat

/-- BR (R69). -/
def execBr (pav : Nat) (g : Guard) (off : BitVec 21) (s : State) : Out :=
  .next (s.beloc pav g 0x12 4 fun p k => s.branchTo pav k p (relTarget p off))

/-- JAL: s31 takes PC + 4 (R69). -/
def execJal (pav : Nat) (g : Guard) (off : BitVec 21) (s : State) : Out :=
  .next (s.beloc pav g 0x13 4 fun p k =>
    s.branchTo pav k (p.setReg 31 (BitVec.ofNat 64 (p.pc + 4))) (relTarget p off))

/-- JR (R69). -/
def execJr (pav : Nat) (g : Guard) (rd rs1 : BitVec 5) (imm : BitVec 11) (s : State) : Out :=
  .next (s.beloc pav g 0x14 4 fun p k =>
    s.branchTo pav k (p.setReg rd (BitVec.ofNat 64 (p.pc + 4))) (effAddr p rs1 imm))

/-! ### Control registers (R59) -/

/-- MRCV: members of the kernel's group in this Pavilion's mesh row and column, without itself. -/
def State.mrcv (s : State) (n : Nat) (k : Kern) : Nat :=
  let same (f : Fld) := (k.group.filter fun m => m ≠ n && s.get f [m] = s.get f [n]).length
  same F.PV_SITE_ROW + same F.PV_SITE_COL * 2 ^ 16

/-- The content of control register `c`, none for c16 to c31. -/
def State.ctrl (s : State) (n : Nat) (p : Pav) (k : Kern) (c : Nat) : Option Nat :=
  match c with
  | 0 => some k.kid
  | 1 => some p.vl
  | 2 => some p.rmode
  | 3 => some p.srJob
  | 4 => some p.srMoor
  | 5 => some p.srPsq
  | 6 => some p.eidx
  | 7 => some p.fstat
  | 8 => some p.digest.toNat
  | 9 => some p.mcnt
  | 10 => some (s.mrcv n k)
  | 11 => some (s.cycles k)
  | 12 => some (s.wdog k)
  | 13 => some (s.get F.TL_SAMPLE_CTL_EN + s.sampleExp * 2)
  | 14 => some (k.evBase + k.evCount * 2 ^ 16)
  | 15 => some n
  | _ => none

/-- CRR (R69). -/
def execCrr (pav : Nat) (g : Guard) (rd c : BitVec 5) (s : State) : Out :=
  .next (s.beloc pav g 0x15 4 fun p k =>
    match s.ctrl pav p k c.toNat with
    | some v => s.doneWith pav (p.setReg rd (BitVec.ofNat 64 v))
    | none => .fault s Fc.illegal 0)

/-- A write of control register `c`: none where it is ILLEGAL (R59). -/
def State.ctrlWrite (s : State) (p : Pav) (k : Kern) (c v : Nat) : Option Pav :=
  match c with
  | 1 => if v > 64 then none else some { p with vl := v }
  | 2 => if v > 1 then none else some { p with rmode := v }
  | 3 => if k.bound then none else some { p with srJob := v % 2 ^ 12 }
  | 4 => if k.bound then none else some { p with srMoor := v % 2 ^ 14 }
  | 5 => if k.bound then none else some { p with srPsq := v % 2 ^ 32 }
  | 6 => some { p with eidx := v % 2 ^ 32 }
  | 7 => some { p with fstat := v % 32 }
  | 8 => some { p with digest := BitVec.ofNat 64 v }
  | 12 =>
    if v > s.wdog k then none
    else some { p with kern := some { k with
      wdog := v, wdogAt := if k.kid = 0 then k.wdogAt else k.wdogAt + (s.pvc - k.wdogAt) / 1024 * 1024 } }
  | _ => none

/-- CRW (R59). -/
def execCrw (pav : Nat) (g : Guard) (c rs1 : BitVec 5) (s : State) : Out :=
  .next (s.beloc pav g 0x16 4 fun p k =>
    match s.ctrlWrite p k c.toNat (p.reg rs1).toNat with
    | some p' => s.doneWith pav p'
    | none => .fault s Fc.illegal 0)

end Sys2Proof.Machine
end

