-- ==== Sys2Proof/Machine/Vector.lean ====
section
/-! DEFINITION. The vector instructions of Beloc (R40, R70 to R73): one meaning per row. -/

namespace Sys2Proof.Machine

open Host (Outcome)

/-! ### Lanes and elements -/

/-- The format that a type field T names (R70). -/
def typeFmt (ty : BitVec 2) : Fmt :=
  match ty.toNat with
  | 0 => .fp32
  | 1 => .bf16
  | 2 => .fp16
  | _ => .int32

def isPacked (ty : BitVec 2) : Bool := ty = 1 || ty = 2

/-- Elements of a lane: one, or the two packed ones. -/
def laneElems (ty : BitVec 2) (w : Word32) : List Nat :=
  if isPacked ty then [w.toNat % 65536, w.toNat / 65536] else [w.toNat]

def packLane (ty : BitVec 2) (l : List Nat) : Word32 :=
  if isPacked ty then BitVec.ofNat 32 ((l[0]?).getD 0 % 65536 + (l[1]?).getD 0 * 65536) else BitVec.ofNat 32 ((l[0]?).getD 0)

/-- One lane's result from its source lanes, element by element, and its flags. -/
def laneResult (ty : BitVec 2) (f : List Nat → Nat × Nat) (srcs : List Word32) : Word32 × Nat :=
  let es := srcs.map (laneElems ty)
  let rs := (List.range (if isPacked ty then 2 else 1)).map fun j => f (es.map fun e => (e[j]?).getD 0)
  (packLane ty (rs.map (·.1)), (rs.map (·.2)).foldl (· ||| ·) 0)

/-- Lanes 0 to VL - 1 of `vd` made from their source lanes; flags stick. -/
def Pav.mapLanes (p : Pav) (ty : BitVec 2) (vd : BitVec 5) (srcs : Nat → List Word32) (f : List Nat → Nat × Nat) : Pav :=
  (List.range p.vl).foldl (fun q i =>
    let r := laneResult ty f (srcs i)
    { q.setLane vd i r.1 with fstat := q.fstat ||| r.2 }) p

/-- A vector instruction retires: the vector unit issued in one cycle. -/
def State.vdone (s : State) (n : Nat) (p : Pav) : Res := .done ((s.setPav n p).advance F.PV_CYC_VEC_COUNT [n]) 0 0

/-- A vector instruction whose T field may be illegal. -/
def State.vecOp (s : State) (n : Nat) (g : Guard) (opcode : Nat) (legal : Bool) (ty : BitVec 2) (vd : BitVec 5)
    (srcs : Pav → Nat → List Word32) (f : List Nat → Nat × Nat) : State :=
  s.beloc n g opcode 4 fun p _ =>
    if legal then s.vdone n (p.mapLanes ty vd (srcs p) f) else .fault s Fc.illegal 0

/-- Whether a finite nonzero number is divided by zero. -/
def isDiv0 (f : Fmt) (a b : Nat) : Bool :=
  match decodeVal f a, decodeVal f b with
  | .fin _ m _, .fin _ z _ => m ≠ 0 && z = 0
  | _, _ => false

/-- The operations of op 0x20 and 0x22. -/
inductive VOp where
  | add | sub | mul | max | min | and | or | xor | sll | srl | sra
deriving DecidableEq, Repr

/-- T must be 3 for the bitwise operations and shifts (R70). -/
def VOp.legal (o : VOp) (ty : BitVec 2) : Bool :=
  match o with
  | .add | .sub | .mul | .max | .min => true
  | _ => ty = 3

/-- The floating-point meaning of an operation: IEEE, one rounding (R40). -/
def VOp.float (o : VOp) (f : Fmt) (a b : Nat) : Nat × Nat :=
  let x := decodeVal f a
  let y := decodeVal f b
  fpResult f [a, b] (match o with
    | .add => x.add y
    | .sub => x.add y.neg
    | .mul => x.mul y
    | .max => x.max y
    | _ => x.min y) false

/-- The INT32 meaning. -/
def VOp.int (o : VOp) (a b : Word32) : Word32 :=
  match o with
  | .add => a + b
  | .sub => a - b
  | .mul => a * b
  | .max => if a.slt b then b else a
  | .min => if b.slt a then b else a
  | .and => a &&& b
  | .or => a ||| b
  | .xor => a ^^^ b
  | .sll => a <<< (b.toNat % 32)
  | .srl => a >>> (b.toNat % 32)
  | .sra => a.sshiftRight (b.toNat % 32)

/-- An operation on two elements. -/
def VOp.elem (o : VOp) (ty : BitVec 2) (l : List Nat) : Nat × Nat :=
  let a := (l[0]?).getD 0
  let b := (l[1]?).getD 0
  if ty = 3 then ((o.int (BitVec.ofNat 32 a) (BitVec.ofNat 32 b)).toNat, 0) else o.float (typeFmt ty) a b

/-- op 0x20: two vectors. -/
def State.vv (s : State) (o : VOp) (n : Nat) (g : Guard) (ty : BitVec 2) (vd vs1 vs2 : BitVec 5) : State :=
  s.vecOp n g 0x20 (o.legal ty) ty vd (fun p i => [p.lane vs1 i, p.lane vs2 i]) (o.elem ty)

/-- The scalar operand in every lane, or in every element of a packed type. -/
def scalarLane (ty : BitVec 2) (w : Word64) : Word32 :=
  if isPacked ty then BitVec.ofNat 32 (w.toNat % 65536 * 65537) else BitVec.ofNat 32 w.toNat

/-- op 0x22: a vector and a scalar. -/
def State.vs (s : State) (o : VOp) (n : Nat) (g : Guard) (ty : BitVec 2) (vd vs1 rs2 : BitVec 5) : State :=
  s.vecOp n g 0x22 (o.legal ty) ty vd (fun p i => [p.lane vs1 i, scalarLane ty (p.reg rs2)]) (o.elem ty)

/-- VADD (R70). -/
def execVadd (pav : Nat) (g : Guard) (ty : BitVec 2) (vd vs1 vs2 : BitVec 5) (s : State) : Out :=
  .next (s.vv .add pav g ty vd vs1 vs2)

/-- VSUB (R70). -/
def execVsub (pav : Nat) (g : Guard) (ty : BitVec 2) (vd vs1 vs2 : BitVec 5) (s : State) : Out :=
  .next (s.vv .sub pav g ty vd vs1 vs2)

/-- VMUL (R70). -/
def execVmul (pav : Nat) (g : Guard) (ty : BitVec 2) (vd vs1 vs2 : BitVec 5) (s : State) : Out :=
  .next (s.vv .mul pav g ty vd vs1 vs2)

/-- VMAX (R70). -/
def execVmax (pav : Nat) (g : Guard) (ty : BitVec 2) (vd vs1 vs2 : BitVec 5) (s : State) : Out :=
  .next (s.vv .max pav g ty vd vs1 vs2)

/-- VMIN (R70). -/
def execVmin (pav : Nat) (g : Guard) (ty : BitVec 2) (vd vs1 vs2 : BitVec 5) (s : State) : Out :=
  .next (s.vv .min pav g ty vd vs1 vs2)

/-- VAND (R70). -/
def execVand (pav : Nat) (g : Guard) (ty : BitVec 2) (vd vs1 vs2 : BitVec 5) (s : State) : Out :=
  .next (s.vv .and pav g ty vd vs1 vs2)

/-- VOR (R70). -/
def execVor (pav : Nat) (g : Guard) (ty : BitVec 2) (vd vs1 vs2 : BitVec 5) (s : State) : Out :=
  .next (s.vv .or pav g ty vd vs1 vs2)

/-- VXOR (R70). -/
def execVxor (pav : Nat) (g : Guard) (ty : BitVec 2) (vd vs1 vs2 : BitVec 5) (s : State) : Out :=
  .next (s.vv .xor pav g ty vd vs1 vs2)

/-- VSLL (R70). -/
def execVsll (pav : Nat) (g : Guard) (ty : BitVec 2) (vd vs1 vs2 : BitVec 5) (s : State) : Out :=
  .next (s.vv .sll pav g ty vd vs1 vs2)

/-- VSRL (R70). -/
def execVsrl (pav : Nat) (g : Guard) (ty : BitVec 2) (vd vs1 vs2 : BitVec 5) (s : State) : Out :=
  .next (s.vv .srl pav g ty vd vs1 vs2)

/-- VSRA (R70). -/
def execVsra (pav : Nat) (g : Guard) (ty : BitVec 2) (vd vs1 vs2 : BitVec 5) (s : State) : Out :=
  .next (s.vv .sra pav g ty vd vs1 vs2)

/-- VADD.S (R70). -/
def execVaddS (pav : Nat) (g : Guard) (ty : BitVec 2) (vd vs1 rs2 : BitVec 5) (s : State) : Out :=
  .next (s.vs .add pav g ty vd vs1 rs2)

/-- VSUB.S (R70). -/
def execVsubS (pav : Nat) (g : Guard) (ty : BitVec 2) (vd vs1 rs2 : BitVec 5) (s : State) : Out :=
  .next (s.vs .sub pav g ty vd vs1 rs2)

/-- VMUL.S (R70). -/
def execVmulS (pav : Nat) (g : Guard) (ty : BitVec 2) (vd vs1 rs2 : BitVec 5) (s : State) : Out :=
  .next (s.vs .mul pav g ty vd vs1 rs2)

/-- VMAX.S (R70). -/
def execVmaxS (pav : Nat) (g : Guard) (ty : BitVec 2) (vd vs1 rs2 : BitVec 5) (s : State) : Out :=
  .next (s.vs .max pav g ty vd vs1 rs2)

/-- VMIN.S (R70). -/
def execVminS (pav : Nat) (g : Guard) (ty : BitVec 2) (vd vs1 rs2 : BitVec 5) (s : State) : Out :=
  .next (s.vs .min pav g ty vd vs1 rs2)

/-- VAND.S (R70). -/
def execVandS (pav : Nat) (g : Guard) (ty : BitVec 2) (vd vs1 rs2 : BitVec 5) (s : State) : Out :=
  .next (s.vs .and pav g ty vd vs1 rs2)

/-- VOR.S (R70). -/
def execVorS (pav : Nat) (g : Guard) (ty : BitVec 2) (vd vs1 rs2 : BitVec 5) (s : State) : Out :=
  .next (s.vs .or pav g ty vd vs1 rs2)

/-- VXOR.S (R70). -/
def execVxorS (pav : Nat) (g : Guard) (ty : BitVec 2) (vd vs1 rs2 : BitVec 5) (s : State) : Out :=
  .next (s.vs .xor pav g ty vd vs1 rs2)

/-- VSLL.S (R70). -/
def execVsllS (pav : Nat) (g : Guard) (ty : BitVec 2) (vd vs1 rs2 : BitVec 5) (s : State) : Out :=
  .next (s.vs .sll pav g ty vd vs1 rs2)

/-- VSRL.S (R70). -/
def execVsrlS (pav : Nat) (g : Guard) (ty : BitVec 2) (vd vs1 rs2 : BitVec 5) (s : State) : Out :=
  .next (s.vs .srl pav g ty vd vs1 rs2)

/-- VSRA.S (R70). -/
def execVsraS (pav : Nat) (g : Guard) (ty : BitVec 2) (vd vs1 rs2 : BitVec 5) (s : State) : Out :=
  .next (s.vs .sra pav g ty vd vs1 rs2)

/-- VSQRT (R70): correctly rounded. -/
def execVsqrt (pav : Nat) (g : Guard) (ty : BitVec 2) (vd vs1 : BitVec 5) (s : State) : Out :=
  .next (s.vecOp pav g 0x20 (ty ≠ 3) ty vd (fun p i => [p.lane vs1 i]) fun l =>
    let a := (l[0]?).getD 0
    fpResult (typeFmt ty) [a] (decodeVal (typeFmt ty) a).sqrt false)

/-- VDIV (R70): correctly rounded. -/
def execVdiv (pav : Nat) (g : Guard) (ty : BitVec 2) (vd vs1 vs2 : BitVec 5) (s : State) : Out :=
  .next (s.vecOp pav g 0x20 (ty ≠ 3) ty vd (fun p i => [p.lane vs1 i, p.lane vs2 i]) fun l =>
    let a := (l[0]?).getD 0
    let b := (l[1]?).getD 0
    let f := typeFmt ty
    fpResult f [a, b] ((decodeVal f a).div (decodeVal f b)) (isDiv0 f a b))

/-! ### Fused multiply-add (R40, R70) -/

/-- `a × b + c` with one rounding; `negP` and `negC` negate the product and the addend. -/
def fmaElem (f : Fmt) (negP negC : Bool) (l : List Nat) : Nat × Nat :=
  let c := (l[0]?).getD 0
  let a := (l[1]?).getD 0
  let b := (l[2]?).getD 0
  let x := (decodeVal f a).mul (decodeVal f b)
  let y := decodeVal f c
  let r := fpResult f [a, b, c] ((if negP then x.neg else x).add (if negC then y.neg else y)) false
  let infZero := x = .nan && decodeVal f a ≠ .nan && decodeVal f b ≠ .nan
  if infZero && y = .nan && !isSNaN f c && Config.fmaInvalid then (r.1, r.2 ||| 1) else r

def State.vfmaOp (s : State) (n : Nat) (g : Guard) (ty : BitVec 2) (vd vs1 vs2 : BitVec 5) (negP negC : Bool) : State :=
  s.vecOp n g 0x21 (ty ≠ 3) ty vd (fun p i => [p.lane vd i, p.lane vs1 i, p.lane vs2 i]) (fmaElem (typeFmt ty) negP negC)

/-- VFMA: vd + vs1 × vs2 (R70). -/
def execVfma (pav : Nat) (g : Guard) (ty : BitVec 2) (vd vs1 vs2 : BitVec 5) (s : State) : Out :=
  .next (s.vfmaOp pav g ty vd vs1 vs2 false false)

/-- VFNMA: vd − vs1 × vs2 (R70). -/
def execVfnma (pav : Nat) (g : Guard) (ty : BitVec 2) (vd vs1 vs2 : BitVec 5) (s : State) : Out :=
  .next (s.vfmaOp pav g ty vd vs1 vs2 true false)

/-- VFMS: vs1 × vs2 − vd (R70). -/
def execVfms (pav : Nat) (g : Guard) (ty : BitVec 2) (vd vs1 vs2 : BitVec 5) (s : State) : Out :=
  .next (s.vfmaOp pav g ty vd vs1 vs2 false true)

/-! ### VCVT (R71) -/

/-- The 256 bytes of a vector register. -/
def Pav.vecBytes (p : Pav) (r : BitVec 5) : List Byte := (List.range 64).flatMap fun i => leBytes (p.lane r i).toNat 4

/-- A vector register made of 256 bytes. -/
def Pav.setVecBytes (p : Pav) (r : BitVec 5) (bs : List Byte) : Pav :=
  p.setLanes r ((List.range 64).map fun i => BitVec.ofNat 32 (natAt bs (4 * i) 4))

/-- Elements 0 to n - 1 of a register in the layouts of R71, as values with their codes. -/
def readElems (f : Fmt) (n : Nat) (bs : List Byte) : List (Nat × Val) :=
  (List.range n).map fun i =>
    let c := elemAt bs f.width i
    (c, if f.isMx then mxVal f ((bs[248 + i / 32]?).getD 0).toNat c else decodeVal f c)

/-- The rounding that RMODE names for element `i` (R45, R46, R71). -/
def Pav.rnd (p : Pav) (i : Nat) : Rnd :=
  if p.rmode = 1 then .sr (srDraw p.srJob p.srMoor p.srPsq ((p.eidx + i) % 2 ^ 32)) else .rne

/-- Values written to a register in the layout of R71; bytes beyond them are zero. -/
def Pav.writeElems (p : Pav) (f : Fmt) (vd : BitVec 5) (vs : List Val) : Pav :=
  let r := encodeTensor f ((vs.zipIdx).map fun x => (x.1, p.rnd x.2))
  let es := r.1 ++ List.replicate (248 - r.1.length) 0
  p.setVecBytes vd (if f.isMx then es ++ r.2 ++ List.replicate (8 - r.2.length) 0 else r.1 ++ List.replicate (256 - r.1.length) 0)

/-- EIDX after a conversion executed with RMODE = 1 (R71). -/
def Pav.bumpEidx (p : Pav) : Pav := if p.rmode = 1 then { p with eidx := (p.eidx + p.vl) % 2 ^ 32 } else p

/-- FP32, BF16 and FP16. -/
def Fmt.isIeee : Fmt → Bool
  | .fp32 | .bf16 | .fp16 => true
  | _ => false

/-- The pairs of R71. -/
def cvtLegal (src dst : Fmt) : Bool :=
  src ≠ dst && ((!src.isMx && !dst.isMx) || (src.isIeee && dst.isMx) || (src.isMx && dst.isIeee))

/-- VCVT (R71). The flags of a conversion into an MX format are a free value. -/
def execVcvt (pav : Nat) (g : Guard) (dst src : BitVec 4) (vd vs1 : BitVec 5) (s : State) : Out :=
  .next (s.beloc pav g 0x23 4 fun p _ =>
    match Fmt.ofCode dst.toNat, Fmt.ofCode src.toNat with
    | some d, some f =>
      if !cvtLegal f d then .fault s Fc.illegal 0
      else if p.vl = 0 then s.vdone pav p
      else
        let es := readElems f p.vl (p.vecBytes vs1)
        let q := (p.writeElems d vd (es.map (·.2))).bumpEidx
        if d.isMx then
          let (r, s) := s.fresh
          s.vdone pav { q with fstat := q.fstat ||| (r.toNat % 32) }
        else
          let fl := ((es.zipIdx).map fun x => cvtFlags f d (p.rnd x.2) x.1.1 x.1.2 (roundVal d (p.rnd x.2) x.1.2)).foldl (· ||| ·) 0
          s.vdone pav { q with fstat := q.fstat ||| fl }
    | _, _ => .fault s Fc.illegal 0)

/-! ### Memory and moves (R70) -/

/-- rs1 + 64 × sext(imm11), modulo 2^64. -/
def vecAddr (p : Pav) (rs1 : BitVec 5) (imm : BitVec 11) : Nat := (p.reg rs1 + (sext11 imm <<< 6)).toNat

/-- VLD (R70). -/
def execVld (pav : Nat) (g : Guard) (vd rs1 : BitVec 5) (imm : BitVec 11) (s : State) : Out :=
  .next (s.beloc pav g 0x24 4 fun p _ =>
    if p.vl = 0 then s.doneWith pav p
    else
      let a := vecAddr p rs1 imm
      s.tileRead pav p a (4 * p.vl) 64 fun s bs =>
        .done (s.setPav pav (p.setLanes vd ((List.range p.vl).map fun i => BitVec.ofNat 32 (natAt bs (4 * i) 4)))) 0 a)

/-- VST (R70). -/
def execVst (pav : Nat) (g : Guard) (vs rs1 : BitVec 5) (imm : BitVec 11) (s : State) : Out :=
  .next (s.beloc pav g 0x25 4 fun p _ =>
    if p.vl = 0 then s.doneWith pav p
    else s.tileWrite pav p (vecAddr p rs1 imm) 64 ((List.range p.vl).flatMap fun i => leBytes (p.lane vs i).toNat 4))

/-- VBC (R70). -/
def execVbc (pav : Nat) (g : Guard) (vd rs1 : BitVec 5) (s : State) : Out :=
  .next (s.beloc pav g 0x26 4 fun p _ =>
    s.vdone pav (p.setLanes vd (List.replicate p.vl (BitVec.ofNat 32 (p.reg rs1).toNat))))

/-- One level of R72's tree: adjacent pairs combined, an unpaired last value moved up. -/
def pairUp (f : Nat → Nat → Nat × Nat) : List Nat → List Nat × Nat
  | a :: b :: rest => let r := f a b; let q := pairUp f rest; (r.1 :: q.1, r.2 ||| q.2)
  | l => (l, 0)

/-- R72's tree, `n` levels at most. -/
def treeOf (f : Nat → Nat → Nat × Nat) : Nat → List Nat → Nat × Nat
  | 0, l => ((l.head?).getD 0, 0)
  | n + 1, l =>
    if l.length ≤ 1 then ((l.head?).getD 0, 0)
    else let r := pairUp f l; let q := treeOf f n r.1; (q.1, r.2 ||| q.2)

/-- VRED: `fn` 0 FP32 sum, 1 FP32 max, 2 FP32 min, 3 INT32 sum (R72). -/
def execVred (pav : Nat) (g : Guard) (fn : BitVec 2) (rd vs1 : BitVec 5) (s : State) : Out :=
  .next (s.beloc pav g 0x27 4 fun p _ =>
    let f (a b : Nat) : Nat × Nat :=
      match fn.toNat with
      | 0 => VOp.float .add .fp32 a b
      | 1 => VOp.float .max .fp32 a b
      | 2 => VOp.float .min .fp32 a b
      | _ => ((a + b) % 2 ^ 32, 0)
    let r := treeOf f 7 ((List.range p.vl).map fun i => (p.lane vs1 i).toNat)
    s.vdone pav { p.setReg rd (BitVec.ofNat 64 r.1) with fstat := p.fstat ||| r.2 })

/-- VGET (R70). -/
def execVget (pav : Nat) (g : Guard) (rd vs1 : BitVec 5) (lane : BitVec 6) (s : State) : Out :=
  .next (s.beloc pav g 0x28 4 fun p _ => s.vdone pav (p.setReg rd ((p.lane vs1 lane.toNat).zeroExtend 64)))

/-- VSET (R70). -/
def execVset (pav : Nat) (g : Guard) (vd rs1 : BitVec 5) (lane : BitVec 6) (s : State) : Out :=
  .next (s.beloc pav g 0x28 4 fun p _ => s.vdone pav (p.setLane vd lane.toNat (BitVec.ofNat 32 (p.reg rs1).toNat)))

/-- The fold of R73 over `vl` lanes. -/
def foldLanes (d : Word64) : List Word32 → Word64
  | [] => d
  | [a] => mix (d ^^^ a.zeroExtend 64)
  | a :: b :: rest => foldLanes (mix (d ^^^ (a.zeroExtend 64 ||| (b.zeroExtend 64 <<< 32)))) rest

/-- VDG (R73). -/
def execVdg (pav : Nat) (g : Guard) (vs1 : BitVec 5) (s : State) : Out :=
  .next (s.beloc pav g 0x29 4 fun p _ =>
    s.vdone pav { p with digest := foldLanes p.digest ((List.range p.vl).map (p.lane vs1)) })

/-! ### Accumulator tiles (R70, R77) -/

/-- The cells that an outstanding product will write in a tile: its quadrant, or all. -/
def Pav.tileBusy (p : Pav) (t : Nat) : Bool :=
  p.out.any fun o => match o.op with | .product _ td _ _ _ => td = t | _ => false

/-- TRD (R70): rows 2r and 2r + 1 of a tile into a vector register. -/
def execTrd (pav : Nat) (g : Guard) (r : BitVec 4) (tile : BitVec 3) (vd : BitVec 5) (s : State) : Out :=
  .next (s.beloc pav g 0x2A 4 fun p _ =>
    if p.tileBusy tile.toNat then .stall
    else s.vdone pav (p.setLanes vd ((List.range 64).map fun i => p.cell tile.toNat (2 * r.toNat + i / 32) (i % 32))))

/-- TWR (R70): the reverse. -/
def execTwr (pav : Nat) (g : Guard) (r : BitVec 4) (tile : BitVec 3) (vd : BitVec 5) (s : State) : Out :=
  .next (s.beloc pav g 0x2A 4 fun p _ =>
    if p.tileBusy tile.toNat then .stall
    else s.vdone pav ((List.range 64).foldl (fun q i =>
      q.setCell tile.toNat (2 * r.toNat + i / 32) (i % 32) (p.lane vd i)) p))

/-- TCLR (R70). -/
def execTclr (pav : Nat) (g : Guard) (tile : BitVec 3) (s : State) : Out :=
  .next (s.beloc pav g 0x2A 4 fun p _ =>
    if p.tileBusy tile.toNat then .stall
    else s.vdone pav { p with t := p.t.filter fun c => c.1 / 1024 ≠ tile.toNat })

end Sys2Proof.Machine
end

