-- ==== Sys2Proof/Machine/ExactIns.lean ====
section
/-! DEFINITION. The exact-accumulator instructions of Beloc (R47 to R51, R74): one meaning per row. -/

namespace Sys2Proof.Machine

open Host (Outcome)

/-! ### Exact blocks (R51, R74) -/

/-- Bytes of an exact block: 64 words of 40 bytes and the flag map. -/
def exactSize : Nat := 2592

/-- The flag nibble of a lane. -/
def Exact.flags (x : Exact) : Nat := x.nan.toNat + 2 * x.pinf.toNat + 4 * x.ninf.toNat

/-- Lane `i` of a block's bytes. -/
def blockLane (bs : List Byte) (i : Nat) : Exact :=
  let f := ((bs[2560 + i / 2]?).getD 0).toNat >>> (4 * (i % 2))
  ⟨BitVec.ofNat 320 (natAt bs (40 * i) 40), f.testBit 0, f.testBit 1, f.testBit 2⟩

/-- The bytes of a block of 64 lanes. -/
def blockBytes (lane : Nat → Exact) : List Byte :=
  (List.range 64).flatMap (fun i => leBytes (lane i).word.toNat 40)
    ++ (List.range 32).map fun j => BitVec.ofNat 8 ((lane (2 * j)).flags + 16 * (lane (2 * j + 1)).flags)

/-- The format of an exact instruction: any code but INT8 (R74). -/
def exactFmt (fmt : BitVec 4) : Option Fmt :=
  match Fmt.ofCode fmt.toNat with
  | some .int8 => none
  | f => f

/-- Lanes 0 to VL - 1 with the elements of `vs` added, and how many elements entered as infinities for their magnitude
(R48). -/
def Pav.accumulate (p : Pav) (f : Fmt) (vs : BitVec 5) (lane : Nat → Exact) : (Nat → Exact) × Nat :=
  let es := readElems f p.vl (p.vecBytes vs)
  let rs := (es.zipIdx).map fun e => (lane e.2).add e.1.2
  (fun i => match rs[i]? with | some r => r.1 | none => lane i, (rs.filter (·.2)).length)

/-- The elements of lanes 0 to VL - 1 rounded out into `vd` (R50); which flags of FSTAT it sets is a free value. -/
def State.roundOut (s : State) (n : Nat) (p : Pav) (f : Fmt) (vd : BitVec 5) (lane : Nat → Exact) : State :=
  if p.vl = 0 then s
  else
    let (r, s) := s.fresh
    let q := (p.writeElems f vd ((List.range p.vl).map fun i => (lane i).val)).bumpEidx
    s.setPav n { q with fstat := q.fstat ||| (r.toNat % 32) }

/-- XACC (R74). -/
def execXacc (pav : Nat) (g : Guard) (fmt : BitVec 4) (vs : BitVec 5) (a : BitVec 3) (s : State) : Out :=
  .next (s.beloc pav g 0x30 4 fun p _ =>
    match exactFmt fmt with
    | none => .fault s Fc.illegal 0
    | some f =>
      let r := p.accumulate f vs (p.acc a)
      let q := (List.range p.vl).foldl (fun q i => q.setAcc a i (r.1 i)) p
      .done ((s.setPav pav q).bump F.PV_XRANGE_COUNT [] r.2) 0 0)

/-- XRND (R74). -/
def execXrnd (pav : Nat) (g : Guard) (fmt : BitVec 4) (a : BitVec 3) (vd : BitVec 5) (s : State) : Out :=
  .next (s.beloc pav g 0x31 4 fun p _ =>
    match exactFmt fmt with
    | none => .fault s Fc.illegal 0
    | some f => .done (s.roundOut pav p f vd (p.acc a)) 0 0)

/-- XCLR (R74). -/
def execXclr (pav : Nat) (g : Guard) (a : BitVec 3) (s : State) : Out :=
  .next (s.beloc pav g 0x32 4 fun p _ =>
    s.doneWith pav { p with a := p.a.filter fun x => x.1 / 64 ≠ a.toNat })

/-- A checked read of the exact block at s[rs1]; then `f`. -/
def State.blockRead (s : State) (n : Nat) (p : Pav) (rs1 : BitVec 5) (f : State → Nat → List Byte → Res) : Res :=
  let a := (p.reg rs1).toNat
  s.tileRead n p a exactSize 64 fun s bs => f s a bs

/-- XACCT (R74); with VL = 0 it has no effect and makes no access, as R70 says. -/
def execXacct (pav : Nat) (g : Guard) (fmt : BitVec 4) (vs rs1 : BitVec 5) (s : State) : Out :=
  .next (s.beloc pav g 0x33 4 fun p _ =>
    match exactFmt fmt with
    | none => .fault s Fc.illegal 0
    | some f =>
      if p.vl = 0 then s.doneWith pav p
      else s.blockRead pav p rs1 fun s a bs =>
        let r := p.accumulate f vs (blockLane bs)
        .done ((s.tileStore pav a (blockBytes r.1)).bump F.PV_XRANGE_COUNT [] r.2) 0 a)

/-- XRNDT (R74); with VL = 0 as XACCT. -/
def execXrndt (pav : Nat) (g : Guard) (fmt : BitVec 4) (rs1 vd : BitVec 5) (s : State) : Out :=
  .next (s.beloc pav g 0x34 4 fun p _ =>
    match exactFmt fmt with
    | none => .fault s Fc.illegal 0
    | some f =>
      if p.vl = 0 then s.doneWith pav p
      else s.blockRead pav p rs1 fun s a bs => .done (s.roundOut pav p f vd (blockLane bs)) 0 a)

/-- XLDA (R74). -/
def execXlda (pav : Nat) (g : Guard) (rs1 : BitVec 5) (a : BitVec 3) (s : State) : Out :=
  .next (s.beloc pav g 0x35 4 fun p _ =>
    s.blockRead pav p rs1 fun s addr bs =>
      .done (s.setPav pav ((List.range 64).foldl (fun q i => q.setAcc a i (blockLane bs i)) p)) 0 addr)

/-- XSTA (R74). -/
def execXsta (pav : Nat) (g : Guard) (rs1 : BitVec 5) (a : BitVec 3) (s : State) : Out :=
  .next (s.beloc pav g 0x36 4 fun p _ =>
    s.tileWrite pav p (p.reg rs1).toNat 64 (blockBytes (p.acc a)))

/-- XCLRT (R74). -/
def execXclrt (pav : Nat) (g : Guard) (rs1 : BitVec 5) (s : State) : Out :=
  .next (s.beloc pav g 0x37 4 fun p _ =>
    s.tileWrite pav p (p.reg rs1).toNat 64 (List.replicate exactSize 0))

end Sys2Proof.Machine
end

