-- ==== Sys2Proof/Machine/Stow.lean ====
section
/-! DEFINITION. The Stow codec (R220 to R225). -/

namespace Sys2Proof.Machine

/-! ### Blocks (R222, R223) -/

/-- How many times the first byte is repeated from the start, 129 at most. -/
def runFrom (b : Byte) : Nat → List Byte → Nat
  | 0, _ => 0
  | _, [] => 0
  | n + 1, x :: xs => if x = b then 1 + runFrom b n xs else 0

/-- Bytes up to the next position from which three equal bytes begin, or to the end. -/
def literalFrom : List Byte → Nat
  | a :: b :: c :: rest => if a = b && b = c then 0 else 1 + literalFrom (b :: c :: rest)
  | l => l.length

/-- The tokens of R223, at most `n` of them. -/
def tokens : Nat → List Byte → List Byte
  | 0, _ => []
  | _, [] => []
  | n + 1, b :: bs =>
    let r := runFrom b 129 (b :: bs)
    if r ≥ 3 then BitVec.ofNat 8 (r + 0x7E) :: b :: tokens n ((b :: bs).drop r)
    else
      let k := min 128 (literalFrom (b :: bs))
      BitVec.ofNat 8 (k - 1) :: ((b :: bs).take k ++ tokens n ((b :: bs).drop k))

/-- The bytes that tokens stand for: none where a token would produce more than `left` bytes or the frame ends inside one. -/
def untokens : Nat → Nat → List Byte → Option (List Byte)
  | _, left, [] => if left = 0 then some [] else none
  | 0, _, _ => none
  | n + 1, left, t :: rest =>
    if t.toNat < 0x80 then
      let k := t.toNat + 1
      if k ≤ left && k ≤ rest.length then (untokens n (left - k) (rest.drop k)).map (rest.take k ++ ·) else none
    else
      let k := t.toNat - 0x7E
      match rest with
      | [] => none
      | b :: rest => if k ≤ left then (untokens n (left - k) rest).map (List.replicate k b ++ ·) else none

/-- Each word XOR the word before it. -/
def delta (w : Nat) (bs : List Byte) : List Byte :=
  (bs.zip (List.replicate w 0 ++ bs)).map fun x => x.1 ^^^ x.2

/-- Words summed by XOR from the first. -/
def undelta (w : Nat) (bs : List Byte) : List Byte :=
  ((chunks w (bs.length / w) bs).foldl (fun (acc : List Byte × List (List Byte)) x =>
    let y := (x.zip acc.1).map fun p => p.1 ^^^ p.2
    (y, acc.2 ++ [y])) (List.replicate w 0, [])).2.flatten

/-- The bytes of words by plane, the most significant first. -/
def planes (w : Nat) (bs : List Byte) : List Byte :=
  (List.range w).flatMap fun k => (List.range (bs.length / w)).map fun i => (bs[w * i + (w - 1 - k)]?).getD 0

def unplanes (w : Nat) (bs : List Byte) : List Byte :=
  let n := bs.length / w
  (List.range n).flatMap fun i => (List.range w).map fun j => (bs[n * (w - 1 - j) + i]?).getD 0

/-- A source block's MODE and frame: PLANE16 where its user declares 16-bit data. -/
def stowBlock (w16 : Bool) (src : List Byte) : Nat × List Byte :=
  if src.all (· = 0) then (3, [])
  else
    let w := if w16 then 2 else 4
    let t := tokens src.length (planes w (delta w src))
    if t.length < src.length then (if w16 then 2 else 1, t) else (0, src)

/-- The source of a frame, none where its code or its length is damaged (R224). -/
def unstowBlock (mode s : Nat) (frame : List Byte) : Option (List Byte) :=
  match mode with
  | 0 => if frame.length = s then some frame else none
  | 3 => if frame.isEmpty then some (List.replicate s 0) else none
  | m =>
    let w := if m = 2 then 2 else 4
    (untokens (s + 1) s frame).map fun p => undelta w (unplanes w p)

/-! ### Streams (R220, R221, R225) -/

/-- Where the frames of a stream start. -/
def stowData (n label : Nat) : Nat := 0x40 + roundUp (8 * n) 64 + roundUp label 64

/-- The header. -/
def stowHeader (slotted : Bool) (n l last label total : Nat) : List Byte :=
  leBytes (0x574F5453 + 2 ^ 32 + slotted.toNat * 2 ^ 48) 8 ++ leBytes n 8 ++ leBytes (l + last * 2 ^ 32) 8
    ++ leBytes label 8 ++ leBytes total 8 ++ List.replicate 24 0

/-- An index entry. -/
def stowEntry (off len mode : Nat) : Nat := off + len * 2 ^ 40 + mode * 2 ^ 58

/-- The space that a stream is given (R225). -/
def stowSize (n label l last : Nat) : Nat := if n = 0 then stowData 0 label else stowData n label + (n - 1) * l + last

def padTo (n : Nat) (bs : List Byte) : List Byte := bs ++ List.replicate (roundUp bs.length n - bs.length) 0

/-- A PACKED stream of a source cut into blocks of `l` bytes, the last padded to a multiple of 64. -/
def stowPacked (l : Nat) (w16 : Bool) (label src : List Byte) : List Byte :=
  let src := padTo 64 src
  let n := (src.length + l - 1) / l
  let frames := (chunks l n src).map (stowBlock w16)
  let d := stowData n label.length
  let laid := frames.foldl (fun (acc : List Nat × List Byte) f =>
    (acc.1 ++ [stowEntry (d + acc.2.length) f.2.length f.1], acc.2 ++ padTo 64 f.2)) ([], [])
  stowHeader false n l (src.length - (n - 1) * l) label.length (d + laid.2.length)
    ++ padTo 64 (laid.1.flatMap fun e => leBytes e 8) ++ padTo 64 label ++ laid.2

/-- The header's fields: SLOTTED, n, L, last, label length, total. -/
def stowFields (bs : List Byte) : Bool × Nat × Nat × Nat × Nat × Nat :=
  (natAt bs 6 1 % 2 = 1, natAt bs 8 5, natAt bs 0x10 3 % 2 ^ 18, natAt bs 0x14 3 % 2 ^ 18, natAt bs 0x18 4, natAt bs 0x20 8)

/-- Header consistency (R224). -/
def stowHeaderOk (bs : List Byte) : Bool :=
  let (sl, n, l, last, label, total) := stowFields bs
  natAt bs 0 4 = 0x574F5453 && natAt bs 4 2 = 1
    && (n = 0 || (l % 64 = 0 && 64 ≤ l && l ≤ 131072 && last % 64 = 0 && 64 ≤ last && last ≤ l))
    && stowData n label + (if sl && n ≠ 0 then (n - 1) * l + last else 0) ≤ total

/-- Index entry `b` as offset, length and mode. -/
def stowIndex (bs : List Byte) (b : Nat) : Nat × Nat × Nat :=
  let e := natAt bs (0x40 + 8 * b) 8
  (e % 2 ^ 40, e / 2 ^ 40 % 2 ^ 18, e / 2 ^ 58 % 4)

/-- Where the frame of block `b` lies by a stream's header and index: offset, length, MODE and the block's source length; none
where they are not consistent (R224). -/
def stowFrame (bs : List Byte) (b : Nat) : Option (Nat × Nat × Nat × Nat) :=
  let (sl, n, l, last, label, total) := stowFields bs
  let (off, len, mode) := stowIndex bs b
  let clash := (List.range n).any fun k =>
    let (o, z, _) := stowIndex bs k
    k ≠ b && o < off + len && off < o + z && z ≠ 0 && len ≠ 0
  if !stowHeaderOk bs || n ≤ b || off < stowData n label || total < off + len || clash
      || (sl && off ≠ stowData n label + b * l) then none
  else some (off, len, mode, if b + 1 = n then last else l)

/-- Block `b` of a stream, none where it is damaged (R224). -/
def stowRead (bs : List Byte) (b : Nat) : Option (List Byte) :=
  (stowFrame bs b).bind fun x =>
    if bs.length < x.1 + x.2.1 then none else unstowBlock x.2.2.1 x.2.2.2 ((bs.drop x.1).take x.2.1)

/-- The whole source of a stream, none where any block is damaged. -/
def stowSource (bs : List Byte) : Option (List Byte) :=
  if stowHeaderOk bs then
    (List.range (stowFields bs).2.1).foldl (fun acc b => acc.bind fun l => (stowRead bs b).map (l ++ ·)) (some [])
  else none

end Sys2Proof.Machine
end

