-- ==== Sys2Proof/Machine/BhOps.lean ====
section
/-! DEFINITION. Boathouse: shards in Dock (R161 to R166, R213), their block digests (R176, R182), frozen epochs and their
copies (R26, R184, R185), Boathouse packets (R188). -/

namespace Sys2Proof.Machine

/-! ### Shards -/

namespace Sh
def free : Nat := 0
def empty : Nat := 1
def loading : Nat := 2
def live : Nat := 3
end Sh

def State.shardState (s : State) (n : Nat) : Nat := s.get F.BH_SH_STATE_STATE [n]

def State.setShard (s : State) (n : Nat) (x : Option Shard) : State :=
  { s with bh := { s.bh with shards := spPut none s.bh.shards n x } }

def State.mapShard (s : State) (n : Nat) (f : Shard → Shard) : State :=
  match s.shard n with
  | some x => s.setShard n (some (f x))
  | none => s

/-- State blocks (R164). -/
def Shard.blocks (x : Shard) : Nat := (x.params + 1023) / 1024

/-- Bytes of the image: all blocks in ascending order (R187). -/
def Shard.imageBytes (x : Shard) : Nat := x.blocks * x.blockBytes

def Shard.blockAddr (x : Shard) (b : Nat) : Nat := x.dockBase + b * x.blockBytes

/-- Whether a byte of the image is one of an unused parameter slot of the final block, which stays zero (R164). -/
def Shard.unused (x : Shard) (off : Nat) : Bool :=
  off % x.blockBytes < 4096 * x.planes && x.params ≤ 1024 * (off / x.blockBytes) + off % x.blockBytes % 4096 / 4

/-- Bytes of the image from an offset on, with zeros in unused parameter slots. -/
def Shard.trim (x : Shard) (off : Nat) (bs : List Byte) : List Byte :=
  (bs.zipIdx).map fun y => if x.unused (off + y.2) then 0 else y.1

/-- The block digest table follows the last state block (R213). -/
def Shard.tableAddr (x : Shard) (b : Nat) : Nat := x.dockBase + x.imageBytes + 8 * b

/-- State and table as one range (R213). -/
def Shard.range (x : Shard) : Nat × Nat := (x.dockBase, x.imageBytes + roundUp (8 * x.blocks) 4096)

/-- Whether two byte ranges share a byte. -/
def rangesMeet (a b : Nat × Nat) : Bool := a.1 < b.1 + b.2 && b.1 < a.1 + a.2 && a.2 ≠ 0 && b.2 ≠ 0

/-- The lowest place for `len` bytes from `base` up to `limit` that meets none of the ranges in use, at `base` or at the end of one of
them, rounded up to `al`. -/
def lowestGap (base limit len al : Nat) (used : List (Nat × Nat)) : Option Nat :=
  let fits (a : Nat) : Bool := a + len ≤ limit && used.all fun u => !rangesMeet (a, len) u
  ((base :: used.map fun u => roundUp (u.1 + u.2) al).filter fits).foldl (fun b a => some (min a (b.getD a))) none

/-- Whether a Dock range touches a shard of a state at least `st`. -/
def State.onShard (s : State) (st : Nat) (r : Nat × Nat) : Bool :=
  s.bh.shards.any fun x => match x.2 with
    | some y => st ≤ s.shardState x.1 && rangesMeet r y.range
    | none => false

/-- Whether a Dock line lies in the HYPER block of a shard, which may be written at all times (R166). -/
def State.onHyper (s : State) (line : Nat) : Bool :=
  s.bh.shards.any fun x => match x.2 with
    | some y => rangesMeet (64 * line, 64) (y.hyper, 256)
    | none => false

/-- Whether a Dock range touches a shard in state LOADING or LIVE that R166 protects there. -/
def State.protects (s : State) (a n : Nat) : Bool :=
  s.onShard Sh.loading (a, n) && (linesOf a n).any fun l => s.onShard Sh.loading (64 * l, 64) && !s.onHyper l

/-- The Mooring that names a shard. -/
def State.shardMoor (s : State) (n : Nat) : Option Nat :=
  (s.mo.ctx.find? fun x => s.ctxState x.1 ≠ Cs.free && match x.2 with | some c => c.shard = n | none => false).map (·.1)

/-- The committed epoch. -/
def State.committed (s : State) (n : Nat) : Nat := s.get F.BH_SH_EPOCH_COMMITTED [n]

/-- A shard's registers brought up to date. -/
def State.showShard (s : State) (n : Nat) : State :=
  let m := s.shardMoor n
  let s := (s.put F.BH_SH_STATE_MOORING [n] (m.getD 0)).put F.BH_SH_STATE_MOORING_VALID [n] m.isSome.toNat
  match s.shard n with
  | none => (s.wr .BH_SH_EPOCH [n] 0).put F.BH_SH_PROG_DONE [n] 0
  | some x =>
    let s := (s.put F.BH_SH_STATE_OPTIMIZER [n] x.optimizer).put F.BH_SH_STATE_DURABLE [n] (x.durable = some (s.committed n) : Bool).toNat
    let s := (s.put F.BH_SH_STATE_K [n] ((x.stripe.map (·.k)).getD 0)).put F.BH_SH_STATE_M [n] ((x.stripe.map (·.m)).getD 0)
    let s := s.put F.BH_SH_EPOCH_DURABLE_EPOCH [n] (x.durable.getD 0)
    let s := (s.put F.BH_SH_EPOCH_SLOT_A [n] ((x.slotA.map (·.epoch)).getD 0)).put F.BH_SH_EPOCH_SLOT_B [n] ((x.slotB.map (·.epoch)).getD 0)
    match x.freeze with
    | some f => s.put F.BH_SH_PROG_DONE [n] (f.next + (f.ahead.filter (f.next ≤ ·)).length)
    | none => s

/-- BH_STATUS brought up to date. -/
def State.showShards (s : State) : State :=
  let ns := s.bh.shards.map (·.1)
  let count (f : Nat → Bool) : Nat := (ns.filter f).length
  let s' := (s.put F.BH_STATUS_LIVE [] (count fun n => s.shardState n = Sh.live)).put F.BH_STATUS_LOADING []
    (count fun n => s.shardState n = Sh.loading)
  (s'.put F.BH_STATUS_COPYING [] (count fun n => match s.shard n with | some x => x.freeze.any (·.committed) | none => false)).put
    F.BH_STATUS_HELD [] (count fun n => s.get F.BH_SH_FAULT_HOLD [n] = 1)

/-- A shard's state moves. -/
def State.setShardState (s : State) (n st : Nat) : State := ((s.put F.BH_SH_STATE_STATE [n] st).showShard n).showShards

/-! ### Blocks and digests (R151, R176, R182) -/

/-- A block read from Dock, as the Boathouse reads it (source 1 of DK_ERR_LAST). -/
def State.readBlock (s : State) (x : Shard) (b : Nat) : State × Except Nat (List Byte) :=
  s.dockRead 1 (x.blockAddr b) x.blockBytes

/-- A block written with its entry of the block digest table. -/
def State.writeBlock (s : State) (x : Shard) (b : Nat) (bs : List Byte) : State :=
  (s.dockWrite (x.blockAddr b) bs).dockWrite (x.tableAddr b) (wordBytes (granuleDigest bs))

/-- The shard digest of R182 over a block digest table. -/
def shardDigest (bdt : List Word64) (epoch params : Nat) : Word64 :=
  mix (bdt.foldl (fun d w => mix (d ^^^ w)) 0 ^^^ BitVec.ofNat 64 (epoch * 2 ^ 48 ||| params))

/-- Words of eight bytes in a byte list. -/
def wordsOf8 (bs : List Byte) : List Word64 := (chunks 8 (bs.length / 8) bs).map fun w => BitVec.ofNat 64 (leNat w)

/-! ### Copy slots (R184) -/

/-- Bytes of a copy's label: epoch, SDIGEST, manifest entry, block digest table. -/
def Shard.labelLen (x : Shard) : Nat := 16 + 64 + 8 * x.blocks

/-- The Warehouse address of a copy slot. -/
def Shard.slotAddr (x : Shard) (slot : Nat) : Nat := x.whBase + slot * x.slotLen

def Shard.copySlot (x : Shard) (slot : Nat) : Option CopySlot := if slot = 0 then x.slotA else x.slotB

def Shard.setCopySlot (x : Shard) (slot : Nat) (c : Option CopySlot) : Shard :=
  if slot = 0 then { x with slotA := c } else { x with slotB := c }

/-- The slot that does not hold the newest durable epoch and is not kept by R196. -/
def Shard.freeSlot (x : Shard) : Option Nat :=
  [0, 1].find? fun i => x.heldSlot ≠ some i && !(x.durable.isSome && (x.copySlot i).map (·.epoch) = x.durable)

/-- A copy slot, where there is one, holds no epoch. -/
def Shard.clearSlot (x : Shard) (slot : Option Nat) : Shard :=
  match slot with
  | some i => x.setCopySlot i none
  | none => x

/-- A block of a Stow stream in the Warehouse, none where it is damaged or cannot be read (R219, R224). -/
def State.stowAt (s : State) (a b : Nat) : State × Option (List Byte) :=
  match s.whRead a 64 with
  | (s, .error _) => (s, none)
  | (s, .ok h) =>
    match s.whRead (a + 64) (8 * (stowFields h).2.1) with
    | (s, .error _) => (s, none)
    | (s, .ok i) =>
      match stowFrame (h ++ i) b with
      | none => (s, none)
      | some (off, len, mode, n) =>
        match s.whRead (a + off) len with
        | (s, .error _) => (s, none)
        | (s, .ok fr) => (s, unstowBlock mode n fr)

/-- The slot that holds an epoch. -/
def Shard.slotOf (x : Shard) (epoch : Nat) : Option Nat :=
  if x.slotA.any (·.epoch = epoch) then some 0 else if x.slotB.any (·.epoch = epoch) then some 1 else none

/-- A block as Dock holds it, where it has the digest it must have. -/
def State.dockBlock (s : State) (x : Shard) (want : Word64) (b : Nat) : State × Option (List Byte) :=
  match s.readBlock x b with
  | (s, .ok bs) => (s, if granuleDigest bs = want then some bs else none)
  | (s, .error _) => (s, none)

/-- A block as the Warehouse copy of an epoch holds it, where it has the digest it must have. -/
def State.copyBlockOf (s : State) (x : Shard) (epoch : Nat) (want : Word64) (b : Nat) : State × Option (List Byte) :=
  match x.slotOf epoch with
  | none => (s, none)
  | some sl =>
    match s.stowAt (x.slotAddr sl) b with
    | (s, some bs) => (s, if granuleDigest bs = want then some bs else none)
    | (s, none) => (s, none)

/-- A block of an epoch from Dock or else from the Warehouse copy. -/
def State.epochBlock (s : State) (x : Shard) (epoch : Nat) (want : Word64) (b : Nat) : State × Option (List Byte) :=
  match s.dockBlock x want b with
  | (s, some bs) => (s, some bs)
  | (s, none) => s.copyBlockOf x epoch want b

/-! ### Durability (R184, R185) -/

/-- The durable event of a commit takes FAIL, where it has one. -/
def State.durableFail (s : State) (f : Freeze) : State :=
  match f.event with
  | some e => s.evFailTo e true
  | none => s

/-- Durability of a shard's frozen epoch fails (R185): the copying stops, R26 ends for it, the slot being written holds no
epoch; the event takes FAIL once the epoch is committed. -/
def State.failDurability (s : State) (n : Nat) : State :=
  match (s.shard n).bind (·.freeze) with
  | none => s
  | some f =>
    let s := s.mapShard n fun x => { x.clearSlot f.slot with
      freeze := if f.committed then none else some { f with refused := true } }
    let s := if f.committed && !f.refused then s.durableFail f else s
    (s.showShard n).showShards

/-- The local copy of a shard cannot complete. -/
def State.copyFail (s : State) (n : Nat) : State := (s.put F.BH_SH_FAULT_COPY_FAIL [n] 1).failDurability n

/-! ### Copying a block (R26, R184) -/

/-- Whether a frozen block has been copied. -/
def Freeze.copied (f : Freeze) (b : Nat) : Bool := b < f.next || f.ahead.contains b

/-- One frozen block copied into the slot and kept for the fragment encoder; a block that fails ends durability. -/
def State.copyBlock (s : State) (n b : Nat) : State :=
  match s.shard n with
  | none => s
  | some x =>
    match x.freeze with
    | none => s
    | some f =>
      if f.copied b || f.refused then s
      else if !s.whReady || f.slot.isNone then s.copyFail n
      else
        match s.readBlock x b with
        | (s, .error _) => s.copyFail n
        | (s, .ok bs) =>
          if granuleDigest bs ≠ (f.bdt[b]?).getD 0 then s.copyFail n
          else
            let (mode, frame) := stowBlock false bs
            let at_ := x.slotAddr (f.slot.getD 0)
            let off := stowData x.blocks x.labelLen + b * x.blockBytes
            let s := (s.whWrite (at_ + off) frame).whWrite (at_ + 0x40 + 8 * b) (leBytes (stowEntry off frame.length mode) 8)
            let s := ((s.tally 0x42 bs.length).tally 0x43 frame.length).tally 0x51
            let s := s.mapShard n fun x => { x with freeze := some { f with
              ahead := b :: f.ahead, encoder := if f.stripe.isSome then spIns f.encoder b bs else f.encoder } }
            s.showShard n

/-- Before a block of a frozen epoch is overwritten it is copied (R26). -/
def State.copyAhead (s : State) (n b : Nat) : State :=
  match (s.shard n).bind (·.freeze) with
  | some f => if f.refused then s else s.copyBlock n b
  | none => s

/-! ### Boathouse packets (R188, R235) -/

namespace Bt
def announce : Nat := 0
def ack : Nat := 1
def frag : Nat := 2
def fack : Nat := 3
def fget : Nat := 4
def chunk : Nat := 5
def gap : Nat := 6
def done : Nat := 7
end Bt

def BhExt.bytes (x : BhExt) : List Byte :=
  leBytes (x.btype + x.job * 2 ^ 4 + x.shard * 2 ^ 16 + x.epoch * 2 ^ 32 + x.fidx * 2 ^ 48 + x.code * 2 ^ 56) 8
    ++ leBytes (x.seq + x.len * 2 ^ 40) 8 ++ wordBytes x.digest ++ wordBytes x.sdigest

def parseBh (bs : List Byte) : BhExt :=
  let w (i : Nat) : Word64 := word64At bs (8 * i)
  ⟨bits (w 0) 0 4, bits (w 0) 4 12, bits (w 0) 16 16, bits (w 0) 32 16, bits (w 0) 48 5, bits (w 0) 56 8,
    bits (w 1) 0 40, bits (w 1) 40 13, w 2, w 3⟩

/-- The job tag of an endpoint's peer table entry (R188). -/
def State.peerJob (s : State) (ep : Nat) : Option Nat :=
  ((List.range 256).find? fun k => s.cget F.BH_PEER_VALID [k] = 1 && s.cget F.BH_PEER_ENDPOINT [k] = ep).map fun k =>
    s.cget F.BH_PEER_JOB [k]

/-- A Boathouse packet to a peer. Its traffic class is a free value: the specification names none. -/
def State.sendBh (s : State) (ep : Nat) (x : BhExt) (payload : List Byte) : State :=
  let job := (s.peerJob ep).getD 0
  let (r, s) := s.fresh
  let x := { x with job := job, len := payload.length, digest := if payload.isEmpty then x.digest else granuleDigest payload }
  let (pkt, s) := s.build 2 (r.toNat % 16) ep job (2 ^ 15 + x.shard % 4096) (x.bytes ++ payload)
  s.sendTo pkt

/-! ### Answers (R190) -/

/-- Whether a packet awaits the same answer as another: a peer answers chunks of a broadcast as they come, whichever. -/
def Await.same (a : Await) (ep : Nat) (x : BhExt) : Bool :=
  a.endpoint = ep && a.ext.btype = x.btype && a.ext.shard = x.shard && a.ext.epoch = x.epoch && a.ext.fidx = x.fidx
    && (x.btype = Bt.chunk || a.ext.seq = x.seq)

/-- A Boathouse packet that its peer is to answer. -/
def State.askBh (s : State) (ep : Nat) (x : BhExt) (payload : List Byte) : State :=
  let s := s.sendBh ep x payload
  if s.bh.awaits.any (·.same ep x) then s
  else { s with bh := { s.bh with awaits := s.bh.awaits ++ [⟨ep, x, payload, s.now, 1⟩] } }

/-- Whether a packet that came is the answer to one that was sent: ACK to ANNOUNCE, FACK to the last row of a fragment or to
FGET, FRAG to FGET, DONE or GAP to CHUNK. -/
def Await.answeredBy (a : Await) (src : Nat) (x : BhExt) : Bool :=
  a.endpoint = src && a.ext.shard = x.shard && a.ext.epoch = x.epoch &&
    ((a.ext.btype = Bt.announce && x.btype = Bt.ack && a.ext.fidx = x.fidx)
      || (a.ext.btype = Bt.frag && x.btype = Bt.fack && a.ext.fidx = x.fidx && (x.code ≠ 0 || a.ext.seq < x.seq))
      || (a.ext.btype = Bt.fget && a.ext.fidx = x.fidx && ((x.btype = Bt.frag && a.ext.seq = x.seq) || (x.btype = Bt.fack && x.code ≠ 0)))
      || (a.ext.btype = Bt.chunk && (x.btype = Bt.done || x.btype = Bt.gap)))

/-- A peer's packet has come: what it answers is awaited no longer. -/
def State.answered (s : State) (src : Nat) (x : BhExt) : State :=
  { s with bh := { s.bh with awaits := s.bh.awaits.filter fun a => !a.answeredBy src x } }

end Sys2Proof.Machine
end

