-- ==== Sys2Proof/Machine/Tensor.lean ====
section
/-! DEFINITION. The tensor instructions of Beloc (R34 to R39, R75 to R77): one meaning per row, the drain of a product, and
the arrays' activity levels. -/

namespace Sys2Proof.Machine

open Host (Outcome)

/-! ### Panels (R75) -/

/-- The formats that MMA accepts (R76). -/
def mmaFmt (fmt : BitVec 4) : Option Fmt :=
  match Fmt.ofCode fmt.toNat with
  | some f => if f = .bf16 || f = .fp16 || f = .int8 || f.isMx then some f else none
  | none => none

/-- Element bytes of a panel of width `w` and `k` steps. -/
def panelElems (f : Fmt) (w k : Nat) : Nat := (w * k * f.width + 7) / 8

/-- Bytes of a panel, with the scales of an MX format. -/
def panelLen (f : Fmt) (w k : Nat) : Nat :=
  if f.isMx then roundUp (panelElems f w k) 64 + w * ((k + 31) / 32) else panelElems f w k

/-- The code of element (k, i). -/
def panelCode (f : Fmt) (w : Nat) (bs : List Byte) (k i : Nat) : Nat := elemAt bs f.width (k * w + i)

/-- The scale byte of block `b` and row `i`. -/
def panelScale (f : Fmt) (w steps : Nat) (bs : List Byte) (b i : Nat) : Nat :=
  ((bs[roundUp (panelElems f w steps) 64 + w * b + i]?).getD 0).toNat

/-! ### One cell (R34, R35, R76) -/

/-- BF16 and FP16: fused multiply-adds in ascending k. -/
def cellFma (f : Fmt) (w k : Nat) (as bs : List Byte) (i j x : Nat) : Nat :=
  (List.range k).foldl (fun x t =>
    roundIeee .fp32 .rne (((decodeVal f (panelCode f w as t i)).mul (decodeVal f (panelCode f w bs t j))).add
      (decodeVal .fp32 x))) x

/-- INT8: modulo 2^32. -/
def cellInt (w k : Nat) (as bs : List Byte) (i j x : Nat) : Nat :=
  (List.range k).foldl (fun x t =>
    let a := (BitVec.ofNat 8 (panelCode .int8 w as t i)).signExtend 32
    let b := (BitVec.ofNat 8 (panelCode .int8 w bs t j)).signExtend 32
    (BitVec.ofNat 32 x + a * b).toNat) x

/-- The exact sum of a block's products at the two scales; NaN where a scale is. -/
def mxBlockSum (f : Fmt) (w k : Nat) (as bs : List Byte) (b i j : Nat) : Val :=
  let sa := panelScale f w k as b i
  let sb := panelScale f w k bs b j
  if sa = 0xFF || sb = 0xFF then .nan
  else
    ((List.range (min 32 (k - 32 * b))).foldl (fun (v : Val) t =>
      v.add ((decodeVal f (panelCode f w as (32 * b + t) i)).mul (decodeVal f (panelCode f w bs (32 * b + t) j))))
      (.fin false 0 0)).scale ((sa : Int) + sb - 254)

/-- MX formats: one rounding per block. -/
def cellMx (f : Fmt) (w k : Nat) (as bs : List Byte) (i j x : Nat) : Nat :=
  (List.range ((k + 31) / 32)).foldl (fun x b =>
    roundIeee .fp32 .rne ((decodeVal .fp32 x).add (mxBlockSum f w k as bs b i j))) x

/-- A cell's sum after the product, from its sum before. -/
def cellSum (f : Fmt) (w k : Nat) (as bs : List Byte) (i j x : Nat) : Nat :=
  if f = .int8 then cellInt w k as bs i j x
  else if f.isMx then cellMx f w k as bs i j x
  else cellFma f w k as bs i j x

/-- The cells of a product, by 32 x row + column of the tile. -/
def Pav.productCells (p : Pav) (td : Nat) (acc split : Bool) (quad : Nat) (f : Fmt) (k : Nat) (as bs : List Byte) : Sp Word32 :=
  let w := if split then 16 else 32
  let r0 := if split then 16 * (quad / 2) else 0
  let c0 := if split then 16 * (quad % 2) else 0
  (List.range w).flatMap fun i => (List.range w).map fun j =>
    (32 * (r0 + i) + c0 + j,
      BitVec.ofNat 32 (cellSum f w k as bs i j (if acc then (p.cell td (r0 + i) (c0 + j)).toNat else 0)))

/-! ### Activity levels (R39) -/

def levelFld (array : Nat) : Fld := if array = 0 then F.PV_RUN_LEVEL0 else F.PV_RUN_LEVEL1
def splitFld (array : Nat) : Fld := if array = 0 then F.PV_RUN_SPLIT0 else F.PV_RUN_SPLIT1

/-- An array's level moves. -/
def State.setLevel (s : State) (n array l : Nat) : State :=
  (s.put (levelFld array) [n] l).mapPav n fun p => { p with ramp := spPut 0 p.ramp array s.pvc }

/-- Operands presented to an array up to the pvc cycle `till`: one at level 0 comes to level 1. -/
def State.present (s : State) (n array till : Nat) : State :=
  let s := s.mapPav n fun p => { p with shown := spPut 0 p.shown array till }
  if s.get (levelFld array) [n] = 0 then s.setLevel n array 1 else s

/-- Whether an operand is being presented to an array: a product is outstanding on it, or a warm-up lasts. -/
def State.presented (s : State) (n array : Nat) : Bool :=
  let p := s.pav n
  !(p.products array).isEmpty || s.pvc < spGet 0 p.shown array

/-! ### The instructions -/

/-- Whether an outstanding product will write cells of a quadrant of a tile, or, for a whole tile, any of it. -/
def Pav.quadBusy (p : Pav) (t : Nat) (split : Bool) (quad : Nat) : Bool :=
  p.out.any fun o => match o.op with
    | .product _ td sp q _ => td = t && (!split || !sp || q = quad)
    | _ => false

/-- Which tagged fault a panel meets: TILE_RANGE where it reaches beyond tile memory, else TILE_UNCORR. -/
def Pav.panelFault (p : Pav) (a len : Nat) : Option (Nat × Nat) :=
  if len = 0 then none
  else if a + len > tileSize then some (Fc.tileRange, max a tileSize)
  else (p.badWord a len).map fun w => (Fc.tileUncorr, 8 * w)

/-- MMA (R76). Which flags of FSTAT the products set is a free value. -/
def execMma (pav : Nat) (g : Guard) (td : BitVec 3) (acc split array : Bool) (quad : BitVec 2) (fmt : BitVec 4)
    (ra rb rk rt : BitVec 5) (s : State) : Out :=
  .next (s.beloc pav g 0x60 8 fun p _ =>
    let k := (p.reg rk).toNat
    let a := (p.reg ra).toNat
    let b := (p.reg rb).toNat
    let w := if split then 16 else 32
    match mmaFmt fmt with
    | none => .fault s Fc.illegal 0
    | some f =>
      let len := panelLen f w k
      if k > 65535 || (quad ≠ 0 && !split) then .fault s Fc.illegal 0
      else if a % 64 ≠ 0 then .fault s Fc.misaligned a
      else if b % 64 ≠ 0 then .fault s Fc.misaligned b
      else if (p.products array.toNat).length ≥ 4 || p.tagBusy || p.rangeBusy a len || p.rangeBusy b len
          || p.quadBusy td.toNat split quad.toNat
          || (!split && (p.products array.toNat).any fun o => match o.op with | .product _ _ sp _ _ => sp | _ => false) then .stall
      else
        let s := (s.countTile pav a (min len (tileSize - a))).countTile pav b (min len (tileSize - b))
        let bad := (p.panelFault a len).orElse fun _ => p.panelFault b len
        let cells := if bad.isSome then [] else p.productCells td.toNat acc split quad.toNat f k (p.bytes a len) (p.bytes b len)
        let (r, s) := s.fresh
        let q := p.takeTag rt (some (.product array.toNat td.toNat split quad.toNat cells)) bad
        let s := (s.setPav pav { q with fstat := q.fstat ||| (r.toNat % 32) }).present pav array.toNat s.pvc
        .done (s.put (splitFld array.toNat) [pav] split.toNat) p.nextTag a)

/-- TPF (R76): operands count as presented for at most 256 pvc cycles. -/
def execTpf (pav : Nat) (g : Guard) (array : Bool) (rt : BitVec 5) (s : State) : Out :=
  .next (s.beloc pav g 0x61 8 fun p _ =>
    if p.tagBusy then .stall
    else .done ((s.setPav pav (p.takeTag rt none none)).present pav array.toNat (s.pvc + 256)) p.nextTag 0)

/-- TST (R76). -/
def execTst (pav : Nat) (g : Guard) (td : BitVec 3) (ra rt : BitVec 5) (s : State) : Out :=
  .next (s.beloc pav g 0x62 8 fun p _ =>
    let a := (p.reg ra).toNat
    if a % 64 ≠ 0 then .fault s Fc.misaligned a
    else if p.tagBusy || p.tileBusy td.toNat || p.rangeBusy a 4096 then .stall
    else
      let s := s.setPav pav (p.takeTag rt none none)
      if a + 4096 > tileSize then .tagged s p.nextTag Fc.tileRange (max a tileSize)
      else .done (s.tileStore pav a ((List.range 1024).flatMap fun i =>
        leBytes (p.cell td.toNat (i / 32) (i % 32)).toNat 4)) p.nextTag a)

/-- TLD (R76). -/
def execTld (pav : Nat) (g : Guard) (td : BitVec 3) (ra rt : BitVec 5) (s : State) : Out :=
  .next (s.beloc pav g 0x63 8 fun p _ =>
    let a := (p.reg ra).toNat
    if a % 64 ≠ 0 then .fault s Fc.misaligned a
    else if p.tagBusy || p.tileBusy td.toNat || p.rangeBusy a 4096 then .stall
    else
      let q := p.takeTag rt none none
      if a + 4096 > tileSize then .tagged (s.setPav pav q) p.nextTag Fc.tileRange (max a tileSize)
      else
        let s := s.countTile pav a 4096
        match p.badWord a 4096 with
        | some w => .tagged (s.setPav pav q) p.nextTag Fc.tileUncorr (8 * w)
        | none =>
          let bs := p.bytes a 4096
          .done (s.setPav pav ((List.range 1024).foldl (fun q i =>
            q.setCell td.toNat (i / 32) (i % 32) (BitVec.ofNat 32 (natAt bs (4 * i) 4))) q)) p.nextTag a)

/-! ### The events of the arrays -/

/-- The outstanding instruction that holds a tag. -/
def Pav.outst (p : Pav) (tag : Nat) : Option Outst := p.out.find? fun o => o.tag = tag

/-- An instruction is no longer outstanding. -/
def State.dropOut (s : State) (n tag : Nat) : State :=
  s.mapPav n fun p => { p with out := p.out.filter fun o => o.tag ≠ tag }

/-- A tagged fault is reported as its instruction leaves. -/
def State.faultOut (s : State) (n : Nat) (o : Outst) (cls addr : Nat) : State :=
  ((s.dropOut n o.tag).sampleOut o true).raiseFault n cls o.tag o.pc addr

/-- PRODUCT_DRAIN (R36, R76): the product of a tag drains into its tile, or its fault is reported. -/
def execProductDrain (pav tag : Nat) (s : State) : Out :=
  .next <|
    match (s.pav pav).outst tag with
    | none => s
    | some o =>
      match o.op with
      | .product array td _ _ cells =>
        match o.bad with
        | some (cls, addr) => s.faultOut pav o cls addr
        | none =>
          let s := (s.dropOut pav tag).sampleOut o false
          let s := s.mapPav pav fun p =>
            { p with t := cells.foldl (fun m c => spPut 0 m (1024 * td + c.1) c.2) p.t }
          if s.pvc < spGet 0 (s.pav pav).shown array then s
          else s.mapPav pav fun p => { p with shown := spPut 0 p.shown array s.pvc }
      | _ => s

/-- ARRAY_RAMP_UP (R39): while operands keep coming the level rises by one every 8 pvc cycles. -/
def execArrayRampUp (pav : Nat) (array : Bool) (s : State) : Out :=
  .next <|
    let l := s.get (levelFld array.toNat) [pav]
    if l < 4 && s.presented pav array.toNat && (l = 0 || spGet 0 (s.pav pav).ramp array.toNat + 8 ≤ s.pvc) then
      s.setLevel pav array.toNat (l + 1)
    else s

/-- ARRAY_RAMP_DOWN (R39): with no operand for 8 pvc cycles the level falls by one every 8 pvc cycles. -/
def execArrayRampDown (pav : Nat) (array : Bool) (s : State) : Out :=
  .next <|
    let l := s.get (levelFld array.toNat) [pav]
    if 0 < l && !s.presented pav array.toNat && spGet 0 (s.pav pav).shown array.toNat + 8 ≤ s.pvc
        && spGet 0 (s.pav pav).ramp array.toNat + 8 ≤ s.pvc then
      s.setLevel pav array.toNat (l - 1)
    else s

end Sys2Proof.Machine
end

