-- ==== Sys2Proof/Machine/Transfer.lean ====
section
/-! DEFINITION. Transfers and multicast (R62, R63, R78 to R82), and how they complete (R351 to R354). -/

namespace Sys2Proof.Machine

open Host (Outcome)

/-! ### Transfer addresses (R63) -/

def xferSeg (a : Word64) : Nat := bits a 61 3
def xferOff (a : Word64) : Nat := bits a 0 48

def Kern.seg (k : Kern) (i : Nat) : Seg := (k.segs[i]?).getD ⟨0, 0, false, false, 0⟩

/-- The address in its space that a transfer address names. -/
def Kern.place (k : Kern) (a : Word64) : Nat := (k.seg (xferSeg a)).base + xferOff a

/-- Whether a transfer of `len` bytes is allowed. -/
def Kern.allowed (k : Kern) (a : Word64) (len : Nat) (write : Bool) : Bool :=
  let g := k.seg (xferSeg a)
  bits a 48 13 = 0 && (if write then g.write else g.read) && xferOff a + len ≤ g.len

/-- Whether a write through an address is staged (R80). -/
def Kern.stages (k : Kern) (a : Word64) : Bool := k.bound && xferSeg a ≤ 1

/-- Whether two transfers touch a common byte of a common space. -/
def Kern.sameRange (k : Kern) (a : Word64) (n : Nat) (b : Word64) (m : Nat) : Bool :=
  (k.seg (xferSeg a)).space = (k.seg (xferSeg b)).space && overlaps (k.place a) n (k.place b) m

/-! ### Slipway as transfers see it -/

/-- The bytes that a kernel's staged writes leave of `bs` at offset `off` of a segment. -/
def Kern.overlay (k : Kern) (seg off : Nat) (bs : List Byte) : List Byte :=
  k.staged.foldl (fun bs w =>
    if w.1 = seg then (bs.zipIdx).map fun x =>
      let a := off + x.2
      if w.2.1 ≤ a && a < w.2.1 + w.2.2.length then (w.2.2[a - w.2.1]?).getD x.1 else x.1
    else bs) bs

/-- Slipway as a segment of SPACE 1 reaches it. -/
def State.slipRead (s : State) (a n : Nat) : List Byte :=
  (List.range n).map fun i => match s.pv.slip.find? fun c => c.1 = a + i with
    | some c => c.2
    | none => Config.slipByte (a + i)

def State.slipWrite (s : State) (a : Nat) (bs : List Byte) : State :=
  { s with pv := { s.pv with slip := (bs.zipIdx).foldl (fun m x => spIns m (a + x.2) x.1) s.pv.slip } }

/-- The parcel's output area that segment 0 of a bound kernel is. -/
def State.areaRead (s : State) (k : Kern) (a n : Nat) : List Byte :=
  let out : Sp Byte := match (s.coll? k.ring k.seq).bind fun c => c.live.find? fun p => p.k = k.parcel with
    | some p => p.outBytes
    | none => []
  (List.range n).map fun i => match out.find? fun c => c.1 = a + i with
    | some c => c.2
    | none => Config.slipByte (a + i)

/-- What a transfer in brings, or the offset of the line that could not be corrected. -/
def State.fetch (s : State) (k : Kern) (a : Word64) (n : Nat) (bad : Bool) : State × Except Nat (List Byte) :=
  let sp := (k.seg (xferSeg a)).space
  if k.bound && xferSeg a = 0 then
    (s, if bad then .error 0 else .ok (k.overlay 0 (xferOff a) (s.areaRead k (xferOff a) n)))
  else if sp = 1 then (s, if bad then .error 0 else .ok (s.slipRead (k.place a) n))
  else
    match s.memRead 0 sp (k.place a) n with
    | (s, .error o) => (s, .error o)
    | (s, .ok bs) => (s, if bad then .error 0 else .ok (if k.stages a then k.overlay (xferSeg a) (xferOff a) bs else bs))

/-! ### The instructions -/

/-- The checks that XLD and XST share (R78): a zero length completes at once; then `f` issues. -/
def State.transfer (s : State) (n : Nat) (p : Pav) (rt rl rm ra : BitVec 5) (f : Nat → Nat → Word64 → Res) : Res :=
  let len := (p.reg rl).toNat
  let t := (p.reg rm).toNat
  let a := p.reg ra
  if len > 524288 then .fault s Fc.illegal 0
  else if len ≠ 0 && (len % 64 ≠ 0 || t % 64 ≠ 0) then .fault s Fc.misaligned t
  else if len ≠ 0 && xferOff a % 64 ≠ 0 then .fault s Fc.misaligned a.toNat
  else if p.transfers ≥ 32 || p.tagBusy || p.rangeBusy t len then .stall
  else if len = 0 then .done (s.setPav n (p.takeTag rt none none)) p.nextTag 0
  else f len t a

/-- XLD (R78). -/
def execXld (pav : Nat) (g : Guard) (rt rl rm ra : BitVec 5) (s : State) : Out :=
  .next (s.beloc pav g 0x68 8 fun p k =>
    s.transfer pav p rt rl rm ra fun len t a =>
      let bad := if t + len > tileSize then some (Fc.tileRange, max t tileSize)
        else if !k.allowed a len false then some (Fc.denied, k.place a) else none
      .done (s.setPav pav (p.takeTag rt (some (.xld a t len)) bad)) p.nextTag a.toNat)

/-- XST (R78, R80): it reads tile memory in program order; a bound kernel's write to segment 0 or 1 is staged. -/
def execXst (pav : Nat) (g : Guard) (rt rl rm ra : BitVec 5) (s : State) : Out :=
  .next (s.beloc pav g 0x69 8 fun p k =>
    s.transfer pav p rt rl rm ra fun len t a =>
      let s := s.countTile pav t (min len (tileSize - t))
      let bad := if t + len > tileSize then some (Fc.tileRange, max t tileSize)
        else if !k.allowed a len true then some (Fc.denied, k.place a)
        else (p.badWord t len).map fun w => (Fc.tileUncorr, 8 * w)
      let bs := if bad.isSome then [] else p.bytes t len
      let q := p.takeTag rt (some (.xst a bs)) bad
      let q := if bad.isNone && k.stages a then
          { q with kern := some { k with staged := k.staged ++ [(xferSeg a, xferOff a, bs)] } } else q
      .done (s.setPav pav q) p.nextTag a.toNat)

/-- The receivers of a multicast: the others of the group in the sender's mesh row or column (R81). -/
def State.receivers (s : State) (n : Nat) (k : Kern) (dir : Bool) : List Nat :=
  let f := if dir then F.PV_SITE_COL else F.PV_SITE_ROW
  k.group.filter fun m => m ≠ n && s.get f [m] = s.get f [n]

/-- Whether a destination range meets the arrival window or the parcel block of a bound kernel (R81). -/
def Kern.reserved (k : Kern) (d len : Nat) : Bool :=
  k.bound && (overlaps d len k.arrwBase (4096 * k.arrwSlots) || overlaps d len 0x7FC00 0x400)

/-- PMC (R81). -/
def execPmc (pav : Nat) (g : Guard) (dir : Bool) (rt rl rm rd : BitVec 5) (s : State) : Out :=
  .next (s.beloc pav g 0x70 8 fun p k =>
    let len := (p.reg rl).toNat
    let t := (p.reg rm).toNat
    let d := (p.reg rd).toNat
    if len > 65536 then .fault s Fc.illegal 0
    else if len % 64 ≠ 0 || t % 64 ≠ 0 then .fault s Fc.misaligned t
    else if d % 64 ≠ 0 then .fault s Fc.misaligned d
    else if p.transfers ≥ 32 || p.tagBusy || p.rangeBusy t len then .stall
    else
      let s := s.countTile pav t (min len (tileSize - t))
      let bad := if len = 0 then none
        else if t + len > tileSize then some (Fc.tileRange, max t tileSize)
        else if d + len > tileSize then some (Fc.tileRange, max d tileSize)
        else if k.reserved d len then some (Fc.tileRange, d)
        else (p.badWord t len).map fun w => (Fc.tileUncorr, 8 * w)
      let rs := s.receivers pav k dir
      if bad.isNone && rs.isEmpty then .done (s.setPav pav (p.takeTag rt none none)) p.nextTag t
      else .done (s.setPav pav (p.takeTag rt (some (.pmc d (if bad.isSome then [] else p.bytes t len) rs)) bad)) p.nextTag t)

/-! ### Granule resets (R352) -/

/-- A granule of a live parcel is reset, or its fifth reset stops the command. -/
def State.granuleReset (s : State) (ring seq k e : Nat) : State :=
  match s.coll? ring seq with
  | none => s
  | some c =>
    let s := s.tally 0x23
    let g := s.granNo c k e
    let n := spGet 0 c.resets g
    if n ≥ 4 then s.stopColl ring seq St.dataError 0 none
    else
      let owner := (s.ctx c.moor).owner c.moor g (c.pseq k)
      let ks := s.kernsWhere fun x => x.bound && x.ring = ring && x.seq = seq && x.parcel = k
      let s := ks.foldl (fun s p => if p = owner then s.stopKern p else s) s
      let lo := s.offOf c k e
      let hi := lo + elemBytes c.outFmt (((s.granElems c k)[e]?).getD 0)
      let part := s.partBytes c k
      let inPart (off : Nat) : Nat := if c.reduces || part = 0 then off else off % part
      let s := (s.tally 0x24).mapColl ring seq fun c => { c with resets := spPut 0 c.resets g (n + 1) }
      let s := s.mapParcel ring seq k fun x => { x with
        arrivals := x.arrivals.filter fun a => a.entry ≠ e,
        outBytes := x.outBytes.filter fun b => !(lo ≤ inPart b.1 && inPart b.1 < hi),
        digests := spDel x.digests e,
        stateWrites := x.stateWrites.filter fun w => w.1 ≠ owner,
        doneBy := x.doneBy.erase owner }
      ((s.contributors c).filter fun i => !(s.ctx c.moor).fenced i).foldl (fun s i => s.sendRereq c k e i) s

/-- The granule entry of a bound kernel's output that an offset of segment 0 falls in. -/
def State.entryAt (s : State) (c : Coll) (k off : Nat) : Nat :=
  let n := (s.granLens c k).length
  let off := if s.partBytes c k = 0 || c.reduces then off else off % s.partBytes c k
  (((List.range n).filter fun e => s.offOf c k e ≤ off).getLast?).getD 0

/-! ### The events -/

/-- Whether an earlier outstanding transfer must take effect first (R79): one whose destination overlaps, or for a transfer
in, an earlier transfer out to the range it reads. -/
def Pav.mustWait (p : Pav) (k : Kern) (o : Outst) : Bool :=
  p.out.any fun q => q.no < o.no && q.bad.isNone &&
    match q.op, o.op with
    | .xst a bs, .xst b cs => k.sameRange a bs.length b cs.length
    | .xst a bs, .xld b _ n => k.sameRange a bs.length b n
    | .xld _ t n, .xld _ u m => overlaps t n u m
    | _, _ => false

/-- Whether an earlier parcel of a kernel's Mooring that has not passed its gate stages a write to a range of segment 1 (R170
step 2). -/
def State.stagedBefore (s : State) (k : Kern) (off n : Nat) : Bool :=
  match s.coll? k.ring k.seq with
  | none => false
  | some own =>
    s.mo.colls.any fun c => c.moor = k.moor && c.live.any fun x =>
      let d := (own.pseq k.parcel + 2 ^ 32 - c.pseq x.k) % 2 ^ 32
      let running := s.kernsWhere fun q => q.bound && q.ring = c.ring && q.seq = c.seq && q.parcel = x.k
      d ≠ 0 && d < 2 ^ 31
        && ((x.stateWrites.any fun w => overlaps off n w.2.1 w.2.2.length)
          || running.any fun p => match (s.pav p).kern with
              | some q => q.staged.any fun w => w.1 = 1 && overlaps off n w.2.1 w.2.2.length
              | none => false)

/-- TRANSFER_COMPLETE (R78, R79, R354): the transfer of a tag takes effect, or its fault is reported. `bad`: Slipway, or
the remote side, returns a word it cannot correct. -/
def execTransferComplete (pav tag : Nat) (bad : Bool) (s : State) : Out :=
  .next <|
    let p := s.pav pav
    match p.outst tag, p.kern with
    | some o, some k =>
      if p.mustWait k o then s
      else
        match o.bad, o.op with
        | _, .product .. => s
        | _, .pmc .. => s
        | some (cls, addr), _ => s.faultOut pav o cls addr
        | none, .xld a t n =>
          if k.bound && xferSeg a = 1 && s.stagedBefore k (xferOff a) n then s
          else
          match s.fetch k a n bad with
          | (s, .error off) =>
            if k.bound && xferSeg a = 0 then
              match s.coll? k.ring k.seq with
              | some c => ((s.dropOut pav tag).sampleOut o false).granuleReset k.ring k.seq k.parcel (s.entryAt c k.parcel (xferOff a))
              | none => s
            else s.faultOut pav o Fc.data (k.place a + off)
          | (s, .ok bs) => ((s.dropOut pav tag).sampleOut o false).tileStore pav t bs
        | none, .xst a bs =>
          if !k.stages a && (k.seg (xferSeg a)).space = 2 && s.protects (k.place a) bs.length then
            s.faultOut pav o Fc.denied (k.place a)
          else
          let s := (s.dropOut pav tag).sampleOut o false
          if k.stages a then s
          else if (k.seg (xferSeg a)).space = 1 then s.slipWrite (k.place a) bs
          else s.memWrite (k.seg (xferSeg a)).space (k.place a) bs
    | _, _ => s

/-- MULTICAST_ARRIVAL (R81, R82): the whole message of a sender's tag is written at one receiver, or its fault is reported
at the sender. -/
def execMulticastArrival (pav tag receiver : Nat) (s : State) : Out :=
  .next <|
    match (s.pav pav).outst tag with
    | none => s
    | some o =>
      match o.op, o.bad with
      | .pmc .., some (cls, addr) => s.faultOut pav o cls addr
      | .pmc t bs left, none =>
        if !left.contains receiver then s
        else
          let rest := left.erase receiver
          let s := if s.pvState receiver = Ps.faulted then s
            else (s.tileStore receiver t bs).mapPav receiver fun p => { p with mcnt := (p.mcnt + 1) % 2 ^ 64 }
          if rest.isEmpty then (s.dropOut pav tag).sampleOut o false
          else s.mapPav pav fun p => { p with out := p.out.map fun q =>
            if q.tag = tag then { q with op := .pmc t bs rest } else q }
      | _, _ => s

end Sys2Proof.Machine
end

