-- ==== Sys2Proof/Machine/Sync.lean ====
section
/-! DEFINITION. Synchronisation (R83, R84, R95): one meaning per row, and the event that ends a wait. -/

namespace Sys2Proof.Machine

open Host (Outcome)

/-! ### Arrival records (R84) -/

/-- The slot that the last ARRV returned is free again. -/
def Kern.freeSlot (k : Kern) : Kern := if k.holding then { k with inUse := k.inUse - 1, holding := false } else k

/-- Whether every owned granule of the parcel is complete and every record has been posted and popped. -/
def State.lastRecord (s : State) (k : Kern) : Bool :=
  k.codec.isSome ||
    (k.queue.isEmpty &&
      match s.coll? k.ring k.seq with
      | none => false
      | some c =>
        match c.live.find? fun p => p.k = k.parcel with
        | none => false
        | some x => k.entries.all fun e => s.entryDone c x e
            && (s.contributors c).all fun i => k.posted.contains (e, i))

/-- What ARRV gives where it need not wait: the Pavilion with both destinations written. -/
def State.popRecord (s : State) (p : Pav) (k : Kern) (rd re : BitVec 5) : Option Pav :=
  match k.queue with
  | r :: rest =>
    let k' := k.freeSlot
    some ((({ p with kern := some { k' with queue := rest, holding := true } }).setReg rd (BitVec.ofNat 64 r.addr)).setReg re
      (BitVec.ofNat 64 (r.len + r.member * 2 ^ 16 + r.entry * 2 ^ 32)))
  | [] =>
    if s.lastRecord k then
      some ((({ p with kern := some k.freeSlot }).setReg rd (BitVec.allOnes 64)).setReg re 0)
    else none

/-! ### Waits -/

/-- Whether a wait is over, with what it does as it ends; a kernel that ends answers none for the PC. -/
def State.waitOver (s : State) (n : Nat) (w : PvWait) : Option State :=
  let p := s.pav n
  match w with
  | .event ev th => if th ≤ s.evVal ev then some s else none
  | .fence m => if p.fenceMet m then some s else none
  | .signal ev inc => if p.fenceMet 7 then some (s.evAdd ev inc) else none
  | .tag t => if t = 0 then (if p.out.isEmpty then some s else none) else if (p.outst t).isNone then some s else none
  | .mcnt m => if m ≤ p.mcnt then some s else none
  | .arrival rd re =>
    p.kern.bind fun k => (s.popRecord p k (BitVec.ofNat 5 rd) (BitVec.ofNat 5 re)).map fun q => s.setPav n q
  | .ending code => if p.fenceMet 7 then some (s.endKernel n code) else none

/-- A synchronisation instruction: at once where its condition holds, else it waits. -/
def State.syncOp (s : State) (n : Nat) (w : PvWait) : Res :=
  match s.waitOver n w with
  | some s => .done s 0 0
  | none => .wait w

/-- The event counter that an index of the kernel's window names (R83). -/
def State.withEvent (s : State) (p : Pav) (k : Kern) (rs1 : BitVec 5) (f : Nat → Res) : Res :=
  let i := (p.reg rs1).toNat
  if i < k.evCount then f (k.evBase + i) else .fault s Fc.illegal 0

/-- WAITE (R83). -/
def execWaite (pav : Nat) (g : Guard) (rs1 rs2 : BitVec 5) (s : State) : Out :=
  .next (s.beloc pav g 0x38 4 fun p k => s.withEvent p k rs1 fun e => s.syncOp pav (.event e (p.reg rs2).toNat))

/-- SIGE (R83). -/
def execSige (pav : Nat) (g : Guard) (rs1 rs2 : BitVec 5) (s : State) : Out :=
  .next (s.beloc pav g 0x39 4 fun p k => s.withEvent p k rs1 fun e => s.syncOp pav (.signal e (p.reg rs2).toNat))

/-- FENCE (R83). -/
def execFence (pav : Nat) (g : Guard) (mask : BitVec 3) (s : State) : Out :=
  .next (s.beloc pav g 0x3A 4 fun _ _ => s.syncOp pav (.fence mask.toNat))

/-- WAITX (R83): bits 7 to 0 of s[rs1]. -/
def execWaitx (pav : Nat) (g : Guard) (rs1 : BitVec 5) (s : State) : Out :=
  .next (s.beloc pav g 0x3B 4 fun p _ => s.syncOp pav (.tag (bits (p.reg rs1) 0 8)))

/-- WAITM (R83). -/
def execWaitm (pav : Nat) (g : Guard) (rs1 : BitVec 5) (s : State) : Out :=
  .next (s.beloc pav g 0x3C 4 fun p _ => s.syncOp pav (.mcnt (p.reg rs1).toNat))

/-- ARRV (R84): illegal in a launched kernel. -/
def execArrv (pav : Nat) (g : Guard) (rd re : BitVec 5) (s : State) : Out :=
  .next (s.beloc pav g 0x3D 4 fun _ k =>
    if k.bound then s.syncOp pav (.arrival rd.toNat re.toNat) else .fault s Fc.illegal 0)

/-- END (R95): it waits as FENCE 7, then ends the kernel. -/
def execEndK (pav : Nat) (g : Guard) (code : BitVec 8) (s : State) : Out :=
  .next (s.beloc pav g 0x3E 4 fun _ _ => s.syncOp pav (.ending code.toNat))

/-- The major opcode of a waiting instruction. -/
def PvWait.opcode : PvWait → Nat
  | .event .. => 0x38
  | .signal .. => 0x39
  | .fence _ => 0x3A
  | .tag _ => 0x3B
  | .mcnt _ => 0x3C
  | .arrival .. => 0x3D
  | .ending _ => 0x3E

/-- CONDITION_MET (R83): what a WAITING Pavilion waits for has come about; the instruction completes and it runs on. -/
def execConditionMet (pav : Nat) (s : State) : Out :=
  .next <|
    let p := s.pav pav
    match p.wait, p.kern with
    | some w, some k =>
      if s.pvState pav ≠ Ps.waiting then s
      else
        match s.waitOver pav w with
        | none => s
        | some t =>
          let t := t.retire pav w.opcode 4 0 0 k p.pc none (some p.issueAt)
          match w with
          | .ending _ => t
          | _ => (t.mapPav pav fun p => { p with wait := none }).setPvState pav Ps.running
    | _, _ => s

end Sys2Proof.Machine
end

