-- ==== Sys2Proof/Machine/Reduce.lean ====
section
/-! DEFINITION. What the built-in kernels compute: reductions (R146 to R149), the combination of sites (R343, R344),
conversions (R435), the optimizers (R170 to R174). -/

namespace Sys2Proof.Machine

/-! ### Reductions (R146, R149) -/

/-- An element of a contribution as an FP32 or INT32 word (R146 step 1). -/
def wordOf (f : Fmt) (elems scales : List Byte) (i : Nat) : Nat :=
  let code := elemAt elems f.width i
  if f = .fp32 then code
  else if f.isInt then roundInt .int32 .rne (decodeVal f code)
  else roundIeee .fp32 .rne (if f.isMx then mxVal f ((scales[i / 32]?).getD 0).toNat code else decodeVal f code)

def wordsFrom (f : Fmt) (n : Nat) (a : Arrival) : List Nat := (List.range n).map (wordOf f a.elems a.scales)

/-- Two words combined by KIND: SUM, MAX or MIN, in FP32 or INT32. -/
def combineWord (int : Bool) (kind a b : Nat) : Nat :=
  let op : VOp := match kind with | 2 => .max | 3 => .min | _ => .add
  (op.elem (if int then 3 else 0) [a, b]).1

/-- Lists combined place by place. -/
def zipOp {α : Type} (f : α → α → α) (a b : List α) : List α := (a.zip b).map fun x => f x.1 x.2

/-- The first copied, each further one combined. -/
def foldFirst {α : Type} (f : α → α → α) : List (List α) → List α
  | [] => []
  | a :: rest => rest.foldl (zipOp f) a

/-- Contributions to an entry in the order they are taken: ascending member under STRICT_ORDER (R148), else as they
landed. -/
def State.taken (s : State) (c : Coll) (x : Parcel) (e : Nat) : List Arrival :=
  if s.strict then (s.contributors c).filterMap (x.arrival e) else x.arrivals.filter fun a => a.entry = e

/-- Exact words summed (R47). -/
def Exact.plus (a b : Exact) : Exact := ⟨a.word + b.word, a.nan || b.nan, a.pinf || b.pinf, a.ninf || b.ninf⟩

/-- The exact sum of contributions, and how many elements entered as infinities for their magnitude. -/
def exactSum (f : Fmt) (n : Nat) (as : List Arrival) : List Exact × Nat :=
  as.foldl (fun acc a =>
    let rs := (acc.1.zip (decodeTensor f n a.elems a.scales)).map fun v => v.1.add v.2
    (rs.map (·.1), acc.2 + (rs.filter (·.2)).length)) (List.replicate n Exact.zero, 0)

/-- A reduction before any rounding to OUT_FMT: words, or exact words. -/
inductive Sum1 where
  | words (l : List Nat)
  | exact (l : List Exact)

/-- The sum of this site's contributions to an entry (R343). -/
def State.localSum (s : State) (c : Coll) (x : Parcel) (e : Nat) : Sum1 :=
  let n := ((s.granElems c x.k)[e]?).getD 0
  let as := s.taken c x e
  if c.kind = 1 then .exact (exactSum c.inFmt n as).1
  else .words (foldFirst (combineWord c.inFmt.isInt c.kind) (as.map (wordsFrom c.inFmt n)))

/-- Elements of an entry's contributions counted in PV_XRANGE (R48). -/
def State.localXrange (s : State) (c : Coll) (x : Parcel) (e : Nat) : Nat :=
  if c.kind = 1 then (exactSum c.inFmt (((s.granElems c x.k)[e]?).getD 0) (s.taken c x e)).2 else 0

/-! ### Sites (R343, R344) -/

/-- The bytes of a partial: words, or exact words and flag nibbles. -/
def Sum1.bytes : Sum1 → List Byte
  | .words l => l.flatMap fun w => leBytes w 4
  | .exact l => l.flatMap (fun x => leBytes x.word.toNat 40)
      ++ (List.range ((l.length + 1) / 2)).map fun j => BitVec.ofNat 8
        (((l[2 * j]?).getD Exact.zero).flags + 16 * ((l[2 * j + 1]?).getD Exact.zero).flags)

/-- The partial that bytes hold, for `n` elements. -/
def sumOfBytes (exact : Bool) (n : Nat) (bs : List Byte) : Sum1 :=
  if exact then
    .exact ((List.range n).map fun i =>
      let f := ((bs[40 * n + i / 2]?).getD 0).toNat >>> (4 * (i % 2))
      ⟨BitVec.ofNat 320 (natAt bs (40 * i) 40), f.testBit 0, f.testBit 1, f.testBit 2⟩)
  else .words ((List.range n).map fun i => natAt bs (4 * i) 4)

/-- Two sites' sums combined (R344). -/
def Sum1.combine (int : Bool) (kind : Nat) : Sum1 → Sum1 → Sum1
  | .words a, .words b => .words (zipOp (combineWord int kind) a b)
  | .exact a, .exact b => .exact (zipOp Exact.plus a b)
  | a, _ => a

/-- The sums of an entry that have arrived or were formed here, by ascending site. -/
def Parcel.sitesOf (x : Parcel) (e : Nat) : List (Nat × List Byte) :=
  (List.range 16).filterMap fun site => (x.siteSums.find? fun y => y.1 = e && y.2.1 = site).map fun y => (site, y.2.2)

/-- The sum of an entry over every site. -/
def State.finalSum (s : State) (c : Coll) (x : Parcel) (e : Nat) : Sum1 :=
  if c.spanned then
    let n := ((s.granElems c x.k)[e]?).getD 0
    match (x.sitesOf e).map fun y => sumOfBytes (c.kind = 1) n y.2 with
    | [] => .words []
    | a :: rest => rest.foldl (Sum1.combine c.inFmt.isInt c.kind) a
  else s.localSum c x e

/-! ### Outputs (R146 step 3, R50, R435) -/

/-- The rounding of output element `i` of a command's parcel. -/
def State.outRnd (s : State) (c : Coll) (k i : Nat) : Rnd :=
  if c.rmode = 1 then .sr (srDraw (s.job c.moor) c.moor (c.pseq k) (i % 2 ^ 32)) else .rne

/-- Values rounded once to OUT_FMT, from element index `i0` on: element bytes and scale bytes. -/
def State.encodeOut (s : State) (c : Coll) (k i0 : Nat) (vs : List Val) : List Byte × List Byte :=
  encodeTensor c.outFmt ((vs.zipIdx).map fun v => (v.1, s.outRnd c k (i0 + v.2)))

/-- A sum as the output of an entry. -/
def State.sumOut (s : State) (c : Coll) (k e : Nat) (x : Sum1) : List Byte × List Byte :=
  match x with
  | .words l =>
    if c.outFmt = .fp32 && !c.inFmt.isInt || c.outFmt = .int32 && c.inFmt.isInt then (packElems 32 l, [])
    else s.encodeOut c k (s.ebase c k e) (l.map (decodeVal (if c.inFmt.isInt then .int32 else .fp32)))
  | .exact l => s.encodeOut c k (s.ebase c k e) (l.map Exact.val)

/-- One contribution as it is passed on (R435): the same bytes where the formats are equal. -/
def State.moveOut (s : State) (c : Coll) (x : Parcel) (e r : Nat) (a : Arrival) : List Byte × List Byte :=
  if c.inFmt = c.outFmt then (a.elems, a.scales)
  else
    s.encodeOut c x.k (r * 2 ^ 17 + s.ebase c x.k e)
      (decodeTensor c.inFmt (((s.granElems c x.k)[e]?).getD 0) a.elems a.scales)

/-- The gradient of an UPDATE's granule in FP32 (R170). -/
def Sum1.gradient : Sum1 → List Nat
  | .words l => l
  | .exact l => l.map fun x => roundIeee .fp32 .rne x.val

/-! ### State blocks (R164, R165) -/

/-- FP32 word `i` of a block. -/
def blockWord (bs : List Byte) (i : Nat) : Nat := natAt bs (4 * i) 4

/-- A block's words, `n` of them from word `i` on. -/
def blockWords (bs : List Byte) (i n : Nat) : List Nat := (List.range n).map fun j => blockWord bs (i + j)

def at0 (l : List Nat) (i : Nat) : Nat := (l[i]?).getD 0

/-- The scalars of the hyperparameter block (R171). -/
structure Hyper where
  step : Nat
  word : Nat → Nat

def hyperOf (bs : List Byte) : Hyper := ⟨natAt bs 0 8, fun off => natAt bs off 4⟩

/-- `c - a x b` with one rounding. -/
def fp32Fnma (a b c : Nat) : Nat := fp32Fma (fp32Neg a) b c

/-! ### SGD_M and ADAMW (R172) -/

/-- New w and m. -/
def sgdElem (h : Hyper) (g w m : Nat) : Nat × Nat :=
  let m := fp32Mul (h.word 0x08) m
  let m := fp32Fma g (h.word 0x0C) m
  let u := fp32Fma w (h.word 0x10) m
  (fp32Fnma u (h.word 0x14) w, m)

/-- New w, m and v. -/
def adamElem (h : Hyper) (g w m v : Nat) : Nat × Nat × Nat :=
  let m := fp32Mul (h.word 0x08) m
  let m := fp32Fma g (h.word 0x10) m
  let gg := fp32Mul g g
  let v := fp32Mul (h.word 0x0C) v
  let v := fp32Fma gg (h.word 0x14) v
  let mh := fp32Mul m (h.word 0x18)
  let vh := fp32Mul v (h.word 0x1C)
  let d := fp32Add (fp32Sqrt vh) (h.word 0x20)
  let u := fp32Div mh d
  let u := fp32Fma w (h.word 0x24) u
  (fp32Fnma u (h.word 0x28) w, m, v)

/-! ### FACTORED (R173) -/

/-- FP32 words added in ascending index. -/
def fp32Sum : List Nat → Nat
  | [] => 0
  | a :: rest => rest.foldl fp32Add a

/-- A block's new words, the gradients of its elements given, none for an element the granule does not cover. -/
def factoredBlock (h : Hyper) (g : Nat → Option Nat) (bs : List Byte) : List Nat :=
  let ws := blockWords bs 0 1024
  let ms := blockWords bs 1024 1024
  let r0 := blockWords bs 2048 32
  let c0 := blockWords bs 2080 32
  let gv (i : Nat) : Nat := (g i).getD 0
  let sq (i : Nat) : Nat := fp32Mul (gv i) (gv i)
  let r := (List.range 32).map fun i =>
    fp32Fma (fp32Sum ((List.range 32).map fun j => sq (32 * i + j))) (h.word 0x14) (fp32Mul (h.word 0x0C) (at0 r0 i))
  let c := (List.range 32).map fun j =>
    fp32Fma (fp32Sum ((List.range 32).map fun i => sq (32 * i + j))) (h.word 0x14) (fp32Mul (h.word 0x0C) (at0 c0 j))
  let tot := fp32Sum r
  let new := (List.range 1024).map fun p =>
    match g p with
    | none => (at0 ws p, at0 ms p)
    | some gp =>
      let vh := if tot % 2 ^ 31 = 0 then 0 else fp32Div (fp32Mul (at0 r (p / 32)) (at0 c (p % 32))) tot
      let m := fp32Fma gp (h.word 0x10) (fp32Mul (h.word 0x08) (at0 ms p))
      let mh := fp32Mul m (h.word 0x18)
      let vh := fp32Mul vh (h.word 0x1C)
      let u := fp32Div mh (fp32Add (fp32Sqrt vh) (h.word 0x20))
      let u := fp32Fma (at0 ws p) (h.word 0x24) u
      (fp32Fnma u (h.word 0x28) (at0 ws p), m)
  new.map (·.1) ++ new.map (·.2) ++ r ++ c

/-! ### KRONECKER (R174) -/

/-- A 16 x 16 tile, row-major. -/
abbrev Tile := List Nat

/-- An FP32 word rounded to BF16, as an FP32 word. -/
def bf (a : Nat) : Nat := roundIeee .bf16 .rne (decodeVal .fp32 a) * 65536

def tileOf (f : Nat → Nat → Nat) : Tile := (List.range 256).map fun p => f (p / 16) (p % 16)
def Tile.el (t : Tile) (i j : Nat) : Nat := at0 t (16 * i + j)
def Tile.transpose (t : Tile) : Tile := tileOf fun i j => Tile.el t j i
def Tile.map1 (f : Nat → Nat) (t : Tile) : Tile := t.map f

/-- A product on the arrays: BF16 operands, fused multiply-adds in ascending k (R34). -/
def Tile.mulBf (a b : Tile) : Tile :=
  tileOf fun i j => (List.range 16).foldl (fun x k => fp32Fma (bf (Tile.el a i k)) (bf (Tile.el b k j)) x) 0

/-- FP32 1, 5 and 0.25. -/
def fpOne : Nat := 0x3F800000
def fpFive : Nat := 0x40A00000
def fpQuarter : Nat := 0x3E800000

/-- x times the identity. -/
def scaledI (x : Nat) : Tile := tileOf fun i j => fp32Mul x (if i = j then fpOne else 0)

/-- (a + eps I)^(-1/4). -/
def iroot4 (eps iter : Nat) (a : Tile) : Tile :=
  let a := zipOp fp32Add a (scaledI eps)
  let s := (treeOf (fun x y => (fp32Add x y, 0)) 5 ((List.range 16).map fun i => Tile.el a i i)).1
  let x := scaledI (fp32Div fpOne (fp32Sqrt (fp32Sqrt s)))
  let mm := Tile.map1 (fun y => fp32Mul y (fp32Div fpOne s)) a
  ((List.range iter).foldl (fun (st : Tile × Tile) _ =>
    let t := Tile.map1 (fun y => fp32Mul y fpQuarter) (zipOp (fun p q => fp32Add p (fp32Neg q)) (scaledI fpFive) st.2)
    let t2 := Tile.mulBf t t
    (Tile.mulBf st.1 t, Tile.mulBf (Tile.mulBf t2 t2) st.2)) (x, mm)).1

/-- One tile's new w, m, L, R, PL and PR. -/
def kronTile (h : Hyper) (g : Nat → Option Nat) (w m l r pl pr : Tile) : List Tile :=
  let b1 := h.word 0x08
  let gv : Tile := (List.range 256).map fun p => (g p).getD 0
  let gb := Tile.map1 (fun x => bf (fp32Mul x (h.word 0x14))) gv
  let gt := Tile.transpose gb
  let l := zipOp (fun x p => fp32Fma x (h.word 0x0C) p) l (Tile.mulBf gb gt)
  let r := zipOp (fun x p => fp32Fma x (h.word 0x0C) p) r (Tile.mulBf gt gb)
  let refresh := h.word 0x30
  let now := refresh ≠ 0 && h.step % refresh = 0
  let pl := if now then iroot4 (h.word 0x20) (h.word 0x34) l else pl
  let pr := if now then iroot4 (h.word 0x20) (h.word 0x34) r else pr
  let m' := (List.range 256).map fun p =>
    match g p with
    | some gp => fp32Fma gp (h.word 0x10) (fp32Mul b1 (at0 m p))
    | none => at0 m p
  let u := Tile.mulBf (Tile.mulBf pl m') pr
  let w' := (List.range 256).map fun p =>
    match g p with
    | some _ =>
      let x := fp32Fma (at0 w p) (h.word 0x18) (fp32Mul (at0 u p) (h.word 0x24))
      fp32Fnma x (h.word 0x1C) (at0 w p)
    | none => at0 w p
  [w', m', l, r, pl, pr]

def kroneckerBlock (h : Hyper) (g : Nat → Option Nat) (bs : List Byte) : List Nat :=
  let side (t q : Nat) : Tile := blockWords bs (2048 + 1024 * t + 256 * q) 256
  let ts := (List.range 4).map fun t =>
    kronTile h (fun p => g (256 * t + p)) (blockWords bs (256 * t) 256) (blockWords bs (1024 + 256 * t) 256)
      (side t 0) (side t 1) (side t 2) (side t 3)
  let part (q : Nat) : List Nat := ts.flatMap fun t => (t[q]?).getD []
  part 0 ++ part 1 ++ ts.flatMap fun t => (t.drop 2).flatMap id

/-! ### A block under an optimizer -/

/-- The new bytes of a block. -/
def stepBlock (opt : Nat) (h : Hyper) (g : Nat → Option Nat) (bs : List Byte) : List Byte :=
  let w (p : Nat) := blockWord bs p
  let m (p : Nat) := blockWord bs (1024 + p)
  let v (p : Nat) := blockWord bs (2048 + p)
  let ws : List Nat := match opt with
    | 0 =>
      let l := (List.range 1024).map fun p => match g p with | some x => sgdElem h x (w p) (m p) | none => (w p, m p)
      l.map (·.1) ++ l.map (·.2)
    | 1 =>
      let l := (List.range 1024).map fun p =>
        match g p with | some x => adamElem h x (w p) (m p) (v p) | none => (w p, m p, v p)
      l.map (·.1) ++ l.map (·.2.1) ++ l.map (·.2.2)
    | 2 => factoredBlock h g bs
    | _ => kroneckerBlock h g bs
  ws.flatMap fun x => leBytes x 4

end Sys2Proof.Machine
end

