-- ==== Sys2Proof/Machine/Gate.lean ====
section
/-! DEFINITION. Contributions, admission, re-requests, fences by verdict and the parcel-sequence gate (R140 to R156). -/

namespace Sys2Proof.Machine

open Host (Outcome)

/-! ### Owners and landing (R53, R84, R145) -/

/-- The Pavilion that owns an entry of a parcel. -/
def State.ownerOf (s : State) (c : Coll) (k e : Nat) : Nat := (s.ctx c.moor).owner c.moor (s.granNo c k e) (c.pseq k)

/-- The Pavilions that own a granule of a parcel; a BARRIER has none. -/
def State.owners (s : State) (c : Coll) (k : Nat) : List Nat :=
  if c.op = 7 then [] else ((List.range (s.granLens c k).length).map (s.ownerOf c k)).eraseDups

/-- The kernel that a Pavilion runs for a parcel's granules. -/
def State.parcelKern (s : State) (c : Coll) (k n : Nat) : Option Kern :=
  match (s.pav n).kern with
  | some x =>
    if x.bound && x.ring = c.ring && x.seq = c.seq && x.parcel = k && x.codec.isNone
        && (s.pvState n = Ps.running || s.pvState n = Ps.waiting) then some x else none
  | none => none

/-- Contributions to an entry that no longer hold a landing berth: posted to a kernel, or taken by a built-in one. -/
def State.takenOf (s : State) (c : Coll) (x : Parcel) (e : Nat) : Nat :=
  let landed := (x.arrivals.filter fun a => a.entry = e).length
  let n := s.ownerOf c x.k e
  if x.doneBy.contains n then landed
  else
    match s.parcelKern c x.k n with
    | some q => if q.kid = 0 then landed else (q.posted.filter fun z => z.1 = e).length
    | none => 0

/-- Whether every landing berth of an entry is full (R142, R145). -/
def State.berthsFull (s : State) (c : Coll) (x : Parcel) (e : Nat) : Bool :=
  c.op ≠ 7 && !s.strict
    && (min (s.ctx c.moor).land (s.contributors c).length) ≤ (x.arrivals.filter fun a => a.entry = e).length - s.takenOf c x e

/-! ### Site partials (R343) -/

/-- A span's MODE is lossy. -/
def State.lossy (s : State) (j : Nat) : Bool := s.cget F.BW_SPAN_CFG_MODE [j] = 1

/-- The site partial of an entry is formed and sent, or put before the coding kernel. -/
def State.formPartial (s : State) (c : Coll) (x : Parcel) (e : Nat) : State :=
  match c.span with
  | none => s
  | some j =>
    let bytes := (s.localSum c x e).bytes
    let s := s.bump F.PV_XRANGE_COUNT [] (s.localXrange c x e)
    let s := s.mapParcel c.ring c.seq x.k fun x => { x with formed := spPut none x.formed e (some s.now) }
    if s.lossy j then
      let o := s.mo.order
      ({ s with mo := { s.mo with order := o + 1 } } : State).mapParcel c.ring c.seq x.k fun x =>
        { x with codecs := x.codecs ++ [⟨e, s.site, true, bytes, o⟩] }
    else
      let s := s.mapParcel c.ring c.seq x.k fun x => { x with siteSums := x.siteSums ++ [(e, s.site, bytes)] }
      let stow := s.cget F.BW_SPAN_CFG_STOW [j] = 1
      let s : State := if stow then
          let src := padTo 64 bytes
          let frames := (chunks 8192 ((src.length + 8191) / 8192) src).map (stowBlock false)
          (s.tally 0x42 src.length).tally 0x43 (frames.foldl (fun n f => n + f.2.length) 0)
        else s
      s.sendForm c j x.k e (if c.kind = 1 then 1 else 0) stow (if stow then stowPacked 8192 false [] bytes else bytes)

/-- Every entry of a spanned parcel whose partial can be formed has it formed. -/
def State.formReady (s : State) (ring seq k : Nat) : State :=
  match s.coll? ring seq with
  | none => s
  | some c =>
    if !c.spanned then s
    else
      (List.range (s.granLens c k).length).foldl (fun s e =>
        match (s.coll? ring seq).bind fun c => (c.live.find? fun x => x.k = k).map fun x => (c, x) with
        | none => s
        | some (c, x) =>
          if (spGet none x.formed e).isNone && s.entryDone c x e
              && ((s.parcelKern c k (s.ownerOf c k e)).isSome || x.doneBy.contains (s.ownerOf c k e)) then
            s.formPartial c x e
          else s) s

/-! ### CONTRIB (R17, R23, R24, R140, R145) -/

/-- Bytes of the scales that follow `n` elements of an MX format. -/
def scaleLen (f : Fmt) (n : Nat) : Nat := if f.isMx then (n + 31) / 32 else 0

/-- A packet of a Mooring taken from the Basin. -/
def State.unsteer (s : State) (p : Nat) (pkt : Packet) : State :=
  if s.basin.steered.contains (p, pkt) then
    ({ s.freeCells (dieOf p) pkt.cells with basin := { s.basin with steered := s.basin.steered.erase (p, pkt) } } : State).grantAll
  else s

/-- A contribution to an admitted parcel. -/
def State.land (s : State) (p : Nat) (pkt : Packet) (c : Coll) (x : Parcel) (w0 w1 w2 : Word64) : State :=
  let i := bits w0 48 12
  let e := bits w1 32 4
  let len := contribLen c.inFmt (((s.granLens c x.k)[e]?).getD 0)
  let n := ((s.granElems c x.k)[e]?).getD 0
  if (s.granLens c x.k).length ≤ e || !(s.contributors c).contains i || bits w2 0 32 ≠ s.granNo c x.k e % 2 ^ 32
      || bits w1 36 13 ≠ len || pkt.body.length ≠ 24 + len + scaleLen c.inFmt n then
    (s.unsteer p pkt).bump F.MO_DROP_BAD_COUNT
  else if (x.arrival e i).isSome then (s.unsteer p pkt).bump F.MO_DUP_COUNT
  else if s.berthsFull c x e then s
  else
    let s := s.unsteer p pkt
    let o := s.mo.order
    let a : Arrival := ⟨e, i, (pkt.body.drop 24).take len, pkt.body.drop (24 + len), o⟩
    (({ s with mo := { s.mo with order := o + 1 } } : State).mapParcel c.ring c.seq x.k fun x =>
      { x with arrivals := x.arrivals ++ [a] }).formReady c.ring c.seq x.k

/-- CONTRIB (R139, R140): a steered packet is admitted to its Mooring, or dropped and counted. -/
def execContrib (port : Nat) (pkt : Packet) (s : State) : Out :=
  .next <|
    let w (i : Nat) : Word64 := word64At pkt.body (8 * i)
    let m := bits (w 0) 16 14
    let i := bits (w 0) 48 12
    let pseq := bits (w 1) 0 32
    if s.ctxState m ≠ Cs.active || bits (w 0) 0 4 ≠ 0 then (s.unsteer port pkt).unknownMooring port pkt.hdr.tc
    else if pkt.hdr.job ≠ s.job m || bits (w 0) 4 12 ≠ s.job m || bits (w 0) 32 16 ≠ s.epoch m then
      (s.unsteer port pkt).bump F.MO_DROP_STALE_COUNT
    else if (s.ctx m).fenced i then (s.unsteer port pkt).bump F.MO_DROP_FENCED_COUNT
    else
      match s.findParcel m pseq with
      | some (c, x) => s.land port pkt c x (w 0) (w 1) (w 2)
      | none =>
        if (s.gateNext m + 2 ^ 32 - 1 - pseq) % 2 ^ 32 < 2 ^ 31 then (s.unsteer port pkt).bump F.MO_DUP_COUNT
        else (s.unsteer port pkt).bump F.MO_DROP_UNGRANTED_COUNT

/-! ### PARCEL_ADMISSION (R144) -/

/-- The waiting parcel of a Mooring: that of the earliest command with parcels left. -/
def State.waitingParcel (s : State) (m : Nat) : Option Coll :=
  s.mo.colls.find? fun c => c.moor = m && c.nextAdmit < c.parcels

/-- The Moorings with a waiting parcel, ascending. -/
def State.waitingMoors (s : State) : List Nat := (s.ctxsIn Cs.active).filter fun m => (s.waitingParcel m).isSome

/-- The charge of a Mooring's waiting parcel in the mode in force. -/
def State.waitingCharge (s : State) (m : Nat) : Nat :=
  match s.waitingParcel m with
  | some c => s.parcelCharge c c.nextAdmit s.strict
  | none => 0

def State.fitsFloor (s : State) (m : Nat) : Bool :=
  !s.floorBusy m && s.waitingCharge m ≤ s.get F.MO_CTX_SLIP_FLOOR [m]

def State.fitsShare (s : State) (m : Nat) : Bool :=
  s.sharedHeld m + s.waitingCharge m ≤ s.sharedPool / s.waitingMoors.length && s.waitingCharge m ≤ s.sharedBerths

/-- Ascending from the one after `last`, around. -/
def after (last : Nat) (l : List Nat) : List Nat := (l.filter (last < ·)) ++ l.filter (· ≤ last)

/-- The candidate of R144 and its class. -/
def State.candidate (s : State) : Option (Nat × Nat) :=
  let ms := s.waitingMoors
  match (after s.mo.lastFloor ms).find? s.fitsFloor with
  | some m => some (m, 1)
  | none =>
    match (after s.mo.lastFair ms).find? s.fitsShare with
    | some m => some (m, 2)
    | none =>
      match s.mo.overflow with
      | m :: _ => if s.waitingCharge m ≤ s.sharedBerths then some (m, 3) else none
      | [] => none

/-- A Mooring's waiting parcel is admitted and granted. -/
def State.takeIn (s : State) (m cls : Nat) : State :=
  match s.waitingParcel m with
  | none => s
  | some c =>
    let k := c.nextAdmit
    let x : Parcel := ⟨k, s.waitingCharge m, cls = 1, s.now, [], [], [], [], [], [], [], [], [], []⟩
    let s := s.mapColl c.ring c.seq fun c => { c with nextAdmit := k + 1, live := c.live ++ [x] }
    let mo := s.mo
    let s : State := { s with mo := { mo with
      lastFloor := if cls = 1 then m else mo.lastFloor, lastFair := if cls = 2 then m else mo.lastFair,
      overflow := mo.overflow.filter (· ≠ m) } }
    let s := if cls = 3 then (s.tally 0x20).tally 0x25 else s.tally 0x20
    ((s.contributors c).foldl (fun s i => s.sendGrant m i (c.pseq k + 1)) s).showMoor m |>.showSpanOf m

/-- Moorings whose waiting parcel fits neither class 1 nor class 2 join the overflow queue, ascending. -/
def State.joinOverflow (s : State) : State :=
  let new := s.waitingMoors.filter fun m => !s.mo.overflow.contains m && !s.fitsFloor m && !s.fitsShare m
  new.foldl (fun s m => s.showMoor m) { s with mo := { s.mo with overflow := s.mo.overflow ++ new } }

/-- PARCEL_ADMISSION (R144). -/
def execParcelAdmission (s : State) : Out :=
  .next (match s.candidate with
    | some (m, cls) => (s.takeIn m cls).joinOverflow
    | none => s.joinOverflow)

/-! ### Re-requests (R141) -/

/-- The cycle from which a contribution's interval runs. -/
def Parcel.since (x : Parcel) (e i : Nat) : Nat := spGet x.grantedAt x.asked (4096 * e + i)

/-- A REREQ sent, and the interval running from now. -/
def State.askAgain (s : State) (c : Coll) (x : Parcel) (e i : Nat) : State :=
  (s.mapParcel c.ring c.seq x.k fun x => { x with asked := spIns x.asked (4096 * e + i) s.now }).sendRereq c x.k e i

/-- Whether a re-request of a contribution is due. -/
def State.due (s : State) (c : Coll) (x : Parcel) (e i : Nat) : Bool :=
  let iv := s.get F.MO_REREQ_INTERVAL
  iv ≠ 0 && (x.arrival e i).isNone && !(s.ctx c.moor).fenced i && x.since e i + us iv ≤ s.now

/-- REREQ (R141): the interval of one contribution has passed. -/
def execRereq (moor pseq entry member : Nat) (s : State) : Out :=
  .next (match s.findParcel moor pseq with
    | none => s
    | some (c, x) =>
      if entry < (s.granLens c x.k).length && (s.contributors c).contains member && s.due c x entry member then
        s.askAgain c x entry member
      else s)

/-- Every re-request that is due is sent. -/
def State.askDue (s : State) : State :=
  s.mo.colls.foldl (fun s c =>
    c.live.foldl (fun s x =>
      (List.range (s.granLens c x.k).length).foldl (fun s e =>
        ((s.contributors c).filter fun i => s.due c x e i).foldl (fun s i => s.askAgain c x e i) s) s) s) s

/-- REREQ_INTERVAL (R141): a write of MO_REREQ; what it makes due is sent at once. -/
def execRereqInterval (req : Requester) (value : Word64) (s : State) : Out :=
  .next (s.rowWrite req .MO_REREQ [] fun s => (s.applyWrite req .MO_REREQ [] value).askDue)

/-! ### FLOOR_BERTHS (R143) -/

/-- Whether a CREATE, REFORM or ADOPT is being carried out. -/
def State.engineBusy (s : State) : Bool :=
  match s.mo.engine with
  | some (r, q) => match s.cmd? r q with | some c => (c.fld 4 0 4 = 0 || c.fld 4 0 4 = 2 || c.fld 4 0 4 = 3) | none => false
  | none => false

/-- A write of MO_SLIP_CFG (R125). -/
def State.floorBerths (s : State) (fb : Nat) : State :=
  if fb > 32768 || (fb ≠ s.get F.MO_SLIP_CFG_FLOOR_BERTHS && (!(s.ctxsIn Cs.active).isEmpty || s.engineBusy)) then
    s.put F.MO_STATUS_CFG_REFUSED [] 1
  else
    let s := s.put F.MO_SLIP_CFG_FLOOR_BERTHS [] fb
    s.put F.MO_SLIP_STATUS_SHARED_FREE [] s.sharedBerths

/-- FLOOR_BERTHS (R125, R143). -/
def execFloorBerths (req : Requester) (value : Word64) (s : State) : Out :=
  .next (s.rowWrite req .MO_SLIP_CFG [] (·.floorBerths (bits value 0 16)))

/-! ### MEMBER_DEAD (R155, R156) -/

/-- The cycle of the last beacon received on a port (R155); of an Ethernet port that checks none, the cycle at which its link was
last up (R304). -/
def State.beaconAt (s : State) (p : Nat) : Nat :=
  if s.isEth p && s.linkUp p && s.cget F.QY_PORT_CTRL_BEACON_CHK (pidx p) = 0 then s.now else (s.port p).heardAt

/-! ### GATE_PASSAGE (R147, R150 to R153, R170) -/

/-- A granule of a parcel's output: whose contribution it is (member and ring position) where the operation reduces nothing,
its entry, offset and bytes, and its digest. -/
structure OutGran where
  from_ : Option (Nat × Nat)
  entry : Nat
  aux : Nat
  elems : List Byte
  scales : List Byte
  digest : Word64

/-- State blocks that a parcel stages: shard block number and new bytes. -/
abbrev Staged := List (Nat × List Byte)

/-- The optimizer run for one entry (R169, R170): the output and the new blocks, or the owner's transfer fault. -/
def State.updateEntry (s : State) (c : Coll) (x : Parcel) (sh : Shard) (e : Nat) : State × Except Nat (OutGran × Staged) :=
  let n := ((s.granElems c x.k)[e]?).getD 0
  let p0 := s.granNo c x.k e * elemCount c.inFmt 4096
  let b0 := p0 / 1024
  let nb := (p0 + n + 1023) / 1024 - b0
  let grad := (s.finalSum c x e).gradient
  let h := hyperOf c.hyper
  let r := (List.range nb).foldl (fun (acc : State × Except Nat Staged) j =>
    match acc with
    | (s, .error a) => (s, .error a)
    | (s, .ok l) =>
      match s.dockRead 0 (sh.blockAddr (b0 + j)) sh.blockBytes with
      | (s, .error o) => (s, .error (sh.blockAddr (b0 + j) + o))
      | (s, .ok bs) =>
        let g (p : Nat) : Option Nat :=
          if p0 ≤ 1024 * (b0 + j) + p && 1024 * (b0 + j) + p < p0 + n then grad[1024 * (b0 + j) + p - p0]? else none
        (s, .ok (l ++ [(b0 + j, stepBlock sh.optimizer h g bs)]))) (s, .ok [])
  match r with
  | (s, .error a) => (s, .error a)
  | (s, .ok st) =>
    let ws := (List.range n).map fun i =>
      let q := p0 + i
      blockWord (((st.find? fun b => b.1 = q / 1024).map (·.2)).getD []) (q % 1024)
    let o := s.encodeOut c x.k (s.ebase c x.k e) (ws.map (decodeVal .fp32))
    (s, .ok (⟨none, e, s.offOf c x.k e, o.1, o.2, granuleDigest (o.1 ++ o.2)⟩, st))

/-- The output granules of a parcel that a built-in reduction or movement serves. -/
def State.builtinOut (s : State) (c : Coll) (x : Parcel) : List OutGran :=
  let n := (s.granLens c x.k).length
  if c.op = 7 then []
  else if c.reduces then
    (List.range n).map fun e =>
      let o := s.sumOut c x.k e (s.finalSum c x e)
      ⟨none, e, s.offOf c x.k e, o.1, o.2, granuleDigest (o.1 ++ o.2)⟩
  else
    let ring := (s.ctx c.moor).ring
    ((s.contributors c).zipIdx).flatMap fun i =>
      (List.range n).filterMap fun e =>
        (x.arrival e i.1).map fun a =>
          let r := ring.idxOf i.1
          let o := s.moveOut c x e r a
          ⟨some (i.1, r), e, i.2 * s.partBytes c x.k + s.offOf c x.k e, o.1, o.2, granuleDigest (o.1 ++ o.2)⟩

/-- The output granules that a bound kernel of the user's has left in the output area. -/
def State.kernelOut (s : State) (c : Coll) (x : Parcel) : List OutGran :=
  let n := (s.granLens c x.k).length
  let one (who : Option (Nat × Nat)) (base e : Nat) : OutGran :=
    let cnt := ((s.granElems c x.k)[e]?).getD 0
    let off := base + s.offOf c x.k e
    let get (a : Nat) : Byte := match x.outBytes.find? fun b => b.1 = a with | some b => b.2 | none => Config.slipByte a
    ⟨who, e, off, (List.range (elemBytes c.outFmt cnt)).map fun i => get (off + i),
      (List.range (scaleLen c.outFmt cnt)).map fun i => Config.slipByte (2 ^ 40 + off + i), spGet 0 x.digests e⟩
  if c.op = 7 then []
  else if c.reduces then (List.range n).map (one none 0)
  else
    ((s.contributors c).zipIdx).flatMap fun i =>
      (List.range n).map (one (some (i.1, (s.ctx c.moor).ring.idxOf i.1)) (i.2 * s.partBytes c x.k))

/-- The log entry of a parcel (R153). -/
def State.logParcel (s : State) (c : Coll) (k : Nat) (nondet : Bool) (d : Word64) : State :=
  let slots := s.cget F.MO_DLOG_CFG_SLOTS
  if slots = 0 then s
  else
    let n := s.get F.MO_DLOG_PROD_PROD
    let e := leBytes (c.layer + c.moor * 2 ^ 16 + s.job c.moor * 2 ^ 30 + s.epoch c.moor * 2 ^ 42 + nondet.toNat * 2 ^ 58
        + (c.kind = 1 && c.reduces : Bool).toNat * 2 ^ 59 + c.op * 2 ^ 60) 8
      ++ leBytes (c.pseq k + s.ts32 * 2 ^ 32) 8 ++ wordBytes d ++ leBytes (c.ring + c.seq * 2 ^ 8) 8
    (s.dockWrite (s.cget F.MO_DLOG_BASE_ADDR + 32 * (n % slots)) e).advance F.MO_DLOG_PROD_PROD

/-- The members that receive an output granule (R133). -/
def State.receiversOf (s : State) (c : Coll) (k : Nat) (g : OutGran) : List Nat :=
  let x := s.ctx c.moor
  let ring := x.ring
  match c.op with
  | 0 => [x.root]
  | 1 => [((ring[(k * s.parcelGr c.moor + g.entry) * ring.length / c.granules]?).getD 0)]
  | 4 => ring.filter (· ≠ x.root)
  | 5 => match g.from_ with
    | some (_, r) => [(ring[(r + x.shiftDist) % ring.length]?).getD 0]
    | none => []
  | 6 => match g.from_ with
    | some (i, _) => [(x.perm[i]?).getD 0]
    | none => []
  | _ => ring

/-- Step 3 of R150: the outputs leave. -/
def State.release (s : State) (c : Coll) (k : Nat) (l : List OutGran) : State :=
  if c.op = 7 then (s.ctx c.moor).ring.foldl (fun s i => s.sendMember c.moor i 1 (c.pseq k) 0 0 (s.granNo c k 0) 0 []) s
  else
    l.foldl (fun s g =>
      (s.receiversOf c k g).foldl (fun s i =>
        s.sendResult c.moor i (c.pseq k) g.entry (s.granNo c k g.entry) g.aux c.outFmt g.elems g.scales) s) s

/-- Staged blocks applied with R26 and the block digest table (R151, R170, R176). -/
def State.applyBlocks (s : State) (n : Nat) (sh : Shard) (st : Staged) : State :=
  st.foldl (fun s b => (((s.copyAhead n b.1).writeBlock sh b.1 b.2).tally 0x50)) s

/-- The staged writes of a user's optimizer applied, and the digests of the blocks they touch formed again. -/
def State.applyWrites (s : State) (n : Nat) (sh : Shard) (ws : List (Nat × List Byte)) : State :=
  let bs := (ws.flatMap fun w =>
    if w.2.isEmpty then [] else
      (List.range ((w.1 + w.2.length - 1) / sh.blockBytes - w.1 / sh.blockBytes + 1)).map (w.1 / sh.blockBytes + ·)).eraseDups.filter
        (· < sh.blocks)
  let s := bs.foldl (fun s b => s.copyAhead n b) s
  let s := ws.foldl (fun s w => s.dockWrite (sh.dockBase + w.1) (sh.trim w.1 w.2)) s
  bs.foldl (fun s b =>
    match s.readBlock sh b with
    | (s, .ok x) => (s.dockWrite (sh.tableAddr b) (wordBytes (granuleDigest x))).tally 0x50
    | (s, .error _) => s) s

/-- Whether a parcel may enter its gate: every contribution is in, its kernels have run or ended, and every site of a span
has its partial here (R91, R95, R150, R344). -/
def State.passable (s : State) (c : Coll) (x : Parcel) : Bool :=
  s.parcelDone c x
    && ((s.owners c x.k).all fun n => x.doneBy.contains n || (c.kid.isNone && (s.parcelKern c x.k n).isSome))
    && (match c.span with
      | some j => !c.spanned || (List.range (s.granLens c x.k).length).all fun e =>
          (x.sitesOf e).length = (s.spanSites j).length
      | none => true)

/-- The four steps of R150 for a parcel whose output granules and staged blocks are formed. -/
def State.passGate (s : State) (c : Coll) (x : Parcel) (l : List OutGran) (st : Staged) : State :=
  let counted := c.kind = 0 && c.reduces && !c.inFmt.isInt && !s.strict && 3 ≤ (s.contributors c).length
  let n := if counted then (s.granLens c x.k).length else 0
  let s := (s.advance F.MO_NONDET_COUNT_COUNT [] n).tally 0x22 n
  let s := s.logParcel c x.k (n ≠ 0) (parcelDigest (c.pseq x.k) (l.map (·.digest)))
  let s : State := match s.shard c.shard with
    | some sh =>
      if c.op ≠ 8 then s
      else (s.applyBlocks c.shard sh st).applyWrites c.shard sh (x.stateWrites.map fun w => w.2)
    | none => s
  let s := s.release c x.k l
  let s := (s.kernsWhere fun q => q.bound && q.ring = c.ring && q.seq = c.seq && q.parcel = x.k).foldl (fun s n => s.stopKern n) s
  let s := s.mapColl c.ring c.seq fun c =>
    { c with live := c.live.filter fun y => y.k ≠ x.k, applied := c.applied + 1, nondet := c.nondet + n }
  let s := ((s.put F.MO_CTX_SEQ_GATE_NEXT [c.moor] (s.gateNext c.moor + 1)).tally 0x21).showMoor c.moor
  if c.applied + 1 = c.parcels then s.stopColl c.ring c.seq St.ok 0 none else s

/-- The optimizer run for every entry of a parcel. -/
def State.updateAll (s : State) (c : Coll) (x : Parcel) (sh : Shard) :
    State × Except (Nat × Nat) (List OutGran × Staged) :=
  (List.range (s.granLens c x.k).length).foldl (fun (acc : State × Except (Nat × Nat) (List OutGran × Staged)) e =>
    match acc with
    | (s, .error a) => (s, .error a)
    | (s, .ok (l, st)) =>
      match s.updateEntry c x sh e with
      | (s, .error a) => (s, .error (s.ownerOf c x.k e, a))
      | (s, .ok (g, b)) => (s, .ok (l ++ [g], st ++ b))) (s, .ok ([], []))

/-- PV_XRANGE as the built-in exact sums of a parcel that is not spanned raise it (R48). -/
def State.countXrange (s : State) (c : Coll) (x : Parcel) : State :=
  if c.spanned || !c.reduces then s
  else (List.range (s.granLens c x.k).length).foldl (fun s e => s.bump F.PV_XRANGE_COUNT [] (s.localXrange c x e)) s

/-- GATE_PASSAGE (R150, R353): the parcel that a Mooring's gate expects passes it; `bad` names an entry in whose output
an uncorrectable Slipway word is read. -/
def execGatePassage (moor : Nat) (bad : Option Nat) (s : State) : Out :=
  .next (match s.findParcel moor (s.gateNext moor) with
    | none => s
    | some (c, x) =>
      if !s.passable c x then s
      else
        match bad with
        | some e => if e < (s.granLens c x.k).length then s.granuleReset c.ring c.seq x.k e else s
        | none =>
          if c.kid.isSome then s.passGate c x (s.kernelOut c x) []
          else if c.op = 8 then
            match s.shard c.shard with
            | none => s
            | some sh =>
              match s.updateAll c x sh with
              | (s, .ok (l, st)) => (s.countXrange c x).passGate c x l st
              | (s, .error (n, a)) =>
                (s.raiseFault n Fc.data 0 (s.pav n).pc a).stopColl c.ring c.seq St.dataError 0 none
          else (s.countXrange c x).passGate c x (s.builtinOut c x) [])

end Sys2Proof.Machine
end

