-- ==== Sys2Proof/Machine/PavRows.lean ====
section
/-! DEFINITION. Dispatch and the entry contract (R91 to R93, R343), arrival windows (R84, R351), waking and gating (R379),
watchdog, fault release and patrol scrub (R33, R57, R86). -/

namespace Sys2Proof.Machine

open Host (Outcome)

/-! ### Dispatches that wait (R91, R92) -/

/-- A dispatch made ready: a parcel's kernel, a coding kernel, or one of a launch; with the order in which it became
ready. -/
inductive Ready where
  | bound (c : Coll) (x : Parcel) (stamp : Nat)
  | codec (c : Coll) (x : Parcel) (w : Codec) (stamp : Nat)
  | launched (l : Launch)

def Ready.stamp : Ready → Nat
  | .bound _ _ n => n
  | .codec _ _ _ n => n
  | .launched l => l.stamp

/-- The entries of a parcel that a Pavilion owns. -/
def State.owned (s : State) (c : Coll) (k n : Nat) : List Nat :=
  if c.op = 7 then [] else (List.range (s.granLens c k).length).filter fun e => s.ownerOf c k e = n

/-- When the first record of a parcel became ready at a Pavilion (R84): the first landing of an owned entry, or under
STRICT_ORDER the last of the parcel. -/
def State.readyAt (s : State) (c : Coll) (x : Parcel) (n : Nat) : Option Nat :=
  let es := s.owned c x.k n
  if s.strict then (if s.parcelDone c x && !es.isEmpty then (x.arrivals.map (·.stamp)).max? else none)
  else ((x.arrivals.filter fun a => es.contains a.entry).map (·.stamp)).min?

/-- The dispatches that wait for a Pavilion. -/
def State.readyFor (s : State) (n : Nat) : List Ready :=
  (s.mo.colls.flatMap fun c => c.live.flatMap fun x =>
    (match s.readyAt c x n with
      | some t => if x.doneBy.contains n || (s.parcelKern c x.k n).isSome then [] else [.bound c x t]
      | none => [])
      ++ (x.codecs.filter fun w => s.ownerOf c x.k w.entry = n).map fun w => .codec c x w w.stamp)
    ++ (s.pv.launches.filter fun l => l.toGo.contains n).map .launched

/-- The one that became ready first. -/
def State.nextReady (s : State) (n : Nat) : Option Ready :=
  (s.readyFor n).foldl (fun a r => match a with
    | none => some r
    | some b => if r.stamp < b.stamp then some r else some b) none

/-! ### Waking and gating (R379) -/

def State.wakingCount (s : State) : Nat := ((List.range s.pavCount).filter fun n => s.pvState n = Ps.waking).length

/-- Whether the Pavilion domain is powered (R374). -/
def State.pavsOn (s : State) : Bool := s.get F.PM_STATE_STATE ≤ 1

/-- GATED Pavilions with a dispatch begin to wake, in ascending number, while fewer than 200 are WAKING. -/
def State.wakeNext (s : State) : State :=
  if !s.pavsOn then s
  else
    let ns := (List.range s.pavCount).filter fun n => s.pvState n = Ps.gated && !(s.readyFor n).isEmpty
    (ns.take (200 - s.wakingCount)).foldl (fun s n => s.setPvState n Ps.waking) s

/-- PAVILION_WAKE (R379): the domain of a WAKING Pavilion is ready. -/
def execPavilionWake (pav : Nat) (s : State) : Out :=
  .next (if s.pvState pav = Ps.waking && s.pavsOn then (s.setPvState pav Ps.idle).wakeNext else s)

/-- PAVILION_GATING (R379): an idle Pavilion for which no dispatch waits is gated, in QUIET at once, in RUN where RUN_GATE is
set and GATE_IDLE_US have passed. -/
def execPavilionGating (pav : Nat) (s : State) : Out :=
  .next (
    let st := s.get F.PM_STATE_STATE
    let idle := (s.pav pav).since + us (s.get F.PM_CTRL_GATE_IDLE_US) ≤ s.now
    if s.pvState pav = Ps.idle && (s.readyFor pav).isEmpty
        && (st = 1 || (st = 0 && s.get F.PM_CTRL_RUN_GATE = 1 && idle)) then s.setPvState pav Ps.gated
    else s)

/-! ### The entry contract (R58, R91, R93) -/

/-- The parcel block (R93). -/
def State.parcelBlock (s : State) (c : Coll) (k : Nat) (es : List Nat) (stateBase hyper : Nat) : List Byte :=
  let ls := s.granLens c k
  leBytes (c.moor + s.job c.moor * 2 ^ 16 + c.op * 2 ^ 32 + (if c.reduces then c.kind else 0) * 2 ^ 36) 8
    ++ leBytes (c.pseq k + s.epoch c.moor * 2 ^ 32 + (s.contributors c).length * 2 ^ 48) 8
    ++ leBytes (c.inFmt.code + c.outFmt.code * 2 ^ 4 + c.rmode * 2 ^ 8 + s.strict.toNat * 2 ^ 9) 8
    ++ leBytes 0 8 ++ leBytes stateBase 8 ++ leBytes hyper 8 ++ List.replicate 16 0
    ++ es.flatMap fun e =>
        leBytes (s.granNo c k e % 2 ^ 32 + ((ls[e]?).getD 0) * 2 ^ 32) 8
          ++ leBytes (s.offOf c k e + s.ebase c k e * 2 ^ 32) 8 ++ List.replicate 16 0

/-- A Pavilion as dispatch leaves it: every item zero but what the contract gives, tile memory cleared and then written. -/
def State.enter (s : State) (n : Nat) (k : Kern) (entry : Nat) (regs : List (Nat × Nat)) (rmode job moor pseq eidx : Nat)
    (writes : List (Nat × List Byte)) : State :=
  let old := s.pav n
  let p : Pav := { Pav.fresh with
    s := regs.foldl (fun m r => spPut 0 m r.1 (BitVec.ofNat 64 r.2)) [], vl := 64, rmode := rmode, srJob := job,
    srMoor := moor, srPsq := pseq, eidx := eidx, pc := entry, kern := some k, gen := old.gen, gap := old.gap,
    ramp := old.ramp, shown := old.shown }
  let p := writes.foldl (fun p w => p.store w.1 w.2) p
  let s := if k.bound then (s.put F.PV_RUN_MOORING [n] k.moor).put F.PV_RUN_MOORING_VALID [n] 1 else s
  ((s.setPav n p).setPvState n Ps.running).tally 0x30

/-- The image of a bound kernel: none for the built-in ones. -/
def State.image (s : State) (kid : Nat) : Option KImage := spGet none s.pv.images kid

def KImage.none : KImage := ⟨0, 0, [], [], 0, 0, 0, 0, 0⟩

/-- The tile address of the optimizer scalars: 64-byte lines of the reserved kilobyte behind the longest parcel block. -/
def hyperAddr : Nat := 0x7FE40 + 64 * (Config.hyperPlace % 4)

/-- A bound kernel of a parcel, or coding work of it, starts on a Pavilion. -/
def State.startBound (s : State) (n : Nat) (c : Coll) (x : Parcel) (w : Option Codec) : State :=
  let kid := match w, c.span with
    | some w, some j => s.cget (if w.encode then F.BW_SPAN_KIDS_ENC_KID else F.BW_SPAN_KIDS_DEC_KID) [j]
    | _, _ => c.kid.getD 0
  let im := (s.image kid).getD KImage.none
  let es := match w with | some w => [w.entry] | none => s.owned c x.k n
  let sh := if c.op = 8 then s.shard c.shard else none
  let stateBase := match sh with
    | some sh => s.granNo c x.k 0 * elemCount c.inFmt 4096 / 1024 * sh.blockBytes
    | none => 0
  let parts := if c.reduces then 1 else (s.contributors c).length
  let seg1 : Seg := match sh with | some sh => ⟨sh.dockBase, sh.imageBytes, true, true, 2⟩ | none => ⟨0, 0, false, false, 0⟩
  let rest := match spGet none s.pv.binds c.moor with | some b => b.segs | none => List.replicate 6 ⟨0, 0, false, false, 0⟩
  let k : Kern := ⟨true, c.ring, c.seq, kid, c.moor, x.k, w, ⟨0, parts * s.partBytes c x.k, true, true, 1⟩ :: seg1 :: rest,
    im.code.length, 0, 0, (s.ctx c.moor).group, im.arrwBase, im.arrwSlots, es, [], [], 0, 0, false, [], im.wdog, s.pvc, s.pvc⟩
  let block := s.parcelBlock c x.k es stateBase (if c.op = 8 then hyperAddr else 0)
  let e0 := match w with | some w => w.entry | none => 0
  let (regs, eidx, extra) : List (Nat × Nat) × Nat × List (Nat × List Byte) := match w with
    | none => ([], 0, [])
    | some w =>
      if w.encode then ([], (s.ebase c x.k e0 + s.site * 2 ^ 28) % 2 ^ 32, [(0, w.bytes)])
      else ([(10, w.bytes.length)], 0, [(0x40000, w.bytes)])
  (s.enter n k im.entry ([(1, 0x7FC00), (2, es.length), (3, c.pseq x.k)] ++ regs) c.rmode (s.job c.moor) c.moor (c.pseq x.k)
    eidx ([(im.dataAddr, im.data), (0x7FC00, block)] ++ (if c.op = 8 then [(hyperAddr, c.hyper)] else []) ++ extra)).formReady
      c.ring c.seq x.k

/-- A kernel of a launch starts on a Pavilion. -/
def State.startLaunched (s : State) (n : Nat) (l : Launch) : State :=
  let im := (s.image l.kid).getD KImage.none
  let k : Kern := ⟨false, l.ring, l.seq, l.kid, 0, 0, none, l.segs, im.code.length, l.evBase, l.evCount,
    (List.range l.count).map (l.first + ·), im.arrwBase, 0, [], [], [], 0, 0, false, [], im.wdog, s.pvc, s.pvc⟩
  let s := s.mapLaunch l.ring l.seq fun l => { l with toGo := l.toGo.erase n }
  s.enter n k im.entry [(1, 0x7FC00), (2, n - l.first), (3, l.count)] l.rmode l.srJob l.srMoor l.srPsq 0
    [(im.dataAddr, im.data), (0x7FC00, l.args)]

/-- A dispatch finds its Pavilion: GATED it is woken, IDLE and not held it starts. -/
def State.dispatch (s : State) (n : Nat) (f : State → State) : State :=
  if s.pvState n = Ps.gated then s.wakeNext
  else if s.pvState n = Ps.idle && s.get F.PV_CTRL_DISPATCH_HOLD = 0 && s.pavsOn then f s
  else s

/-- BOUND_DISPATCH (R91, R93, R343). -/
def execBoundDispatch (pav : Nat) (s : State) : Out :=
  .next (match s.nextReady pav with
    | some (.bound c x _) => s.dispatch pav fun s => s.startBound pav c x none
    | some (.codec c x w _) => s.dispatch pav fun s => s.startBound pav c x (some w)
    | _ => s)

/-- LAUNCHED_DISPATCH (R91, R92). -/
def execLaunchedDispatch (pav : Nat) (s : State) : Out :=
  .next (match s.nextReady pav with
    | some (.launched l) => s.dispatch pav fun s => s.startLaunched pav l
    | _ => s)

/-! ### The arrival window (R84, R351) -/

/-- The next contribution to post to a kernel. -/
def State.nextPost (s : State) (c : Coll) (x : Parcel) (k : Kern) : Option Arrival :=
  let todo := x.arrivals.filter fun a => k.entries.contains a.entry && !k.posted.contains (a.entry, a.member)
  if s.strict && !s.parcelDone c x then none
  else
    let key (a : Arrival) : Nat := if s.strict then 4096 * a.entry + a.member else a.stamp
    todo.foldl (fun b a => match b with
      | none => some a
      | some y => if key a < key y then some a else some y) none

/-- A contribution found uncorrectable is discarded and asked for again, or the fifth discard stops the command (R351). -/
def State.discard (s : State) (c : Coll) (x : Parcel) (a : Arrival) : State :=
  let s := s.tally 0x23
  let key := s.granNo c x.k a.entry * 4096 + a.member
  let n := spGet 0 c.discards key
  if n ≥ 4 then s.stopColl c.ring c.seq St.dataError 0 (some a.member)
  else
    let s := s.mapColl c.ring c.seq fun c => { c with discards := spPut 0 c.discards key (n + 1) }
    let s := s.mapParcel c.ring c.seq x.k fun x => { x with arrivals := x.arrivals.filter (· ≠ a) }
    if (s.ctx c.moor).fenced a.member then s else s.askAgain c x a.entry a.member

/-- ARRIVAL_RECORD (R84): the Slipway engine copies the next contribution into the arrival window and posts its record;
`bad`: a word of it cannot be corrected. -/
def execArrivalRecord (pav : Nat) (bad : Bool) (s : State) : Out :=
  .next (match (s.pav pav).kern with
    | none => s
    | some k =>
      if !k.bound || k.codec.isSome || !(s.pvState pav = Ps.running || s.pvState pav = Ps.waiting) then s
      else
        match (s.coll? k.ring k.seq).bind fun c => (c.live.find? fun x => x.k = k.parcel).map fun x => (c, x) with
        | none => s
        | some (c, x) =>
          match s.nextPost c x k with
          | none => s
          | some a =>
            if bad then s.discard c x a
            else if k.inUse < k.arrwSlots then
              let at_ := k.arrwBase + 4096 * k.slotNext
              s.mapPav pav fun p => { p.store at_ a.elems with kern := some { k with
                posted := k.posted ++ [(a.entry, a.member)],
                queue := k.queue ++ [⟨at_, a.elems.length, a.member, k.entries.idxOf a.entry⟩],
                slotNext := (k.slotNext + 1) % k.arrwSlots, inUse := k.inUse + 1 } }
            else s)

/-! ### Watchdog, fault release, scrub -/

/-- WATCHDOG (R86): a user kernel's budget has reached zero. -/
def execWatchdog (pav : Nat) (s : State) : Out :=
  .next (match (s.pav pav).kern with
    | some k =>
      if k.kid ≠ 0 && s.wdog k = 0 && (s.pvState pav = Ps.running || s.pvState pav = Ps.waiting) then
        s.raiseFault pav Fc.watchdog 0 (s.pav pav).pc 0
      else s
    | none => s)

/-- A write of PV_FAULT (R57): a FAULTED Pavilion whose VALID it clears is IDLE. -/
def State.faultRelease (s : State) (req : Requester) (pav : Nat) (value : Word64) : State :=
  let s := s.applyWrite req .PV_FAULT [pav] value
  if s.pvState pav = Ps.faulted && s.get F.PV_FAULT_VALID [pav] = 0 then (s.clearKern pav).setPvState pav Ps.idle else s

/-- FAULT_RELEASE (R57). -/
def execFaultRelease (req : Requester) (pav : Nat) (value : Word64) (s : State) : Out :=
  .next (s.rowWrite req .PV_FAULT [pav] (·.faultRelease req pav value))

/-- TILE_SCRUB (R33): the scrubber reads one word of a powered tile memory. -/
def execTileScrub (pav word : Nat) (s : State) : Out :=
  .next (
    let p := s.pav pav
    if s.get F.PV_CTRL_SCRUB_EN = 0 || s.pvState pav = Ps.gated || s.pvState pav = Ps.waking then s
    else if p.bad.contains word then s.bump F.PV_TILE_ERR_UNCORRECTED
    else if p.weak.contains word then (s.bump F.PV_TILE_ERR_CORRECTED).setPav pav { p with weak := p.weak.erase word }
    else s)

end Sys2Proof.Machine
end

