-- ==== Sys2Proof/Machine/MooringCmds.lean ====
section
/-! DEFINITION. MOORING commands and the context engine (R123 to R132, R143, R156), and the start of a COLLECTIVE (R133 to
R137, R156, R158, R168, R342, R345). -/

namespace Sys2Proof.Machine

open Host (Outcome)

/-! ### MOORING (R108, R124) -/

/-! The payload's fields. -/

def Cmd.subop (c : Cmd) : Nat := c.fld 4 0 4
def Cmd.moMoor (c : Cmd) : Nat := c.fld 4 8 14
def Cmd.moJob (c : Cmd) : Nat := c.fld 4 24 12
def Cmd.moMember (c : Cmd) : Nat := c.fld 4 36 12
def Cmd.moEpoch (c : Cmd) : Nat := c.fld 4 48 16
def Cmd.moLen (c : Cmd) : Nat := c.fld 6 0 64

/-- Whether the subcommand takes an image. -/
def Cmd.takesImage (c : Cmd) : Bool := c.subop = 0 || c.subop = 2 || c.subop = 3

/-- The copy of a command's image that acceptance made (R125). -/
def State.staged (s : State) (c : Cmd) : Sum Nat (List Byte) :=
  ((s.mo.staging.find? fun x => x.1 = (c.ring, c.seq)).map (·.2)).getD (.inr [])

def Cmd.image (s : State) (c : Cmd) : List Byte := match s.staged c with | .inr bs => bs | .inl _ => []

def Cmd.headerOnly (c : Cmd) : Bool := c.subop = 3 && c.moLen = 64

/-- The context that a command's image gives: a header-only ADOPT keeps the tables (R129). -/
def State.newCtx (s : State) (c : Cmd) : Ctx :=
  let bs := c.image s
  if c.headerOnly then
    let h := parseHeader bs
    let o := s.ctx c.moMoor
    { h with bitmap := o.bitmap, sliceMap := o.sliceMap, table := o.table, perm := o.perm, store := o.store,
             pages := o.pages }
  else parseImage bs

/-- Whether a COLLECTIVE on a Mooring has been accepted and has no record. -/
def State.collPending (s : State) (m : Nat) : Bool := s.rings.cmds.any fun c => c.type = 2 && c.fld 4 0 14 = m

/-- Whether RETIRE of a context makes it FREE. -/
def State.retiresFree (s : State) (m : Nat) : Bool :=
  s.ctxState m = Cs.retained || s.get F.MO_CTX_STATE_RETAIN [m] = 0

/-- Whether the state of the context allows the subcommand (R123); a context lost in both copies takes only REFORM and RETIRE to
FREE (R208). -/
def State.allows (s : State) (c : Cmd) : Bool :=
  let st := s.ctxState c.moMoor
  (!(s.ctx c.moMoor).lost || c.subop = 2 || (c.subop = 4 && s.retiresFree c.moMoor)) &&
  match c.subop with
  | 0 => st = Cs.free
  | 1 => st = Cs.active
  | 2 => st = Cs.active
  | 3 => st = Cs.retained
  | 4 => st = Cs.active || st = Cs.retained
  | _ => false

/-- The checks of the descriptor itself. -/
def State.mooringDesc (s : State) (c : Cmd) : Option Nat :=
  let x := s.ctx c.moMoor
  let m := c.moMoor
  let known := s.ctxState m ≠ Cs.free
  minOpt (payloadBad c 0xFFFFFFFFFF3FFF0F#64 (BitVec.allOnes 64) (BitVec.allOnes 64) 0)
    (lowestBad [(0x20, c.subop > 4), (0x21, !s.allows c), (0x21, c.subop = 4 && s.collPending m),
      (0x23, known && (c.subop = 1 || c.subop = 2 || c.subop = 4) && c.moJob ≠ s.job m),
      (0x24, c.subop = 1 && (c.moMember ≥ x.members || !x.bitmap.testBit c.moMember)),
      (0x28, !s.ptrSelf (c.word 5)), (0x30, !s.ptrFits (c.word 5) (if c.takesImage then c.moLen else 0)),
      (0x30, !c.takesImage && c.moLen ≠ 0),
      (0x30, c.takesImage && c.moLen ≠ 0 && !c.headerOnly && (
        let bs := c.image s
        !imageZero bs && c.moLen ≠ imageLen (parseHeader bs).members (parseHeader bs).permEn))])

/-- The checks of the image (R132), header-only images against the tables kept (R129). -/
def State.mooringImage (s : State) (c : Cmd) : Option Nat :=
  let bs := c.image s
  let o := s.ctx c.moMoor
  let h := parseHeader bs
  let sh := if s.shardBad c.moMoor bs then some 0x12 else none
  if c.headerOnly then
    minOpt (minOpt (headerFault bs o.members) sh)
      (lowestBad [(0x02, h.permEn ≠ o.permEn), (0x04, h.members ≠ o.members), (0x06, imgCount bs ≠ popcount 4096 o.bitmap)])
  else minOpt (minOpt (headerFault bs h.members) sh) (s.tableFault bs)

/-- Start checks in the order of R107: BAD_DESCRIPTOR, ZERO_SIZE, EPOCH_STALE, NO_RESOURCE (R124). -/
def State.mooringCheck (s : State) (c : Cmd) : Option CheckFail :=
  let m := c.moMoor
  let x := s.newCtx c
  let n := imgCount (c.image s)
  let full := c.takesImage && !c.headerOnly
  firstFail [
    badAt (s.mooringDesc c),
    if c.takesImage && c.moLen = 0 then some ⟨St.zeroSize, 0, 0⟩ else none,
    if c.takesImage then (match s.staged c with | .inl o => badIn 0x28 (some o) | .inr _ => none) else none,
    if c.takesImage && imageZero (c.image s) then some ⟨St.zeroSize, 0, 0⟩ else none,
    if c.takesImage then badIn 0x28 (s.mooringImage c) else none,
    if c.subop ≠ 0 && c.moEpoch ≠ s.epoch m then some ⟨St.epochStale, 0, 0⟩ else none,
    if (c.subop = 0 || c.subop = 3) && (s.ctxsIn Cs.active).length ≥ 4096 then some ⟨St.noResource, 0, 0⟩ else none,
    if c.takesImage && !s.floorsFit m x n then some ⟨St.noResource, 0, 0⟩ else none,
    if full && roundUp c.moLen 4096 > s.storeFree + (s.ctx m).store then some ⟨St.noResource, 0, 0⟩ else none]

/-! ### Changes of a context (R123, R127 to R130) -/

/-- A context made ACTIVE with an image, in pages of the context store of its own, with the floor judged at the start (R143). -/
def State.activate (s : State) (m : Nat) (x : Ctx) (bs : List Byte) (epoch job : Nat) : State :=
  let old := s.ctx m
  let pages := if x.pages.isEmpty then freePages (s.pagesUsed m) 98304 0 (x.store / 4096) else x.pages
  let x := { x with fences := 0, since := s.now, pages := pages }
  let s := (s.setCtx m (some x)).storeCtx pages
  let n := imgCount bs
  let s := s.wr .MO_CTX_STATE [m] (BitVec.ofNat 64 (Cs.active + (imgRetain bs).toNat * 2 ^ 2 + epoch % 2 ^ 16 * 2 ^ 16
    + job * 2 ^ 32 + n * 2 ^ 44))
  let s := s.wr .MO_CTX_SEQ [m] (BitVec.ofNat 64 (imgPseq bs + imgPseq bs * 2 ^ 32))
  let s := (s.wr .MO_CTX_LIVE [m] 0).put F.MO_CTX_SLIP_FLOOR [m] s.mo.floor
  let s := ((s.showMoor m).showCtxs).showFences m
  let s := if old.shard < 4096 then s.showShard old.shard else s
  if x.shard < 4096 then s.showShard x.shard else s

/-- A context retired. -/
def State.retireCtx (s : State) (m : Nat) : State :=
  let sh := (s.ctx m).shard
  let s := if s.ctxState m = Cs.active && s.get F.MO_CTX_STATE_RETAIN [m] = 1 then
      (s.put F.MO_CTX_STATE_STATE [m] Cs.retained).put F.MO_CTX_SLIP_FLOOR [m] 0
    else
      ((((s.setCtx m none).wr .MO_CTX_STATE [m] 0).wr .MO_CTX_SEQ [m] 0).wr .MO_CTX_SLIP [m] 0).wr .MO_CTX_LIVE [m] 0
  let s := (s.showMoor m).showCtxs
  let s := if s.ctxState m = Cs.active then s.showFences m else
    let sel := s.get F.MO_FENCE_SEL_MOORING
    if sel = m then (List.range 64).foldl (fun s k => s.wr .MO_FENCE_MAP [k] 0) s else s
  if sh < 4096 then s.showShard sh else s

/-- What a MOORING command changes; RESULT is the epoch afterwards, or the one freed. -/
def State.changeCtx (s : State) (c : Cmd) : State × Nat :=
  let m := c.moMoor
  let e := s.epoch m
  let next := (e + 1) % 2 ^ 16
  match c.subop with
  | 0 => (s.activate m (s.newCtx c) (c.image s) c.moEpoch c.moJob, c.moEpoch)
  | 1 => (s.fence m c.moMember false, e)
  | 2 =>
    let dead := if (s.ctx m).verdictAt = s.now then (List.range 4096).filter (s.ctx m).verdicts.testBit else []
    let s := s.stopMoor m St.epochStale none
    (dead.foldl (fun s i => s.fence m i true) (s.activate m (s.newCtx c) (c.image s) next (s.job m)), next)
  | 3 => (s.activate m (s.newCtx c) (c.image s) next c.moJob, next)
  | _ => (s.retireCtx m, e)

/-! ### The context engine (R125) -/

/-- The engine's copy of a command's image is released. -/
def State.unstage (s : State) (ring seq : Nat) : State :=
  { s with mo := { s.mo with staging := s.mo.staging.filter fun x => x.1 ≠ (ring, seq) } }

/-- A MOORING command ends. -/
def State.endMooring (s : State) (c : Cmd) (status detail result result2 : Nat) : State :=
  (s.unstage c.ring c.seq).endCmd c.ring c.seq status detail result result2

/-- RESULT of a MOORING record that fails: the epoch now current, but 0 where DETAIL names the pointer (R115). -/
def State.mooringFail (s : State) (c : Cmd) (f : CheckFail) : State :=
  let ptr := f.status = St.badDescriptor && f.detail = 0x28
  s.endMooring c f.status f.detail (if ptr then 0 else s.epoch c.moMoor) f.result2

/-- The context of a Mooring read before a command uses it: where both copies fail, its running COLLECTIVEs end with DATA_ERROR (R208). -/
def State.useCtx (s : State) (m : Nat) : State :=
  let was := (s.ctx m).lost
  let s := s.readCtx m
  if (s.ctx m).lost && !was then s.stopMoor m St.dataError none else s

/-- The engine takes up the command at the head of its queue: checks, then EVICT at once, any other at its time's end. -/
def State.takeUp : Nat → State → State
  | 0, s => s
  | n + 1, s =>
    match s.mo.engine, s.mo.queue with
    | none, (r, q) :: rest =>
      let s := { s with mo := { s.mo with queue := rest } }
      match s.cmd? r q with
      | none => takeUp n s
      | some c =>
        let s := s.useCtx c.moMoor
        match s.mooringCheck c with
        | some f => takeUp n (s.mooringFail c f)
        | none =>
          if c.subop = 1 then
            let (s, e) := s.changeCtx c
            takeUp n (s.endMooring c St.ok 0 e 0)
          else
            ({ s with mo := { s.mo with engine := some (r, q),
                                        floor := s.planCharge (s.newCtx c) (imgCount (c.image s)) false } } : State).mapCmd r q fun c =>
              { c with stage := .running, startedAt := s.now }
    | _, _ => s

/-- A MOORING command whose waits are over joins the engine's queue. -/
def State.startMooring (s : State) (c : Cmd) : State :=
  if s.mo.queue.contains (c.ring, c.seq) then s
  else State.takeUp (s.mo.queue.length + 1) { s with mo := { s.mo with queue := s.mo.queue ++ [(c.ring, c.seq)] } }

/-- CONTEXT_CHANGE (R125): the change of the command in the engine takes effect, and the engine takes up its next. -/
def execContextChange (ring seq : Nat) (s : State) : Out :=
  .next (match s.cmd? ring seq with
    | none => s
    | some c =>
      if s.mo.engine ≠ some (ring, seq) then s
      else
        let (s, e) := s.changeCtx c
        let s := ({ s with mo := { s.mo with engine := none } } : State).endMooring c St.ok 0 e 0
        State.takeUp s.mo.queue.length s)

/-- A MOORING command is stopped. -/
def State.stopMooring (s : State) (c : Cmd) (status : Nat) : State :=
  let mo := s.mo
  let s : State := { s with mo := { mo with
    queue := mo.queue.filter (· ≠ (c.ring, c.seq)),
    engine := if mo.engine = some (c.ring, c.seq) then none else mo.engine } }
  let s := s.endMooring c status 0 (s.epoch c.moMoor) 0
  State.takeUp s.mo.queue.length s

/-! ### COLLECTIVE (R108, R133 to R137, R158) -/

def Cmd.coMoor (c : Cmd) : Nat := c.fld 4 0 14
def Cmd.coOp (c : Cmd) : Nat := c.fld 4 16 4
def Cmd.coKind (c : Cmd) : Nat := c.fld 4 20 4
def Cmd.coLen (c : Cmd) : Nat := c.fld 5 0 64
def Cmd.coOffset (c : Cmd) : Nat := c.fld 6 0 64
def Cmd.coPseq (c : Cmd) : Nat := c.fld 7 0 32
def Cmd.coEpoch (c : Cmd) : Nat := c.fld 7 32 16

/-- Whether an OP reduces. -/
def opReduces (op : Nat) : Bool := op ≤ 2 || op = 8

/-- Whether KIND is one that OP allows (R133, R134), for a format. -/
def kindOk (op kind : Nat) (f : Fmt) : Bool :=
  if op = 8 then kind ≤ 1
  else if opReduces op then kind ≤ 3 && !(kind = 1 && f.isInt)
  else kind = 0

/-- Whether the pair of formats is one that OP allows (R134, R168). -/
def formatsOk (op : Nat) (i o : Fmt) : Bool :=
  let flt (f : Fmt) : Bool := f = .fp32 || f = .bf16 || f = .fp16
  let upd (f : Fmt) : Bool := flt f || f = .e4m3 || f = .e5m2 || f = .e2m1
  if op = 8 then upd i && upd o
  else if opReduces op then (if i.isInt then o.isInt else !o.isInt)
  else i = o || cvtLegal i o

/-- Whether LENGTH suits the format (R136). -/
def lengthOk (f : Fmt) (n : Nat) : Bool :=
  match f with
  | .fp32 | .int32 => n % 4 = 0
  | .bf16 | .fp16 => n % 2 = 0
  | .int8 => true
  | .e4m3 | .e5m2 => n % 32 = 0
  | .e2m1 => n % 16 = 0
  | .e2m3 | .e3m2 => n % 4096 = 0

/-- The Coll that a command starts. -/
def State.newColl (s : State) (c : Cmd) (hyper : List Byte) : Coll :=
  let m := c.coMoor
  let x := s.ctx m
  let op := c.coOp
  let b := 4096 * s.parcelGr m
  ⟨c.ring, c.seq, m, op, c.coKind, (Fmt.ofCode (c.fld 4 24 4)).getD .fp32, (Fmt.ofCode (c.fld 4 28 4)).getD .fp32,
    c.fld 4 32 1, c.fld 4 48 16, c.coLen, c.coOffset, c.coPseq, c.coEpoch,
    if op = 7 then 1 else (c.coLen + b - 1) / b, 0, 0, 0, [], [], [],
    (spGet none s.pv.binds m).map (·.kid), x.shard, hyper, s.spanOf m⟩

/-- Checks of the descriptor (R158). -/
def State.collDesc (s : State) (c : Cmd) : Option Nat :=
  let m := c.coMoor
  let x := s.ctx m
  let op := c.coOp
  let i := Fmt.ofCode (c.fld 4 24 4)
  let o := Fmt.ofCode (c.fld 4 28 4)
  let fi := i.getD .fp32
  let fo := o.getD .fp32
  let co := s.newColl c []
  let sh := s.shard x.shard
  let lossySpan := match s.spanOf m with | some j => opReduces op && s.lossy j | none => false
  let lastParam := ((c.coOffset + c.coLen) / 4096 * elemCount fi 4096 + elemCount fi ((c.coOffset + c.coLen) % 4096))
  minOpt (payloadBad c 0xFFFF0001FFFF3FFF#64 (BitVec.allOnes 64) (BitVec.allOnes 64) 0x0000FFFFFFFFFFFF#64)
    (if s.ctxState m ≠ Cs.active then some 0x20
    else lowestBad [
      (0x22, op > 8 || !kindOk op c.coKind fi),
      (0x22, (op = 0 || op = 4) && !x.bitmap.testBit x.root),
      (0x22, op = 8 && (x.shard = 0xFFFF || s.shardState x.shard ≠ Sh.live)),
      (0x22, op = 8 && (match sh with
        | some y => decide (y.optimizer = 15) != co.kid.isSome
        | none => false)),
      (0x22, lossySpan && c.coKind ≠ 0),
      (0x23, i.isNone || o.isNone || !formatsOk op fi fo),
      (0x23, lossySpan && fi.isInt),
      (0x23, s.parcelCharge { co with len := 4096 * s.parcelGr m } 0 true > s.sharedPool),
      (0x28, if op = 7 then c.coLen ≠ 0 else !lengthOk fi c.coLen),
      (0x30, c.coOffset % 4096 ≠ 0),
      (0x30, op = 8 && c.coLen ≠ 0 && (match sh with | some y => lastParam > y.params | none => false)),
      (0x38, c.coPseq ≠ s.pseqNext m)])

/-- A COLLECTIVE that has passed its start checks runs: PSEQ_NEXT advances by its parcels (R137). -/
def State.enterColl (s : State) (c : Cmd) (hyper : List Byte) : State :=
  let co := s.newColl c hyper
  let s := s.put F.MO_CTX_SEQ_PSEQ_NEXT [c.coMoor] (c.coPseq + co.parcels)
  { s with mo := { s.mo with colls := s.mo.colls ++ [co] } }

/-- A COLLECTIVE starts. -/
def State.startColl (s : State) (c : Cmd) : State :=
  let m := c.coMoor
  let s := (s.useCtx m).mapCmd c.ring c.seq fun c => { c with stage := .running, startedAt := s.now }
  match s.collDesc c with
  | some d => s.endCmd c.ring c.seq St.badDescriptor d 0 0
  | none =>
    if (s.ctx m).lost then s.endCmd c.ring c.seq St.dataError 0 0 0
    else if c.coEpoch ≠ s.epoch m then s.endCmd c.ring c.seq St.epochStale 0 0 0
    else
      let s := { s with bh := { s.bh with lastJob := spIns s.bh.lastJob (16384 * c.ring + m) (s.job m) } }
      if (s.ctx m).fences ≠ 0 then
        let (st, who) := s.fenceStatus m
        s.endCmd c.ring c.seq st 0 0 (collResult2 0 who)
      else if opReduces c.coOp && (match s.spanOf m with | some j => s.get F.BW_SPAN_STATUS_DEAD [j] ≠ 0 | none => false) then
        s.endCmd c.ring c.seq St.memberLost 0 0 0
      else if c.coLen = 0 && c.coOp ≠ 7 then s.endCmd c.ring c.seq St.ok 0 0 0
      else
        let (s, h) : State × Except Nat (List Byte) := match c.coOp, s.shard (s.ctx m).shard with
          | 8, some y => s.dockRead 1 y.hyper 256
          | _, _ => (s, .ok [])
        match h with
        | .error _ => (s.enterColl c []).stopColl c.ring c.seq St.dataError 0 none
        | .ok h => s.enterColl c h

/-- A COLLECTIVE is stopped. -/
def State.stopCollective (s : State) (c : Cmd) (status : Nat) : State := s.stopColl c.ring c.seq status 0 none

end Sys2Proof.Machine
end

