-- ==== Sys2Proof/Machine/Boathouse.lean ====
section
/-! DEFINITION. Boathouse: SHARD CREATE, DELETE and STRIPE (R161 to R163, R186, R436), COMMIT and its manifest (R177 to R183),
background copy and durability (R184, R185), fragments held for peers (R188 to R190). -/

namespace Sys2Proof.Machine

open Host (Outcome)

/-! ### Regions of Dock and of the Warehouse (R163, R218, R437) -/

/-- The rings and logs in Dock, with the copies in force of staged registers. -/
def State.ringRegions (s : State) : List (Nat × Nat) :=
  let ring (cfg : Fld) (sp ad : Fld) (w i : Nat) : List (Nat × Nat) :=
    if s.cget sp [i] = 2 && s.cget cfg [i] ≠ 0 then [(s.cget ad [i], w * s.cget cfg [i])] else []
  ((List.range 256).flatMap fun i => ring F.WK_RING_CFG_SLOTS F.WK_RING_BASE_SPACE F.WK_RING_BASE_ADDR 64 i)
    ++ ((List.range 256).flatMap fun i => ring F.WK_CQ_CFG_SLOTS F.WK_CQ_BASE_SPACE F.WK_CQ_BASE_ADDR 32 i)
    ++ [(s.cget F.MO_DLOG_BASE_ADDR, 32 * s.cget F.MO_DLOG_CFG_SLOTS)]
    ++ ((List.range 4).map fun p => (s.cget F.HB_LEARN_BASE_ADDR [p], 16 * s.cget F.HB_LEARN_CFG_SLOTS [p]))
    ++ (if s.get F.TL_DUMP_RING_EN = 1 then
        [(s.get F.TL_DUMP_RING_ADDR, 8192 * 2 ^ min 20 (s.get F.TL_DUMP_RING_SLOTS_LOG))] else [])
    ++ (match s.tal.ringNext with
      | some w => if w.getLsbD 63 then [(bits w 0 48, 8192 * 2 ^ min 20 (bits w 48 5))] else []
      | none => [])
    ++ (if s.get F.TL_SAMPLE_RING_EN = 1 then
        [(s.get F.TL_SAMPLE_RING_ADDR, 32 * 2 ^ min 24 (s.get F.TL_SAMPLE_RING_SLOTS_LOG))] else [])

/-- The Dock ranges of the regions that R163 lists. -/
def State.regions (s : State) : List (Nat × Nat) :=
  [(s.rsvBase, dockBytes - s.rsvBase)] ++ s.ringRegions
    ++ [(s.cget F.BW_BUF_BASE_ADDR, s.cget F.BW_BUF_LEN_BYTES)]
    ++ ((List.range 4).filterMap fun k =>
        if s.get F.HM_DOCK_VALID [k] = 1 then some (s.get F.HM_DOCK_BASE_MIB [k] * MiB, s.get F.HM_DOCK_SIZE_MIB [k] * MiB) else none)

/-- Whether a Dock range meets the range of a shard that exists (R437). -/
def State.meetsShard (s : State) (r : Nat × Nat) : Bool := s.onShard Sh.empty r

/-- The two copy slots of a shard as one Warehouse range. -/
def Shard.slots (x : Shard) : Nat × Nat := (x.whBase, 2 * x.slotLen)

/-- Bytes of a manifest of a shard alone, and what it reserves in the manifest store (R218). -/
def Shard.manifestSize (x : Shard) : Nat := 64 + 64 + 160 + 8 * x.blocks
def Shard.manifestRoom (x : Shard) : Nat := roundUp (2 * x.manifestSize) 4096

/-- The place that a new shard takes in the manifest store, from the store's base. -/
def State.manifestPlace (s : State) (x : Shard) : Option Nat :=
  lowestGap 0 (s.cget F.WH_MSTORE_LEN_BYTES) x.manifestRoom 4096
    (s.bh.shards.filterMap fun y => y.2.map fun z => (z.msBase, z.manifestRoom))

/-! ### SHARD (R108, R162, R163) -/

def Cmd.shardNo (c : Cmd) : Nat := c.fld 4 16 16
def Cmd.shLen (c : Cmd) : Nat := c.fld 6 0 64

/-- The shard that a descriptor describes. -/
def parseShard (bs : List Byte) : Shard :=
  let w (i : Nat) : Word64 := word64At bs (8 * i)
  let o := bits (w 0) 16 4
  let planes := match o with | 15 => bits (w 0) 24 4 | 1 => 3 | _ => 2
  let side := match o with | 15 => 64 * bits (w 1) 40 12 | 2 => 256 | 3 => 16384 | _ => 0
  ⟨o, planes, side, bits (w 0) 48 16, bits (w 1) 0 40, ptrAddr (w 2), ptrAddr (w 3), w 4, bits (w 0) 20 4, ptrAddr (w 5),
    bits (w 6) 0 48, none, none, none, 0, none, none, none, none, [], none, none⟩

/-- The first offending byte offset of a shard descriptor (R163). -/
def State.shardFault (s : State) (bs : List Byte) : Option Nat :=
  let w (i : Nat) : Word64 := word64At bs (8 * i)
  let x := parseShard bs
  let user := x.optimizer = 15
  let stray := minOpt (minOpt (strayBit 0 (w 0) 0xFFFFFFFF0FFFFFFF#64) (strayBit 8 (w 1) 0x000FFFFFFFFFFFFF#64))
    (minOpt (strayBit 0x30 (w 6) 0x0000FFFFFFFFFFFF#64) (strayBit 0x38 (w 7) 0))
  minOpt stray (lowestBad [
    (0x00, bits (w 0) 0 16 ≠ 1),
    (0x02, !(x.optimizer ≤ 3 || user) || x.initKind > 2),
    (0x03, !user && bits (w 0) 24 4 ≠ 0),
    (0x0D, (!user && bits (w 1) 40 12 ≠ 0) || bits (w 1) 40 12 > 256),
    (0x10, ptrSpace (w 2) ≠ 2 || x.dockBase % 4096 ≠ 0 || !s.ptrOk (w 2) x.range.2
      || s.meetsShard x.range || s.regions.any fun r => rangesMeet x.range r),
    (0x18, ptrSpace (w 3) ≠ 2 || !s.ptrOk (w 3) 256),
    (0x20, if x.initKind = 2 then ptrSpace (w 4) = 0 || !s.ptrOk (w 4) x.imageBytes else ptrSpace (w 4) ≠ 0 || !s.ptrSelf (w 4)),
    (0x28, !s.whReady || ptrSpace (w 5) ≠ 3 || !s.ptrSelf (w 5)),
    (0x30, !s.ptrFits (w 5) (2 * x.slotLen) || (s.bh.shards.any fun y => match y.2 with | some z => rangesMeet x.slots z.slots | none => false)
      || rangesMeet x.slots (s.cget F.BH_FSTORE_BASE_ADDR, s.cget F.BH_FSTORE_LEN_BYTES)
      || rangesMeet x.slots (s.cget F.WH_MSTORE_BASE_ADDR, s.cget F.WH_MSTORE_LEN_BYTES)),
    (0x30, x.slotLen % 4096 ≠ 0 || x.slotLen < stowSize x.blocks x.labelLen x.blockBytes x.blockBytes)])

/-- Checks of a SHARD descriptor that every SUBOP makes, with its own on the shard's state. -/
def State.shardDesc (s : State) (c : Cmd) (stateBad : Bool) : Option Nat :=
  minOpt (payloadBad c 0x00000000FFFF000F#64 (BitVec.allOnes 64) (BitVec.allOnes 64) 0)
    (lowestBad [(0x20, c.subop > 3), (0x22, c.shardNo > 4095 || stateBad), (0x28, !s.ptrSelf (c.word 5)),
      (0x30, !s.ptrFits (c.word 5) c.shLen)])

/-- The structure that a SHARD command points to, or the check that fails (R113, R118). -/
def State.shardItem (s : State) (c : Cmd) (len : Nat → Bool) (stateBad : Bool) : State × Except CheckFail (List Byte) :=
  match s.shardDesc c stateBad with
  | some d => (s, .error ⟨St.badDescriptor, d, 0⟩)
  | none =>
    if c.shLen = 0 then (s, .error ⟨St.zeroSize, 0, 0⟩)
    else if !len c.shLen then (s, .error ⟨St.badDescriptor, 0x30, 0⟩)
    else
      match s.ptrRead 1 (c.word 5) c.shLen with
      | (s, .ok bs) => (s, .ok bs)
      | (s, .error o) => (s, .error ⟨St.badDescriptor, 0x28, o⟩)

/-- A command ends by a failed check. -/
def State.failCheck (s : State) (c : Cmd) (f : CheckFail) : State := s.endCmd c.ring c.seq f.status f.detail 0 f.result2

/-- A command is running. -/
def State.running (s : State) (c : Cmd) : State := s.mapCmd c.ring c.seq fun c => { c with stage := .running, startedAt := s.now }

/-- SHARD CREATE starts. -/
def State.startShardCreate (s : State) (c : Cmd) : State :=
  let s := s.running c
  let n := c.shardNo
  match s.shardItem c (· = 64) (s.shardState n ≠ Sh.free) with
  | (s, .error f) => s.failCheck c f
  | (s, .ok bs) =>
    let x := parseShard bs
    match s.shardFault bs with
    | some o => s.failCheck c ⟨St.badDescriptor, 0x28, o⟩
    | none =>
      if x.params = 0 || (x.optimizer = 15 && x.planes = 0) then s.failCheck c ⟨St.zeroSize, 0, 0⟩
      else if (s.manifestPlace x).isNone || s.bh.shards.length ≥ 4096 then s.failCheck c ⟨St.noResource, 0, 0⟩
      else
        let s := s.setShard n (some { x with msBase := (s.manifestPlace x).getD 0 })
        let s := (s.wr .BH_SH_FAULT [n] 0).wr .BH_SH_EPOCH [n] 0
        let s := s.put F.BH_SH_EPOCH_COMMITTED [n] (bits (word64At bs 0) 32 16)
        if x.initKind = 0 then (s.setShardState n Sh.empty).endCmd c.ring c.seq St.ok 0 0 0
        else ({ s with bh := { s.bh with loads := s.bh.loads ++ [(c.ring, c.seq, n)] } } : State).setShardState n Sh.loading

/-- The load of a shard is given up. -/
def State.dropLoad (s : State) (n : Nat) : State := { s with bh := { s.bh with loads := s.bh.loads.filter fun l => l.2.2 ≠ n } }

/-- INIT_LOAD_COMPLETE (R436): the state and the digest table are written; LOADING becomes LIVE. -/
def execInitLoadComplete (shard : Nat) (s : State) : Out :=
  .next (match s.bh.loads.find? fun l => l.2.2 = shard, s.shard shard with
    | some (r, q, _), some x =>
      let res := (List.range x.blocks).foldl (fun (acc : State × Bool) b =>
        if acc.2 then acc
        else if x.initKind = 1 then (acc.1.writeBlock x b (List.replicate x.blockBytes 0), false)
        else
          match acc.1.memRead 1 (ptrSpace x.initSrc) (ptrAddr x.initSrc + b * x.blockBytes) x.blockBytes with
          | (s, .ok bs) => (s.writeBlock x b (x.trim (b * x.blockBytes) bs), false)
          | (s, .error _) => (s, true)) (s.dropLoad shard, false)
      if res.2 then (res.1.setShardState shard Sh.empty).endCmd r q St.dataError 0 0 0
      else (res.1.setShardState shard Sh.live).endCmd r q St.ok 0 0 0
    | _, _ => s)

/-- SHARD DELETE starts (R162). -/
def State.startShardDelete (s : State) (c : Cmd) : State :=
  let s := s.running c
  let n := c.shardNo
  let st := s.shardState n
  let busy := match s.shard n with | some x => x.freeze.isSome | none => false
  match minOpt (s.shardDesc c (!(st = Sh.empty || st = Sh.live) || (s.shardMoor n).isSome || busy))
      (lowestBad [(0x30, c.shLen ≠ 0)]) with
  | some d => s.failCheck c ⟨St.badDescriptor, d, 0⟩
  | none =>
    let s : State := { s with bh := { s.bh with served := s.bh.served.filter (·.shard ≠ n), resends := s.bh.resends.filter (·.shard ≠ n) } }
    (((s.setShard n none).wr .BH_SH_FAULT [n] 0).wr .BH_SH_STATE [n] 0 |>.showShard n).showShards.endCmd c.ring c.seq St.ok 0 0 0

/-! ### Stripes (R186, R187) -/

/-- A stripe descriptor: K, M, RESEND, the manifest pointer, the holders. -/
def parseStripe (bs : List Byte) : Stripe × Bool × Word64 :=
  let w := word64At bs 0
  let n := bits w 0 5 + bits w 8 3
  (⟨bits w 0 5, bits w 8 3, (List.range n).map fun f => (natAt bs (0x10 + 16 * f) 3, natAt bs (0x14 + 16 * f) 2)⟩,
    bits w 16 1 = 1, word64At bs 8)

/-- The first offending byte offset of a stripe descriptor. -/
def State.stripeFault (s : State) (bs : List Byte) (rebuild : Bool) : Option Nat :=
  let (st, _, m) := parseStripe bs
  let hs := st.holders
  let n := hs.length
  minOpt (minOpt (strayBit 0 (word64At bs 0) 0x1071F#64)
      (lowestBad [(0x00, st.k > 16), (0x01, st.m > 4), (0x08, !rebuild && m ≠ 0)]))
    (lowestBad ((List.range n).flatMap fun f =>
      let a := 0x10 + 16 * f
      let h := (hs[f]?).getD (0, 0)
      [(a, s.isOwn h.1 || (List.range f).any fun g => ((hs[g]?).getD (0, 0)).2 = h.2),
        (a + 3, natAt bs (a + 3) 1 ≠ 0), (a + 6, natAt bs (a + 6) 2 ≠ 0), (a + 8, natAt bs (a + 8) 8 ≠ 0)]))

/-- Fragment size F (R187). -/
def fragBytes (image k : Nat) : Nat := 4096 * ((image + 4096 * k - 1) / (4096 * k))

/-- The K + M fragments of an image. -/
def fragmentsOf (st : Stripe) (image : List Byte) : List (List Byte) :=
  let f := fragBytes image.length st.k
  let data := (List.range st.k).map fun j =>
    let x := (image.drop (j * f)).take f
    x ++ List.replicate (f - x.length) 0
  data ++ (List.range st.m).map fun i => gfCombine f ((data.zipIdx).map fun x => (cauchy st.m i x.2, x.1))

/-- The image that a shard's encoder holds. -/
def Freeze.image (f : Freeze) (blocks : Nat) : List Byte :=
  (List.range blocks).flatMap fun b => spGet [] f.encoder b

/-- The rows of fragment `i` sent to its holder, which answers the last. -/
def State.sendFragment (s : State) (n : Nat) (epoch : Nat) (sdigest : Word64) (ep i : Nat) (bs : List Byte) : State :=
  let rows := bs.length / 4096
  (List.range rows).foldl (fun s r =>
    let x : BhExt := ⟨Bt.frag, 0, n, epoch, i, 0, r, 0, 0, sdigest⟩
    let row := (bs.drop (4096 * r)).take 4096
    if r + 1 = rows then s.askBh ep x row else s.sendBh ep x row) s

/-- Whether fragments move (BH_CTRL.BG_LINK_SHARE; R201). -/
def State.fragsMove (s : State) : Bool := s.get F.BH_CTRL_BG_LINK_SHARE ≠ 0

/-- A peer's verdict ends with a STRIPE or REBUILD that names it (R190). -/
def State.revive (s : State) (st : Stripe) : State :=
  { s with bh := { s.bh with deadPeers := s.bh.deadPeers.filter fun e => !(st.holders.any fun h => h.1 = e) } }

/-- The offset of a shard's entry in a manifest (R183). -/
def entryOff (m : List Byte) (n : Nat) : Option Nat :=
  ((List.range (natAt m 0xE 2)).find? fun i => natAt m (0x40 + 64 * i) 2 = n).map (0x40 + 64 * ·)

/-- What a manifest says of shard `n`. -/
structure ManShard where
  epoch : Nat
  params : Nat
  sdigest : Word64
  stripe : Option Stripe
  bdt : List Word64

def manShard (m : List Byte) (n : Nat) : ManShard :=
  let o := (entryOff m n).getD 0x40
  let params := natAt m (o + 8) 5
  let k := natAt m (o + 0x20) 1 % 32
  let mm := natAt m (o + 0x21) 1 % 8
  let l := natAt m (o + 0x28) 8
  let b := natAt m (o + 0x30) 8
  ⟨natAt m 6 2, params, word64At m (o + 0x18),
    if k = 0 then none else some ⟨k, mm, (List.range (k + mm)).map fun f => (natAt m (l + 8 * f) 3, natAt m (l + 8 * f + 4) 2)⟩,
    (List.range ((params + 1023) / 1024)).map fun i => word64At m (b + 8 * i)⟩

/-! #### The manifest store (R183, R218) -/

/-- A manifest of shard `n` alone, out of one that names it. -/
def soloManifest (m : List Byte) (n : Nat) : List Byte :=
  let o := (entryOff m n).getD 0x40
  let frags := natAt m (o + 0x20) 1 % 32 + natAt m (o + 0x21) 1 % 8
  let blocks := (natAt m (o + 8) 5 + 1023) / 1024
  let rest := (m.drop o).take 0x28 ++ leBytes 128 8 ++ leBytes (128 + 8 * frags) 8 ++ leBytes 0 8
    ++ (m.drop (natAt m (o + 0x28) 8)).take (8 * frags) ++ (m.drop (natAt m (o + 0x30) 8)).take (8 * blocks)
  m.take 0x0E ++ leBytes 1 2 ++ (m.drop 0x10).take 8 ++ leBytes (64 + rest.length) 8 ++ List.replicate 24 0
    ++ wordBytes (granuleDigest rest) ++ rest

/-- The epochs of the two manifests that the store keeps for a shard. -/
def Shard.man (x : Shard) (i : Nat) : Option Nat := if i = 0 then x.manA else x.manB

def Shard.setMan (x : Shard) (i : Nat) (e : Option Nat) : Shard := if i = 0 then { x with manA := e } else { x with manB := e }

/-- Where the store keeps a manifest of an epoch. -/
def Shard.manOf (x : Shard) (epoch : Nat) : Option Nat := [0, 1].find? fun i => x.man i = some epoch

/-- Whether epoch `e` is older than `held`. -/
def epochOlder (e held : Nat) : Bool := let d := (held + 2 ^ 16 - e) % 2 ^ 16; d ≠ 0 && d < 2 ^ 15

/-- Where a manifest of an epoch goes: over one of the same epoch, into an empty place, over the older; never over one that R196
keeps. -/
def Shard.manFor (x : Shard) (epoch : Nat) : Nat :=
  let free := [0, 1].filter fun i => x.heldMan ≠ some i
  let older (i : Nat) : Bool := match x.man i, x.man (1 - i) with
    | some a, some b => epochOlder a b || !free.contains (1 - i)
    | _, _ => true
  ((free.find? fun i => x.man i = some epoch).orElse fun _ => (free.find? fun i => x.man i = none).orElse fun _ =>
    free.find? older).getD 0

def State.manAddr (s : State) (x : Shard) (i : Nat) : Nat := s.cget F.WH_MSTORE_BASE_ADDR + x.msBase + i * x.manifestSize

/-- A shard's part of a manifest written into the store. -/
def State.keepManifest (s : State) (n epoch : Nat) (m : List Byte) : State :=
  match s.shard n with
  | none => s
  | some x =>
    if !s.whReady then s
    else (s.whWrite (s.manAddr x (x.manFor epoch)) (soloManifest m n)).setShard n (some (x.setMan (x.manFor epoch) (some epoch)))

/-- The manifest of an epoch that the store keeps for a shard. -/
def State.keptManifest (s : State) (x : Shard) (epoch : Nat) : State × Option (List Byte) :=
  match x.manOf epoch with
  | none => (s, none)
  | some i =>
    match s.whRead (s.manAddr x i) x.manifestSize with
    | (s, .ok m) => (s, some (m.take (natAt m 0x18 8)))
    | (s, .error _) => (s, none)

/-! #### RESEND (R186) -/

/-- The image of an epoch, where Dock and the Warehouse copy hold every block of it. -/
def State.epochImage (s : State) (x : Shard) (e : ManShard) : State × Option (List Byte) :=
  (List.range x.blocks).foldl (fun (acc : State × Option (List Byte)) b =>
    match acc.2 with
    | none => acc
    | some l =>
      match acc.1.epochBlock x e.epoch ((e.bdt[b]?).getD 0) b with
      | (s, some y) => (s, some (l ++ y))
      | (s, none) => (s, none)) (s, some [])

/-- Fragments of the newest committed epoch are announced to the holders that changed since it was striped; none where no source holds
the epoch whole. -/
def State.resendEpoch (s : State) (n : Nat) (x : Shard) (st : Stripe) : State :=
  match s.keptManifest x (s.committed n) with
  | (s, none) => s
  | (s, some m) =>
    let e := manShard m n
    match s.epochImage x e with
    | (s, none) => s
    | (s, some image) =>
      ((fragmentsOf st image).zipIdx).foldl (fun (s : State) f =>
        let ep := ((st.holders[f.2]?).getD (0, 0)).1
        let same : Bool := match e.stripe with
          | some t => t.k = st.k && t.m = st.m && ((t.holders[f.2]?).getD (0, 0)).1 = ep
          | none => false
        let r : Resend := ⟨n, e.epoch, e.sdigest, f.2, ep, f.1, 0⟩
        if same then s
        else ({ s with bh := { s.bh with resends := s.bh.resends ++ [r] } } : State).askBh ep
          ⟨Bt.announce, 0, n, e.epoch, f.2, 0, 0, 0, 0, e.sdigest⟩ []) s

/-- Fragments that their new holders have room for leave. -/
def State.sendResends (s : State) (n : Nat) : State :=
  if !s.fragsMove then s
  else
    s.bh.resends.foldl (fun s r =>
      if r.shard = n && r.stage = 1 then
        ({ s with bh := { s.bh with resends := s.bh.resends.map fun y => if y = r then { r with stage := 2 } else y } } : State).sendFragment
          n r.epoch r.sdigest r.endpoint r.fidx r.bytes
      else s) s

/-- The answer of a changed holder: `stage` it answers, and whether it is content. -/
def State.resendAnswer (s : State) (src : Nat) (x : BhExt) (stage : Nat) (good : Resend → Bool) : State :=
  match s.bh.resends.find? fun r => r.shard = x.shard && r.epoch = x.epoch && r.fidx = x.fidx && r.endpoint = src && r.stage = stage with
  | none => s
  | some r =>
    if !good r then
      ({ s with bh := { s.bh with resends := s.bh.resends.filter fun y => y ≠ r } } : State).put F.BH_SH_FAULT_LOST [r.shard]
        (s.get F.BH_SH_FAULT_LOST [r.shard] ||| 2 ^ r.fidx)
    else if stage = 0 then
      ({ s with bh := { s.bh with resends := s.bh.resends.map fun y => if y = r then { r with stage := 1 } else y } } : State).sendResends
        r.shard
    else { s with bh := { s.bh with resends := s.bh.resends.filter (· ≠ r) } }

/-- SHARD STRIPE starts. With RESEND, holders that changed are sent the newest committed epoch's fragments. -/
def State.startStripe (s : State) (c : Cmd) : State :=
  let s := s.running c
  let n := c.shardNo
  match s.shardItem c (fun l => 16 ≤ l && l % 16 = 0) (s.shardState n = Sh.free) with
  | (s, .error f) => s.failCheck c f
  | (s, .ok bs) =>
    let (st, resend, _) := parseStripe bs
    match s.stripeFault bs false with
    | some o => s.failCheck c ⟨St.badDescriptor, 0x28, o⟩
    | none =>
      if st.k = 0 then s.failCheck c ⟨St.zeroSize, 0, 0⟩
      else if c.shLen ≠ 16 + 16 * (st.k + st.m) then s.failCheck c ⟨St.badDescriptor, 0x30, 0⟩
      else
        let s : State := (((s.revive st).mapShard n fun x => { x with stripe := some st }).put F.BH_SH_FAULT_LOST [n] 0).showShard n
        let s : State := match s.shard n, resend with
          | some x, true => s.resendEpoch n x st
          | _, _ => s
        s.endCmd c.ring c.seq St.ok 0 0 0

/-! ### COMMIT (R177 to R183) -/

def Cmd.cmFirst (c : Cmd) : Nat := c.fld 4 0 16
def Cmd.cmCount (c : Cmd) : Nat := c.fld 4 16 16
def Cmd.cmEpoch (c : Cmd) : Nat := c.fld 4 32 16
/-- DURABLE_EN and DURABLE_EVENT. -/
def Cmd.durEn (c : Cmd) : Bool := c.fld 6 0 1 = 1
def Cmd.durEvent (c : Cmd) : Nat := c.fld 4 48 16
def Cmd.cmShards (c : Cmd) : List Nat := (List.range c.cmCount).map (c.cmFirst + ·)

/-- Bytes of a manifest over shards. -/
def manifestLen (xs : List Shard) : Nat :=
  64 + 64 * xs.length + xs.foldl (fun n x => n + 8 * (match x.stripe with | some t => t.k + t.m | none => 0) + 8 * x.blocks) 0

/-- A shard's entry, with the offset of its stripe list. -/
def manifestEntry (n : Nat) (x : Shard) (f : Freeze) (off : Nat) : List Byte :=
  let (k, m) := match x.stripe with | some t => (t.k, t.m) | none => (0, 0)
  leBytes (n + x.optimizer * 2 ^ 16 + x.domain * 2 ^ 20) 8 ++ leBytes x.params 8 ++ leBytes x.blockBytes 8 ++ wordBytes f.sdigest
    ++ leBytes (k + m * 2 ^ 8) 8 ++ leBytes off 8 ++ leBytes (off + 8 * (k + m)) 8 ++ leBytes 0 8

/-- A shard's stripe list and block digest table. -/
def manifestTail (x : Shard) (f : Freeze) : List Byte :=
  (match x.stripe with | some t => t.holders.flatMap fun h => leBytes (h.1 + h.2 * 2 ^ 32) 8 | none => []) ++ f.bdt.flatMap wordBytes

/-- A manifest (R183). -/
def State.manifest (s : State) (epoch job : Nat) (l : List (Nat × Shard × Freeze)) : List Byte :=
  let base := 64 + 64 * l.length
  let r := l.foldl (fun (acc : List Byte × List Byte) y =>
    (acc.1 ++ manifestEntry y.1 y.2.1 y.2.2 (base + acc.2.length), acc.2 ++ manifestTail y.2.1 y.2.2)) ([], [])
  let rest := r.1 ++ r.2
  leBytes (0x464E4D42 + 2 ^ 32 + epoch * 2 ^ 48) 8 ++ leBytes (s.primary + job * 2 ^ 24 + l.length * 2 ^ 48) 8
    ++ wordBytes s.timeWord ++ leBytes (64 + rest.length) 8 ++ List.replicate 24 0 ++ wordBytes (granuleDigest rest) ++ rest

/-- Whether a frozen epoch of a shard is still being made durable. -/
def State.copying (s : State) (n : Nat) : Bool := match (s.shard n).bind (·.freeze) with | some f => !f.refused | none => false

/-- Whether a shard's previous commit runs still, or is neither durable nor failed. -/
def State.commitOpen (s : State) (n : Nat) : Bool := ((s.shard n).bind (·.freeze)).isSome

/-- Whether it cannot progress (R178). -/
def State.stuck (s : State) (n : Nat) : Bool :=
  match (s.shard n).bind (·.freeze) with
  | some f => s.get F.BH_CTRL_BG_HOLD = 1 || (!s.fragsMove && f.stripe.isSome && (!f.fragsSent || !f.awaitFack.isEmpty))
  | none => false

/-- Start checks of COMMIT (R177). -/
def State.commitCheck (s : State) (c : Cmd) : Option CheckFail :=
  let ns := c.cmShards
  let xs := ns.filterMap s.shard
  let len := if c.cmCount = 0 then 0 else manifestLen xs
  firstFail [
    badAt (minOpt (payloadBad c (BitVec.allOnes 64) (BitVec.allOnes 64) 1 0)
      (lowestBad [(0x22, c.cmCount ≠ 0 && (c.cmFirst + c.cmCount > 4096 || ns.any fun n => s.shardState n ≠ Sh.live)),
        (0x28, !s.ptrOk (c.word 5) len)])),
    if ns.any fun n => c.cmEpoch ≠ (s.committed n + 1) % 2 ^ 16 then some ⟨St.epochStale, 0, 0⟩ else none,
    if xs.any fun x => match x.stripe with
        | some t => t.holders.any fun h => s.bh.deadPeers.contains h.1
        | none => false then some ⟨St.memberLost, 0, 0⟩ else none]

/-- Every frozen copy of a COMMIT is discarded, and its waiting marks (R181). -/
def State.discardFreeze (s : State) (ring seq : Nat) : State :=
  (s.bh.shards.map (·.1)).foldl (fun s n =>
    s.mapShard n fun x => { x with
      freeze := match x.freeze with | some f => if f.ring = ring && f.seq = seq && !f.committed then none else some f | none => none,
      waiting := x.waiting.erase (ring, seq) }) s

/-- The shards that a COMMIT has frozen and not yet committed. -/
def State.frozenBy (s : State) (ring seq : Nat) : Nat :=
  (s.bh.shards.filter fun x => match x.2.bind (·.freeze) with
    | some f => f.ring = ring && f.seq = seq && !f.committed
    | none => false).length

/-- A COMMIT ends with a status other than OK (R115, R181). -/
def State.endCommitCmd (s : State) (ring seq status : Nat) : State :=
  (s.discardFreeze ring seq).endCmd ring seq status 0 0 (s.frozenBy ring seq)

/-- Durability of a shard's epoch is reached (R184). -/
def State.makeDurable (s : State) (n : Nat) : State :=
  match (s.shard n).bind (·.freeze) with
  | none => s
  | some f =>
    let s := s.mapShard n fun x => { x with durable := some f.epoch, freeze := none }
    let s : State := match f.event with | some e => s.evAdd e 1 | none => s
    (s.showShard n).showShards

/-- Whether a shard's frozen epoch has become durable. -/
def State.checkDurable (s : State) (n : Nat) : State :=
  match s.shard n with
  | none => s
  | some x =>
    match x.freeze with
    | some f => if f.committed && !f.refused && f.next = x.blocks && f.awaitFack.isEmpty && (f.slot.bind x.copySlot).isSome
          && (f.stripe.isNone || s.fragsMove) then s.makeDurable n else s
    | none => s

/-- A frozen shard's manifest takes its TIME, and its epoch is committed: the holders' FACKs are awaited from now. -/
def State.stampFreeze (s : State) (n : Nat) : State :=
  s.mapShard n fun x => match x.freeze with
    | some f => { x with freeze := some { f with
        committed := true, manifest := f.manifest.take 0x10 ++ wordBytes s.timeWord ++ f.manifest.drop 0x18,
        awaitFack := match f.stripe with | some t => List.range (t.k + t.m) | none => [] } }
    | none => x

/-- The manifest of a shard's committed freeze is kept in the Warehouse's store (R218). -/
def State.keepFrozen (s : State) (n : Nat) : State :=
  match (s.shard n).bind (·.freeze) with
  | some f => s.keepManifest n f.epoch f.manifest
  | none => s

/-- A freeze that a holder refused ends with its commit: durability fails, and its copy is discarded. -/
def State.dropRefused (s : State) (n : Nat) : State :=
  match (s.shard n).bind (·.freeze) with
  | some f => if f.refused then (s.durableFail f).mapShard n fun x => { x.clearSlot f.slot with freeze := none } else s
  | none => s

/-- A shard's freeze is committed as an epoch. -/
def State.commitShard (s : State) (epoch n : Nat) : State :=
  ((((s.stampFreeze n).keepFrozen n).put F.BH_SH_EPOCH_COMMITTED [n] epoch).dropRefused n).showShard n

/-- Steps 5 and 6 of R180, once no holder's answer is awaited: the record, and each shard's committed epoch. -/
def State.commitDone (s : State) (ring seq : Nat) : State :=
  let mine (n : Nat) : Option (Shard × Freeze) :=
    (s.shard n).bind fun x => x.freeze.bind fun f => if f.ring = ring && f.seq = seq && !f.committed then some (x, f) else none
  let ns := (s.bh.shards.map (·.1)).filter fun n => (mine n).isSome
  if ns.isEmpty || ns.any fun n => match mine n with | some (_, f) => !f.awaitAck.isEmpty | none => false then s
  else
    let ptr : Word64 := match s.cmd? ring seq with | some c => c.word 5 | none => 0
    let epoch := (((ns.head?.bind mine).map fun y => y.2.epoch)).getD 0
    let s := s.memWrite (ptrSpace ptr) (ptrAddr ptr + 0x10) (wordBytes s.timeWord)
    (ns.foldl (fun s n => s.commitShard epoch n) s).showShards.endCmd ring seq St.ok 0 epoch ns.length

/-- Steps 2 to 5 of R180: every shard is frozen, the manifest written, ANNOUNCE sent to every holder. -/
def State.freezeAll (s : State) (c : Cmd) : State :=
  let ev := if c.durEn then some c.durEvent else none
  let r := c.cmShards.foldl (fun (acc : State × Bool) n =>
    if acc.2 then acc
    else
      match s.shard n with
      | none => acc
      | some x =>
        match acc.1.dockRead 1 (x.tableAddr 0) (8 * x.blocks) with
        | (s, .error _) => (s, true)
        | (s, .ok bs) =>
          let bdt := wordsOf8 bs
          let acks := match x.stripe with | some t => List.range (t.k + t.m) | none => []
          let f : Freeze := ⟨c.ring, c.seq, c.cmEpoch, bdt, shardDigest bdt c.cmEpoch x.params, [], x.stripe, acks, [], false, false, 0,
            [], [], false, x.freeSlot, ev⟩
          (s.mapShard n fun x => { x.clearSlot x.freeSlot with freeze := some f, waiting := x.waiting.erase (c.ring, c.seq) }, false))
            (s, false)
  if r.2 then r.1.endCommitCmd c.ring c.seq St.dataError
  else
    let s := r.1
    let l := c.cmShards.filterMap fun n => (s.shard n).bind fun x => x.freeze.map fun f => (n, x, f)
    let job := match s.shardMoor c.cmFirst with | some m => spGet 0 s.bh.lastJob (16384 * c.ring + m) | none => 0
    let m := s.manifest c.cmEpoch job l
    let s := s.memWrite (ptrSpace (c.word 5)) (ptrAddr (c.word 5)) m
    let s : State := l.foldl (fun s y =>
      let s := s.mapShard y.1 fun x => { x with freeze := x.freeze.map fun f => { f with manifest := m } }
      let hs : List ((Nat × Nat) × Nat) := match y.2.2.stripe with | some t => t.holders.zipIdx | none => []
      let s : State := hs.foldl (fun s h => s.askBh h.1.1 ⟨Bt.announce, 0, y.1, c.cmEpoch, h.2, 0, 0, 0, 0, y.2.2.sdigest⟩ []) s
      s.showShard y.1) s
    s.commitDone c.ring c.seq

/-- COMMIT starts, or waits for a shard's previous commit (R178); one that has waited is checked again as it starts. -/
def State.startCommit (s : State) (c : Cmd) : State :=
  let ns := c.cmShards
  match s.commitCheck c with
  | some f => (s.discardFreeze c.ring c.seq).failCheck c f
  | none =>
    if ns.any s.stuck then s.endCommitCmd c.ring c.seq St.noResource
    else if ns.any s.commitOpen then
      ns.foldl (fun s n => s.mapShard n fun x => { x with waiting := x.waiting.erase (c.ring, c.seq) ++ [(c.ring, c.seq)] }) s
    else if c.cmCount = 0 then s.endCmd c.ring c.seq St.ok 0 c.cmEpoch 0
    else (s.running c).freezeAll c

/-- A write of BH_CTRL (R178): COMMITs that wait on what can no longer progress end with NO_RESOURCE. -/
def State.bgHold (s : State) (req : Requester) (value : Word64) : State :=
  let s := s.applyWrite req .BH_CTRL [] value
  ((s.bh.shards.filter fun x => s.stuck x.1).flatMap fun x => match x.2 with | some y => y.waiting | none => []).eraseDups.foldl
    (fun s w => s.endCommitCmd w.1 w.2 St.noResource) s

/-- BG_HOLD (R178). -/
def execBgHold (req : Requester) (value : Word64) (s : State) : Out :=
  .next (s.rowWrite req .BH_CTRL [] (·.bgHold req value))

/-! ### Background copy (R184, R185) -/

/-- The fragments of a wholly read image leave for their holders. -/
def State.sendFragments (s : State) (n : Nat) : State :=
  match s.shard n with
  | none => s
  | some x =>
    match x.freeze.bind (·.stripe), x.freeze with
    | some t, some f =>
      if f.fragsSent || !s.fragsMove then s
      else
        let s := ((fragmentsOf t (f.image x.blocks)).zipIdx).foldl (fun s y =>
          s.sendFragment n f.epoch f.sdigest ((t.holders[y.2]?).getD (0, 0)).1 y.2 y.1) s
        s.mapShard n fun x => { x with freeze := some { f with fragsSent := true } }
    | _, _ => s

/-- Blocks copied in a row. -/
def Freeze.settle (f : Freeze) (blocks : Nat) : Freeze :=
  let n := ((List.range blocks).find? fun b => f.next ≤ b && !f.ahead.contains b).getD blocks
  { f with next := n, ahead := f.ahead.filter (n ≤ ·) }

/-- The copy is complete: its header, label and slot (R184). -/
def State.finishCopy (s : State) (n : Nat) (x : Shard) (f : Freeze) : State :=
  let b := x.blocks
  let total := stowSize b x.labelLen x.blockBytes x.blockBytes
  let label := leBytes f.epoch 8 ++ wordBytes f.sdigest ++ (f.manifest.drop ((entryOff f.manifest n).getD 0x40)).take 64
    ++ f.bdt.flatMap wordBytes
  let slot := f.slot.getD 0
  let a := x.slotAddr slot
  let s := s.whWrite a (stowHeader true b x.blockBytes x.blockBytes x.labelLen total)
  let s := s.whWrite (a + 0x40 + roundUp (8 * b) 64) label
  (s.mapShard n fun x => x.setCopySlot slot (some ⟨f.epoch, f.sdigest⟩)).showShard n

/-- BACKGROUND_COPY (R184): the next frozen block of a committed epoch is read and copied; after the last, the slot is
labelled and the fragments leave. Fragments to be sent again leave too. -/
def execBackgroundCopy (shard : Nat) (s : State) : Out :=
  let s := s.sendResends shard
  .next (match s.shard shard with
    | none => s
    | some x =>
      match x.freeze with
      | none => s
      | some f =>
        if !f.committed || f.refused || s.get F.BH_CTRL_BG_HOLD = 1 then s
        else
          let s := if f.next < x.blocks then s.copyBlock shard f.next else s
          let s := s.mapShard shard fun x => { x with freeze := x.freeze.map fun f => f.settle x.blocks }
          match s.shard shard with
          | none => s
          | some x =>
            match x.freeze with
            | none => s
            | some f =>
              if f.next < x.blocks then s.showShard shard
              else
                let s := if (f.slot.bind x.copySlot).isNone then s.finishCopy shard x f else s
                (s.sendFragments shard).checkDurable shard)

/-! ### Boathouse packets: acceptance (R188) -/

/-- A packet of the Boathouse kind taken from those that wait. -/
def State.takeBh (s : State) (p : Nat) (pkt : Packet) : State :=
  { s with basin := { s.basin with toBoathouse := s.basin.toBoathouse.erase (p, pkt) } }

/-- Whether the peer table accepts a packet: its source, and both JOBs. -/
def State.peerOk (s : State) (pkt : Packet) (x : BhExt) : Bool :=
  s.peerJob pkt.hdr.src = some x.job && pkt.hdr.job = x.job

/-- A received Boathouse packet of a BTYPE: dropped where its peer is not accepted, else it answers what awaits it and is handled
with its extension and payload. A packet of another BTYPE is left to its own row; one of a reserved BTYPE is discarded. -/
def State.boathouse (s : State) (btype p : Nat) (pkt : Packet) (f : State → BhExt → List Byte → State) : State :=
  let x := parseBh pkt.body
  if pkt.body.length < 32 || !s.peerOk pkt x then (s.takeBh p pkt).bump F.BH_DROP_PEER
  else if x.btype ≥ 8 then s.takeBh p pkt
  else if x.btype ≠ btype then s
  else f ((s.takeBh p pkt).answered pkt.hdr.src x) x ((pkt.body.drop 32).take x.len)

/-- A holder is lost or refuses its fragment: the fault bit, and durability fails (R184). -/
def State.holderLost (s : State) (n fidx : Nat) : State :=
  (s.put F.BH_SH_FAULT_LOST [n] (s.get F.BH_SH_FAULT_LOST [n] ||| 2 ^ fidx)).failDurability n

/-- BOATHOUSE_ACK (R180, R189): a holder's answer to the ANNOUNCE of a COMMIT; a refusal fails durability only. -/
def execBoathouseAck (port : Nat) (pkt : Packet) (s : State) : Out :=
  .next (s.boathouse Bt.ack port pkt fun s x _ =>
    let s := s.resendAnswer pkt.hdr.src x 0 fun _ => x.code = 0
    match s.shard x.shard with
    | none => s
    | some sh =>
      match sh.freeze.bind (·.stripe), sh.freeze with
      | some t, some f =>
        if epochOlder x.epoch f.epoch then s.bump F.BH_DROP_STALE
        else if x.epoch ≠ f.epoch || (t.holders[x.fidx]?).map (·.1) ≠ some pkt.hdr.src || !f.awaitAck.contains x.fidx then s
        else
          let s := s.mapShard x.shard fun y => { y with freeze := some { f with awaitAck := f.awaitAck.erase x.fidx } }
          let s := if x.code = 0 then s else s.holderLost x.shard x.fidx
          s.commitDone f.ring f.seq
      | _, _ => s)

/-- FACK (R184): a holder has its fragment whole, with the digest it must have, or refuses it. -/
def State.fragmentAck (s : State) (pkt : Packet) (x : BhExt) : State :=
  let s := s.resendAnswer pkt.hdr.src x 2 fun r => x.code = 0 && r.bytes.length / 4096 ≤ x.seq && x.digest = granuleDigest r.bytes
  match s.shard x.shard with
  | none => s
  | some sh =>
    match sh.freeze.bind (·.stripe), sh.freeze with
    | some t, some f =>
      if epochOlder x.epoch f.epoch then s.bump F.BH_DROP_STALE
      else if x.epoch ≠ f.epoch || (t.holders[x.fidx]?).map (·.1) ≠ some pkt.hdr.src || !f.awaitFack.contains x.fidx then s
      else
        let frag := ((fragmentsOf t (f.image sh.blocks))[x.fidx]?).getD []
        if x.code ≠ 0 then s.holderLost x.shard x.fidx
        else if x.seq < frag.length / 4096 then s
        else if x.digest ≠ granuleDigest frag then s.holderLost x.shard x.fidx
        else
          (s.mapShard x.shard fun y => { y with freeze := some { f with awaitFack := f.awaitFack.erase x.fidx } }).checkDurable x.shard
    | _, _ => s

/-! ### Fragments held for peers (R189) -/

/-- Whether a fragment is that of an owner's shard and index. -/
def Fragment.is (f : Fragment) (owner shard fidx : Nat) : Bool := f.owner = owner && f.shard = shard && f.fidx = fidx

/-- The label that a fragment is stored with (R189, R191): epoch and SDIGEST. -/
def Fragment.label (f : Fragment) : List Byte := leBytes f.epoch 8 ++ wordBytes f.sdigest

/-- The bytes that a fragment slot reserves (R225). -/
def Fragment.size (f : Fragment) : Nat := stowSize f.total 16 4096 4096

/-- BH_FSTORE_USED brought up to date: bytes reserved or held, uncompressed. -/
def State.showStore (s : State) : State :=
  s.put F.BH_FSTORE_USED_BYTES [] (s.bh.frags.foldl (fun n f => n + f.size) 0)

def State.setFrags (s : State) (l : List Fragment) : State := ({ s with bh := { s.bh with frags := l } } : State).showStore

/-- A refusal or acknowledgement of a fragment. -/
def State.sendFack (s : State) (owner : Nat) (x : BhExt) (code rows : Nat) (digest : Word64) : State :=
  s.sendBh owner ⟨Bt.fack, 0, x.shard, x.epoch, x.fidx, code, rows, 0, digest, x.sdigest⟩ []

/-- ANNOUNCE (R189): room for the fragment is reserved, or CODE 1 answered. The packet does not carry the fragment's
size, so the rows it has are a free value. -/
def execAnnounce (port : Nat) (pkt : Packet) (s : State) : Out :=
  .next (s.boathouse Bt.announce port pkt fun s x _ =>
    let o := pkt.hdr.src
    let mine := s.bh.frags.filter fun f => f.is o x.shard x.fidx
    if mine.any fun f => epochOlder x.epoch f.epoch then s.bump F.BH_DROP_STALE
    else
      let (r, s) := s.fresh
      let f : Fragment := ⟨o, x.shard, x.fidx, x.epoch, x.sdigest, [], r.toNat % 2 ^ 28 + 1, false, 0⟩
      let keep := s.bh.frags.filter fun f => !(f.is o x.shard x.fidx && !f.whole)
      let base := s.cget F.BH_FSTORE_BASE_ADDR
      let at_ := if s.whReady then lowestGap base (base + s.cget F.BH_FSTORE_LEN_BYTES) f.size 64 (keep.map fun g => (g.place, g.size)) else none
      let s := s.setFrags (match at_ with | some a => keep ++ [{ f with place := a }] | none => keep)
      s.sendBh o ⟨Bt.ack, 0, x.shard, x.epoch, x.fidx, if at_.isSome then 0 else 1, 0, 0, 0, x.sdigest⟩ [])

/-- A row of a fragment being received. Every row has passed its digest; after the last the fragment is stored as a Stow stream
with its label, the older one is freed, and FACK carries the digest of the whole. A row of a newer epoch discards what was
received. -/
def State.holdRow (s : State) (owner : Nat) (x : BhExt) (payload : List Byte) : State :=
  if s.bh.frags.any fun f => f.is owner x.shard x.fidx && epochOlder x.epoch f.epoch then s.bump F.BH_DROP_STALE
  else
    match s.bh.frags.find? fun f => f.is owner x.shard x.fidx && !f.whole with
    | none => s.sendFack owner x 3 0 0
    | some f =>
      let others := s.bh.frags.filter (· ≠ f)
      if x.epoch ≠ f.epoch then (s.setFrags others).sendFack owner x 3 0 0
      else if x.sdigest ≠ f.sdigest || f.total ≤ x.seq then s.sendFack owner x 3 0 0
      else
        let f := { f with rows := spIns f.rows x.seq payload }
        if f.rows.length < f.total then s.setFrags (others ++ [f])
        else
          let src := f.rows.flatMap fun r => (r.2 ++ List.replicate 4096 0).take 4096
          let s := s.whWrite f.place (stowPacked 4096 false f.label src)
          (s.setFrags ((others.filter fun g => !g.is owner x.shard x.fidx) ++ [{ f with rows := [], whole := true }])).sendFack owner x 0
            f.total (granuleDigest src)

/-- A row that an owner is asked for again while it sends a fragment. -/
def State.ownRow (s : State) (src : Nat) (x : BhExt) : Option (List Byte) :=
  match s.shard x.shard with
  | none => none
  | some y =>
    match y.freeze.bind (·.stripe), y.freeze with
    | some t, some f =>
      if f.epoch = x.epoch && f.fragsSent && (t.holders[x.fidx]?).map (·.1) = some src then
        some ((((fragmentsOf t (f.image y.blocks))[x.fidx]?).getD []).drop (4096 * x.seq) |>.take 4096)
      else none
    | _, _ => none

/-- FGET (R191): a held fragment's row goes back, unless the Warehouse answers with poison or is not in service; a holder of
no such fragment answers CODE 3. An owner answers for a fragment it is sending. No fragment moves while BG_LINK_SHARE is 0. -/
def execFget (port : Nat) (pkt : Packet) (s : State) : Out :=
  .next (s.boathouse Bt.fget port pkt fun s x _ =>
    let o := pkt.hdr.src
    let reply (s : State) (bs : List Byte) : State :=
      if s.fragsMove then s.sendBh o ⟨Bt.frag, 0, x.shard, x.epoch, x.fidx, 0, x.seq, 0, 0, x.sdigest⟩ bs else s
    let same (f : Fragment) : Bool := f.shard = x.shard && f.fidx = x.fidx
    match s.bh.frags.find? fun f => same f && f.epoch = x.epoch && f.sdigest = x.sdigest && f.whole with
    | some f =>
      if f.total ≤ x.seq then s.sendFack o x 3 0 0
      else
        match s.stowAt f.place x.seq with
        | (s, some bs) => reply s bs
        | (s, none) => s
    | none =>
      match s.ownRow o x, s.bh.resends.find? fun r => r.shard = x.shard && r.epoch = x.epoch && r.fidx = x.fidx && r.endpoint = o && r.stage = 2 with
      | some row, _ => reply s row
      | none, some r => reply s ((r.bytes.drop (4096 * x.seq)).take 4096)
      | none, none =>
        if s.bh.frags.any fun f => same f && epochOlder x.epoch f.epoch then s.bump F.BH_DROP_STALE
        else s.sendFack o x 3 0 0)

end Sys2Proof.Machine
end

