-- ==== Sys2Proof/Machine/Quay.lean ====
section
/-! DEFINITION. The Quays (R288 to R314): frames and control blocks received, replay and credits, bring-up stages, Ethernet
frames, the management bus of the front-panel modules. -/

namespace Sys2Proof.Machine

open Host (Outcome)

/-! ### Stages (R300, R305)

The codewords a port sends are numbered from its entry to stage 4, and from 0 again at stage 6 (R293). -/

def State.setStage (s : State) (p st : Nat) : State :=
  let s := (s.put F.QY_PORT_STATUS_STAGE (pidx p) st).mapPort p fun x => { x with since := s.now }
  if st = 4 then s.mapLink p fun l => { l with tx := LineTx.fresh s.now } else s

/-- Every frame not yet acknowledged is discarded and counted; the link layer restarts (R300). -/
def State.dropLink (s : State) (p : Nat) : State :=
  let lost : Nat :=
    if s.lhPort p then (s.channel (p / 8)).circuits.foldl (fun n c => match c.2 with | some x => n + x.link.replay.length | none => n) 0
    else (s.port p).link.replay.length
  let s := s.bump F.QY_LINK_CNT_LOST (pidx p) lost
  let s := s.mapPort p fun x => { x with link := Link.fresh, locked := [], aligns := [], ident := [], record := none, beaconAt := none }
  if s.lhPort p then
    let c := s.channel (p / 8)
    s.setChannel (p / 8) { c with circuits := c.circuits.map fun k => (k.1, k.2.map fun x => { x with link := Link.fresh }) }
  else s

/-- A return to stage 1 (R300, R305): counted; out of stage 6 its frames are lost and its queues are those of a down
port (R242, R249). A fresh value is drawn for the identity record (R308). -/
def State.toStage1 (s : State) (p : Nat) : State :=
  let was := s.stage p
  if was = 1 then s
  else
    let (r, s) := s.fresh
    let s := (s.advance F.QY_PORT_STATUS_DOWNS (pidx p)).setStage p 1
    let s := s.mapPort p fun x => { x with signalAt := none, random := r.toNat, locked := [], aligns := [], ident := [], record := none }
    if was = 6 then
      let s := if s.isEth p && s.cget F.QY_PORT_CTRL_BEACON_CHK (pidx p) = 0 then s.mapPort p fun x => { x with heardAt := s.now } else s
      ((s.dropLink p).portDown p).slotLinkDown p
    else s

/-- The port leaves service otherwise than at the replay limit, at which it keeps its generation: its next bring-up is a first attempt
(R298, R305, R309). -/
def State.leaveService (s : State) (p : Nat) : State :=
  if s.stage p = 6 then (s.toStage1 p).put F.QY_PORT_STATUS_GEN (pidx p) 0 else s.toStage1 p

/-- The port enters service: credits and LSEQ restart, each credited class of ours is granted INIT_CELLS, a held-down
port carries traffic again (R299, R300, R301). -/
def State.enterService (s : State) (p : Nat) : State :=
  let s := s.setStage p 6
  let s := s.mapPort p fun x => { x with
    link := { Link.fresh with ackAt := s.now, tx := LineTx.fresh s.now }, failed := false, beaconAt := none, inService := s.now }
  let s := { s with basin := { s.basin with downAt := spPut none s.basin.downAt p none } }
  if s.isEth p then s.slotLinkUp p else s.firstCredits p

/-- SIGNAL_DETECT (R305, R309): an enabled port in stage 1 whose lanes run no pattern goes to stage 2, at MAX_GEN on its
first attempt. -/
def execSignalDetect (port : Nat) (s : State) : Out :=
  let prbs := (List.range (s.portWidth port)).any fun i => s.get F.QY_PRBS_CTRL_EN (pidx (port + i)) = 1
  .next (if s.isPort port && s.portEnabled port && s.stage port = 1 && !prbs then
      let s := if s.isEth port then s.put F.QY_PORT_STATUS_GEN (pidx port) 0
        else if s.get F.QY_PORT_STATUS_GEN (pidx port) = 0 then
          let g := s.cget F.QY_PORT_CTRL_MAX_GEN (pidx port)
          s.put F.QY_PORT_STATUS_GEN (pidx port) (if g = 0 then 3 else g)
        else s
      (s.setStage port 2).mapPort port fun x => { x with attemptAt := s.now, signalAt := some s.now }
    else s)

/-- Whether lane indices ascend by one from 0, or descend to 0. -/
def ascending (l : List Nat) : Bool := l = List.range l.length

/-- Whether the lanes show every index of a port once, in any order: an Ethernet port reorders its PCS lanes (R302). -/
def anyOrder (l : List Nat) : Bool := (List.range l.length).all l.contains

/-- The lane that carries each position, where lane `i` has shown index `lanes[i]`. -/
def orderOf (lanes : List Nat) : List Nat := (List.range lanes.length).map fun k => lanes.findIdx (· = k)

/-- TRAINING (R302, R306): in stage 2 the lane indices and inverted lanes that the training frames show, or an Ethernet port's alignment
markers; in stage 3 the end of equalisation. -/
def execTraining (port : Nat) (lanes inverted : List Nat) (s : State) : Out :=
  .next (if s.stage port = 2 then
      if ascending lanes || ascending lanes.reverse || (s.isEth port && anyOrder lanes) then
        let s := s.put F.QY_PORT_STATUS_REVERSED (pidx port) (if ascending lanes || !ascending lanes.reverse then 0 else 1)
        (s.setStage port 3).mapPort port fun x => { x with inverted := inverted, order := orderOf lanes }
      else s.put F.QY_PORT_STATUS_LANE_BAD (pidx port) 1
    else if s.stage port = 3 then s.setStage port 4
    else s)

/-! ### Received codewords (R290 to R294, R297) -/

/-- A received codeword decoded as its port's mode and its lane's polarity have it. -/
def State.rx (s : State) (p : Nat) (w : RxWord) : Option (List Block × Nat) :=
  decodeWord w (!s.isEth p && s.inner p) ((s.port p).inverted.contains (w.lane - p))

/-- A codeword counted: its corrected symbols, or as uncorrectable (R297). -/
def State.countWord (s : State) (p : Nat) (w : RxWord) : State :=
  match s.rx p w with
  | some (_, n) => s.bump F.QY_FEC_CNT_CORR (pidx w.lane) n
  | none => s.bump F.QY_FEC_CNT_UNCORR (pidx w.lane)

/-- The codewords of a frame counted, each once. -/
def State.countWords (s : State) (p : Nat) (ws : List RxWord) : State :=
  ws.foldl (fun s w =>
    if spGet 0 (s.link p).counted w.lane ≤ w.n then
      (s.countWord p w).mapLink p fun l => { l with counted := spPut 0 l.counted w.lane (w.n + 1) }
    else s) s

/-- Whether a codeword is good on its lane (R307); of an Ethernet lane, whether it decodes. -/
def State.goodWord (s : State) (p : Nat) (stuffed : Bool) (w : RxWord) : Bool :=
  if s.isEth p then (s.rx p w).isSome else goodCodeword w (s.inner p) ((s.port p).inverted.contains (w.lane - p)) stuffed

/-- The number of the port message that a lane's codeword is (R293). -/
def State.messageNo (s : State) (p : Nat) (w : RxWord) : Nat :=
  let n := s.portWidth p
  let o := (s.port p).order
  w.n * n + (if o.isEmpty then w.lane - p else o.findIdx (· = w.lane - p))

/-- The bytes of the frame that begins `start` bytes into the frame stream of codewords, those of consecutive messages of the port; none
where one of them does not decode (R296, R297). -/
def State.frameIn (s : State) (p start : Nat) (ws : List RxWord) : Option (List Byte) :=
  let first := (ws.head?.map (s.messageNo p)).getD 0
  let rs := ws.map (s.rx p)
  if ws.isEmpty || rs.any (·.isNone) || (ws.zipIdx.any fun x => s.portOf x.1.lane ≠ p || s.messageNo p x.1 ≠ first + x.2) then none
  else
    let f := (rs.flatMap fun r => match r with | some (bs, _) => bs.flatMap (·.stream) | none => []).drop start
    some (f.take (natAt f 2 2 + 24))

/-- Whether every lane of a port is locked and has shown the same ALIGN, within 64 codewords of each other (R293, R307). -/
def State.deskewed (s : State) (p : Nat) : Bool :=
  let x := s.port p
  let lanes := (List.range (s.portWidth p)).map (p + ·)
  let as := lanes.filterMap fun l => spGet none x.aligns l
  let times := as.map (·.2)
  lanes.all x.locked.contains && as.length = lanes.length && (as.all fun a => as.head?.map (·.1) = some a.1)
    && 20 * (times.foldl max 0 - times.foldl min s.now) ≤ 64 * s.codewordTime p

/-- A port in stage 4 that has deskewed: stage 5, or for Ethernet stage 6. -/
def State.tryDeskew (s : State) (p : Nat) : State :=
  if s.stage p ≠ 4 then s
  else if s.isEth p then
    (if ((List.range (s.portWidth p)).map (p + ·)).all (s.port p).locked.contains then s.enterService p else s)
  else if s.deskewed p then s.setStage p 5 else s

/-- ALIGNMENT_LOCK (R307): a lane locks after 32 good codewords in a row. -/
def execAlignmentLock (rx : LaneWords) (s : State) : Out :=
  let lane := rx.lane
  let p := s.portOf lane
  .next (if s.stage p = 4 && 32 ≤ rx.words.length && rx.words.all (fun w => w.lane = lane && s.goodWord p false w) then
      let s := rx.words.foldl (fun s w => s.countWord p w) s
      (s.mapPort p fun x => { x with locked := if x.locked.contains lane then x.locked else lane :: x.locked }).tryDeskew p
    else s)

/-- ALIGN (R293, R307): the codeword number of a lane. -/
def execAlign (lane n : Nat) (s : State) : Out :=
  let p := s.portOf lane
  .next ((s.mapPort p fun x => { x with aligns := spPut none x.aligns lane (some (n % 2 ^ 40, s.now)) }).tryDeskew p)

/-- LOSS_OF_LOCK (R307): eight bad codewords in a row in stage 6. -/
def execLossOfLock (rx : LaneWords) (s : State) : Out :=
  let p := s.portOf rx.lane
  .next (if s.stage p = 6 && 8 ≤ rx.words.length && rx.words.all (fun w => w.lane = rx.lane && !s.goodWord p true w) then
      let s := s.countWords p rx.words
      (s.mapPort p fun x => { x with locked := x.locked.erase rx.lane }).leaveService p
    else s)

/-- LOSS_OF_SIGNAL (R305). -/
def execLossOfSignal (port : Nat) (s : State) : Out := .next (s.leaveService port)

/-- The limit of a stage in µs (R305); none of stages 1 and 6. -/
def stageLimit : Nat → Option Nat
  | 2 => some 1000
  | 3 => some 100000
  | 4 => some 1000
  | 5 => some 1000
  | _ => none

/-- STAGE_LIMIT (R305): the port has been in its stage for longer than the limit. -/
def execStageLimit (port : Nat) (s : State) : Out :=
  .next (match stageLimit (s.stage port) with
    | none => s
    | some l =>
      if (s.port port).since + us l < s.now then
        let fail := s.stage port ≤ 4
        (s.toStage1 port).mapPort port fun x => { x with failed := fail }
      else s)

/-- GENERATION_STEP_DOWN (R309): stages 2 to 4 have failed within 200 ms of their start. -/
def execGenerationStepDown (port : Nat) (s : State) : Out :=
  let x := s.port port
  .next (if !s.isEth port && s.stage port = 1 && x.failed && s.now ≤ x.attemptAt + us 200000 then
      let g := s.get F.QY_PORT_STATUS_GEN (pidx port)
      let m := s.cget F.QY_PORT_CTRL_MAX_GEN (pidx port)
      let g' := if g ≤ 1 then (if m = 0 then 3 else m) else g - 1
      (s.put F.QY_PORT_STATUS_GEN (pidx port) g').mapPort port fun x => { x with failed := false }
    else s)

/-! ### Identity (R308) -/

/-- The partner's complete record taken: its words, the agreed features, and service unless another endpoint was
expected. -/
def State.takeRecord (s : State) (p : Nat) (r : List Byte) : State :=
  let w (i : Nat) : Word64 := word64At r (8 * i)
  let s := (List.range 5).foldl (fun s k => s.wr .QY_PARTNER (pidx p ++ [k]) (w k)) s
  let feat := ((BitVec.ofNat 8 (bits (w 0) 40 8)) &&& (BitVec.ofNat 8 (s.ownFeatures p))).toNat
  let s := s.put F.QY_PORT_STATUS_FEATURES (pidx p) feat
  if s.cget F.QY_PORT_CTRL_EXPECT_EN (pidx p) = 1 && bits (w 1) 0 24 ≠ s.cget F.QY_PORT_CTRL_EXPECT_EP (pidx p) then
    s.put F.QY_PORT_STATUS_IDENT_MISMATCH (pidx p) 1
  else (s.mapPort p fun x => { x with partner := some (idHash r) }).enterService p

/-- IDENT (R308): block `index` of the partner's record, five bytes; the record must arrive whole twice with equal
content. -/
def execIdent (port index content : Nat) (s : State) : Out :=
  .next (if s.stage port ≠ 5 then s
    else
      let x := s.port port
      let blocks := spIns x.ident (index % 8) (content % 2 ^ 40)
      if blocks.length < 8 then s.setPort port { x with ident := blocks }
      else
        let r := blocks.flatMap fun b => leBytes b.2 5
        let s := s.setPort port { x with ident := [], record := some r }
        if x.record = some r then s.takeRecord port r else s)

/-! ### The link layer (R297 to R299) -/

/-- A NAK with the LSEQ expected. -/
def State.sendNak (s : State) (p : Nat) : State :=
  let l := s.link p
  (s.setLink p { l with nakAt := some s.now }).sendCtl p Ctl.nak l.rxNext

/-- Whether a frame's bytes hold together (R296): marks, zero bytes, FLEN, CRC-64, the class charged, both copies of LSEQ. -/
def frameOk (bs : List Byte) : Bool :=
  let l := natAt bs 2 2
  bs.length = l + 24 && 32 ≤ l && l ≤ 9248 && natAt bs 0 2 = 0xFB && natAt bs (l + 16) 1 = 0xFD
    && natAt bs (l + 17) 3 = (packetOf ((bs.drop 8).take l)).hdr.tc
    && natAt bs (l + 8) 8 = crc64 (bs.take (l + 8)) && natAt bs 4 4 = natAt bs (l + 20) 4

/-- An accepted frame's packet handed to the Basin with its ingress timestamp (R279); its cells will be granted back when they are
free. -/
def State.handOver (s : State) (p : Nat) (pkt : Packet) : State :=
  { s with basin := { s.basin with handed := s.basin.handed ++ [s.entering p pkt] } }

/-- Whether a channel hands frames on: its lit circuit is CONFIRMED and has heard PEER in this interval (R321, R322). -/
def State.rxOpen (s : State) (p : Nat) : Bool :=
  if s.lhPort p then
    let c := s.channel (p / 8)
    match c.lit with
    | some k => c.heard && s.lhState (p / 8) k = 2
    | none => false
  else true

/-- Whether a packet is an echo on a channel's lit circuit (R321). -/
def State.isEcho (s : State) (p : Nat) (pkt : Packet) : Bool :=
  s.lhPort p && (s.channel (p / 8)).lit.isSome && pkt.hdr.kind = 3 && pkt.hdr.flow = 0x11C0

/-- FRAME (R297, R298): the frame that begins `start` bytes into the frame stream of the received codewords. A channel's echo is consumed
(R321). -/
def execFrame (port start : Nat) (words : List RxWord) (s : State) : Out :=
  .next (if s.stage port ≠ 6 || s.isEth port then s
    else
      let bytes := (s.frameIn port start words).getD []
      let len := natAt bytes 2 2
      let pkt := packetOf ((bytes.drop 8).take len)
      let got := (s.frameIn port start words).isSome
      let s := s.countWords port words
      if !(s.rxOpen port || s.isEcho port pkt) then s
      else
        let l := s.link port
        let s := if got && natAt bytes (len + 8) 8 ≠ crc64 (bytes.take (len + 8)) then s.bump F.QY_LINK_CNT_CRC (pidx port) else s
        if got && frameOk bytes && natAt bytes 4 4 = l.rxNext then
          let c := pkt.hdr.tc
          let s := s.setLink port { l with
            rxNext := (l.rxNext + 1) % 2 ^ 32, nakAt := none, taken := spPut 0 l.taken c (spGet 0 l.taken c + frameCredits pkt) }
          let s := s.sendCtl port Ctl.ack l.rxNext
          if s.isEcho port pkt then s.takeEcho (port / 8) (natAt pkt.body 0 4) else s.handOver port pkt
        else if l.nakAt.isNone then s.sendNak port
        else s)

/-- NAK_REPEAT (R298): every REPLAY_US until the expected frame arrives; 0 is treated as 1 (R313). -/
def execNakRepeat (port : Nat) (s : State) : Out :=
  .next (match (s.link port).nakAt with
    | some t => if s.stage port = 6 && t + us (max 1 (s.cget F.QY_PORT_CTRL_REPLAY_US (pidx port))) ≤ s.now
        then s.sendNak port else s
    | none => s)

/-- How far an LSEQ lies behind another. -/
def seqBehind (a b : Nat) : Nat := (b + 2 ^ 32 - a % 2 ^ 32) % 2 ^ 32

/-- ACK (R298): every frame up to `lseq` leaves the replay buffer. -/
def execAck (port lseq : Nat) (s : State) : Out :=
  .next (if s.stage port ≠ 6 then s
    else
      let l := s.link port
      let keep := l.replay.filter fun x => 2 ^ 31 ≤ seqBehind x.1 lseq
      if keep.length = l.replay.length then s
      else s.setLink port { l with replay := keep, ackAt := s.now, replays := 0 })

/-- Frames resent from an LSEQ on, behind a control block whose NFO marks the first of them (R298); after REPLAY_MAX replays in a row
without ACK progress, unless that is 0, the port returns to stage 1. -/
def State.replayFrom (s : State) (p lseq : Nat) : State :=
  let l := s.link p
  let m := s.cget F.QY_PORT_CTRL_REPLAY_MAX (pidx p)
  if m ≠ 0 && m ≤ l.replays then s.toStage1 p
  else
    let fs := l.replay.filter fun x => seqBehind lseq x.1 < 2 ^ 31
    let s := (s.bump F.QY_LINK_CNT_REPLAYS (pidx p)).setLink p
      { l with replays := l.replays + 1, tx := { l.tx with stream := [], opens := true } }
    fs.foldl (fun s x => s.putFrame p x.1 x.2) s

/-- NAK (R298): go-back-N from `lseq`; a NAK outside the window is ignored and counted. -/
def execNak (port lseq : Nat) (s : State) : Out :=
  .next (if s.stage port ≠ 6 then s
    else
      let l := s.link port
      let oldest := match l.replay with | x :: _ => x.1 | [] => l.txNext
      if seqBehind oldest lseq ≤ seqBehind oldest l.txNext then s.replayFrom port lseq
      else s.bump F.QY_LINK_CNT_BADNAK (pidx port))

/-- REPLAY_TIMEOUT (R298): no ACK progress for REPLAY_US; the timer starts again. -/
def execReplayTimeout (port : Nat) (s : State) : Out :=
  let l := s.link port
  .next (if s.stage port ≠ 6 || l.replay.isEmpty
        || s.now < l.ackAt + us (max 1 (s.cget F.QY_PORT_CTRL_REPLAY_US (pidx port))) then s
    else (s.setLink port { l with ackAt := s.now }).replayFrom port ((l.replay.head?.map (·.1)).getD l.txNext))

/-- CREDIT (R295, R299): the cumulative credits granted for a class. -/
def execCredit (port cls total : Nat) (s : State) : Out :=
  .next (if s.stage port ≠ 6 then s
    else
      let l := s.link port
      s.setLink port { l with granted := spPut 0 l.granted (cls % 16) (total % 2 ^ 32) })

/-! ### Beacons (R301, R304) -/

/-- A good beacon reported to the Lodge: it clears the count of missed ones (R301). -/
def State.beaconHeard (s : State) (p : Nat) : State :=
  (((s.mapPort p fun x => { x with heard := true, heardAt := s.now }).put F.LG_PORT_LAST [p] s.ts32)).put F.LG_PORT_MISSED [p] 0

/-- A beacon reported to the Lodge (R301): one of another identity counts as a missed one at the next sample and sets ID_CHANGED. -/
def State.beaconIn (s : State) (p hash : Nat) : State :=
  if (s.port p).partner = some hash then s.beaconHeard p
  else (s.mapPort p fun x => { x with heard := false }).put F.QY_PORT_STATUS_ID_CHANGED (pidx p) 1

/-- BEACON (R295, R301, R321): ID_HASH and the count. -/
def execBeacon (port content : Nat) (s : State) : Out :=
  .next (if s.stage port ≠ 6 then s
    else
      let hash := content % 2 ^ 32
      let s := s.mapPort port fun x => { x with rxBeacons := content / 2 ^ 32 % 2 ^ 16 }
      if s.lhPort port then (s.beaconHeard port).lhBeacon (port / 8) hash else s.beaconIn port hash)

/-- The beacon that is due: at once on entering stage 6 or on a lock, then every 10 µs timed from then (R301, R321). -/
def State.beaconDue (s : State) (p : Nat) : State :=
  match (s.port p).beaconAt with
  | none => s.sendBeacon p (s.port p).inService
  | some t => if t + us 10 ≤ s.now then s.sendBeacon p (t + (s.now - t) / us 10 * us 10) else s

/-- BEACON_SEND (R301, R321): a channel sends while it is locked on a circuit that is CONFIRMING or CONFIRMED. -/
def execBeaconSend (port : Nat) (s : State) : Out :=
  .next (if s.stage port ≠ 6 || s.isEth port || (s.lhPort port && (s.channel (port / 8)).lit.isNone) then s else s.beaconDue port)

/-- ETHERNET_BEACON (R304). -/
def execEthernetBeacon (port : Nat) (s : State) : Out :=
  .next (if s.stage port ≠ 6 || !s.isEth port || (s.slotOf port).isSome
        || s.cget F.QY_PORT_CTRL_BEACON_CHK (pidx port) = 0 then s
    else s.beaconDue port)

/-- ETHERNET_FRAME (R302, R303, R304): a received frame, its FCS last, with the codewords that carried it: one that does not decode spoils
it. On a long-haul port it is no Breakwater frame, and dropped (R329). -/
def execEthernetFrame (port : Nat) (words : List RxWord) (bytes : List Byte) (s : State) : Out :=
  let n := bytes.length
  let body := bytes.take (n - 4)
  let o := if be16At body 12 = 0x8100 then 16 else 12
  .next (if s.stage port ≠ 6 || !s.isEth port then s
    else
      let good := words.all fun w => (s.rx port w).isSome
      let s := s.countWords port words
      if let some i := s.slotOf port then s.bump F.BW_LH_CNT2_ICV_FAIL [i]
      else if !good || n < 64 || 9600 < n || natAt bytes (n - 4) 4 ≠ crc32 body then s.bump F.QY_LINK_CNT_CRC (pidx port)
      else if be16At body o = 0x8808 then s.bump F.QY_LINK_CNT_KIND (pidx port)
      else if be16At body o = s.cget F.QY_ETH_CFG_ETYPE (pidx port) then
        let raw := body.drop (o + 2)
        let pkt := packetOf (raw.take (32 + (packetOf raw).hdr.len))
        if pkt.hdr.kind = 3 && pkt.hdr.flow = 0xBEAC && s.cget F.QY_PORT_CTRL_BEACON_CHK (pidx port) = 1 then
          (let hash := natAt pkt.body 0 4
           let s : State := s.mapPort port fun x =>
             { x with partner := if x.partner.isNone then some hash else x.partner, rxBeacons := natAt pkt.body 4 4 % 2 ^ 16 }
           s.beaconIn port hash)
        else s.handOver port pkt
      else
        let h : Header :=
          { ver := 1, kind := 3, cm := false, mc := false, spray := false, mirrored := false, tc := 0,
            dst := s.cget F.BS_SELF_ENDPOINT [0], src := 0, job := 0, len := body.length,
            hops := s.get F.BS_CTRL_HOPS_INIT, flow := be16At body o, fseq := 0, tstamp := s.ts32, hcrc := 0 }
        (s.noteFrame port false body (etherPtp body) (s.ingressStamp port)).toLocal port ⟨h.fill, body⟩)

/-! ### Patterns and the management bus (R310, R312) -/

/-- The bit errors of the symbols after the first 64 in a row without one; none where there is no such run, of which `run` symbols have
been seen. -/
def afterLock : Nat → List Nat → Option (List Nat)
  | run, l =>
    if 64 ≤ run then some l
    else match l with
      | [] => none
      | e :: rest => afterLock (if e = 0 then run + 1 else 0) rest
termination_by structural _ l => l

/-- PRBS_CHECKER_LOCK (R310): the checker locks after 64 error-free symbols and then counts. -/
def execPrbsCheckerLock (rx : LaneErrors) (s : State) : Out :=
  let lane := rx.lane
  .next (if s.get F.QY_PRBS_CTRL_EN (pidx lane) = 0 then s
    else
      match if s.get F.QY_PRBS_CNT_LOCK (pidx lane) = 1 then some rx.errors else afterLock 0 rx.errors with
      | some l => (s.put F.QY_PRBS_CNT_LOCK (pidx lane) 1).bump F.QY_PRBS_CNT_ERRORS (pidx lane) (l.foldl (· + ·) 0)
      | none => s)

/-- PRESENT_L (R312). -/
def execPresentL (quay : Nat) (level : Bool) (s : State) : Out :=
  .next (s.put F.QY_CMIS_STATUS_PRESENT_L [quay] level.toNat)

/-- INT_L (R312). -/
def execIntL (quay : Nat) (level : Bool) (s : State) : Out :=
  .next (s.put F.QY_CMIS_STATUS_INT_L [quay] level.toNat)

/-- The bytes of QY_CMIS_DATA. -/
def State.cmisData (s : State) (q : Nat) : List Byte :=
  (List.range 16).flatMap fun k => wordBytes (s.rd .QY_CMIS_DATA [q, k])

/-- A write to QY_CMIS_CMD (R312, R313): a GO is dropped while BUSY, fails where LEN exceeds 128, and with LEN 0 does
nothing and reports OK. Bank and page are selected where they differ from the last ones. -/
def State.cmisGo (s : State) (q : Nat) (v : Word64) : State :=
  let p := applyFields false (regDesc .QY_CMIS_CMD).fields (s.rd .QY_CMIS_CMD [q]) v
  let s := s.wr .QY_CMIS_CMD [q] p.1
  let len := bits v 18 8
  if bits v 27 1 = 0 || s.get F.QY_CMIS_STATUS_BUSY [q] = 1 then s
  else if len > 128 then s.put F.QY_CMIS_STATUS_RESULT [q] St.badDescriptor
  else if len = 0 then s.put F.QY_CMIS_STATUS_RESULT [q] St.ok
  else
    let c : Cmis := ⟨bits v 26 1 = 1, bits v 16 2, bits v 8 8, bits v 0 8, len⟩
    let sel := spGet (256, 256) s.quays.cmisSel q
    let s := if sel = (c.bank, c.page) then s
      else ({ s with quays := { s.quays with cmisSel := spPut (256, 256) s.quays.cmisSel q (c.bank, c.page) } } : State).send
        (.cmis q true c.bank c.page 126 2 [BitVec.ofNat 8 c.bank, BitVec.ofNat 8 c.page])
    let s := s.send (.cmis q c.write c.bank c.page c.addr c.len (if c.write then (s.cmisData q).take c.len else []))
    ({ s with quays := { s.quays with cmis := spPut none s.quays.cmis q (some c) } } : State).put F.QY_CMIS_STATUS_BUSY [q] 1

/-- CMIS_READ (R312): a GO without WRITE. -/
def execCmisRead (req : Requester) (quay : Nat) (value : Word64) (s : State) : Out :=
  .next (s.rowWrite req .QY_CMIS_CMD [quay] (·.cmisGo quay (putBits (putBits value 26 1 0) 27 1 1)))

/-- CMIS_WRITE (R312): a GO with WRITE. -/
def execCmisWrite (req : Requester) (quay : Nat) (value : Word64) (s : State) : Out :=
  .next (s.rowWrite req .QY_CMIS_CMD [quay] (·.cmisGo quay (putBits (putBits value 26 1 1) 27 1 1)))

/-- A transaction ends with NACK (R312, R398); which status code RESULT then shows is not given: a free value. -/
def State.cmisNack (s : State) (q : Nat) : State :=
  let (r, s) := s.fresh
  (s.put F.QY_CMIS_STATUS_NACK [q] 1).put F.QY_CMIS_STATUS_RESULT [q] r.toNat

/-- CMIS_COMPLETE (R312): `ack` false where the module did not acknowledge; `bytes` are those read. -/
def execCmisComplete (quay : Nat) (ack : Bool) (bytes : List Byte) (s : State) : Out :=
  .next (match spGet none s.quays.cmis quay with
    | none => s
    | some c =>
      let s := { s with quays := { s.quays with cmis := spPut none s.quays.cmis quay none } }
      let s := s.put F.QY_CMIS_STATUS_BUSY [quay] 0
      if !ack then s.cmisNack quay
      else
        let s := s.put F.QY_CMIS_STATUS_RESULT [quay] St.ok
        if c.write then s
        else
          let all := (List.range 128).map fun i =>
            if i < c.len then (bytes[i]?).getD 0 else ((s.cmisData quay)[i]?).getD 0
          (List.range 16).foldl (fun s k => s.wr .QY_CMIS_DATA [quay, k] (word64At all (8 * k))) s)

/-- A write to QY_INJECT (R311): one flipped bit, which is corrected, or sixteen corrupted symbols, which are not, in the lane's next codeword;
a bad CRC waits for the port's next frame; beacons are suppressed. ARM clears as the injection is made. -/
def State.inject (s : State) (req : Requester) (p : Nat) (v : Word64) : State :=
  let s := s.applyWrite req .QY_INJECT (pidx p) v
  if s.get F.QY_INJECT_ARM (pidx p) = 0 then s
  else
    let k := s.get F.QY_INJECT_KIND (pidx p)
    let n := s.get F.QY_INJECT_COUNT (pidx p)
    let q := s.portOf p
    let s := s.put F.QY_INJECT_ARM (pidx p) 0
    match k with
    | 2 => s.mapPort q fun x => { x with badCrc := true }
    | 3 => s.mapPort q fun x => { x with suppress := n }
    | _ => s.mapPort q fun x => { x with flip := x.flip ++ [(p, k)] }

end Sys2Proof.Machine
end

