-- ==== Sys2Proof/Machine/Breakwater.lean ====
section
/-! DEFINITION. Breakwater's frames and timers (R331 to R346): frames heard, sequence and acknowledgement, coding blocks,
site partials, key agreement, outages. -/

namespace Sys2Proof.Machine

open Host (Outcome)

/-! ### Sequence numbers (R332) -/

/-- How far TSEQ `b` lies above `a`, modulo 2^48. -/
def tseqAbove (a b : Nat) : Nat := (b % 2 ^ 48 + 2 ^ 48 - a % 2 ^ 48) % 2 ^ 48

/-- Whether an ACK point has passed a TSEQ. -/
def tseqPassed (t ack : Nat) : Bool := t ≠ ack && tseqAbove t ack < 2 ^ 47

/-! ### Resending and acknowledging (R332, R333, R335) -/

/-- A packet of the window sent again: its TSEQ, BLOCK and IDX stay, and it forms no parity. -/
def State.resend (s : State) (i : Nat) (pk : BwPkt) : State :=
  (s.bump F.BW_LH_CNT1_RETX [i]).sendBw i
    { bwHdr (if pk.isPartial then 5 else 0) with idx := pk.idx, block := pk.block, tseq := pk.tseq } pk.payload

/-- A frame that carries the ACK point: ACK 2, NAK 3, KEEPALIVE 4. -/
def State.sendPoint (s : State) (i btype : Nat) (payload : List Byte) : State :=
  s.sendBw i { bwHdr btype with tseq := (s.slot i).ackPoint } payload

def State.sendAck (s : State) (i : Nat) : State :=
  (s.mapSlot i fun x => { x with ackSent := s.now, sinceAck := 0 }).sendPoint i 2 []

/-! ### Hearing (R331, R338, R346) -/

/-- Whether a frame passes its ICV and replay checks on an installed association. -/
def State.authentic (s : State) (i : Nat) (f : BwIn) : Bool :=
  f.icv && f.an < 4 && (s.cget F.BW_SA_CFG_RX_EN [i]).testBit f.an
    && spGet 0 (s.slot i).pnTop f.an ≤ f.pn + s.cget F.BW_SA_CFG_REPLAY_WIN [i]

/-- A frame is heard: a responder's first frame under a new association turns its own transmit association (R340), and a
slot in OUTAGE whose link is up is UP again within HOLD_S and resends from the peer's ACK point. -/
def State.hear (s : State) (i : Nat) (f : BwIn) : State :=
  let x := s.slot i
  let s := s.setSlot i { x with heardAt := s.now, pnTop := spPut 0 x.pnTop f.an (max (spGet 0 x.pnTop f.an) (f.pn + 1)) }
  let turn := match x.keyx with
    | some k => !k.initiator && k.an = f.an && s.cget F.BW_SA_CFG_TX_AN [i] ≠ f.an
    | none => false
  let s := if turn then (s.put F.BW_SA_CFG_TX_AN [i] f.an).cput F.BW_SA_CFG_TX_AN [i] f.an else s
  if s.slotState i = Bw.outage && !s.wintering && s.linkUp (s.slotPort i)
      && s.now ≤ x.stateAt + us (1000000 * s.get F.BW_TIMERS_HOLD_S) then
    let s := (s.setSlotState i Bw.up).mapSlot i fun x => { x with ackMoved := s.now, resentAt := s.now }
    let point := s.get F.BW_LH_ACK_PEER_ACK [i]
    let pks := (s.slot i).window.filter fun pk => !tseqPassed pk.tseq point
    pks.foldl (fun s pk => s.resend i pk) s
  else s

/-- What a received frame of a long-haul port comes to in the row of BTYPE `row`: the slot and the state that has heard it, or none where it
is dropped (R329, R331, R338). A frame of another type that is not reserved is its own row's. -/
def State.bwFrame (s : State) (row port : Nat) (f : BwIn) : Except State (Nat × State) :=
  match s.slotOf port with
  | none => .error s
  | some i =>
    if s.stage port ≠ 6 || s.slotState i = Bw.down || (f.btype < 8 && f.btype ≠ row) then .error s
    else if !s.authentic i f then .error (s.bump F.BW_LH_CNT2_ICV_FAIL [i])
    else
      let s := s.hear i f
      if f.ver ≠ 1 || 8 ≤ f.btype then .error (s.bump F.BW_DROP_UNKNOWN) else .ok (i, s)

/-- A frame's row: `body` for a slot that carries packets, UP or STALLED. -/
def State.bwRow (s : State) (row port : Nat) (f : BwIn) (body : Nat → State → State) : Out :=
  match s.bwFrame row port f with
  | .error s => .next s
  | .ok (i, s) => .next (if s.slotState i = Bw.up || s.slotState i = Bw.stalled then body i s else s)

/-- The latest ACK point received. -/
def State.peerAck (s : State) (i t : Nat) : State := s.put F.BW_LH_ACK_PEER_ACK [i] t

/-! ### Site partials (R343, R344) -/

/-- The fields of a partial's sub-header. -/
structure PartialHdr where
  moor : Nat
  job : Nat
  epoch : Nat
  site : Nat
  entry : Nat
  form : Nat
  stow : Bool
  pseq : Nat
  off : Nat
  total : Nat
deriving DecidableEq, Repr

def partialHdr (bs : List Byte) : PartialHdr :=
  let w0 := word64At bs 0
  ⟨bits w0 0 14, bits w0 14 12, bits w0 26 16, bits w0 42 4, bits w0 46 4, bits w0 50 2, bits w0 52 1 = 1,
    natAt bs 8 4, natAt bs 16 4, natAt bs 20 4⟩

/-- The form whole, once its pieces cover it. -/
def wholeForm (ps : List PartialPiece) (total : Nat) : Option (List Byte) :=
  (List.range total).mapM fun i =>
    (ps.find? fun p => p.off ≤ i && i < p.off + p.bytes.length).bind fun p => p.bytes[i - p.off]?

/-- A site's form has come whole: a damaged Stow stream ends the COLLECTIVE; a coded form goes to the decoding kernel;
words are the site's sum. -/
def State.siteForm (s : State) (c : Coll) (k : Nat) (h : PartialHdr) (bytes : List Byte) : State :=
  if h.form = 2 then
    let o := s.mo.order
    ({ s with mo := { s.mo with order := o + 1 } } : State).mapParcel c.ring c.seq k fun x =>
      { x with codecs := x.codecs ++ [⟨h.entry, h.site, false, bytes, o⟩] }
  else
    match if h.stow then stowSource bytes else some bytes with
    | none => s.stopColl c.ring c.seq St.dataError 0 none
    | some b => s.mapParcel c.ring c.seq k fun x => { x with siteSums := x.siteSums ++ [(h.entry, h.site, b)] }

/-- A partial taken, none where its parcel is not admitted yet. -/
def State.takePartial (s : State) (payload : List Byte) : Option State :=
  let h := partialHdr payload
  let stale := s.bump F.BW_DROP_STALE
  match s.spanOf h.moor with
  | none => some stale
  | some j =>
    if h.epoch ≠ s.cget F.BW_SPAN_CFG_SPAN_EPOCH [j] || h.job ≠ s.job h.moor then some stale
    else
      match s.findParcel h.moor h.pseq with
      | none => if (h.pseq + 2 ^ 32 - s.gateNext h.moor % 2 ^ 32) % 2 ^ 32 < 2 ^ 31 then none else some s
      | some (c, x) =>
        if !c.spanned || h.site = s.site || !(s.spanSites j).contains h.site || (s.granLens c x.k).length ≤ h.entry
            || (x.siteSums.any fun y => y.1 = h.entry && y.2.1 = h.site)
            || (x.codecs.any fun y => y.entry = h.entry && y.site = h.site && !y.encode) then some s
        else
          let piece : PartialPiece := ⟨h.entry, h.site, h.form, h.stow, h.off, h.total, payload.drop 24⟩
          let mine (p : PartialPiece) : Bool := p.entry = h.entry && p.site = h.site
          let ps := x.pieces.filter mine ++ [piece]
          match wholeForm ps h.total with
          | none => some (s.mapParcel c.ring c.seq x.k fun x => { x with pieces := x.pieces ++ [piece] })
          | some bytes =>
            let s := s.mapParcel c.ring c.seq x.k fun x => { x with pieces := x.pieces.filter fun p => !mine p }
            some ((s.siteForm c x.k h bytes).showSpan j)

/-! ### Receiving packets (R333, R334) -/

/-- Whether the Basin can take a packet of a lossless class now, those handed over before it counted. -/
def State.bwRoom (s : State) (p : Nat) (pkt : Packet) : Bool :=
  let c := pkt.hdr.tc
  let ahead := s.basin.handed.foldl (fun n x => if x.cameIn p c then n + x.pkt.cells else n) 0
  s.fits p c (ahead + pkt.cells)

/-- A packet or partial taken at once, none where it must wait. -/
def State.bwTake (s : State) (i : Nat) (isPartial : Bool) (payload : List Byte) : Option State :=
  if isPartial then s.takePartial payload
  else
    let p := s.slotPort i
    let pkt := packetOf payload
    if (s.get F.BS_CTRL_LOSSLESS).testBit pkt.hdr.tc && !s.bwRoom p pkt then none else some (s.handOver p pkt)

/-- A packet delivered or held in the RX area; none where the area is full. -/
def State.bwDeliver (s : State) (i : Nat) (isPartial : Bool) (payload : List Byte) : Option State :=
  match s.bwTake i isPartial payload with
  | some s => some s
  | none =>
    let x := s.slot i
    if x.rxBytes + payload.length ≤ s.cget F.BW_LH_WIN_RX_MIB [i] * MiB then
      some ((s.setSlot i { x with rx := x.rx ++ [(isPartial, payload)] }).showSlot i)
    else none

/-- Packets of the RX area that can be taken now. -/
def State.drainRx (s : State) (i : Nat) : State :=
  let held := (s.slot i).rx
  if held.isEmpty then s
  else
    (held.foldl (fun (s : State) h =>
      match s.bwTake i h.1 h.2 with
      | some s => s
      | none => s.mapSlot i fun x => { x with rx := x.rx ++ [h] }) (s.mapSlot i fun x => { x with rx := [] })).showSlot i

/-- The ACK point moved past what has been received; `n` bounds the steps. -/
def BwSlot.advance (x : BwSlot) : Nat → BwSlot
  | 0 => x
  | n + 1 =>
    if x.got.contains x.ackPoint then
      { x with got := x.got.erase x.ackPoint, ackPoint := (x.ackPoint + 1) % 2 ^ 48 }.advance n
    else x

/-- A TSEQ is marked received; TSEQs passed over are gaps from now. -/
def BwSlot.mark (x : BwSlot) (t now : Nat) : BwSlot :=
  let old := tseqAbove x.ackPoint x.top
  let d := tseqAbove x.ackPoint t
  let gaps := (List.range (d - old)).foldl (fun g k => spPut none g ((x.top + k) % 2 ^ 48) (some now)) x.gaps
  let x := { x with got := t :: x.got, gaps := spPut none gaps t none, naks := spPut none x.naks t none,
                    top := if old ≤ d then (t + 1) % 2 ^ 48 else x.top, sinceAck := x.sinceAck + 1 }
  let x := x.advance (x.got.length + 1)
  { x with blocks := x.blocks.filter fun b => !(64 ≤ tseqAbove b.base x.ackPoint && tseqAbove b.base x.ackPoint < 2 ^ 47) }

/-- Marked, and acknowledged after every 1,024 packets. -/
def State.received (s : State) (i t : Nat) : State :=
  let s := s.mapSlot i fun x => x.mark t s.now
  if 1024 ≤ (s.slot i).sinceAck then s.sendAck i else s

/-- Whether a TSEQ is within reach and not received yet (R333). -/
def BwSlot.fresh? (x : BwSlot) (t : Nat) : Bool := tseqAbove x.ackPoint t ≤ 2 ^ 24 && !x.got.contains t

/-! ### Coding blocks (R337) -/

/-- A unit noted in its block; a block of the same number but another base is a new one. -/
def BwSlot.note (x : BwSlot) (no base idx : Nat) (shape : Option (Nat × Nat)) (unit : Bool × List Byte) : BwSlot :=
  let (b, rest) : BwBlock × List BwBlock := match x.blocks.find? fun b => b.no = no && b.base = base with
    | some b => (b, x.blocks.filter fun b => b.no ≠ no)
    | none => (⟨no, base, none, []⟩, x.blocks.filter fun b => b.no ≠ no)
  let b := { b with shape := if shape.isSome then shape else b.shape, units := spIns b.units idx unit }
  { x with blocks := rest ++ [b] }

/-- One data unit recovered by decoding: its packet is delivered and marked. A unit does not say whether it was DATA or
PARTIAL: that is free. -/
def State.recovered (s : State) (i t : Nat) (unit : List Byte) : State :=
  if !(s.slot i).fresh? t then s
  else
    let (r, s) := s.fresh
    match s.bwDeliver i (bits r 0 1 = 1) ((unit.drop 2).take (natAt unit 0 2)) with
    | none => s
    | some s => (s.bump F.BW_LH_CNT1_FEC_REC [i]).received i t

/-- A block decoded once any K' of its units are present. -/
def State.tryDecode (s : State) (i no : Nat) : State :=
  match (s.slot i).blocks.find? fun b => b.no = no with
  | none => s
  | some b =>
    match b.shape with
    | none => s
    | some (k, m) =>
      let have_ := b.units.filter fun u => u.1 < k + m
      let missing := (List.range k).filter fun j => !have_.any fun u => u.1 = j
      if have_.length < k then s
      else
        let s := s.mapSlot i fun x => { x with blocks := x.blocks.filter fun b => b.no ≠ no }
        if missing.isEmpty then s
        else
          let u := have_.foldl (fun n x => if k ≤ x.1 then max n x.2.2.length else n) 0
          let units := decodeUnits k m u (have_.map fun x => (x.1, if x.1 < k then codedUnit u x.2.2 else x.2.2))
          missing.foldl (fun s j => s.recovered i ((b.base + j) % 2 ^ 48) ((units[j]?).getD [])) s

/-- A DATA or PARTIAL packet (R333, R334). -/
def State.bwPacket (s : State) (i : Nat) (isPartial : Bool) (f : BwIn) : State :=
  let t := f.tseq % 2 ^ 48
  if !(s.slot i).fresh? t then s.bump F.BW_DROP_DUP
  else
    match s.bwDeliver i isPartial f.payload with
    | none => s
    | some s =>
      let s := s.mapSlot i fun x => x.note f.block (tseqAbove f.idx t) f.idx none (isPartial, f.payload)
      ((s.received i t).tryDecode i f.block).drainRx i

/-- DATA (R333). -/
def execData (port : Nat) (f : BwIn) (s : State) : Out := s.bwRow 0 port f fun i s => s.bwPacket i false f

/-- PARTIAL (R344). -/
def execPartialSum (port : Nat) (f : BwIn) (s : State) : Out := s.bwRow 5 port f fun i s => s.bwPacket i true f

/-- PARITY (R337): a parity unit of a block whose packets have not all been acknowledged. -/
def execParity (port : Nat) (f : BwIn) (s : State) : Out :=
  s.bwRow 1 port f fun i s =>
    let k := f.km1 % 64 + 1
    if k ≤ tseqAbove f.tseq (s.slot i).ackPoint && tseqAbove f.tseq (s.slot i).ackPoint < 2 ^ 47 then s
    else
      (((s.mapSlot i fun x => x.note f.block (f.tseq % 2 ^ 48) f.idx (some (k, f.m)) (false, f.payload)).tryDecode i f.block).drainRx i)

/-- BREAKWATER_ACK (R332): packets that its TSEQ has passed leave the window; an advance ends STALLED (R346). -/
def execBreakwaterAck (port : Nat) (f : BwIn) (s : State) : Out :=
  s.bwRow 2 port f fun i s =>
    let s := s.peerAck i f.tseq
    let x := s.slot i
    let keep := x.window.filter fun pk => !tseqPassed pk.tseq f.tseq
    if keep.length = x.window.length then s
    else
      let s := s.setSlot i { x with window := keep, ackMoved := s.now }
      let s := if s.slotState i = Bw.stalled then s.setSlotState i Bw.up else s
      (s.drainPartials i (s.slot i).queue.length).showSlot i

/-- BREAKWATER_NAK (R335): each named TSEQ still in the window is resent once. -/
def execBreakwaterNak (port : Nat) (f : BwIn) (s : State) : Out :=
  s.bwRow 3 port f fun i s =>
    let es := (List.range (f.payload.length / 8)).map fun k => word64At f.payload (8 * k)
    let named (t : Nat) : Bool := es.any fun e => tseqAbove (bits e 0 48) t ≤ bits e 48 16
    ((s.slot i).window.filter fun pk => named pk.tseq).foldl (fun s pk => s.resend i pk) (s.peerAck i f.tseq)

/-- KEEPALIVE (R346): it counts as heard and carries the peer's ACK point. -/
def execKeepalive (port : Nat) (f : BwIn) (s : State) : Out :=
  s.bwRow 4 port f fun i s => (s.peerAck i f.tseq).drainRx i

/-- RESYNC (R346): answered in RESYNC; both counters are 0 and the slot is UP. In other states it is only heard. -/
def execResync (port : Nat) (f : BwIn) (s : State) : Out :=
  match s.bwFrame 7 port f with
  | .error s => .next s
  | .ok (i, s) =>
    .next (if s.slotState i = Bw.resync then
        let s := (s.sendBw i (bwHdr 7) []).put F.BW_LH_SEQ_TX_NEXT [i] 0
        let s := (s.peerAck i 0).mapSlot i fun x =>
          { x with window := [], units := [], ackPoint := 0, got := [], top := 0, gaps := [], naks := [], blocks := [],
                   ackMoved := s.now, ackSent := s.now, sinceAck := 0 }
        let s := s.setSlotState i Bw.up
        (s.drainPartials i (s.slot i).queue.length).showSlot i
      else s)

/-! ### Timers (R331, R333, R335, R336, R346) -/

/-- Whether a slot carries packets. -/
def State.slotOpen (s : State) (i : Nat) : Bool :=
  (s.slotState i = Bw.up || s.slotState i = Bw.stalled) && s.linkUp (s.slotPort i)

/-- ACK_TIMER (R333, R347): every ACK_US. -/
def execAckTimer (slot : Nat) (s : State) : Out :=
  let a := s.get F.BW_CTRL_ACK_US
  .next (if s.slotOpen slot && a ≠ 0 && (s.slot slot).ackSent + us a ≤ s.now then s.sendAck slot else s)

/-- Runs of consecutive TSEQs, as NAK entries. -/
def nakRuns : List Nat → List (Nat × Nat)
  | [] => []
  | t :: rest =>
    match nakRuns rest with
    | (a, n) :: more => if a = t + 1 && n < 65536 then (t, n + 1) :: more else (t, 1) :: (a, n) :: more
    | [] => [(t, 1)]

/-- Missing TSEQs reported, 128 entries a frame at most. -/
def State.nakReport (s : State) (i : Nat) (ts : List Nat) : State :=
  let runs := nakRuns ts
  let s := s.mapSlot i fun x => { x with naks := ts.foldl (fun n t => spPut none n t (some s.now)) x.naks }
  (List.range ((runs.length + 127) / 128)).foldl (fun s k =>
    s.sendPoint i 3 (((runs.drop (128 * k)).take 128).flatMap fun r => leBytes (r.1 + (r.2 - 1) * 2 ^ 48) 8)) s

/-- REORDER_EXPIRY (R333): gaps unfilled for REORDER_US are missing and are reported. -/
def execReorderExpiry (slot : Nat) (s : State) : Out :=
  let x := s.slot slot
  let due := x.gaps.filterMap fun g => g.2.bind fun t =>
    if t + us (s.get F.BW_CTRL_REORDER_US) ≤ s.now && (spGet none x.naks g.1).isNone then some g.1 else none
  .next (if s.slotOpen slot && !due.isEmpty then s.nakReport slot due else s)

/-- RTO_EXPIRY (R333, R335): without ACK advance for RTO_MS the oldest packet is resent; reports are repeated every RTO_MS. -/
def execRtoExpiry (slot : Nat) (s : State) : Out :=
  let x := s.slot slot
  let rto := us (1000 * s.cget F.BW_LH_WIN_RTO_MS [slot])
  let again := x.naks.filterMap fun g => g.2.bind fun t => if t + rto ≤ s.now then some g.1 else none
  .next (if !s.slotOpen slot then s
    else
      let s := match x.window with
        | pk :: _ => if max x.ackMoved x.resentAt + rto ≤ s.now
            then (s.mapSlot slot fun x => { x with resentAt := s.now }).resend slot pk else s
        | [] => s
      if again.isEmpty then s else s.nakReport slot again)

/-- BLOCK_CLOSE (R336, R347). -/
def execBlockClose (slot : Nat) (s : State) : Out :=
  let b := s.cget F.BW_LH_CFG_BLOCK_US [slot]
  .next (if s.slotOpen slot && b ≠ 0 && !(s.slot slot).units.isEmpty && (s.slot slot).openAt + us b ≤ s.now
    then s.closeBlock slot else s)

/-- KEEPALIVE_SEND (R331): every 1 ms in every state but DOWN; in RESYNC with a RESYNC frame. -/
def execKeepaliveSend (slot : Nat) (s : State) : Out :=
  .next (if s.slotValid slot && s.slotState slot ≠ Bw.down && s.linkUp (s.slotPort slot)
        && (s.slot slot).beatAt + us 1000 ≤ s.now then
      let s := (s.mapSlot slot fun x => { x with beatAt := s.now }).sendPoint slot 4 []
      if s.slotState slot = Bw.resync then s.sendBw slot (bwHdr 7) [] else s
    else s)

/-- STALL_EXPIRY (R346, R347). -/
def execStallExpiry (slot : Nat) (s : State) : Out :=
  let ms := s.get F.BW_TIMERS_STALL_MS
  .next (if s.slotState slot = Bw.up && ms ≠ 0 && !(s.slot slot).window.isEmpty
        && (s.slot slot).ackMoved + us (1000 * ms) ≤ s.now
    then s.setSlotState slot Bw.stalled else s)

/-- OUTAGE_EXPIRY (R346): the link is down or nothing was heard for OUTAGE_MS; packets queued to the port are treated as in
R249. -/
def execOutageExpiry (slot : Nat) (s : State) : Out :=
  let p := s.slotPort slot
  .next (if (s.slotState slot = Bw.up || s.slotState slot = Bw.stalled)
        && (!s.linkUp p || max (s.slot slot).heardAt (s.slot slot).stateAt + us (1000 * s.get F.BW_TIMERS_OUTAGE_MS) ≤ s.now)
    then (s.portDown p).enterOutage slot else s)

/-- HOLD_EXPIRY (R346): HOLD_S in OUTAGE. In WINTER and STANDBY the slot is held and the timer runs. -/
def execHoldExpiry (slot : Nat) (s : State) : Out :=
  .next (if s.slotState slot = Bw.outage && !s.wintering
        && (s.slot slot).stateAt + us (1000000 * s.get F.BW_TIMERS_HOLD_S) ≤ s.now
    then s.dropHeld slot else s)

/-! ### Span peers (R345) -/

/-- Whether a partial that a parcel of a span waits for is overdue. -/
def State.partialLate (s : State) (j site ms : Nat) : Bool :=
  s.mo.colls.any fun c => c.span = some j && c.spanned && c.live.any fun x =>
    x.formed.any fun e => match e.2 with
      | some t => t + us (1000 * ms) ≤ s.now && !(x.siteSums.any fun y => y.1 = e.1 && y.2.1 = site)
          && !(x.codecs.any fun y => y.entry = e.1 && y.site = site)
      | none => false

/-- SPAN_PEER_DEAD (R345): the slot has been in OUTAGE, or a partial overdue, for SPAN_TIMEOUT_MS; the running COLLECTIVE
of the span ends with MEMBER_LOST. -/
def execSpanPeerDead (span site : Nat) (s : State) : Out :=
  let ms := s.get F.BW_TIMERS_SPAN_TIMEOUT_MS
  let i := s.spanSlot span site
  let dead := s.get F.BW_SPAN_STATUS_DEAD [span]
  let out := s.slotState i = Bw.outage && (s.slot i).stateAt + us (1000 * ms) ≤ s.now
  .next (if s.spanValid span && ms ≠ 0 && site ≠ s.site && (s.spanSites span).contains site && !dead.testBit site
        && (out || s.partialLate span site ms) then
      let s := s.put F.BW_SPAN_STATUS_DEAD [span] (dead + 2 ^ site)
      (s.mo.colls.filter fun c => c.span = some span && c.spanned).foldl
        (fun s c => s.stopColl c.ring c.seq St.memberLost 0 none) s
    else s)

/-! ### Key agreement (R340) -/

/-- A new association installed for receive in both copies of set 0x2C1: its key words and this side's SSCI; its packet
numbers start again. -/
def State.installSa (s : State) (i an ssci : Nat) (h : List Byte) : State :=
  let ws : List (Nat × Word64) := ((List.range 4).map fun w => (w, word64At h (8 * w)))
    ++ [(4, word64At (h.drop 32) 0), (5, BitVec.ofNat 64 (natAt h 40 4)), (6, BitVec.ofNat 64 ssci)]
  let put (m : Sp (Option Word64)) : Sp (Option Word64) := ws.foldl (fun m w => spPut none m (saKey i an w.1) (some w.2)) m
  let s : State := { s with bw := { s.bw with keys := put s.bw.keys, ckeys := put s.bw.ckeys } }
  let s := (s.put F.BW_SA_CFG_RX_EN [i] (s.get F.BW_SA_CFG_RX_EN [i] ||| 2 ^ an)).cput
    F.BW_SA_CFG_RX_EN [i] (s.cget F.BW_SA_CFG_RX_EN [i] ||| 2 ^ an)
  (s.put F.BW_SA_PN_NEXT_PN [i, an] 0).mapSlot i fun x => { x with pnTop := spPut 0 x.pnTop an 0 }

/-- The transmit association turned in both copies. -/
def State.turnTx (s : State) (i an : Nat) : State :=
  (s.put F.BW_SA_CFG_TX_AN [i] an).cput F.BW_SA_CFG_TX_AN [i] an

/-- The hash of R340. -/
def keyxHash (ss : List Byte) (counter an epI epR : Nat) : List Byte :=
  leBytes (Config.sha3 (ss ++ leBytes 0x5742584A 4 ++ leBytes counter 8 ++ leBytes an 1 ++ leBytes epI 3 ++ leBytes epR 3)).toNat 64

/-- The key SET_PEER has installed for an endpoint (R400). -/
def State.peerKey (s : State) (ep : Nat) : Option (List Byte) :=
  (s.gate.peers.filterMap fun p => p.2).find? (fun p => p.1 = ep) |>.map (·.2)

/-- Whether a KEYX message of `ktype` is signed by the Gatehouse of endpoint `ep`. -/
def State.keyxSigned (s : State) (ktype ep : Nat) (msg : List Byte) : Bool :=
  msg.length = 6211 && natAt msg 0 1 = ktype && natAt msg 1 1 < 4 &&
    match s.peerKey ep with
    | some key => Config.mldsaVerify key (msg.take 1584) (msg.drop 1584)
    | none => false

/-- A slot's exchange ends, the old associations in force. -/
def State.endKeyx (s : State) (i : Nat) : State :=
  s.mapSlot i fun x => { x with keyx := x.keyx.map fun k => { k with waiting := false } }

/-- The slot of a port that takes KEYX frames now; a Gatehouse at fault takes part in none (R399). -/
def State.keyxSlot (s : State) (port : Nat) : Option Nat :=
  if s.stage port ≠ 6 || s.get F.GH_STATUS_FAULT = 1 then none
  else (s.slotOf port).bind fun i => if s.slotState i = Bw.down then none else some i

/-- KEYX_OFFER (R340): the responder answers with an ACCEPT and installs the association for receive; an OFFER sent again
draws the same ACCEPT. -/
def execKeyxOffer (port : Nat) (msg : List Byte) (s : State) : Out :=
  .next (match s.keyxSlot port with
    | none => s
    | some i =>
      let an := natAt msg 1 1
      let counter := natAt msg 2 8
      let epI := natAt msg 10 3
      let epR := natAt msg 13 3
      let own := s.primary
      if !s.keyxSigned 0 epI msg || epR ≠ own || own ≤ epI then s.endKeyx i
      else
        match (s.slot i).keyx.filter fun k => !k.initiator && k.counter = counter && k.an = an with
        | some k => s.sendKeyx i k.msg
        | none =>
          let r := Config.mlkemEncap s.freeCtr ((msg.drop 16).take 1568)
          let ans := s.keyxMsg 1 an counter epI epR r.1
          let s : State := { s with freeCtr := s.freeCtr + 1 }
          let s := s.installSa i an 2 (keyxHash r.2 counter an epI epR)
          (s.mapSlot i fun x => { x with
            keyx := some ⟨false, an, counter, ans, s.now, 0, r.2, epI, epR, true⟩ }).sendKeyx i ans)

/-- KEYX_ACCEPT (R340): the initiator installs the association for receive, sends CONFIRM and turns its transmit
association; an ACCEPT sent again draws the same CONFIRM. -/
def execKeyxAccept (port : Nat) (msg : List Byte) (s : State) : Out :=
  .next (match s.keyxSlot port with
    | none => s
    | some i =>
      match (s.slot i).keyx.filter fun k => k.initiator && k.counter = natAt msg 2 8 && k.an = natAt msg 1 1 with
      | none => s
      | some k =>
        if !s.keyxSigned 1 k.epR msg || natAt msg 10 3 ≠ k.epI || natAt msg 13 3 ≠ k.epR then s.endKeyx i
        else if !k.waiting then s.sendKeyx i k.msg
        else
          let ss := Config.mlkemDecap k.keyNo ((msg.drop 16).take 1568)
          let conf := s.keyxMsg 2 k.an k.counter k.epI k.epR []
          let s := s.installSa i k.an 1 (keyxHash ss k.counter k.an k.epI k.epR)
          let s := (s.mapSlot i fun x => { x with
            keyx := some { k with msg := conf, sentAt := s.now, secret := ss, waiting := false } }).sendKeyx i conf
          s.turnTx i k.an)

/-- KEYX_CONFIRM (R340): the responder's side is complete. -/
def execKeyxConfirm (port : Nat) (msg : List Byte) (s : State) : Out :=
  .next (match s.keyxSlot port with
    | none => s
    | some i =>
      match (s.slot i).keyx.filter fun k => !k.initiator && k.counter = natAt msg 2 8 && k.an = natAt msg 1 1 with
      | none => s
      | some _ => s.endKeyx i)

/-- KEYX_RESEND (R340): a message unanswered for 1 ms is sent again. -/
def execKeyxResend (port : Nat) (s : State) : Out :=
  .next (match s.keyxSlot port with
    | none => s
    | some i =>
      match (s.slot i).keyx with
      | some k => if k.waiting && k.sentAt + us 1000 ≤ s.now
          then (s.mapSlot i fun x => { x with keyx := some { k with sentAt := s.now } }).sendKeyx i k.msg else s
      | none => s)

end Sys2Proof.Machine
end

