-- ==== Sys2Proof/Machine/KernelCmds.lean ====
section
/-! DEFINITION. LAUNCH and IMAGE commands (R62, R89 to R92, R109), the measurement log that LOAD extends (R394), and EVENT
(R108, R112). -/

namespace Sys2Proof.Machine

open Host (Outcome)

/-! ### Measurements (R394) -/

/-- A slot extended with a digest: the slot changes, and an entry is appended while the log has room. -/
def State.extend (s : State) (slot kind index svn : Nat) (d : BitVec 512) : State :=
  let g := s.gate
  let v := Config.sha3 (leBytes (spGet 0 g.slots slot).toNat 64 ++ leBytes d.toNat 64)
  let slots := spPut 0 g.slots slot v
  let e : LogEntry := ⟨slot, kind, index, svn, s.timeWord, d⟩
  if g.log.length ≥ 65536 then
    ({ s with gate := { g with slots := slots } } : State).put F.GH_STATUS_LOG_FULL [] 1
  else { s with gate := { g with slots := slots, log := g.log ++ [e] } }

/-! ### Segment tables (R62) -/

/-- Bytes of a space that a segment can name. -/
def State.segEnd (s : State) (space : Nat) : Nat := if space = 1 then 2 ^ 27 else s.spaceEnd space

/-- Entry `i` of a segment table. -/
def segAt (bs : List Byte) (i : Nat) : Seg :=
  let w := word64At bs (16 * i)
  ⟨bits w 0 48, bits (word64At bs (16 * i + 8)) 0 48, bits w 58 1 = 1, bits w 59 1 = 1, bits w 60 4⟩

/-- The first offending byte offset of a segment table of `n` entries. -/
def State.segFault (s : State) (bs : List Byte) (n : Nat) : Option Nat :=
  lowestBad ((List.range n).flatMap fun i =>
    let w := word64At bs (16 * i)
    let x := segAt bs i
    [(16 * i, x.base % 64 ≠ 0), (16 * i + 6, bits w 48 10 ≠ 0), (16 * i + 7, x.space > 4),
     (16 * i + 8, x.len % 64 ≠ 0 || (x.space = 0 && x.len ≠ 0)
        || (0 < x.space && x.space ≤ 4 && x.base + x.len > s.segEnd x.space)),
     (16 * i + 14, bits (word64At bs (16 * i + 8)) 48 16 ≠ 0)])

/-! ### Images (R89, R90, R109, R212) -/

/-- The image that its bytes describe, at its place in the image store. -/
def parseKImage (bs : List Byte) (place : Nat) : KImage :=
  let w (o : Nat) : Nat := natAt bs o 4
  let code := w 0x0C
  ⟨natAt bs 6 2, w 0x08, (bs.drop 0x40).take code, (bs.drop (0x40 + code)).take (w 0x10), w 0x14,
    natAt bs 0x18 4 % 2 ^ 19, natAt bs 0x1B 1 % 2 ^ 5, w 0x1C, place⟩

/-- The first offending byte offset of an image. -/
def imageFault (bs : List Byte) : Option Nat :=
  let w (o : Nat) : Nat := natAt bs o 4
  let code := w 0x0C
  let data := w 0x10
  let addr := w 0x14
  let win := w 0x18
  let slots := win / 2 ^ 24 % 32
  let base := win % 2 ^ 19
  let limit := 0x7FC00
  lowestBad [
    (0x00, w 0 ≠ 0x4B4C4542), (0x04, natAt bs 4 2 ≠ 1), (0x06, natAt bs 6 2 / 16 ≠ 0),
    (0x08, w 8 % 4 ≠ 0), (0x0C, code % 8 ≠ 0 || code > 1048576 || (code ≠ 0 && w 8 ≥ code)),
    (0x10, data % 64 ≠ 0 || data > 523264),
    (0x14, addr % 64 ≠ 0 || addr + data > limit),
    (0x18, base % 4096 ≠ 0), (0x1A, win / 2 ^ 19 % 32 ≠ 0),
    (0x1B, win / 2 ^ 29 ≠ 0 || slots = 1 || slots > 16 || (slots ≠ 0 && base + 4096 * slots > limit)
      || rangesMeet (addr, data) (base, 4096 * slots)),
    (0x20, (bs.drop 0x20).take 32 ≠ List.replicate 32 0)]

/-- Bytes that an image takes. -/
def KImage.size (i : KImage) : Nat := 64 + i.code.length + i.data.length

/-- The lowest place of the image store that has room for `len` bytes. -/
def State.imagePlace (s : State) (len : Nat) : Option Nat :=
  lowestGap s.rsvBase (s.rsvBase + s.cget F.DK_RSV_IMG_MIB * MiB) len 64
    (s.pv.images.filterMap fun x => x.2.map fun i => (i.place, i.size))

/-- The lowest free KID from 1 to 4,096. -/
def State.freeKid (s : State) : Option Nat :=
  ((List.range 4096).map (1 + ·)).find? fun k => (spGet none s.pv.images k).isNone

def State.setImage (s : State) (k : Nat) (i : Option KImage) : State :=
  { s with pv := { s.pv with images := spPut none s.pv.images k i } }

def State.setBind (s : State) (m : Nat) (b : Option Binding) : State :=
  { s with pv := { s.pv with binds := spPut none s.pv.binds m b } }

/-- Whether an image is bound to a Mooring, or to a span as a coding kernel (R341). -/
def State.kidBound (s : State) (k : Nat) : Bool :=
  (s.pv.binds.any fun b => match b.2 with | some b => b.kid = k | none => false)
    || (List.range 64).any fun j => s.spanValid j && s.cget F.BW_SPAN_CFG_MODE [j] = 1
        && (s.cget F.BW_SPAN_KIDS_ENC_KID [j] = k || s.cget F.BW_SPAN_KIDS_DEC_KID [j] = k)

/-! The payload of IMAGE. -/

def Cmd.imKid (c : Cmd) : Nat := c.fld 4 16 16
def Cmd.imMoor (c : Cmd) : Nat := c.fld 4 32 14
def Cmd.imLen (c : Cmd) : Nat := c.fld 6 0 64

/-- The checks of an IMAGE descriptor. -/
def State.imageDesc (s : State) (c : Cmd) : Option Nat :=
  let k := c.imKid
  let known := (s.image k).isSome
  let im := (s.image k).getD KImage.none
  let op := c.subop
  let len := if op = 0 then c.imLen else if op = 2 then 96 else 0
  minOpt (payloadBad c 0x00003FFFFFFF000F#64 (BitVec.allOnes 64) (BitVec.allOnes 64) 0)
    (lowestBad [(0x20, op > 3), (0x22, (1 ≤ op && op ≤ 3) && !known),
      (0x22, op = 1 && (s.kidBound k || s.pv.launches.any fun l => l.kid = k)),
      (0x22, op = 2 && known && (!im.flags.testBit 2 || im.arrwSlots = 0)),
      (0x24, op = 3 && (match spGet none s.pv.binds c.imMoor with | some b => b.kid ≠ k | none => true)),
      (0x28, !s.ptrSelf (c.word 5) || (op = 2 && !s.ptrFits (c.word 5) 96)),
      (0x30, op = 0 && !s.ptrFits (c.word 5) len)])

/-- IMAGE LOAD (R90, R109, R394): a LENGTH that the header contradicts is named in the descriptor (R433). -/
def State.loadImage (s : State) (c : Cmd) : State :=
  match s.ptrRead 0 (c.word 5) c.imLen with
  | (s, .error _) => s.endCmd c.ring c.seq St.dataError 0 0 0
  | (s, .ok bs) =>
    if c.imLen ≠ 64 + natAt bs 0x0C 4 + natAt bs 0x10 4 then s.failCheck c ⟨St.badDescriptor, 0x30, 0⟩
    else
    match imageFault bs with
    | some o => s.failCheck c ⟨St.badDescriptor, 0x28, o⟩
    | none =>
      if natAt bs 0x0C 4 = 0 || natAt bs 0x1C 4 = 0 then s.failCheck c ⟨St.zeroSize, 0, 0⟩
      else
        match s.freeKid, s.imagePlace c.imLen with
        | some k, some a =>
          (((s.storeWrite a c.imLen).setImage k (some (parseKImage bs a))).extend 5 2 k 0 (Config.sha3 bs)).endCmd
            c.ring c.seq St.ok 0 k 0
        | _, _ => s.failCheck c ⟨St.noResource, 0, 0⟩

/-- IMAGE starts (R108, R109). -/
def State.startImage (s : State) (c : Cmd) : State :=
  let s := s.running c
  match s.imageDesc c with
  | some d => s.failCheck c ⟨St.badDescriptor, d, 0⟩
  | none =>
    match c.subop with
    | 0 => if c.imLen = 0 then s.failCheck c ⟨St.zeroSize, 0, 0⟩ else s.loadImage c
    | 1 => (s.setImage c.imKid none).endCmd c.ring c.seq St.ok 0 0 0
    | 2 =>
      match s.ptrRead 0 (c.word 5) 96 with
      | (s, .error o) => s.failCheck c ⟨St.badDescriptor, 0x28, o⟩
      | (s, .ok bs) =>
        match s.segFault bs 6 with
        | some o => s.failCheck c ⟨St.badDescriptor, 0x28, o⟩
        | none => (s.setBind c.imMoor (some ⟨c.imKid, (List.range 6).map (segAt bs)⟩)).endCmd c.ring c.seq St.ok 0 0 0
    | _ => (s.setBind c.imMoor none).endCmd c.ring c.seq St.ok 0 0 0

/-! ### LAUNCH (R62, R90 to R92, R109) -/

def Cmd.laKid (c : Cmd) : Nat := c.fld 4 0 16
def Cmd.laFirst (c : Cmd) : Nat := c.fld 4 16 10
def Cmd.laCount (c : Cmd) : Nat := c.fld 4 26 10
def Cmd.laArgs (c : Cmd) : Nat := c.fld 4 48 11

/-- The checks of a LAUNCH descriptor. -/
def State.launchDesc (s : State) (c : Cmd) : Option Nat :=
  let im := (s.image c.laKid).getD KImage.none
  minOpt (payloadBad c 0x07FF001FFFFFFFFF#64 (BitVec.allOnes 64) 0xFFFFFFFF03FFFFFF#64 0x00000000FFFFFFFF#64)
    (lowestBad [(0x20, (s.image c.laKid).isNone || !im.flags.testBit 3),
      (0x23, c.laCount ≠ 0 && c.laFirst + c.laCount > s.pavCount),
      (0x26, c.laArgs % 64 ≠ 0 || c.laArgs > 1024),
      (0x28, !s.ptrOk (c.word 5) (128 + c.laArgs)),
      (0x3A, c.fld 7 0 16 + c.fld 7 16 16 > 65536)])

/-- A LAUNCH that fails a check: RESULT names no Pavilion, but is 0 where DETAIL names the pointer (R115). -/
def State.launchFail (s : State) (c : Cmd) (detail result2 : Nat) : State :=
  s.endCmd c.ring c.seq St.badDescriptor detail (if detail = 0x28 then 0 else 0x3FF) result2

/-- LAUNCH starts: dispatches for its whole set become ready. -/
def State.startLaunch (s : State) (c : Cmd) : State :=
  let s := s.running c
  match s.launchDesc c with
  | some d => s.launchFail c d 0
  | none =>
    match s.ptrRead 0 (c.word 5) (128 + c.laArgs) with
    | (s, .error o) => s.launchFail c 0x28 o
    | (s, .ok bs) =>
      match s.segFault bs 8 with
      | some o => s.launchFail c 0x28 o
      | none =>
        if c.laCount = 0 then s.endCmd c.ring c.seq St.ok 0 0x3FF 0
        else
          let set := (List.range c.laCount).map (c.laFirst + ·)
          let l : Launch := ⟨c.ring, c.seq, c.laKid, c.laFirst, c.laCount, c.fld 4 36 1, c.fld 6 0 12, c.fld 6 12 14,
            c.fld 6 32 32, c.fld 7 0 16, c.fld 7 16 16, (List.range 8).map (segAt bs), bs.drop 128, s.mo.order, set, set, none⟩
          ({ s with mo := { s.mo with order := s.mo.order + 1 },
                    pv := { s.pv with launches := s.pv.launches ++ [l] } } : State).wakeNext

/-- LAUNCH is stopped: its record names the first Pavilion that had failed (R115). -/
def State.stopLaunch (s : State) (c : Cmd) (status : Nat) : State :=
  let failed := (s.pv.launches.find? fun l => l.ring = c.ring && l.seq = c.seq).bind (·.failed)
  let (n, cls) := match failed with | some (n, cls, _) => (n, cls) | none => (0x3FF, 0)
  (s.dropLaunch c.ring c.seq).endCmd c.ring c.seq status 0 n cls

/-! ### EVENT (R108, R112) -/

def Cmd.evFirst (c : Cmd) : Nat := c.fld 4 16 16
def Cmd.evRange (c : Cmd) : Nat := c.fld 4 32 17

/-- EVENT starts, and ends. -/
def State.startEvent (s : State) (c : Cmd) : State :=
  let s := s.running c
  let n := c.evRange
  let v := (c.word 5).toNat
  match minOpt (payloadBad c 0x0001FFFFFFFF000F#64 (BitVec.allOnes 64) 0 0)
      (lowestBad [(0x20, c.subop > 2), (0x24, n > 65536 || (n ≠ 0 && c.evFirst + n > 65536))]) with
  | some d => s.failCheck c ⟨St.badDescriptor, d, 0⟩
  | none =>
    let one (s : State) (e : Nat) : State :=
      match c.subop with
      | 0 => (s.evSet e v).evFailTo e false
      | 1 => s.evAdd e v
      | _ => s.evFailTo e true
    (((List.range n).map (c.evFirst + ·)).foldl one s).endCmd c.ring c.seq St.ok 0 0 0

end Sys2Proof.Machine
end

