-- ==== Sys2Proof/Machine/Restore.lean ====
section
/-! DEFINITION. REBUILD from a stripe (R191 to R193) and RESTORE with its broadcast tree (R194 to R200). -/

namespace Sys2Proof.Machine

open Host (Outcome)

/-! ### Manifests (R183, R191) -/

/-- A manifest read through a pointer: its bytes, or the offset of what is wrong: MAGIC, VERSION, LENGTH, MDIGEST, no entry for
the shard, PARAMS and OPTIMIZER that differ from the descriptor's. -/
def State.readManifest (s : State) (p : Word64) (n : Nat) (x : Option Shard) : State × Except Nat (List Byte) :=
  match s.ptrRead 1 p 64 with
  | (s, .error o) => (s, .error o)
  | (s, .ok h) =>
    let len := natAt h 0x18 8
    if natAt h 0 4 ≠ 0x464E4D42 then (s, .error 0)
    else if natAt h 4 2 ≠ 1 then (s, .error 4)
    else if len < 64 || !s.ptrOk p len then (s, .error 0x18)
    else
      match s.ptrRead 1 p len with
      | (s, .error o) => (s, .error o)
      | (s, .ok m) =>
        if granuleDigest (m.drop 64) ≠ word64At m 0x38 then (s, .error 0x38)
        else
          match entryOff m n with
          | none => (s, .error 0x0E)
          | some o =>
            match x with
            | none => (s, .ok m)
            | some x =>
              if natAt m (o + 2) 1 % 16 ≠ x.optimizer then (s, .error (o + 2))
              else if natAt m (o + 8) 5 ≠ x.params then (s, .error (o + 8))
              else (s, .ok m)

/-- A loading command of a shard leaves it EMPTY. -/
def State.loadFails (s : State) (n : Nat) : State := s.setShardState n Sh.empty

/-- A verified shard is presented: digest table, manifest, committed epoch, LIVE (R162, R193, R195). -/
def State.presentShard (s : State) (n : Nat) (x : Shard) (m : List Byte) : State :=
  let e := manShard m n
  let s := s.dockWrite (x.tableAddr 0) (e.bdt.flatMap wordBytes)
  let s := s.keepManifest n e.epoch m
  (s.put F.BH_SH_EPOCH_COMMITTED [n] e.epoch).setShardState n Sh.live

/-! ### Chunks (R198) -/

/-- The payload of a chunk: the weights of a block in OUT_FMT under RNE, then the scales. -/
def chunkPayload (f : Fmt) (block : List Byte) : List Byte :=
  let r := encodeTensor f ((List.range 1024).map fun i => (decodeVal .fp32 (blockWord block i), Rnd.rne))
  r.1 ++ r.2

def Restore.child (r : Restore) (n : Nat) : Bool :=
  match r.tree[n]? with
  | some t => (n ≠ 0 && t.parent = r.node) || r.adopted.contains n
  | none => false

/-- The children served, the adopted ones among them. -/
def Restore.children (r : Restore) : List Nat := (List.range r.tree.length).filter fun n => n ≠ r.node && r.child n

/-- A chunk sent to one node: CHUNK to a module, RESULT to a member. -/
def State.sendChunk (s : State) (r : Restore) (n c : Nat) (payload : List Byte) : State :=
  match r.tree[n]? with
  | none => s
  | some t =>
    if t.isModule then
      s.askBh t.endpoint ⟨Bt.chunk, 0, r.shard, r.epoch, 0, 0, c, 0, 0, (manShard r.manifest r.shard).sdigest⟩ payload
    else
      match (s.ctx r.moor).table.findIdx? fun x => x.1 = t.endpoint with
      | none => s
      | some i =>
        let e := elemBytes r.outFmt 1024
        s.sendResult r.moor i c 0 0 (c * e) r.outFmt (payload.take e) (payload.drop e)

def State.restore? (s : State) (ring seq : Nat) : Option Restore := s.bh.restores.find? fun r => r.ring = ring && r.seq = seq

def State.mapRestore (s : State) (ring seq : Nat) (f : Restore → Restore) : State :=
  { s with bh := { s.bh with restores := s.bh.restores.map fun r => if r.ring = ring && r.seq = seq then f r else r } }

/-- A RESTORE ends: RESULT the chunks verified, RESULT2 the re-parents made. The root's RESULT2 counts those of the whole tree, which no
packet tells it: a free value. A node whose RESTORE is OK still serves a GAP (R199). -/
def State.endRestore (s : State) (r : Restore) (status : Nat) : State :=
  let (v, s) : Word64 × State := if r.node = 0 then s.fresh else (BitVec.ofNat 64 r.reparents, s)
  let served := s.bh.served.filter (·.shard ≠ r.shard)
  ({ s with bh := { s.bh with restores := s.bh.restores.filter fun y => !(y.ring = r.ring && y.seq = r.seq),
                              served := if status = St.ok then served ++ [r] else served } } : State).endCmd
    r.ring r.seq status 0 r.verified v.toNat

/-- Chunks held in a row from 0. -/
def Restore.inRow (r : Restore) : Nat :=
  if r.node = 0 then r.verified
  else ((List.range r.chunks).find? fun c => !(r.held.any fun h => h.1 = c)).getD r.chunks

/-- What a node reports: chunks in a row that it and its subtree hold. -/
def Restore.subtree (r : Restore) : Nat := r.children.foldl (fun m n => min m (spGet 0 r.reported n)) r.inRow

/-- The end of a RESTORE that is due (R200): the root once every DEST node has reported every chunk or is DEAD, a relay once
all its children have. -/
def State.restoreDone (s : State) (ring seq : Nat) : State :=
  match s.restore? ring seq with
  | none => s
  | some r =>
    if r.inRow < r.chunks then s
    else if r.node = 0 then
      let dest := (List.range r.tree.length).filter fun n => n ≠ 0 && match r.tree[n]? with | some t => t.dest | none => false
      if dest.all fun n => r.dead.contains n || r.chunks ≤ spGet 0 r.reported n then
        s.endRestore r (if dest.any r.dead.contains then St.memberLost else St.ok)
      else s
    else if r.chunks ≤ r.subtree then s.endRestore r St.ok
    else s

/-- DONE sent to one node of the tree. -/
def State.sendDoneTo (s : State) (r : Restore) (node seq : Nat) : State :=
  match r.tree[node]? with
  | some t => s.sendBh t.endpoint ⟨Bt.done, 0, r.shard, r.epoch, 0, 0, seq, 0, BitVec.ofNat 64 r.node,
      (manShard r.manifest r.shard).sdigest⟩ []
  | none => s

/-- DONE sent to the parent, and by a DEST node that holds every chunk to the root. -/
def State.sendDone (s : State) (r : Restore) : State :=
  let dest := (match r.tree[r.node]? with | some t => t.dest | none => false) && r.inRow = r.chunks
  if r.node = 0 then s
  else if dest && r.parent = 0 then s.sendDoneTo r 0 r.chunks
  else
    let s := s.sendDoneTo r r.parent r.subtree
    if dest then s.sendDoneTo r 0 r.chunks else s

/-- The root's shard is verified: it is presented, and every chunk goes to the root's children. -/
def State.broadcast (s : State) (r : Restore) : State :=
  match s.shard r.shard with
  | none => s
  | some x =>
    let s := s.presentShard r.shard x r.manifest
    let r := { r with verified := x.blocks }
    let s := s.mapRestore r.ring r.seq fun _ => r
    let s := (List.range x.blocks).foldl (fun s c =>
      match s.readBlock x c with
      | (s, .error _) => s
      | (s, .ok bs) => r.children.foldl (fun s n => s.sendChunk r n c (chunkPayload r.outFmt bs)) s) s
    s.restoreDone r.ring r.seq

/-! ### Rebuild (R191 to R193) -/

def State.rebuild? (s : State) (ring seq : Nat) : Option Rebuild := s.bh.rebuilds.find? fun r => r.ring = ring && r.seq = seq

def State.mapRebuild (s : State) (ring seq : Nat) (f : Rebuild → Rebuild) : State :=
  { s with bh := { s.bh with rebuilds := s.bh.rebuilds.map fun r => if r.ring = ring && r.seq = seq then f r else r } }

/-- A rebuild ends, and the RESTORE it is part of; on any status but OK its shard is EMPTY. Where a RESTORE has tried Dock and the
Warehouse first, every source has failed then (R195). -/
def State.endRebuild (s : State) (r : Rebuild) (status : Nat) : State :=
  let s : State := { s with bh := { s.bh with rebuilds := s.bh.rebuilds.filter fun y => !(y.ring = r.ring && y.seq = r.seq) } }
  if status = St.ok then
    match s.restore? r.ring r.seq, s.shard r.shard with
    | some q, _ => s.broadcast q
    | none, some x =>
      ((s.presentShard r.shard x r.manifest).mapShard r.shard fun x => { x with stripe := some r.stripe }).showShard r.shard |>.endCmd
        r.ring r.seq St.ok 0 0 0
    | none, none => s
  else
    let s := s.loadFails r.shard
    match s.restore? r.ring r.seq with
    | some q => s.endRestore q (if r.last && status = St.unrecoverable then St.digestMismatch else status)
    | none => s.endCmd r.ring r.seq status 0 0 0

/-- Subsets of `k` elements, in order. -/
def subsets : Nat → List Nat → List (List Nat)
  | 0, _ => [[]]
  | _, [] => []
  | k + 1, a :: l => (subsets k l).map (a :: ·) ++ subsets (k + 1) l

/-- Fragments whose holders are usable. -/
def State.usableFrags (s : State) (r : Rebuild) : List Nat :=
  (List.range (r.stripe.k + r.stripe.m)).filter fun f =>
    !r.dead.contains f && match r.stripe.holders[f]? with | some h => !s.bh.deadPeers.contains h.1 | none => false

/-- Rows in flight per holder. -/
def State.rowWindow (s : State) : Nat := max 1 (s.get F.BH_CTRL_REBUILD_ROWS)

/-- Whether the row and fragment of a key have been received. -/
def Rebuild.has (r : Rebuild) (key : Nat) : Bool := r.got.any fun g => g.1 = key

/-- Rows asked of a fragment's holder that have not come. -/
def Rebuild.inFlight (r : Rebuild) (f : Nat) : Nat := (r.asked.filter fun k => k % 32 = f && !r.has k).length

/-- FGET for a row of a fragment, by key, unless it was asked for or the holder has a full window. -/
def State.askRow (s : State) (r : Rebuild) (key : Nat) : State × Rebuild :=
  match r.stripe.holders[key % 32]? with
  | some h =>
    if r.has key || r.asked.contains key || s.rowWindow ≤ r.inFlight (key % 32) then (s, r)
    else
      let e := manShard r.manifest r.shard
      (s.askBh h.1 ⟨Bt.fget, 0, r.shard, e.epoch, key % 32, 0, key / 32, 0, 0, e.sdigest⟩ [], { r with asked := key :: r.asked })
  | none => (s, r)

def State.askRows (s : State) (r : Rebuild) (keys : List Nat) : State × Rebuild :=
  keys.foldl (fun a key => a.1.askRow a.2 key) (s, r)

/-- Rows of each fragment. -/
def Rebuild.rows (r : Rebuild) (image : Nat) : Nat := fragBytes image r.stripe.k / 4096

/-- The 4,096-byte pieces of the image that a block touches; piece `q` is row `q % rows` of data fragment `q / rows`. -/
def blockPieces (len b : Nat) : List Nat := (List.range ((b * len + len - 1) / 4096 - b * len / 4096 + 1)).map (b * len / 4096 + ·)

/-- The row that completes a block where rows are decoded in order. -/
def lastRow (len rows b : Nat) : Nat := (blockPieces len b).foldl (fun m q => max m (q % rows)) 0

/-- The units of one row, by data fragment, decoded from the fragments of a set. -/
def Rebuild.decodeRow (r : Rebuild) (fs : List Nat) (row : Nat) : List (List Byte) :=
  decodeUnits r.stripe.k r.stripe.m 4096 (fs.map fun i => (i, spGet [] r.got (32 * row + i)))

/-- One complete row decoded and written to Dock. -/
def State.writeRow (s : State) (x : Shard) (r : Rebuild) (row : Nat) : State :=
  let f := fragBytes x.imageBytes r.stripe.k
  ((r.decodeRow r.chosen row).zipIdx).foldl (fun s u =>
    let off := u.2 * f + 4096 * row
    s.dockWrite (x.dockBase + off) (u.1.take (x.imageBytes - off))) s

/-- The blocks of a list that Dock does not hold with the digest they must have. -/
def State.badBlocks (s : State) (x : Shard) (bdt : List Word64) (bs : List Nat) : State × List Nat :=
  bs.foldl (fun acc b =>
    match acc.1.dockBlock x ((bdt[b]?).getD 0) b with
    | (s, some _) => (s, acc.2)
    | (s, none) => (s, acc.2 ++ [b])) (s, [])

/-- Rows decoded while the next one is complete, `n` at most; each block that a row completes is checked, and one that fails is to be
decoded again (R191, R192). -/
def State.decodeRows (s : State) (x : Shard) : Nat → Rebuild → State × Rebuild
  | 0, r => (s, r)
  | n + 1, r =>
    let rows := r.rows x.imageBytes
    let row := r.nextRow
    if row < rows && r.chosen.all fun f => r.has (32 * row + f) then
      match (s.writeRow x r row).badBlocks x (manShard r.manifest r.shard).bdt
          ((List.range x.blocks).filter fun b => lastRow x.blockBytes rows b = row) with
      | (s, bad) => s.decodeRows x n { r with nextRow := row + 1, todo := r.todo ++ bad.map fun b => (b, [r.chosen]) }
    else (s, r)

/-- What becomes of a block that is recovered alone: its bytes, the set whose rows it waits for, or no set is left. -/
inductive Recovery where
  | good (bytes : List Byte)
  | waits (tried : List (List Nat)) (set : List Nat)
  | fails

/-- The keys of the rows that a block needs of a set of fragments. -/
def blockKeys (len rows b : Nat) (fs : List Nat) : List Nat :=
  ((blockPieces len b).map (· % rows)).eraseDups.flatMap fun row => fs.map fun f => 32 * row + f

/-- A block decoded from a set of fragments. -/
def Rebuild.blockFrom (r : Rebuild) (len rows b : Nat) (fs : List Nat) : List Byte :=
  let bs := (blockPieces len b).flatMap fun q => ((r.decodeRow fs (q % rows))[q / rows]?).getD []
  (bs.drop (b * len % 4096)).take len

/-- A block tried with one set after another. -/
def Rebuild.recover (r : Rebuild) (len rows b : Nat) (want : Word64) : List (List Nat) → List (List Nat) → Recovery
  | [], _ => .fails
  | fs :: more, tried =>
    if (blockKeys len rows b fs).all r.has then
      let bs := r.blockFrom len rows b fs
      if granuleDigest bs = want then .good bs else r.recover len rows b want more (fs :: tried)
    else .waits tried fs

/-- The blocks that are recovered one by one: those whose rows are there are written; the others' rows are asked for. True where one
has no set left (R192). -/
def State.recoverBlocks (s : State) (x : Shard) (r : Rebuild) : State × Rebuild × Bool :=
  let rows := r.rows x.imageBytes
  let bdt := (manShard r.manifest r.shard).bdt
  let sets := subsets r.stripe.k (s.usableFrags r)
  r.todo.foldl (fun acc t =>
    if acc.2.2 then acc
    else
      match r.recover x.blockBytes rows t.1 ((bdt[t.1]?).getD 0) (sets.filter fun l => !t.2.contains l) t.2 with
      | .fails => (acc.1, acc.2.1, true)
      | .good bs =>
        ((acc.1.writeBlock x t.1 bs).put F.BH_SH_FAULT_BLOCK_BAD [r.shard] 1,
          { acc.2.1 with todo := acc.2.1.todo.filter (·.1 ≠ t.1) }, false)
      | .waits tried fs =>
        let (s, q) := acc.1.askRows { acc.2.1 with todo := acc.2.1.todo.map fun y => if y.1 = t.1 then (t.1, tried) else y }
          (blockKeys x.blockBytes rows t.1 fs)
        (s, q, false)) (s, r, false)

/-- Blocks of the image verified so far. -/
def Rebuild.good (r : Rebuild) (x : Shard) : Nat :=
  ((List.range x.blocks).filter fun b => lastRow x.blockBytes (r.rows x.imageBytes) b < r.nextRow).length - r.todo.length

/-- A rebuild goes on with what has arrived: rows are decoded, failed blocks recovered, and at the end the shard is presented
(R191, R192). -/
def State.advanceRebuild (s : State) (ring seq : Nat) : State :=
  match s.rebuild? ring seq with
  | none => s
  | some r =>
    match s.shard r.shard with
    | none => s
    | some x =>
      let rows := r.rows x.imageBytes
      match s.decodeRows x rows r with
      | (s, r) =>
        match s.recoverBlocks x r with
        | (s, r, failed) =>
          let s := (s.mapRebuild ring seq fun _ => r).put F.BH_SH_PROG_DONE [r.shard] r.nextRow
          let s := s.mapRestore ring seq fun q => { q with verified := r.good x }
          if failed then s.endRebuild r St.digestMismatch
          else if r.nextRow = rows && r.todo.isEmpty then s.endRebuild r St.ok
          else
            match s.askRows r (((List.range rows).drop r.nextRow |>.take s.rowWindow).flatMap fun row => r.chosen.map fun f => 32 * row + f) with
            | (s, r) => s.mapRebuild ring seq fun _ => r

/-- A rebuild begins with the first K usable holders, data fragments first: of the whole image, or of the blocks that no other source
holds. -/
def State.beginRebuild (s : State) (c : Cmd) (n : Nat) (st : Stripe) (m : List Byte) (only : Option (List Nat)) : State :=
  match s.shard n with
  | none => s
  | some x =>
    let r : Rebuild := ⟨c.ring, c.seq, n, m, st, [], [], [], [], [], 0, [], only.isSome⟩
    let us := s.usableFrags r
    let r := { r with chosen := us.take st.k, nextRow := if only.isSome then r.rows x.imageBytes else 0,
                      todo := (only.getD []).map fun b => (b, []) }
    let s : State := { s with bh := { s.bh with rebuilds := s.bh.rebuilds ++ [r] } }
    let s := (s.put F.BH_SH_PROG_DONE [n] r.nextRow).setShardState n Sh.loading
    if us.length < st.k then s.endRebuild r St.unrecoverable else s.advanceRebuild c.ring c.seq

/-- The fragment can no longer be used, its holder `lost` or not: the next unused one replaces it, or the rebuild ends (R192, R193). -/
def State.holderGone (s : State) (r : Rebuild) (f : Nat) (lost : Bool) : State :=
  if r.dead.contains f then s
  else
    let r := { r with dead := f :: r.dead, lost := if lost then f :: r.lost else r.lost }
    let s := s.mapRebuild r.ring r.seq fun _ => r
    let us := s.usableFrags r
    if us.length < r.stripe.k then s.endRebuild r St.unrecoverable
    else
      let chosen := match us.find? fun u => !r.chosen.contains u with
        | some u => r.chosen.map fun y => if y = f then u else y
        | none => r.chosen
      (s.mapRebuild r.ring r.seq fun r => { r with chosen := chosen }).advanceRebuild r.ring r.seq

/-- SHARD REBUILD starts (R191). -/
def State.startRebuild (s : State) (c : Cmd) : State :=
  let s := s.running c
  let n := c.shardNo
  match s.shardItem c (fun l => 16 ≤ l && l % 16 = 0) (s.shardState n ≠ Sh.empty) with
  | (s, .error f) => s.failCheck c f
  | (s, .ok bs) =>
    let (st, _, p) := parseStripe bs
    match s.stripeFault bs true with
    | some o => s.failCheck c ⟨St.badDescriptor, 0x28, o⟩
    | none =>
      if st.k ≠ 0 && c.shLen ≠ 16 + 16 * (st.k + st.m) then s.failCheck c ⟨St.badDescriptor, 0x30, 0⟩
      else if !s.ptrOk p 64 then s.failCheck c ⟨St.badDescriptor, 0x28, 8⟩
      else
        match s.readManifest p n (s.shard n) with
        | (s, .error _) => s.failCheck c ⟨St.badDescriptor, 0x28, 8⟩
        | (s, .ok m) =>
          if st.k = 0 then s.failCheck c ⟨St.zeroSize, 0, 0⟩
          else ((s.revive st).put F.BH_SH_FAULT_LOST [n] 0).beginRebuild c n st m none

/-! ### Packets of a rebuild -/

/-- The rebuild that a packet from a holder belongs to. -/
def State.rebuildOf (s : State) (src : Nat) (x : BhExt) : Option Rebuild :=
  s.bh.rebuilds.find? fun r => r.shard = x.shard && !r.dead.contains x.fidx && (r.stripe.holders[x.fidx]?).map (·.1) = some src

/-- FRAG (R188, R189, R191): a row for a rebuild, or of a fragment this module is to hold; a payload that fails its digest is
asked for again. -/
def execFrag (port : Nat) (pkt : Packet) (s : State) : Out :=
  .next (s.boathouse Bt.frag port pkt fun s x payload =>
    let src := pkt.hdr.src
    if granuleDigest payload ≠ x.digest then
      (s.bump F.BH_BAD_CHUNK_COUNT).askBh src ⟨Bt.fget, 0, x.shard, x.epoch, x.fidx, 0, x.seq, 0, 0, x.sdigest⟩ []
    else
      match s.rebuildOf src x with
      | some r =>
        let e := manShard r.manifest r.shard
        if epochOlder x.epoch e.epoch then s.bump F.BH_DROP_STALE
        else if x.epoch ≠ e.epoch || x.sdigest ≠ e.sdigest then s.holderGone r x.fidx false
        else
          (s.mapRebuild r.ring r.seq fun r => { r with got := spIns r.got (32 * x.seq + x.fidx) payload }).advanceRebuild r.ring r.seq
      | none => s.holdRow src x payload)

/-- FACK (R184, R192): an acknowledgement of this module's fragment, or a holder that has none for a rebuild. -/
def execFack (port : Nat) (pkt : Packet) (s : State) : Out :=
  .next (s.boathouse Bt.fack port pkt fun s x _ =>
    match s.rebuildOf pkt.hdr.src x with
    | some r => if x.code = 0 then s else s.holderGone r x.fidx false
    | none => s.fragmentAck pkt x)

/-! ### RESTORE (R194 to R197) -/

def Cmd.rsShard (c : Cmd) : Nat := c.fld 4 0 16
def Cmd.rsEpoch (c : Cmd) : Nat := c.fld 4 16 16
def Cmd.rsSource (c : Cmd) : Nat := c.fld 4 32 4
def Cmd.rsMoor (c : Cmd) : Nat := c.fld 4 40 14
def Cmd.rsLen (c : Cmd) : Nat := c.fld 6 0 64

def parseTree (bs : List Byte) : List TreeNode :=
  (List.range (natAt bs 0 2)).map fun n =>
    let w := word64At bs (0x10 + 16 * n)
    ⟨bits w 0 24, bits w 24 12, bits w 36 12, bits w 48 1 = 1, bits w 49 1 = 1⟩

/-- The parents of a node, one after another, `k` at most, up to the root or out of the table. -/
def parentsOf (tree : List TreeNode) : Nat → Nat → List Nat
  | _, 0 => []
  | 0, _ => []
  | k + 1, n => match tree[n]? with | some t => t.parent :: parentsOf tree k t.parent | none => []

/-- Whether a node is the last of a cycle of PARENT fields, which names the cycle (R433). -/
def closesCycle (tree : List TreeNode) (n : Nat) : Bool :=
  let l := parentsOf tree tree.length n
  l.contains n && l.all (· ≤ n)

/-- The first offending byte offset of a tree table (R197). -/
def State.treeFault (s : State) (bs : List Byte) : Option Nat :=
  let t := parseTree bs
  let n := t.length
  let at_ (i : Nat) : Nat := 0x10 + 16 * i
  let mine := (List.range n).filter fun i => match t[i]? with | some y => s.isOwn y.endpoint | none => false
  minOpt (minOpt (strayBit 0 (word64At bs 0) 0xFFFF#64) (strayBit 8 (word64At bs 8) 0))
    (minOpt (lowestBad [(0x00, n > 4096), (0x00, mine.isEmpty), (at_ ((mine.drop 1).head?.getD 0), mine.length > 1)])
      (lowestBad ((List.range n).flatMap fun i =>
        match t[i]? with
        | none => []
        | some y =>
          [(at_ i + 3, if i = 0 then y.parent ≠ 0 else y.parent ≥ n || closesCycle t i),
            (at_ i + 4, i ≠ 0 && (y.alt = y.parent || y.alt = i)),
            (at_ i + 6, !y.isModule && (List.range n).any fun j => j ≠ 0 && match t[j]? with | some z => z.parent = i | none => false),
            (at_ i + 6, bits (word64At bs (at_ i)) 50 14 ≠ 0), (at_ i + 8, word64At bs (at_ i + 8) ≠ 0)])))

/-- Whether the copy in a slot is intact against its own label. -/
def State.slotIntact (s : State) (x : Shard) (slot : Nat) : State × Bool :=
  let label := x.slotAddr slot + 0x40 + roundUp (8 * x.blocks) 64
  (List.range x.blocks).foldl (fun (acc : State × Bool) b =>
    if !acc.2 then acc
    else
      match acc.1.whRead (label + 80 + 8 * b) 8 with
      | (s, .error _) => (s, false)
      | (s, .ok d) =>
        match s.stowAt (x.slotAddr slot) b with
        | (s, some bs) => (s, granuleDigest bs = BitVec.ofNat 64 (leNat d))
        | (s, none) => (s, false)) (s, true)

/-- Whether the copies of an epoch differ (R196). -/
def State.divergent (s : State) (x : Shard) (e : ManShard) (n : Nat) : State × Bool :=
  match s.keptManifest x e.epoch with
  | (s, kept) =>
    if kept.any fun m => (manShard m n).sdigest ≠ e.sdigest then (s, true)
    else
      match x.slotOf e.epoch with
      | some sl => if (x.copySlot sl).any (·.sdigest ≠ e.sdigest) then s.slotIntact x sl else (s, false)
      | none => (s, false)

/-- One block from Dock or from the Warehouse copy, by SOURCE; true where it is verified in Dock. -/
def State.restoreBlock (s : State) (x : Shard) (e : ManShard) (source b : Nat) : State × Bool :=
  let want := (e.bdt[b]?).getD 0
  match if source = 0 then s.dockBlock x want b else (s, none) with
  | (s, some _) => (s, true)
  | (s, none) =>
    if source > 1 then (s, false)
    else
      match s.copyBlockOf x e.epoch want b with
      | (s, some bs) => (s.writeBlock x b bs, true)
      | (s, none) => (s, false)

/-- The root loads its shard: each block from Dock or the Warehouse copy by SOURCE, and those that neither holds from the stripe
(R195). Copies that differ leave the shard EMPTY, and what differs is kept (R162, R196). -/
def State.loadRoot (s : State) (c : Cmd) (r : Restore) (x : Shard) : State :=
  let n := r.shard
  let e := manShard r.manifest n
  let s := s.setShardState n Sh.loading
  match s.divergent x e n with
  | (s, true) =>
    let s := s.mapShard n fun x => { x with heldSlot := (x.slotOf e.epoch).orElse fun _ => x.heldSlot,
                                            heldMan := (x.manOf e.epoch).orElse fun _ => x.heldMan }
    ((((s.put F.BH_SH_FAULT_HOLD [n] 1).loadFails n).showShards).endRestore r St.divergent)
  | (s, false) =>
    match (List.range x.blocks).foldl (fun (acc : State × List Nat) b =>
      match acc.1.restoreBlock x e c.rsSource b with
      | (s, true) => (s, acc.2)
      | (s, false) => (s, acc.2 ++ [b])) (s, []) with
    | (s, []) => s.broadcast r
    | (s, bad) =>
      let r := { r with verified := x.blocks - bad.length }
      let s := s.mapRestore r.ring r.seq fun _ => r
      match e.stripe with
      | some st => s.beginRebuild c n st r.manifest (if c.rsSource = 2 then none else some bad)
      | none => (s.loadFails n).endRestore r St.digestMismatch

/-- The first bad field of a RESTORE; `st` is the shard's state and `tree` its tree. The root's own checks of its shard are made where
this module is node 0. -/
def State.restoreDesc (s : State) (c : Cmd) (st : Nat) (tree : List TreeNode) : Option Nat :=
  let n := c.rsShard
  let fmtOk := match Fmt.ofCode (c.fld 4 36 4) with | some f => formatsOk 8 f f | none => false
  let root : Bool := (tree.findIdx? fun t => s.isOwn t.endpoint) = some 0
  minOpt (payloadBad c 0x003FFFFFFFFFFFFF#64 (BitVec.allOnes 64) (BitVec.allOnes 64) (BitVec.allOnes 64))
    (lowestBad [
      (0x20, n > 4095 || (root && (st = Sh.free || st = Sh.loading || (match s.shardMoor n with | some m => s.collPending m | none => false)))),
      (0x24, c.rsSource > 2 || !fmtOk || (root && st = Sh.empty && c.rsSource ≠ 2)),
      (0x28, !s.ptrSelf (c.word 5)), (0x30, !s.ptrFits (c.word 5) c.rsLen || (c.rsLen ≠ 0 && tree.length ≠ 0 && c.rsLen ≠ 16 + 16 * tree.length)),
      (0x38, !s.ptrOk (c.word 7) 64)])

/-- RESTORE starts (R194). -/
def State.startRestore (s : State) (c : Cmd) : State :=
  let s := s.running c
  let n := c.rsShard
  let f := Fmt.ofCode (c.fld 4 36 4)
  let st := s.shardState n
  let (s, tr) : State × Except Nat (List Byte) :=
    if s.ptrOk (c.word 5) c.rsLen then s.ptrRead 1 (c.word 5) c.rsLen else (s, .ok [])
  let bs := match tr with | .ok b => b | .error _ => []
  let tree := parseTree bs
  let node := tree.findIdx? fun t => s.isOwn t.endpoint
  let root := node = some 0
  match s.restoreDesc c st tree with
  | some d => s.failCheck c ⟨St.badDescriptor, d, 0⟩
  | none =>
    match tr with
    | .error o => s.failCheck c ⟨St.badDescriptor, 0x28, o⟩
    | .ok _ =>
      if c.rsLen ≠ 0 && !tree.isEmpty && (s.treeFault bs).isSome then
        s.failCheck c ⟨St.badDescriptor, 0x28, (s.treeFault bs).getD 0⟩
      else
        match s.readManifest (c.word 7) n (if root then s.shard n else none) with
        | (s, .error o) => s.failCheck c ⟨St.badDescriptor, 0x38, o⟩
        | (s, .ok m) =>
          if c.rsLen = 0 || tree.isEmpty then s.failCheck c ⟨St.zeroSize, 0, 0⟩
          else
            let e := manShard m n
            let ahead := (c.rsEpoch + 2 ^ 16 - s.committed n) % 2 ^ 16
            if e.epoch ≠ c.rsEpoch || (root && ahead ≠ 0 && ahead < 2 ^ 15) then s.failCheck c ⟨St.notCommitted, 0, 0⟩
            else
              let x := s.shard n
              let held := match x with
                | some x => (st = Sh.live && s.committed n = c.rsEpoch) || (x.slotOf c.rsEpoch).isSome || (x.manOf c.rsEpoch).isSome
                | none => false
              if root && !held then s.failCheck c ⟨St.epochStale, 0, 0⟩
              else
                let nd := node.getD 0
                let par := match tree[nd]? with | some t => t.parent | none => 0
                let dead := (List.range tree.length).filter fun i =>
                  match tree[i]? with | some t => s.bh.deadPeers.contains t.endpoint | none => false
                let r : Restore := ⟨c.ring, c.seq, n, c.rsEpoch, c.rsMoor, f.getD .fp32, m, tree, nd, par, e.bdt.length, [], 0, [], dead,
                  [], 0, s.now, []⟩
                let s : State := { s with bh := { s.bh with restores := s.bh.restores ++ [r], served := s.bh.served.filter (·.shard ≠ n) } }
                if root then
                  match x with
                  | some x => s.loadRoot c r x
                  | none => s
                else s

/-! ### Packets of a broadcast (R198 to R200) -/

/-- The running RESTORE that a packet belongs to. -/
def State.restoreOf (s : State) (x : BhExt) : Option Restore := s.bh.restores.find? fun r => r.shard = x.shard

/-- Chunks that a relay keeps whole: the newest REPLAY_MIB, or BH_MIB where that is less (R198, R212). -/
def State.trimHeld (s : State) (r : Restore) : Restore :=
  let mib := min (s.get F.BH_RESTORE_CFG_REPLAY_MIB) (s.cget F.DK_RSV_BH_MIB)
  let keep := mib * MiB / max 1 (elemBytes r.outFmt 1024)
  let top := r.held.foldl (fun m h => max m h.1) 0
  { r with held := r.held.map fun h => if h.1 + keep ≤ top then (h.1, []) else h }

/-- The endpoint of a node. -/
def Restore.endpointOf (r : Restore) (n : Nat) : Option Nat := (r.tree[n]?).map (·.endpoint)

/-- CHUNK (R198, R199): verified, kept, forwarded once to each child, acknowledged; or asked for again. A chunk already held is
discarded, but that it goes to the nodes that wait for one this node no longer keeps. -/
def execChunk (port : Nat) (pkt : Packet) (s : State) : Out :=
  .next (s.boathouse Bt.chunk port pkt fun s x payload =>
    match s.restoreOf x with
    | none => s
    | some r =>
      if epochOlder x.epoch r.epoch then s.bump F.BH_DROP_STALE
      else if x.epoch ≠ r.epoch || r.node = 0 || r.chunks ≤ x.seq then s
      else
        let r := if r.endpointOf r.parent = some pkt.hdr.src then { r with lastChunk := s.now } else r
        if granuleDigest payload ≠ x.digest then
          ((s.mapRestore r.ring r.seq fun _ => r).bump F.BH_BAD_CHUNK_COUNT).sendBh pkt.hdr.src
            ⟨Bt.gap, 0, x.shard, x.epoch, 0, 0, x.seq, 0, 0, x.sdigest⟩ []
        else if r.held.any fun h => h.1 = x.seq then
          let r' := { r with wanted := spPut [] r.wanted x.seq [] }
          let s := s.mapRestore r.ring r.seq fun _ => r'
          let s := (spGet [] r.wanted x.seq).foldl (fun s n => s.sendChunk r n x.seq payload) s
          s.sendDone r
        else
          let r := s.trimHeld { r with held := spIns r.held x.seq payload, verified := r.verified + 1 }
          let s := s.mapRestore r.ring r.seq fun _ => r
          let s := r.children.foldl (fun s n => s.sendChunk r n x.seq payload) s
          (s.sendDone r).restoreDone r.ring r.seq)

/-- Chunks from `from_` on sent to a node by the root, which reads them again and verifies each; or by a relay that keeps them. -/
def State.serveGap (s : State) (r : Restore) (n from_ : Nat) : State :=
  if r.node = 0 then
    match s.shard r.shard with
    | none => s
    | some y =>
      if r.verified < r.chunks then s
      else
        let e := manShard r.manifest r.shard
        ((List.range r.chunks).drop from_).foldl (fun s c =>
          match s.epochBlock y e.epoch ((e.bdt[c]?).getD 0) c with
          | (s, some bs) => s.sendChunk r n c (chunkPayload r.outFmt bs)
          | (s, none) => s) s
  else
    ((List.range r.chunks).drop from_).foldl (fun s c =>
      let p := spGet [] r.held c
      if p.isEmpty then s else s.sendChunk r n c p) s

/-- GAP (R199): the sender is served from SEQ on; chunks this node no longer keeps are asked of its own parent, and the root
reads them again. A node whose RESTORE has ended serves what it still keeps. -/
def execGap (port : Nat) (pkt : Packet) (s : State) : Out :=
  .next (s.boathouse Bt.gap port pkt fun s x _ =>
    match (s.restoreOf x).orElse fun _ => s.bh.served.find? fun r => r.shard = x.shard with
    | none => s
    | some r =>
      if epochOlder x.epoch r.epoch then s.bump F.BH_DROP_STALE
      else if x.epoch ≠ r.epoch then s
      else
        match r.tree.findIdx? fun t => t.endpoint = pkt.hdr.src with
        | none => s
        | some n =>
          let gone := if r.node = 0 then [] else ((List.range r.chunks).drop x.seq).filter fun c => r.held.any fun h => h.1 = c && h.2.isEmpty
          let r := { (if r.child n then r else { r with adopted := r.adopted ++ [n] }) with
            wanted := gone.foldl (fun m c => spPut [] m c (n :: (spGet [] m c).erase n)) r.wanted }
          let s := (s.mapRestore r.ring r.seq fun _ => r).serveGap r n x.seq
          match gone with
          | [] => s
          | c :: _ =>
            match r.endpointOf r.parent with
            | some ep => s.sendBh ep ⟨Bt.gap, 0, x.shard, x.epoch, 0, 0, c, 0, 0, x.sdigest⟩ []
            | none => s)

/-- DONE (R200): the report of a node; it may end this node's RESTORE. -/
def execDone (port : Nat) (pkt : Packet) (s : State) : Out :=
  .next (s.boathouse Bt.done port pkt fun s x _ =>
    match s.restoreOf x with
    | none => s
    | some r =>
      let n := bits x.digest 0 12
      if epochOlder x.epoch r.epoch then s.bump F.BH_DROP_STALE
      else if x.epoch ≠ r.epoch || r.endpointOf n ≠ some pkt.hdr.src then s
      else
        let r := { r with reported := spPut 0 r.reported n (max x.seq (spGet 0 r.reported n)) }
        let s := s.mapRestore r.ring r.seq fun _ => r
        (s.sendDone r).restoreDone r.ring r.seq)

/-- REPARENT (R199): silence while chunks are lacking, or a DEAD parent; GAP goes to ALT. -/
def execReparent (ring seq : Nat) (s : State) : Out :=
  .next (match s.restore? ring seq with
    | none => s
    | some r =>
      let up := match r.endpointOf r.parent with | some e => s.bh.deadPeers.contains e | none => false
      let silent := r.inRow < r.chunks && r.lastChunk + us (s.get F.BH_RESTORE_CFG_SILENCE_US) ≤ s.now
      if r.node = 0 || !(up || silent) then s
      else
        match r.tree[r.node]? with
        | none => s
        | some t =>
          let r := { r with parent := t.alt, reparents := r.reparents + 1, lastChunk := s.now }
          let s := (s.mapRestore ring seq fun _ => r).bump F.BH_REPARENT_COUNT
          match r.endpointOf t.alt with
          | some ep => s.sendBh ep ⟨Bt.gap, 0, r.shard, r.epoch, 0, 0, r.inRow, 0, 0, (manShard r.manifest r.shard).sdigest⟩ []
          | none => s)

/-! ### Peers that do not answer (R181, R184, R190, R192, R200) -/

/-- Cycles of BH_CTRL.PEER_TIMEOUT_MS. -/
def State.peerTimeout (s : State) : Nat := us (1000 * s.get F.BH_CTRL_PEER_TIMEOUT_MS)

/-- The sends of a packet that are due by now: a third of the timeout apart, three in all; one where the timeout is 0 (R201). -/
def State.sendsDue (s : State) (a : Await) : Nat :=
  if s.peerTimeout = 0 then 1 else min 3 (1 + 3 * (s.now - a.sentAt) / s.peerTimeout)

/-- Packets that a peer has not answered are sent again as they come due. -/
def State.resendBh (s : State) (endpoint : Nat) : State :=
  s.bh.awaits.foldl (fun s a =>
    if a.endpoint = endpoint && a.sends < s.sendsDue a then
      let s := (List.range (s.sendsDue a - a.sends)).foldl (fun s _ => s.sendBh endpoint a.ext a.payload) s
      { s with bh := { s.bh with awaits := s.bh.awaits.map fun b => if b = a then { a with sends := s.sendsDue a } else b } }
    else s) s

/-- Whether a peer has let the timeout pass since the first send of a packet. -/
def State.unanswered (s : State) (endpoint : Nat) : Bool :=
  s.bh.awaits.any fun a => a.endpoint = endpoint && a.sentAt + s.peerTimeout ≤ s.now

/-- A shard learns that a peer is DEAD: its holder is lost (R202); a COMMIT that awaits its ACK ends, and the durability of an epoch
that awaits its FACK fails. -/
def State.shardPeerDead (s : State) (endpoint n : Nat) : State :=
  match s.shard n with
  | none => s
  | some x =>
    let at_ (t : Option Stripe) : List Nat := match t with
      | some t => (List.range t.holders.length).filter fun i => (t.holders[i]?).map (·.1) = some endpoint
      | none => []
    let s := (at_ x.stripe).foldl (fun s i => s.put F.BH_SH_FAULT_LOST [n] (s.get F.BH_SH_FAULT_LOST [n] ||| 2 ^ i)) s
    match x.freeze with
    | none => s
    | some f =>
      match (at_ f.stripe).find? (if f.committed then f.awaitFack else f.awaitAck).contains with
      | none => s
      | some i => if f.committed then s.holderLost n i else s.endCommitCmd f.ring f.seq St.memberLost

/-- Rebuilds and broadcasts learn that a peer is DEAD. -/
def State.othersPeerDead (s : State) (endpoint : Nat) : State :=
  let s := s.bh.rebuilds.foldl (fun s r =>
    ((r.stripe.holders.zipIdx).filter fun h => h.1.1 = endpoint).foldl (fun s h =>
      match s.rebuild? r.ring r.seq with | some r => s.holderGone r h.2 true | none => s) s) s
  s.bh.restores.foldl (fun s r =>
    match r.tree.findIdx? fun t => t.endpoint = endpoint with
    | some n => (s.mapRestore r.ring r.seq fun r => { r with dead := n :: r.dead.erase n }).restoreDone r.ring r.seq
    | none => s) s

/-- STRIPE_PEER_DEAD (R190, R201): a peer does not answer. What it has not answered is sent up to three times; once PEER_TIMEOUT_MS have
passed since the first, it is DEAD. -/
def execStripePeerDead (endpoint : Nat) (s : State) : Out :=
  .next (
    let s := s.resendBh endpoint
    if !s.unanswered endpoint then s
    else
      let s : State := { s with bh := { s.bh with
        deadPeers := endpoint :: s.bh.deadPeers.erase endpoint,
        awaits := s.bh.awaits.filter (·.endpoint ≠ endpoint),
        resends := s.bh.resends.filter (·.endpoint ≠ endpoint) } }
      let s := (s.bh.shards.map (·.1)).foldl (fun s n => s.shardPeerDead endpoint n) s
      s.othersPeerDead endpoint)

/-! ### Members that are DEAD (R155, R200) -/

/-- Broadcasts learn that a member is DEAD. -/
def State.memberGone (s : State) (moor endpoint : Nat) : State :=
  (s.bh.restores.filter fun r => r.moor = moor).foldl (fun s r =>
    match r.tree.findIdx? fun t => t.endpoint = endpoint && !t.isModule with
    | some n => (s.mapRestore r.ring r.seq fun r => { r with dead := n :: r.dead.erase n }).restoreDone r.ring r.seq
    | none => s) s

/-- MEMBER_DEAD (R155): a member's lease has passed since its port's last beacon and since its bit was last set. -/
def execMemberDead (moor member : Nat) (s : State) : Out :=
  .next <|
    let c := s.ctx moor
    if s.ctxState moor = Cs.active && c.bitmap.testBit member
        && max (s.beaconAt (c.portOf member)) c.since + us (1000 * c.leaseMs) ≤ s.now then
      (s.fence moor member true).memberGone moor (c.endpoint member)
    else s

/-! ### Stopping (R107, R193) -/

/-- A running SHARD, COMMIT or RESTORE is stopped with a status. -/
def State.stopBoathouse (s : State) (c : Cmd) (status : Nat) : State :=
  match c.type with
  | 6 => s.endCommitCmd c.ring c.seq status
  | 7 =>
    match s.rebuild? c.ring c.seq, s.restore? c.ring c.seq with
    | some r, _ => s.endRebuild r (if status = St.timeout && !r.lost.isEmpty then St.memberLost else status)
    | none, some q => s.endRestore q status
    | none, none => s.endCmd c.ring c.seq status 0 0 0
  | _ =>
    match s.rebuild? c.ring c.seq, s.bh.loads.find? fun l => l.1 = c.ring && l.2.1 = c.seq with
    | some r, _ => s.endRebuild r (if status = St.timeout && !r.lost.isEmpty then St.memberLost else status)
    | none, some l => ((s.dropLoad l.2.2).loadFails l.2.2).endCmd c.ring c.seq status 0 0 0
    | none, none => s.endCmd c.ring c.seq status 0 0 0

end Sys2Proof.Machine
end

