-- ==== Sys2Proof/Machine/Rows.lean ====
section
/-! DEFINITION. Clock rows (R20, R39, R368), Lodge records (R382), local drops and pace reports (R370 to R373). -/

namespace Sys2Proof.Machine

/-! ### Lodge records (R382) -/

/-! KIND of a Lodge record. -/
namespace Lk
def thermal : Nat := 0
def current : Nat := 1
def cap : Nat := 2
def release : Nat := 3
def emergWinter : Nat := 4
def emergStandby : Nat := 5
def refLost : Nat := 6
def refBack : Nat := 7
def suspect : Nat := 8
def beaconBack : Nat := 9
end Lk

/-- A record posted, or counted in LOST while 64 records wait; a SOURCE or VALUE that the specification does not give is a
free value. -/
def State.lodgeRec (s : State) (kind : Nat) (source value : Option Nat) : State :=
  let prod := s.get F.LG_REC_PTR_PROD
  if (prod + 65536 - s.get F.LG_REC_PTR_CONS) % 65536 ≥ 64 then s.bump F.LG_REC_PTR_LOST
  else
    let (r1, s) := s.fresh
    let (r2, s) := s.fresh
    let w := s.ts32 + kind * 2 ^ 32 + (source.getD r1.toNat) % 2 ^ 9 * 2 ^ 36 + s.get F.PM_STATE_ROW * 2 ^ 45
    let s := (s.wr .LG_REC_LO [prod % 64] (BitVec.ofNat 64 w)).wr .LG_REC_HI [prod % 64] (BitVec.ofNat 64 (value.getD r2.toNat))
    (s.advance F.LG_REC_PTR_PROD).tally 0x61

/-! ### The row in force (R20, R366, R368) -/

/-- The ceiling (R366): in a pace group the committed row, else the slower of it and FAST_ROW, whose 6 and 7 count as 0. -/
def State.ceiling (s : State) : Nat :=
  let c := s.cget F.PM_STEP_ROW
  if s.get F.PM_PACE_GROUP_EN = 1 then c
  else
    let f := s.get F.PM_CTRL_FAST_ROW
    max c (if f ≥ 6 then 0 else f)

/-- The divider changes: the row in force moves; a faster one takes arrays from level 4 back to level 1 (R39). -/
def State.toRow (s : State) (r : Nat) : State :=
  let old := s.get F.PM_STATE_ROW
  if r = old then s
  else
    let s := (s.put F.PM_STATE_ROW [] r).tally 0x60
    if old < r then s
    else (List.range s.pavCount).foldl (fun s n => [0, 1].foldl (fun s a =>
      if s.get (levelFld a) [n] = 4 then s.setLevel n a 1 else s) s) s

/-- A change to a slower row (R368): the divider first; the voltage then falls. A rising ramp ends. -/
def State.slower (s : State) (r : Nat) : State :=
  if r ≤ s.get F.PM_STATE_ROW then s
  else
    let s := { s with pwr := { s.pwr with ramp := none, volt := r, upSince := none } }
    (s.toRow r).put F.PM_STATE_RAMPING [] 1

/-- A change of the ceiling: the row in force is never faster than it (R20), and a ramp past it ends. -/
def State.holdCeiling (s : State) : State :=
  let s := s.slower s.ceiling
  match s.pwr.ramp with
  | some (r, false) => if r < s.ceiling then { s with pwr := { s.pwr with ramp := none } } else s
  | _ => s

/-- The voltage starts to rise for a faster row (R368). -/
def State.rise (s : State) (r : Nat) (forCommit : Bool) : State :=
  ({ s with pwr := { s.pwr with ramp := some (r, forCommit) } } : State).put F.PM_STATE_RAMPING [] 1

/-- The module goes to a row: at once where it is slower, by a ramp where it is faster. -/
def State.goRow (s : State) (r : Nat) : State :=
  let row := s.get F.PM_STATE_ROW
  if row < r then s.slower r
  else if r < row then s.rise r false
  else { s with pwr := { s.pwr with ramp := none } }

/-- VOLTAGE_REACHED (R368): a ramp has reached its voltage. A faster row is then in force, or may be, where a commit of set
0x380 waits for its boundary; never one faster than the ceiling (R20). -/
def execVoltageReached (s : State) : Out :=
  .next (if s.get F.PM_STATE_RAMPING = 0 then s
    else
      let s := s.put F.PM_STATE_RAMPING [] 0
      match s.pwr.ramp with
      | none => s
      | some (r, forCommit) =>
        let s : State := { s with pwr := { s.pwr with ramp := none, volt := r } }
        if forCommit || r < s.ceiling then s else s.toRow r)

/-! ### Local drops (R370 to R373) -/

namespace Dc
def thermal : Nat := 1
def current : Nat := 2
def cap : Nat := 3
end Dc

/-- A pace report (R371), to REPORT_EP where that is enabled. -/
def State.paceReport (s : State) (cause : Nat) : State :=
  if s.get F.PM_PACE_REPORT_EP_EN = 0 then s
  else
    let w0 := s.primary % 2 ^ 24 + s.get F.PM_STATE_ROW * 2 ^ 24 + s.get F.PM_STATE_COMMITTED_ROW * 2 ^ 27 + cause * 2 ^ 30 + s.ts32 * 2 ^ 32
    let t := if cause = Dc.current || cause = Dc.cap then 0 else s.get F.LG_STATUS_HOT_T
    let (job, s) := s.fresh
    let (pkt, s) := s.build 3 (s.get F.PM_PACE_TCLASS) (s.get F.PM_PACE_REPORT_EP) (job.toNat % 2 ^ 12) 0x9ACE (leBytes w0 8 ++ leBytes t 8)
    s.sendTo pkt

/-- REPORT_EVENT incremented and a pace report sent, as enabled. -/
def State.report (s : State) (cause : Nat) : State :=
  let s := if s.get F.PM_PACE_REPORT_EV_EN = 1 then s.evAdd (s.get F.PM_PACE_REPORT_EVENT) 1 else s
  s.paceReport cause

/-- A trip counted in PM_DROPS. -/
def State.countTrip (s : State) (cause : Nat) : State :=
  if cause = Dc.thermal then s.bump F.PM_DROPS_THERMAL
  else if cause = Dc.current then s.bump F.PM_DROPS_CURRENT
  else s.bump F.PM_DROPS_CAP

/-- A trip (R370, R381): the module moves to row `r`, only toward row 5. In a pace group it is a local drop, or while one
stands counted and recorded only. The times for which a release condition has to last run from the drop (R372). -/
def State.trip (s : State) (cause r : Nat) (source value : Option Nat) : State :=
  let s := (s.countTrip cause).slower r
  if s.get F.PM_PACE_GROUP_EN = 0 || s.get F.PM_STATE_LOCAL_DROP = 1 then s.lodgeRec (cause - 1) source value
  else
    let s := (s.put F.PM_STATE_LOCAL_DROP [] 1).put F.PM_STATE_CAUSE [] cause
    let s : State := { s with lodge := { s.lodge with
      clrSince := s.lodge.clrSince.map fun _ => s.now, currSince := s.lodge.currSince.map fun _ => s.now } }
    let s := if cause = Dc.thermal then s.put F.LG_STATUS_THERM_LATCH [] 1
      else if cause = Dc.current then s.put F.LG_STATUS_CURR_LATCH [] 1 else s
    (s.lodgeRec (cause - 1) source value).report cause

/-- Whether a condition that began at a cycle has lasted `n` mgc cycles. -/
def State.lasted (s : State) (since : Option Nat) (n : Nat) : Bool :=
  match since with
  | some t => t + n ≤ s.now
  | none => false

/-- Whether the standing local drop may be released (R372). -/
def State.releasable (s : State) : Bool :=
  s.get F.PM_STATE_LOCAL_DROP = 1 &&
    (let c := s.get F.PM_STATE_CAUSE
     let hold := us (1000 * s.get F.LG_LIMITS_CLR_HOLD_MS)
     if c = Dc.thermal then s.lasted s.lodge.clrSince hold
     else if c = Dc.current then s.lasted s.lodge.currSince hold
     else s.lasted s.pwr.capSince (us (s.get F.PM_CTRL_UP_HOLD_US)))

/-- DROP_RELEASE (R372): the drop is cleared, recorded and reported, and the module returns to its committed row. -/
def execDropRelease (s : State) : Out :=
  .next (if !s.releasable then s
    else
      let s := (s.put F.PM_STATE_LOCAL_DROP [] 0).put F.PM_STATE_CAUSE [] 0
      let s := (s.put F.LG_STATUS_THERM_LATCH [] 0).put F.LG_STATUS_CURR_LATCH [] 0
      ((s.lodgeRec Lk.release none none).report 0).goRow s.ceiling)

end Sys2Proof.Machine
end

