-- ==== Sys2Proof/Machine/Sets.lean ====
section
/-! DEFINITION. Staged sets (R15, R119 to R122): which registers a set and instance hold, snapshots, and the consistency check
of every set. -/

namespace Sys2Proof.Machine

/-! ### Sets and instances (R119) -/

/-- The instances of a set and one of its registers; none for a code that no chapter lists. -/
def setInfo (set : Nat) : Option (Nat × Reg) :=
  match set with
  | 0x040 => some (256, .WK_RING_BASE)
  | 0x041 => some (256, .WK_CQ_BASE)
  | 0x080 => some (1, .MO_DLOG_BASE)
  | 0x0C0 => some (1, .BH_FSTORE_BASE)
  | 0x140 => some (1, .BS_SELF)
  | 0x142 => some (256, .BS_BUNDLE_MAP)
  | 0x143 => some (4096, .BS_MCG_MAP)
  | 0x180 => some (1, .HB_PIN_COUNT)
  | 0x181 => some (4, .HB_LEARN_BASE)
  | 0x1C0 => some (512, .SC_GATE_CTL)
  | 0x200 => some (1, .CT_SET_S)
  | 0x240 => some (64, .QY_LAYOUT)
  | 0x2C0 => some (1, .BW_BUF_BASE)
  | 0x2C1 => some (32, .BW_SA_CFG)
  | 0x2C2 => some (64, .BW_SPAN_CFG)
  | 0x300 => some (1, .DK_RSV)
  | 0x301 => some (8, .DK_WIN_BASE)
  | 0x340 => some (1, .WH_CFG)
  | 0x380 => some (1, .PM_STEP)
  | _ => none

/-- The instance that a staged register belongs to; the Lighthouse registers of Quay q belong to port 8q (R316). -/
def instOf (r : Reg) (idx : List Nat) : Nat :=
  match r with
  | .LH_PORT_CFG => 8 * idx.headD 0
  | .LH_COLOUR => 8 * idx.headD 0
  | r =>
    match (regDesc r).set.bind setInfo with
    | some (n, _) => if n = 1 then 0 else idx.headD 0
    | none => 0

/-- The registers through which a set's memory is written: they hold nothing of a snapshot themselves. -/
def isWindow (r : Reg) : Bool :=
  match r with
  | .SC_GATE_ADDR | .SC_GATE_DATA | .BW_SA_KEYDATA => true
  | _ => false

/-- Whether an offset is that of a register of a set and instance. -/
def inSet (set inst off : Nat) : Bool :=
  match findReg off with
  | some (r, idx) => (regDesc r).set = some set && instOf r idx = inst && !isWindow r
  | none => false

/-- Keys of a snapshot beyond the offsets: gate entries and key words. -/
def gateKey : Nat := 2 ^ 32
def wordKey : Nat := 2 ^ 33

/-- The shadow of a set and instance: its registers, the port's gate entries, the slot's key words. -/
def State.snapshot (s : State) (set inst : Nat) : List (Nat × Word64) :=
  (s.regs.filter fun p => inSet set inst p.1)
    ++ (if set = 0x1C0 then (s.sched.gateShadow.filter fun p => p.1 / 1024 = inst).map fun p => (gateKey + p.1, p.2) else [])
    ++ (if set = 0x2C1 then s.bw.keys.filterMap fun p => if p.1 / 32 = inst then p.2.map fun w => (wordKey + p.1, w) else none else [])

/-- A snapshot made the copy in force. -/
def State.install (s : State) (set inst : Nat) (snap : List (Nat × Word64)) : State :=
  let cregs := (s.cregs.filter fun p => !inSet set inst p.1)
  let cregs := (snap.filter fun p => p.1 < gateKey).foldl (fun m p => spIns m p.1 p.2) cregs
  let gates := s.sched.gateList.filter fun p => !(set = 0x1C0 && p.1 / 1024 = inst)
  let gates := (snap.filter fun p => gateKey ≤ p.1 && p.1 < wordKey).foldl (fun m p => spIns m (p.1 - gateKey) p.2) gates
  let keys := s.bw.ckeys.filter fun p => !(set = 0x2C1 && p.1 / 32 = inst)
  let keys := (snap.filter fun p => wordKey ≤ p.1).foldl (fun m p => spIns m (p.1 - wordKey) (some p.2)) keys
  { s with cregs := cregs, sched := { s.sched with gateList := gates }, bw := { s.bw with ckeys := keys } }

/-- A word written to the shadow: SC_GATE_DATA and BW_SA_KEYDATA write the entry or word selected and go on to the next
(R274, R339). -/
def State.shadowWrite (s : State) (req : Requester) (r : Reg) (idx : List Nat) (v : Word64) : State :=
  match r with
  | .SC_GATE_DATA =>
    let e := s.get F.SC_GATE_ADDR_ENTRY
    let key := 1024 * s.get F.SC_GATE_ADDR_PORT + e
    ({ s with sched := { s.sched with gateShadow := spPut 0 s.sched.gateShadow key v } } : State).put
      F.SC_GATE_ADDR_ENTRY [] ((e + 1) % 1024)
  | .BW_SA_KEYDATA =>
    let w := s.get F.BW_SA_KEYSEL_WORD idx
    let key := saKey (idx.headD 0) (s.get F.BW_SA_KEYSEL_AN idx) w
    ({ s with bw := { s.bw with keys := spPut none s.bw.keys key (some v) } } : State).put F.BW_SA_KEYSEL_WORD idx ((w + 1) % 8)
  | r => s.applyWrite req r idx v

/-! ### Checks -/

/-- How a check of a set ends. -/
inductive SetCheck where
  | good
  | bad
  | zero
deriving DecidableEq, Repr

def checkIf (bad : Bool) : SetCheck := if bad then .bad else .good

def isPow2 (n : Nat) : Bool := n ≠ 0 && n = 2 ^ Nat.log2 n

/-- Whether SLOTS is a power of two in a range. -/
def slotsIn (lo hi n : Nat) : Bool := isPow2 n && lo ≤ n && n ≤ hi

/-- Whether a range of software's lies in Dock below the reserve. -/
def State.belowReserve (s : State) (a n : Nat) : Bool := a + n ≤ s.rsvBase

/-- No two of a list are equal. -/
def allUnique : List Nat → Bool
  | [] => true
  | a :: rest => !rest.contains a && allUnique rest

/-- A ring's base with its size (R97, R106, R437): the limits of SLOTS apply to nonzero values. -/
def State.ringBad (s : State) (base : Word64) (slots width : Nat) : Bool :=
  !(ptrSpace base = 2 || ptrSpace base = 4) || !s.ptrOk base (width * slots) || (slots ≠ 0 && !slotsIn 64 65536 slots)
    || (ptrSpace base = 2 && s.meetsShard (ptrAddr base, width * slots))

/-- Set 0x040 (R97, R119). -/
def State.checkRing (s : State) (r : Nat) : SetCheck :=
  let slots := s.get F.WK_RING_CFG_SLOTS [r]
  let win := s.get F.WK_RING_CFG_WINDOW [r]
  if s.get F.WK_RING_CTRL_STATE [r] ≠ 0 || s.ringBad (s.rd .WK_RING_BASE [r]) slots 64 || win > 256 then .bad
  else if slots = 0 || win = 0 then .zero
  else .good

/-- Set 0x041: every work ring that names the completion ring must be OFF. -/
def State.checkCq (s : State) (c : Nat) : SetCheck :=
  let slots := s.get F.WK_CQ_CFG_SLOTS [c]
  let named := (List.range 256).any fun r => s.cget F.WK_RING_CFG_CQ [r] = c && s.get F.WK_RING_CTRL_STATE [r] ≠ 0
  if named || s.ringBad (s.rd .WK_CQ_BASE [c]) slots 32 then .bad else if slots = 0 then .zero else .good

/-- Set 0x080 (R160, R212, R437). -/
def State.checkDlog (s : State) : SetCheck :=
  let n := s.get F.MO_DLOG_CFG_SLOTS
  let a := s.get F.MO_DLOG_BASE_ADDR
  checkIf ((n ≠ 0 && !slotsIn 64 16777216 n) || a % 64 ≠ 0 || !s.belowReserve a (32 * n) || s.meetsShard (a, 32 * n))

/-- Set 0x0C0 (R202). -/
def State.checkStore (s : State) : SetCheck :=
  let a := s.get F.BH_FSTORE_BASE_ADDR
  let n := s.get F.BH_FSTORE_LEN_BYTES
  let peers := (List.range 256).filterMap fun k =>
    if s.get F.BH_PEER_VALID [k] = 1 then some (s.get F.BH_PEER_ENDPOINT [k]) else none
  let slots := s.bh.shards.any fun x => match x.2 with | some y => rangesMeet (a, n) y.slots | none => false
  let held := s.bh.frags.all fun f => a ≤ f.place && f.place + f.size ≤ a + n
  checkIf (a % 4096 ≠ 0 || n % 4096 ≠ 0 || a + n > s.whBytes || slots || !held || !allUnique peers)

/-- Set 0x140 (R260). -/
def State.checkSelf (s : State) : SetCheck :=
  checkIf (!allUnique ((List.range 4).filterMap fun k =>
    if s.get F.BS_SELF_VALID [k] = 1 then some (s.get F.BS_SELF_ENDPOINT [k]) else none))

/-- Ports named in the eight shadow words of a map. -/
def State.shadowPorts (s : State) (r : Reg) (b : Nat) : List Nat :=
  (List.range 512).filter fun p => (s.rd r [b, p / 64]).getLsbD (p % 64)

/-- Set 0x142 (R245, R260, R315). -/
def State.checkBundle (s : State) (b : Nat) : SetCheck :=
  let ps := s.shadowPorts .BS_BUNDLE_MAP b
  let alike := match ps with
    | [] => true
    | p :: rest => rest.all fun q => s.portWidth q = s.portWidth p && s.isEth q = s.isEth p
  checkIf (64 < ps.length || !ps.all s.isPort || !alike || ps.any s.lhPort)

/-- Set 0x143 (R260). -/
def State.checkMcg (s : State) (g : Nat) : SetCheck := checkIf (!(s.shadowPorts .BS_MCG_MAP g).all s.isPort)

/-- Set 0x181 (R260, R437). -/
def State.checkLearn (s : State) (p : Nat) : SetCheck :=
  let n := s.get F.HB_LEARN_CFG_SLOTS [p]
  let a := s.get F.HB_LEARN_BASE_ADDR [p]
  checkIf ((n ≠ 0 && !slotsIn 64 65536 n) || a % 64 ≠ 0 || !s.belowReserve a (16 * n) || s.meetsShard (a, 16 * n))

/-! #### The pinned list (R258) -/

/-- One entry of the pinned list: key, OP, data. -/
structure Pin where
  key : Nat
  op : Nat
  data : Nat
deriving DecidableEq, Repr

/-- The list in the snapshot of set 0x180. -/
def pinsOf (snap : List (Nat × Word64)) : List Pin :=
  let at_ (r : Reg) (idx : List Nat) : Word64 := ((snap.find? fun p => p.1 = regAddr r idx).map (·.2)).getD (regReset r idx)
  (List.range (bits (at_ .HB_PIN_COUNT []) 0 13)).map fun k =>
    ⟨bits (at_ .HB_PIN_KEY [k]) 0 40, bits (at_ .HB_PIN_KEY [k]) 40 2, bits (at_ .HB_PIN_DATA [k]) 0 16⟩

/-- Of some places, the unpinned entry with the oldest STAMP, the first on a tie. -/
def State.oldest (s : State) (pipe : Nat) (places : List Nat) : Option Nat :=
  (places.foldl (fun (best : Option (Nat × Nat)) i =>
    match s.hEntry pipe i with
    | some e =>
      let age := (s.get F.HB_AGE_NOW [pipe] + 65536 - bits e.data 32 16) % 65536
      if e.data.getLsbD 16 then best
      else match best with
        | some (b, n) => if n < age then some (i, age) else some (b, n)
        | none => some (i, age)
    | none => best) none).map (·.1)

/-- The place that an INSERT of a new key takes. -/
def State.pinPlace (s : State) (pipe key : Nat) : Option Nat :=
  let ways := (List.range 4).map (4 * hBucket key + ·)
  let ovf := (List.range 8192).map (ovfBase + ·)
  let empty (i : Nat) : Bool := s.hEntry pipe i = none
  (ways.find? empty).orElse fun _ => (s.oldest pipe ways).orElse fun _ => (ovf.find? empty).orElse fun _ => s.oldest pipe ovf

/-- One entry of the list applied to a pipeline; none where an INSERT finds no place. -/
def State.applyPin (s : State) (pipe : Nat) (x : Pin) : Option State :=
  let held := (s.hTable pipe).find? fun e => match e.2 with | some y => y.key = x.key && !y.badParity | none => false
  let word := putBits (putBits (putBits (BitVec.ofNat 64 x.data) 16 1 1) 32 16 (s.get F.HB_AGE_NOW [pipe])) 63 1 1
  match x.op, held with
  | 1, some (i, _) => some (s.hSet pipe i (some ⟨x.key, word, false⟩))
  | 1, none =>
    match s.pinPlace pipe x.key with
    | none => none
    | some i =>
      let s := match s.hEntry pipe i with
        | some old => s.notify pipe old.key 0 5 i
        | none => s
      some (s.hSet pipe i (some ⟨x.key, word, false⟩))
  | 2, some (i, some y) => if y.data.getLsbD 16 then some (s.hSet pipe i none) else some s
  | _, _ => some s

/-- The list applied to every pipeline; none where it is refused. -/
def State.applyPins (s : State) (l : List Pin) : Option State :=
  if l.length > 4096 || l.any (fun x => x.op = 3 || (x.op = 1 && x.data % 4 = 1 && x.data / 4 % 512 > 255)) then none
  else (List.range 4).foldl (fun s pipe => l.foldl (fun s x => s.bind (·.applyPin pipe x)) s) (some s)

/-! #### Gate lists and Lighthouse lists (R271, R315, R316, R320) -/

/-- The entries of a port's shadow list. -/
def State.shadowEntries (s : State) (p : Nat) : List Word64 :=
  (List.range (s.get F.SC_GATE_CTL_COUNT [p])).map fun i => spGet 0 s.sched.gateShadow (1024 * p + i)

/-- HOLD_NS of the module in a Quay: 58 plus TUNE_NS of its page 0xB0 (R318, R326). -/
def State.holdNs (s : State) (q : Nat) : Nat :=
  58 + (Config.moduleByte s.resets q 132).toNat * 256 + (Config.moduleByte s.resets q 133).toNat

/-- COLOURS of the module in a Quay. -/
def State.modColours (s : State) (q : Nat) : Nat := (Config.moduleByte s.resets q 131).toNat % 128

/-- Whether the module in a Quay can run under Lighthouse control: it is present, with the signature and FASTSEL (R315). -/
def State.lhModule (s : State) (q : Nat) : Bool :=
  s.get F.QY_CMIS_STATUS_PRESENT_L [q] = 0 && Config.moduleByte s.resets q 128 = 0x4A && Config.moduleByte s.resets q 129 = 0x58
    && 128 ≤ (Config.moduleByte s.resets q 131).toNat

/-- An entry with its dark classes closed. -/
def darkShut (e : Word64) : Word64 := if gateCsel e = 0x3FF then putBits e 0 16 0 else e

/-- A list with the holds of its retunes cut off as closed entries: `prev` is the colour before, `shut` the ns closed just
before, `carry` the hold still to run. -/
def cutHolds (hold : Nat) : List Word64 → Nat → Nat → Nat → List Word64
  | [], _, _, _ => []
  | e :: rest, prev, shut, carry =>
    let d := gateDur e
    if gateOpen e = 0 then e :: cutHolds hold rest prev (shut + d) (carry - d)
    else
      let need := if gateCsel e = prev then carry else max carry (hold - shut)
      let c := min need d
      putBits (putBits e 32 32 c) 0 16 0 :: putBits e 32 32 (d - c) :: cutHolds hold rest (gateCsel e) 0 (need - c)

/-- A cyclic list with its holds as closed time. -/
def withHolds (hold : Nat) (l : List Word64) : List Word64 :=
  match (l.filter fun e => gateOpen e ≠ 0).getLast? with
  | none => l
  | some last =>
    let shut := (l.reverse.takeWhile fun e => gateOpen e = 0).foldl (fun n e => n + gateDur e) 0
    cutHolds hold l (gateCsel last) shut 0

/-- The Lighthouse part of the check of set 0x1C0. -/
def State.lhListBad (s : State) (p : Nat) (es : List Word64) : Bool :=
  let q := p / 8
  s.portWidth p ≠ 8 || s.isEth p || !s.lhModule q
    || ((List.range 256).any fun b => (s.bundlePorts b).contains p)
    || es.any fun e =>
        let k := gateCsel e
        !(k = 0x3FF || (k < 64 && s.get F.LH_COLOUR_VALID [q, k] = 1 && s.get F.LH_COLOUR_MIDX [q, k] < s.modColours q))

/-- Set 0x1C0. -/
def State.checkGate (s : State) (p : Nat) : SetCheck :=
  let n := s.get F.SC_GATE_CTL_COUNT [p]
  if !s.isPort p || n > 1024 then .bad
  else
    let es := s.shadowEntries p
    let lh := p % 8 = 0 && s.get F.LH_PORT_CFG_EN [p / 8] = 1
    let run := if lh then withHolds (s.holdNs (p / 8)) (es.map darkShut) else es
    let guardBad := s.get F.SC_GATE_CTL_GUARD [p] = 1 && (List.range 16).any fun c =>
      es.any (classOpen · c) && (match longestRun run c with
        | none => false
        | some ns => ns * s.rateMbps p < 9272 * 8000)
    checkIf (es.any (fun e => gateDur e < 16 || bits e 26 6 ≠ 0) || cycleOf es > 4294967295
      || s.get F.SC_GATE_BASE_NS_NS [p] ≥ 1000000000 || guardBad || (lh && s.lhListBad p es))

/-! #### Quays (R288, R289, R314) -/

/-- A port's width in a START mask. -/
def widthIn (start lane : Nat) : Nat := nextStart start 8 (lane + 1) - lane

/-- Whether a layout is one that R288 and R289 allow. -/
def layoutOk (start eth : Nat) : Bool :=
  start.testBit 0 && (List.range 8).all fun i =>
    !start.testBit i || (let w := widthIn start i
      (w = 1 || w = 2 || w = 4 || w = 8) && i % w = 0 && (!eth.testBit i || w = 4 || w = 8))

/-- Ports of a Quay that a new START takes away or gives another width. -/
def State.portsLost (s : State) (q start : Nat) : List Nat :=
  (List.range 8).filterMap fun i =>
    if s.isPort (8 * q + i) && !(start.testBit i && widthIn start i = s.portWidth (8 * q + i)) then some (8 * q + i) else none

/-- Set 0x240. -/
def State.checkQuay (s : State) (q : Nat) : SetCheck :=
  let start := s.get F.QY_LAYOUT_START [q]
  let named (p : Nat) : Bool :=
    ((List.range 256).any fun b => (s.bundlePorts b).contains p)
      || s.mo.ctx.any fun x => s.ctxState x.1 ≠ Cs.free && (match x.2 with
          | some c => c.table.any fun m => m.2 = p
          | none => false)
  checkIf (!layoutOk start (s.get F.QY_LAYOUT_ETH [q]) || (s.portsLost q start).any named)

/-! #### Breakwater (R328, R339, R341) -/

/-- Whether a slot's shadow differs from its copy in force. -/
def State.slotChanges (s : State) (i : Nat) : Bool := s.rd .BW_LH_CFG [i] ≠ s.crd .BW_LH_CFG [i] || s.rd .BW_LH_WIN [i] ≠ s.crd .BW_LH_WIN [i]

/-- Set 0x2C0. -/
def State.checkSlots (s : State) : SetCheck :=
  let a := s.get F.BW_BUF_BASE_ADDR
  let n := s.get F.BW_BUF_LEN_BYTES
  let on := (List.range 32).filter fun i => s.get F.BW_LH_CFG_VALID [i] = 1
  let ports := on.map fun i => s.get F.BW_LH_CFG_PORT [i]
  let used := on.foldl (fun t i => t + s.get F.BW_LH_WIN_WIN_MIB [i] + s.get F.BW_LH_WIN_RX_MIB [i]) 0
  let badCode := on.any fun i =>
    let k := s.get F.BW_LH_CFG_K [i]
    k = 0 || 64 < k || 16 < s.get F.BW_LH_CFG_M [i]
  let busy := (List.range 32).any fun i => s.slotChanges i && s.slotState i ≠ Bw.down && s.slotState i ≠ Bw.outage
  let bad := !(ports.all fun p => s.isPort p && s.isEth p) || !allUnique ports
    || ((List.range 4).any fun d => 8 < (ports.filter fun p => dieOf p = d).length)
    || used * MiB > n || n > 24 * 2 ^ 30 || a % MiB ≠ 0 || n % MiB ≠ 0 || !s.belowReserve a n
    || s.meetsShard (a, n) || s.ringRegions.any (rangesMeet (a, n) ·) || badCode || busy
  if bad then .bad else if on.any fun i => s.get F.BW_LH_WIN_WIN_MIB [i] = 0 then .zero else .good

/-- Set 0x2C1. -/
def State.checkSa (s : State) (i : Nat) : SetCheck :=
  let mask := s.get F.BW_SA_CFG_RX_EN [i]
  checkIf (!mask.testBit (s.get F.BW_SA_CFG_TX_AN [i])
    || (List.range 4).any fun a => mask.testBit a && (List.range 7).any fun w => (spGet none s.bw.keys (saKey i a w)).isNone)

/-- Set 0x2C2. -/
def State.checkSpan (s : State) (j : Nat) : SetCheck :=
  let m := s.get F.BW_SPAN_CFG_MOORING [j]
  let mask := s.get F.BW_SPAN_CFG_SITE_MASK [j]
  let slotTo (t : Nat) : Nat := bits (s.rd (if t < 8 then .BW_SPAN_SLOTS_LO else .BW_SPAN_SLOTS_HI) [j]) (8 * (t % 8)) 5
  let kid (f : Fld) : Bool := match spGet none s.pv.images (s.get f [j]) with
    | some im => im.flags.testBit 2
    | none => false
  if s.collPending m then .bad
  else if s.get F.BW_SPAN_CFG_VALID [j] = 0 then .good
  else
    checkIf (!mask.testBit s.site || ((List.range 16).any fun t => mask.testBit t && t ≠ s.site && !s.slotValid (slotTo t))
      || ((List.range 64).any fun k => k ≠ j && s.spanValid k && s.cget F.BW_SPAN_CFG_MOORING [k] = m)
      || (s.get F.BW_SPAN_CFG_MODE [j] = 1 && !(kid F.BW_SPAN_KIDS_ENC_KID && kid F.BW_SPAN_KIDS_DEC_KID)))

/-! #### Dock, Warehouse, clock step (R214, R217, R218, R228, R369) -/

/-- The reserve's base for the shadow of DK_RSV (R212). -/
def State.newReserve (s : State) : Nat := dockBytes - 768 * MiB - (s.get F.DK_RSV_IMG_MIB + s.get F.DK_RSV_BH_MIB) * MiB

/-- The Dock windows in force. -/
def State.windows (s : State) : List (Nat × Nat) :=
  (List.range 8).filterMap fun n =>
    if s.cget F.DK_WIN_BASE_VALID [n] = 1 then some (s.cget F.DK_WIN_BASE_BASE [n], s.cget F.DK_WIN_SIZE_SIZE [n] * 2 ^ 28) else none

/-- Set 0x300. -/
def State.checkReserve (s : State) : SetCheck :=
  let r := (s.newReserve, dockBytes - s.newReserve)
  checkIf (s.pv.images.any (·.2.isSome) || !s.bh.restores.isEmpty || (s.mo.ctx.any fun x => s.ctxState x.1 ≠ Cs.free)
    || s.meetsShard r || (s.ringRegions ++ s.windows).any (rangesMeet r ·))

/-- Set 0x301. -/
def State.checkWindow (s : State) (n : Nat) : SetCheck :=
  let a := s.get F.DK_WIN_BASE_BASE [n]
  checkIf (a % 2 ^ 28 ≠ 0 || !s.belowReserve a (s.get F.DK_WIN_SIZE_SIZE [n] * 2 ^ 28))

/-- The ports of the shadow PORT_MASK. -/
def State.whPorts (s : State) : List Nat := (List.range 4).filter (s.get F.WH_CFG_PORT_MASK).testBit

/-- The bytes that the shadow configuration gives the Warehouse: W times the smallest capacity (R217). -/
def State.newWhUnits (s : State) : Nat :=
  match (s.whPorts.map fun k => s.get F.WH_PORT_CAP_256M [k]).min? with
  | some q => q * s.whPorts.length
  | none => 0

/-- Set 0x340 (R217, R218, R227). Where no port is named the ports and the room are not judged; no port or no manifest store is
ZERO_SIZE only with ENABLE set. -/
def State.checkWh (s : State) : SetCheck :=
  let a := s.get F.WH_MSTORE_BASE_ADDR
  let n := s.get F.WH_MSTORE_LEN_BYTES
  let w := s.whPorts.length
  let slots := s.bh.shards.any fun x => match x.2 with | some y => rangesMeet (a, n) y.slots | none => false
  let bad := (w ≠ 0 && (!(w = 1 || w = 2 || w = 4) || a + n > s.newWhUnits * 2 ^ 28))
    || (s.whPorts.any fun k => s.get F.WH_PORT_STATE [k] ≠ 2 && s.get F.WH_PORT_STATE [k] ≠ 3)
    || a % 4096 ≠ 0 || n % 4096 ≠ 0
    || slots || rangesMeet (a, n) (s.cget F.BH_FSTORE_BASE_ADDR, s.cget F.BH_FSTORE_LEN_BYTES)
  if bad then .bad
  else if s.get F.WH_CFG_ENABLE = 1 && (w = 0 || n = 0) then .zero
  else .good

/-- Set 0x380; `timed` where the commit has AT_TIME. -/
def State.checkStep (s : State) (timed : Bool) : SetCheck :=
  let r := s.get F.PM_STEP_ROW
  checkIf (5 < r || s.get F.PM_STEP_DIV ≠ s.get F.PM_VTAB_DIV [r] || (s.get F.PM_PACE_GROUP_EN = 1 && !timed))

/-- The consistency check of a set and instance over its shadow (R120 step 3). -/
def State.setCheck (s : State) (set inst : Nat) (timed : Bool) : SetCheck :=
  match set with
  | 0x040 => s.checkRing inst
  | 0x041 => s.checkCq inst
  | 0x080 => s.checkDlog
  | 0x0C0 => s.checkStore
  | 0x140 => s.checkSelf
  | 0x142 => s.checkBundle inst
  | 0x143 => s.checkMcg inst
  | 0x180 => checkIf (s.applyPins (pinsOf (s.snapshot 0x180 0))).isNone
  | 0x181 => s.checkLearn inst
  | 0x1C0 => s.checkGate inst
  | 0x200 => checkIf (s.get F.CT_SET_NS_NS ≥ 1000000000)
  | 0x240 => s.checkQuay inst
  | 0x2C0 => s.checkSlots
  | 0x2C1 => s.checkSa inst
  | 0x2C2 => s.checkSpan inst
  | 0x300 => s.checkReserve
  | 0x301 => s.checkWindow inst
  | 0x340 => s.checkWh
  | 0x380 => s.checkStep timed
  | _ => .bad

end Sys2Proof.Machine
end

