-- ==== Sys2Proof/Machine/Commit.lean ====
section
/-! DEFINITION. Commits of staged sets: CONFIG (R120, R122), WK_COMMIT (R121, R378), and the swap of each set at its boundary
(R258, R271, R276, R285, R314, R366, R369, R373). -/

namespace Sys2Proof.Machine

open Host (Outcome)

/-! ### Pending commits -/

/-- The commit of a set and instance waits no longer. -/
def State.dropCommit (s : State) (set inst : Nat) : State :=
  { s with commits := s.commits.filter fun c => !(c.set = set && c.inst = inst) }

/-- WK_COMMIT_STATUS.BUSY brought up to date. -/
def State.showCommit (s : State) : State :=
  s.put F.WK_COMMIT_STATUS_BUSY [] (s.commits.any fun c => c.owner.isNone).toNat

/-- The outcome of a register commit. -/
def State.commitResult (s : State) (set status : Nat) : State :=
  ((s.put F.WK_COMMIT_STATUS_RESULT [] status).put F.WK_COMMIT_STATUS_LAST_SET [] set).showCommit

/-- A commit has ended: its CONFIG completes with LATE and the time of the swap, or WK_COMMIT_STATUS takes the result. -/
def State.endCommit (s : State) (c : Commit) (status : Nat) (at_ : Nat) : State :=
  let s := s.dropCommit c.set c.inst
  match c.owner with
  | some (ring, seq) =>
    let swap := if status = St.ok then at_ % 1000000000 + at_ / 1000000000 % 2 ^ 32 * 2 ^ 32 else 0
    s.endCmd ring seq status 0 c.late.toNat swap
  | none => s.commitResult c.set status

/-! ### Swaps -/

/-- Whether a port's fields that R314 names differ between two states. -/
def portDiffers (a b : State) (p : Nat) : Bool :=
  !a.isPort p || a.portWidth p ≠ b.portWidth p || a.isEth p ≠ b.isEth p
    || (a.portEnabled p && !b.portEnabled p)
    || [F.QY_PORT_CTRL_MAX_GEN, F.QY_PORT_CTRL_EXPECT_EN, F.QY_PORT_CTRL_EXPECT_EP].any (fun f => a.cget f (pidx p) ≠ b.cget f (pidx p))
    || [Reg.QY_ETH_CFG, .QY_ETH_MAC, .QY_ETH_PEER].any fun r => a.crd r (pidx p) ≠ b.crd r (pidx p)

/-- The swap of set 0x240: ports that go or change return to stage 1, and a changed one starts at its MAX_GEN (R309, R314). -/
def State.swapQuay (s : State) (q : Nat) (snap : List (Nat × Word64)) : State :=
  let next := s.install 0x240 q snap
  let ps := (List.range 8).map (8 * q + ·)
  let s := (ps.filter fun p => s.isPort p && (!next.isPort p || portDiffers s next p)).foldl (fun s p => (s.toStage1 p).put F.QY_PORT_STATUS_GEN (pidx p) 0) s
  s.install 0x240 q snap

/-- A slot starts again: its window is discarded (R328, R346). -/
def State.renewSlot (s : State) (i : Nat) : State :=
  let c := (s.slot i).counter
  let k := (s.slot i).keyx
  let s := (s.setSlot i { BwSlot.fresh with counter := c, keyx := k, heardAt := s.now }).put F.BW_LH_SEQ_TX_NEXT [i] 0
  (s.put F.BW_LH_ACK_PEER_ACK [i] 0).showSlot i

/-- The swap of set 0x2C0 (R328): a slot no longer valid is DOWN; one whose PORT, K, M or sizes change is set to RESYNC, or is
DOWN until its link is up. -/
def State.swapSlots (s : State) (snap : List (Nat × Word64)) : State :=
  let old := s
  (List.range 32).foldl (fun s i =>
    let changed := [F.BW_LH_CFG_VALID, F.BW_LH_CFG_PORT, F.BW_LH_CFG_K, F.BW_LH_CFG_M, F.BW_LH_WIN_WIN_MIB, F.BW_LH_WIN_RX_MIB].any
      fun f => s.cget f [i] ≠ old.cget f [i]
    if !changed then s
    else if !s.slotValid i || !s.linkUp (s.slotPort i) then (s.renewSlot i).setSlotState i Bw.down
    else (s.renewSlot i).enterResync i) (s.install 0x2C0 0 snap)

/-- The swap of set 0x2C1: an association with new key words starts again at PN 0. -/
def State.swapSa (s : State) (i : Nat) (snap : List (Nat × Word64)) : State :=
  let old := s
  let s := s.install 0x2C1 i snap
  (List.range 4).foldl (fun s a =>
    if (List.range 8).all fun w => spGet none s.bw.ckeys (saKey i a w) = spGet none old.bw.ckeys (saKey i a w) then s
    else (s.put F.BW_SA_PN_NEXT_PN [i, a] 0).mapSlot i fun x =>
      { x with pnTop := spPut 0 x.pnTop a 0 }) s

/-- What the Warehouse held is discarded (R219, R228). -/
def State.discardWh (s : State) : State :=
  let s := { s with wh := [], whEra := s.whEra + 1 }
  let s := s.setFrags []
  let s := s.bh.shards.foldl (fun s x =>
    (s.mapShard x.1 fun y => { y with slotA := none, slotB := none, manA := none, manB := none, durable := none }).showShard x.1) s
  s

/-- The manifest store moves: what lies at its new place is no manifest. -/
def State.forgetManifests (s : State) : State :=
  s.bh.shards.foldl (fun s x => s.mapShard x.1 fun y => { y with manA := none, manB := none }) s

/-- The swap of set 0x340 (R217, R219, R228). -/
def State.swapWh (s : State) (snap : List (Nat × Word64)) : State :=
  let mask := s.cget F.WH_CFG_PORT_MASK
  let s' := s.install 0x340 0 snap
  let new := s'.cget F.WH_CFG_PORT_MASK
  let ports := (List.range 4).filter new.testBit
  let s' := if mask ≠ new || s.get F.WH_STATUS_STATE = 2 || s'.whEra = 0 then s'.discardWh
    else if s.cget F.WH_MSTORE_BASE_ADDR ≠ s'.cget F.WH_MSTORE_BASE_ADDR then s'.forgetManifests
    else s'
  if s'.cget F.WH_CFG_ENABLE = 0 then
    ((s'.put F.WH_STATUS_STATE [] 0).put F.WH_STATUS_WAYS [] 0).put F.WH_STATUS_CAP_256M [] 0
  else
    let s' := ports.foldl (fun s k => s.put F.WH_PORT_IDE_ON [k] ((s.cget F.WH_CFG_IDE_EN).testBit k).toNat) s'
    let q := ((ports.map fun k => s'.get F.WH_PORT_CAP_256M [k]).min?).getD 0
    ((s'.put F.WH_STATUS_STATE [] 1).put F.WH_STATUS_WAYS [] ports.length).put F.WH_STATUS_CAP_256M [] (q * ports.length)

/-- What a swap does beside making the snapshot the copy in force. -/
def State.swap (s : State) (set inst : Nat) (snap : List (Nat × Word64)) : State :=
  match set with
  | 0x041 =>
    let s := (s.install set inst snap).wr .WK_CQ_PROD [inst] 0
    { s.wr .WK_CQ_CONS [inst] 0 with rings := { s.rings with cqLap := spPut 0 s.rings.cqLap inst 0 } }
  | 0x080 => (s.install set inst snap).put F.MO_DLOG_PROD_PROD [] 0
  | 0x181 => ((s.install set inst snap).put F.HB_LEARN_PROD_PROD [inst] 0).put F.HB_LEARN_CONS_CONS [inst] 0
  | 0x240 => s.swapQuay inst snap
  | 0x2C0 => s.swapSlots snap
  | 0x2C1 => s.swapSa inst snap
  | 0x2C2 => (s.install set inst snap).put F.BW_SPAN_STATUS_DEAD [inst] 0
  | 0x300 => (s.install set inst snap).put F.DK_RSV_BASE_ADDR []
      (dockBytes - 768 * MiB - ((s.install set inst snap).cget F.DK_RSV_IMG_MIB + (s.install set inst snap).cget F.DK_RSV_BH_MIB) * MiB)
  | 0x340 => s.swapWh snap
  | _ => s.install set inst snap

/-- Sets whose swap has a row of its own. -/
def ownSwap (set : Nat) : Bool := set = 0x180 || set = 0x1C0 || set = 0x200 || set = 0x380

/-- STAGED_SET_SWAP (R15, R119, R120): the snapshot of a pending commit becomes the committed set at its boundary. -/
def execStagedSetSwap (set inst : Nat) (s : State) : Out :=
  .next (match s.commit? set inst with
    | none => s
    | some c =>
      if ownSwap set || !s.timeCome c then s
      else (s.swap set inst c.snapshot).endCommit c St.ok s.ctNs)

/-- PIN_COMMIT (R258): the list is applied to all four pipelines, or refused with nothing written. -/
def execPinCommit (s : State) : Out :=
  .next (match s.commit? 0x180 0 with
    | none => s
    | some c =>
      if !s.timeCome c then s
      else
        (match s.applyPins (pinsOf c.snapshot) with
          | none => s.endCommit c St.badDescriptor s.ctNs
          | some t => (t.install 0x180 0 c.snapshot).endCommit c St.ok s.ctNs).pinsEnd)

/-- TIME_SET (R276): the time becomes that of set 0x200; the record reports the time that stood before. -/
def execTimeSet (s : State) : Out :=
  .next (match s.commit? 0x200 0 with
    | none => s
    | some c =>
      if !s.timeCome c then s
      else
        let was := s.ctNs
        let s := s.install 0x200 0 c.snapshot
        let s := s.dropCommit 0x200 0
        let s := s.moveTime (s.cget F.CT_SET_S_SECONDS * 1000000000 + s.cget F.CT_SET_NS_NS)
        ({ s with clock := { s.clock with frac := 0 } } : State).endCommit c St.ok was)

/-! ### Gate lists (R271, R273, R322) -/

/-- The Lighthouse part of a swap: EN and the module's hold are taken up; a colour whose MIDX or PEER changes starts again
UNCONFIRMED, and has to be locked on again. Without EN the channel is none. -/
def State.swapColours (s old : State) (q : Nat) : State :=
  let s := if s.cget F.LH_PORT_CFG_EN [q] = 1 then
      (s.put F.LH_PORT_STATUS_HOLD_NS [q] (s.holdNs q)).put F.LH_PORT_STATUS_MOD_COLOURS [q] (s.modColours q)
    else s.setChannel q { s.channel q with lit := none, tuning := none }
  (List.range 64).foldl (fun s k =>
    if s.cget F.LH_COLOUR_MIDX [q, k] = old.cget F.LH_COLOUR_MIDX [q, k] && s.cget F.LH_COLOUR_PEER [q, k] = old.cget F.LH_COLOUR_PEER [q, k]
    then s
    else
      let s := (s.put F.LH_CIRCUIT_STATE [q, k] 0).put F.LH_CIRCUIT_CAUSE [q, k] 0
      let c := (s.channel q).setCircuit k Circuit.fresh
      s.setChannel q (if s.colourNow q = k then { c with lit := none, tuning := none } else c)) s

/-- A port's list is in force from now: the entry that R269 gives. -/
def State.takeUpList (s : State) (p : Nat) : State :=
  let es := s.gateEntries p
  let s := (s.noteGate p).put F.SC_GATE_STATUS_ACTIVE [p] (!es.isEmpty).toNat
  let s := s.put F.SC_GATE_STATUS_CYCLES [p] 0
  if !s.lhPort p then s
  else if es.isEmpty then (if s.colourNow (p / 8) = 0x3FF then s else s.goDark (p / 8))
  else s.steerLight p (spGet 0 s.sched.gateAt p)

/-- GATE_LIST_SWAP (R271, R316, R325): a port's list and colours change together at a cycle start of the old list; never while
the channel is calibrated. -/
def execGateListSwap (port : Nat) (s : State) : Out :=
  .next (match s.commit? 0x1C0 port with
    | none => s
    | some c =>
      let calibrating := port % 8 = 0 && s.get F.LH_PORT_STATUS_CALIBRATING [port / 8] = 1
      if !s.timeCome c || calibrating || !s.gateBoundary port c then s
      else
        let old := s
        let s := s.install 0x1C0 port c.snapshot
        let s := if port % 8 = 0 then s.swapColours old (port / 8) else s
        (s.takeUpList port).endCommit c St.ok s.ctNs)

/-! ### The clock step (R286, R366, R368, R369, R373) -/

/-- The row that a snapshot of set 0x380 names. -/
def stepRow (c : Commit) : Nat := bits (((c.snapshot.find? fun p => p.1 = regAddr .PM_STEP []).map (·.2)).getD (regReset .PM_STEP [])) 0 3

/-- The row to be in force after the swap: the new ceiling, and while a local drop stands never a faster one than now. -/
def State.rowAfter (s : State) (c : Commit) : Nat :=
  let r := stepRow c
  let r := if s.get F.PM_PACE_GROUP_EN = 1 then r
    else (let f := s.get F.PM_CTRL_FAST_ROW; max r (if f ≥ 6 then 0 else f))
  if s.get F.PM_STATE_LOCAL_DROP = 1 then max r (s.get F.PM_STATE_ROW) else r

/-- The voltage ramp of a commit to a faster row starts 40 us before TIME, or at once (R369). -/
def State.commitRamp (s : State) : State :=
  match s.commit? 0x380 0 with
  | none => s
  | some c =>
    let r := s.rowAfter c
    let near := match c.atTime with
      | none => true
      | some (sec, ns) => sec * 1000000000 + ns ≤ s.ctNs + 40000
    if near && r < s.get F.PM_STATE_ROW && r < s.pwr.volt && s.pwr.ramp ≠ some (r, true) then s.rise r true else s

/-- CLOCK_STEP_SWAP (R286, R369, R373): the committed row and, unless a drop holds it back, the row in force change at TIME,
once the voltage stands. -/
def execClockStepSwap (s : State) : Out :=
  .next (match s.commit? 0x380 0 with
    | none => s
    | some c =>
      let r := s.rowAfter c
      if !s.timeCome c || (r < s.get F.PM_STATE_ROW && r < s.pwr.volt) then s
      else
        let at_ := s.ctNs
        let s := (s.install 0x380 0 c.snapshot).put F.PM_STATE_COMMITTED_ROW [] (stepRow c)
        let s : State := { s with pwr := { s.pwr with overs := 0, upSince := none } }
        let s := if s.get F.PM_STATE_ROW < r then s.slower r else (s.toRow r)
        s.endCommit c St.ok at_)

/-! ### Starting a commit -/

/-- A snapshot is taken and waits for its boundary. -/
def State.pend (s : State) (set inst : Nat) (atTime : Option (Nat × Nat)) (late : Bool) (owner : Option (Nat × Nat)) : State :=
  (({ s with commits := s.commits ++ [⟨set, inst, s.snapshot set inst, atTime, late, owner, if atTime.isNone then some s.ctNs else none, false⟩] } : State).showCommit).commitRamp

/-- The status of a check that fails. -/
def SetCheck.status : SetCheck → Option Nat
  | .good => none
  | .bad => some St.badDescriptor
  | .zero => some St.zeroSize

/-! ### CONFIG (R108, R120) -/

def Cmd.cfSet (c : Cmd) : Nat := c.fld 4 0 12
def Cmd.cfTimed (c : Cmd) : Bool := c.fld 4 12 1 = 1
def Cmd.cfInst (c : Cmd) : Nat := c.fld 4 32 32
def Cmd.cfCount (c : Cmd) : Nat := c.fld 6 0 16

/-- The first bad field of the descriptor. -/
def State.configDesc (s : State) (c : Cmd) : Option Nat :=
  let n := match setInfo c.cfSet with | some (n, _) => n | none => 0
  minOpt (payloadBad c 0xFFFFFFFF00001FFF#64 (BitVec.allOnes 64) (BitVec.allOnes 64) 0x3FFFFFFF#64)
    (lowestBad [(0x20, n = 0), (0x24, n ≠ 0 && n ≤ c.cfInst), (0x28, !s.ptrSelf (c.word 5)),
      (0x30, c.cfCount > 4096 || !s.ptrFits (c.word 5) (16 * c.cfCount)), (0x38, c.fld 7 0 30 ≥ 1000000000)])

/-- The entries of a write list. -/
def writeList (bs : List Byte) : List (Nat × Word64) :=
  (List.range (bs.length / 16)).map fun i => (natAt bs (16 * i) 8, word64At bs (16 * i + 8))

/-- Whether an entry exceeds the requester's rights (R120). -/
def State.entryDenied (s : State) (req : Requester) (e : Nat × Word64) : Bool :=
  match findReg e.1 with
  | some (r, idx) => !s.mayWrite req r idx
  | none => false

/-- The first entry that names no register of the set and instance; an SC_GATE_ADDR must name the instance's port, and
SC_GATE_DATA then goes there (R274). -/
def badEntry (set inst : Nat) : Nat → List (Nat × Word64) → Nat → Option Nat
  | _, [], _ => none
  | i, (off, v) :: rest, port =>
    match findReg off with
    | some (.SC_GATE_ADDR, _) => if set = 0x1C0 && bits v 0 9 = inst then badEntry set inst (i + 1) rest inst else some i
    | some (.SC_GATE_DATA, _) => if set = 0x1C0 && port = inst then badEntry set inst (i + 1) rest port else some i
    | some (r, idx) =>
      if off % 8 = 0 && (regDesc r).set = some set && instOf r idx = inst then badEntry set inst (i + 1) rest port else some i
    | none => some i

/-- Whether the descriptor names a write list that can be read. -/
def State.listNamed (s : State) (c : Cmd) : Bool := c.cfCount ≤ 4096 && s.ptrOk (c.word 5) (16 * c.cfCount)

/-- CONFIG starts (R107, R120): the rights of the list's entries, the descriptor, the list, the writes, the check of the snapshot,
which names no field (R113); then it waits for its boundary. -/
def State.startConfig (s : State) (c : Cmd) : State :=
  let bad := s.configDesc c
  if !s.listNamed c then s.failCheck c ⟨St.badDescriptor, bad.getD 0x28, 0⟩
  else
    match s.ptrRead 7 (c.word 5) (16 * c.cfCount) with
    | (s, .error off) => s.failCheck c (match bad with
        | some d => ⟨St.badDescriptor, d, 0⟩
        | none => ⟨St.badDescriptor, 0x28, off⟩)
    | (s, .ok bs) =>
      let l := writeList bs
      let req := s.ringOwner c.ring
      match l.findIdx? (s.entryDenied req), bad, badEntry c.cfSet c.cfInst 0 l (s.get F.SC_GATE_ADDR_PORT) with
      | some i, _, _ => s.failCheck c ⟨St.accessDenied, 0x28, 16 * i⟩
      | none, some d, _ => s.failCheck c ⟨St.badDescriptor, d, 0⟩
      | none, none, some i => s.failCheck c ⟨St.badDescriptor, 0x28, 16 * i⟩
      | none, none, none =>
        let s := l.foldl (fun s e => match findReg e.1 with
          | some (r, idx) => s.shadowWrite req r idx e.2
          | none => s) s
        match (s.setCheck c.cfSet c.cfInst c.cfTimed).status with
        | some st => s.failCheck c ⟨st, 0, 0⟩
        | none =>
          let t := c.fld 6 16 48 * 1000000000 + c.fld 7 0 30
          let late := c.cfTimed && t < s.ctNs
          let at_ := if c.cfTimed && !late then some (c.fld 6 16 48, c.fld 7 0 30) else none
          (s.running c).pend c.cfSet c.cfInst at_ late (some (c.ring, c.seq))

/-- A CONFIG stopped before its swap. -/
def State.stopConfig (s : State) (c : Cmd) (status : Nat) : State :=
  match s.commits.find? fun x => x.owner = some (c.ring, c.seq) with
  | some x =>
    let s := s.dropCommit x.set x.inst
    (if x.set = 0x180 then s.pinsEnd else s).endCmd c.ring c.seq status 0 x.late.toNat 0
  | none => s.endCmd c.ring c.seq status 0 0 0

/-! ### WK_COMMIT (R121, R122, R378) -/

/-- Whether a set's commit is carried out in the power state (R378). -/
def State.setRuns (s : State) (set : Nat) : Bool :=
  let b := set / 64
  match s.get F.PM_STATE_STATE with
  | 2 => b = 1 || (5 ≤ b && b ≤ 0x0A)
  | 3 => b = 1 || b = 8
  | _ => true

/-- GO written to WK_COMMIT. -/
def State.commitGo (s : State) (req : Requester) (set inst : Nat) : State :=
  match setInfo set with
  | none => s.commitResult set St.badDescriptor
  | some (n, r) =>
    if n ≤ inst then s.commitResult set St.badDescriptor
    else if !s.mayWrite req r [inst] then (s.deny req 0 (regAddr r (if n = 1 then [] else [inst]))).commitResult set St.accessDenied
    else if (s.commit? set inst).isSome then s.put F.WK_COMMIT_STATUS_REFUSED [] 1
    else if !s.setRuns set then s.commitResult set St.aborted
    else
      match (s.setCheck set inst false).status with
      | some st => s.commitResult set st
      | none => s.pend set inst none false none

/-- A word written to WK_COMMIT. -/
def State.wkCommit (s : State) (req : Requester) (v : Word64) : State :=
  let s := (s.put F.WK_COMMIT_SET [] (bits v 0 12)).put F.WK_COMMIT_INSTANCE [] (bits v 12 32)
  if bits v 44 1 = 1 then s.commitGo req (bits v 0 12) (bits v 12 32) else s

/-- WK_COMMIT_GO (R121, R122, R378). -/
def execWkCommitGo (req : Requester) (value : Word64) (s : State) : Out :=
  .next (s.rowWrite req .WK_COMMIT [] (·.wkCommit req value))

end Sys2Proof.Machine
end

