-- ==== Sys2Proof/Machine/PowerState.lean ====
section
/-! DEFINITION. Stopping commands and rings (R103, R107, R361), the power states and POWER (R211, R374 to R377), and the
emergency WINTER (R361). -/

namespace Sys2Proof.Machine

open Host (Outcome)

/-! ### Stopping a command (R103, R107, R115) -/

/-- RESULT of a command that stops with nothing done. -/
def State.idleResult (s : State) (c : Cmd) : Nat :=
  match c.type with
  | 3 => 0x3FF
  | 5 => s.epoch c.moMoor
  | 11 => s.get F.PM_STATE_STATE
  | _ => 0

/-- A POWER stopped before its state was entered. -/
def State.stopPower (s : State) (c : Cmd) (status : Nat) : State :=
  let mine : Bool := match s.pwr.entering with | some (_, o) => o = some (c.ring, c.seq) | none => false
  let s : State := if mine then { s with pwr := { s.pwr with entering := none } } else s
  s.endCmd c.ring c.seq status 0 (s.get F.PM_STATE_STATE) 0

/-- An accepted command that has not ended is stopped with a status; what it has done stays. -/
def State.stopCmd (s : State) (c : Cmd) (status : Nat) : State :=
  match c.stage with
  | .ended => s
  | .waiting =>
    if c.type = 5 then s.stopMooring c status
    else s.endCmd c.ring c.seq status 0 (s.idleResult c) 0
  | .running =>
    match c.type with
    | 2 => s.stopCollective c status
    | 3 => s.stopLaunch c status
    | 5 => s.stopMooring c status
    | 6 | 7 | 8 => s.stopBoathouse c status
    | 9 => s.stopConfig c status
    | 11 => s.stopPower c status
    | _ => s.endCmd c.ring c.seq status 0 0 0

/-- Commands named by ring and sequence number are stopped in their order, each as it then stands. -/
def State.stopAll (s : State) (l : List Cmd) (status : Nat) : State :=
  l.foldl (fun s c => match s.cmd? c.ring c.seq with | some c => s.stopCmd c status | none => s) s

/-! ### Rings (R103) -/

/-! The codes of WK_RING_CTRL.STATE. -/

namespace Rs
def off : Nat := 0
def run : Nat := 1
def paused : Nat := 2
def aborting : Nat := 3
end Rs

def State.ringState (s : State) (r : Nat) : Nat := s.get F.WK_RING_CTRL_STATE [r]
def State.setRing (s : State) (r st : Nat) : State := s.put F.WK_RING_CTRL_STATE [r] st

/-- An ABORTING ring whose commands all have their records is PAUSED. -/
def State.settleRing (s : State) (r : Nat) : State :=
  if s.ringState r = Rs.aborting && s.ringInflight r = 0 then s.setRing r Rs.paused else s

/-- ABORT of a ring: every command of it that has not ended but `except` completes with ABORTED. -/
def State.abortRing (s : State) (r : Nat) (except : Option (Nat × Nat)) : State :=
  if s.ringState r = Rs.run || s.ringState r = Rs.paused then
    let l := s.rings.cmds.filter fun c => c.ring = r && except ≠ some (c.ring, c.seq)
    ((s.setRing r Rs.aborting).stopAll l St.aborted).settleRing r
  else s

/-! ### Steps 1 to 4 of R361 -/

/-- LOADING shards return to EMPTY. -/
def State.dropLoads (s : State) : State :=
  let s := { s with bh := { s.bh with loads := [] } }
  (s.bh.shards.map (·.1)).foldl (fun s n => if s.shardState n = Sh.loading then s.setShardState n Sh.empty else s) s

/-- Steps 1 and 3: rings abort, LOADING shards return to EMPTY, background copies stop. -/
def State.quiesce (s : State) (except : Option (Nat × Nat)) : State :=
  let s := (List.range 256).foldl (fun s r => s.abortRing r except) s
  let s := s.dropLoads
  (s.bh.shards.map (·.1)).foldl (fun s n => s.failDurability n) s

/-- Every valid slot is held in OUTAGE (R346). -/
def State.holdSlots (s : State) : State :=
  (List.range 32).foldl (fun s i => if s.slotValid i && s.slotState i ≠ Bw.outage then s.setSlotState i Bw.outage else s) s

/-! ### Entering a state (R374, R377) -/

/-- Pavilions in the states `which` are gated. -/
def State.gatePavs (s : State) (which : Nat → Bool) : State :=
  (List.range s.pavCount).foldl (fun s n => if which (s.pvState n) then (s.clearKern n).setPvState n Ps.gated else s) s

/-- The Harbourmaster's powered-down cores stop, or start again (R374). -/
def State.hmPower (s : State) (on : Bool) : State :=
  if on then ({ s with hm := { s.hm with beatAt := s.now, stopped := false } } : State).put F.HM_STATUS_STATE [] 1
  else ({ s with hm := { s.hm with stopped := true } } : State).put F.HM_STATUS_STATE [] 0

/-- The lanes and the Basin are powered down: every port is out of service and every queue is empty. -/
def State.lanesDown (s : State) : State :=
  let s := s.portList.foldl (fun s p => s.leaveService p) s
  let s := { s with basin := { s.basin with
    handed := [], lookups := [], steered := [], toBoathouse := [], voqs := [], mc := [], reasm := [], egress := [], localQ := [] } }
  (List.range 4).foldl (fun s die => s.put F.BS_BUF_USED_USED [die] 0) s

/-- The module's power state becomes `st`, of 0 to 3. PWR_GOOD is low in STANDBY (R423). -/
def State.enterPower (s : State) (st : Nat) : State :=
  let old := s.get F.PM_STATE_STATE
  let s := s.put F.PM_STATE_STATE [] st
  match st with
  | 1 => s.gatePavs (· = Ps.idle)
  | 2 => (s.gatePavs (· ≠ Ps.faulted)).holdSlots
  | 3 =>
    let s := (s.gatePavs (· ≠ Ps.faulted)).holdSlots
    let s : State := { s with sup := { s.sup with pwrGood := false } }
    if old = 3 then s else s.lanesDown.hmPower false
  | _ =>
    let s : State := { s with pwr := { s.pwr with emergency := false }, sup := { s.sup with pwrGood := true } }
    let s := s.put F.DK_STATUS_POWER [] 0
    if old = 3 then s.hmPower true else s

/-! ### POWER (R108, R374, R375) -/

def Cmd.pwState (c : Cmd) : Nat := c.fld 4 0 4

/-- The combinations of R374 that change the state. -/
def powerMove (old st : Nat) : Bool :=
  match st with
  | 0 => old = 1 || old = 2 || old = 3
  | 1 => old = 0
  | 2 => old = 0 || old = 1
  | 3 => old = 0 || old = 1 || old = 2
  | 4 => true
  | _ => false

/-- POWER starts. A state below OFF is entered at POWER_STATE_ENTERED, with the record after it; the record of a POWER to
OFF comes first. A POWER to RUN or QUIET waits while another state is being entered. -/
def State.startPower (s : State) (c : Cmd) : State :=
  let old := s.get F.PM_STATE_STATE
  let st := c.pwState
  if s.ringOwner c.ring ≠ .host then s.endCmd c.ring c.seq St.accessDenied 0x01 old 0
  else
    match minOpt (payloadBad c 0xF#64 0 0 0) (lowestBad [(0x20, st ≠ old && !powerMove old st)]) with
    | some d => s.endCmd c.ring c.seq St.badDescriptor d old 0
    | none =>
      if st = old then (s.running c).endCmd c.ring c.seq St.ok 0 old 0
      else if st < 2 then
        (if s.pwr.entering.isSome then s
         else { s.running c with pwr := { s.pwr with entering := some (st, some (c.ring, c.seq)) } })
      else
        let s := (s.running c).quiesce (some (c.ring, c.seq))
        let s : State := { s with pwr := { s.pwr with entering := some (st, some (c.ring, c.seq)) } }
        if st = 4 then s.endCmd c.ring c.seq St.ok 0 4 0 else s

/-! ### Power off and on (R426 to R429) -/

/-- Everything that a cold reset clears; fuses, flash, pins, the supply, host memory and what has been sent stay, and the
commands that wait. -/
def State.cleared (s : State) : State :=
  { State.reset with
    pending := s.pending, resets := s.resets + 1, freeCtr := s.freeCtr, fuses := s.fuses, hostMem := s.hostMem,
    whEra := s.whEra + 1,
    gate := { State.reset.gate with flash := s.gate.flash },
    up := { State.reset.up with perst := s.up.perst },
    sup := s.sup, sent := s.sent }

/-- A cold reset: everything cleared, and the registers of the grade at their reset values (R5). -/
def State.coldReset (s : State) : State := s.cleared.gradeWords

/-- Every stage but the standby rail turns off: the module is in OFF. -/
def State.powerOff (s : State) : State :=
  let s := s.coldReset
  { s with sup := { s.sup with rails := .standby, armed := false, pwrGood := false, whPerst := false } }

/-! ### What is still due -/

/-- Whether the completion ring of a work ring is full (R104). -/
def State.cqFull (s : State) (r : Nat) : Bool :=
  let q := s.cget F.WK_RING_CFG_CQ [r]
  (s.get F.WK_CQ_PROD_PROD [q] + 2 ^ 32 - s.get F.WK_CQ_CONS_CONS [q]) % 2 ^ 32 ≥ s.cget F.WK_CQ_CFG_SLOTS [q]

/-- Whether some command's record is due, beside that of `but` and of the commands after it in its ring; those that a full
completion ring holds are not. -/
def State.recordsDue (s : State) (but : Option (Nat × Nat)) : Bool :=
  let l : List Cmd := match but with
    | some (r, q) =>
      let before := s.rings.cmds.takeWhile fun (c : Cmd) => !(c.ring = r && c.seq = q)
      before ++ (s.rings.cmds.drop before.length).filter fun (c : Cmd) => c.ring ≠ r
    | none => s.rings.cmds
  l.any fun (c : Cmd) => !s.cqFull c.ring

/-- POWER_STATE_ENTERED (R374): the power domains have reached the state being entered. -/
def execPowerStateEntered (s : State) : Out :=
  .next (match s.pwr.entering with
    | none => s
    | some (4, o) =>
      let waits := match o with | some (r, q) => (s.cmd? r q).isSome | none => false
      if waits || s.recordsDue none then s else s.powerOff
    | some (st, o) =>
      if st ≥ 2 && s.recordsDue o then s
      else
        let s := s.enterPower st
        let s : State := { s with pwr := { s.pwr with entering := none } }
        match o with
        | some (r, q) => s.endCmd r q St.ok 0 st 0
        | none => s)

/-! ### Emergency WINTER (R361, R375, R377) -/

/-- The Lodge enters WINTER: rings abort, a POWER being carried out among them, and the state is entered at once; Dock enters
self-refresh once the records are written. -/
def State.emergencyWinter (s : State) (source value : Option Nat) : State :=
  if s.get F.PM_STATE_STATE ≥ 2 then s
  else
    let s := s.quiesce none
    let s : State := { s with pwr := { s.pwr with entering := none, emergency := true } }
    let s := ((s.put F.PM_STATE_EMERG_WINTER [] 1).put F.LG_STATUS_WINTER_TRIP [] 1).enterPower 2
    s.lodgeRec Lk.emergWinter source value

/-- EMERGENCY_STANDBY (R377): in an emergency WINTER a sensor has stayed 5 °C above critical for 1 ms. -/
def execEmergencyStandby (s : State) : Out :=
  .next (if s.get F.PM_STATE_STATE = 2 && s.pwr.emergency && s.lasted s.lodge.critSince (us 1000) then
      let s := (s.enterPower 3).put F.PM_STATE_EMERG_WINTER [] 1
      s.lodgeRec Lk.emergStandby (some (s.get F.LG_STATUS_HOT_SENSOR)) (some (s.get F.LG_STATUS_HOT_T))
    else s)

/-! ### Self-refresh (R211) -/

/-- SELF_REFRESH_ENTRY (R211): in WINTER and STANDBY once no record is due; in QUIET with QUIET_SR, after 1 ms without access. Check
lines that wait are written out first (R207). -/
def execSelfRefreshEntry (s : State) : Out :=
  let st := s.get F.PM_STATE_STATE
  .next (if s.get F.DK_STATUS_POWER = 0 &&
      ((st ≥ 2 && !s.recordsDue none) || (st = 1 && s.get F.DK_CTRL_QUIET_SR = 1 && s.dockAt + us 1000 ≤ s.now)) then
      s.flushChecks.put F.DK_STATUS_POWER [] 1
    else s)

/-- SELF_REFRESH_EXIT (R211): Dock, woken by an access in QUIET, is ready. In WINTER and STANDBY no access wakes it. -/
def execSelfRefreshExit (s : State) : Out :=
  .next (if s.get F.DK_STATUS_POWER = 2 then s.put F.DK_STATUS_POWER [] 0 else s)

end Sys2Proof.Machine
end

