-- ==== Sys2Proof/Machine/Rings.lean ====
section
/-! DEFINITION. The work-ring engine (R97 to R115): ring commands, acceptance, waits, starts, time limits, completion records;
and the rows of the commands of the rings. -/

namespace Sys2Proof.Machine

open Host (Outcome)

/-! ### Ring commands (R98, R103, R376) -/

/-- Whether the engine runs a ring in the present power state: in WINTER and STANDBY, HOST-owned rings that lie with their
completion ring in host memory (R376). -/
def State.ringServed (s : State) (r : Nat) : Bool :=
  s.get F.PM_STATE_STATE < 2 ||
    (s.ringOwner r = .host && s.cget F.WK_RING_BASE_SPACE [r] = 4
      && s.cget F.WK_CQ_BASE_SPACE [s.cget F.WK_RING_CFG_CQ [r]] = 4)

/-- The generation of lap `l` (R99). -/
def generation (l : Nat) : Nat := l % 255 + 1

def State.ctrlBad (s : State) : State := s.put F.WK_STATUS_CTRL_BAD [] 1

/-- ENABLE: from OFF with both configurations committed, at head, lap and sequence number 0; from PAUSED where it stands. -/
def State.ringEnable (s : State) (r : Nat) : State :=
  let st := s.ringState r
  let cfg := s.cget F.WK_RING_CFG_SLOTS [r] ≠ 0 && s.cget F.WK_CQ_CFG_SLOTS [s.cget F.WK_RING_CFG_CQ [r]] ≠ 0
  if !s.ringServed r then s.ctrlBad
  else if st = Rs.off && cfg then
    let s := ((s.put F.WK_RING_HEAD_HEAD [r] 0).put F.WK_RING_SEQ_SEQ [r] 0).put F.WK_RING_HEAD_EXPECT_GEN [r] (generation 0)
    ({ s with rings := { s.rings with lap := spPut 0 s.rings.lap r 0 } } : State).setRing r Rs.run
  else if st = Rs.paused then s.setRing r Rs.run
  else s.ctrlBad

def State.ringPause (s : State) (r : Nat) : State :=
  if s.ringState r = Rs.run then s.setRing r Rs.paused else s.ctrlBad

def State.ringAbort (s : State) (r : Nat) : State :=
  if s.ringState r = Rs.run || s.ringState r = Rs.paused then s.abortRing r none else s.ctrlBad

def State.ringDisable (s : State) (r : Nat) : State :=
  if s.ringState r = Rs.paused && s.ringInflight r = 0 then
    (s.put F.WK_RING_HEAD_EXPECT_GEN [r] 0).setRing r Rs.off
  else s.ctrlBad

/-- A word written to WK_RING_CTRL. -/
def State.ringCtl (s : State) (r cmd : Nat) : State :=
  match cmd with
  | 0 => s
  | 1 => s.ringEnable r
  | 2 => s.ringPause r
  | 3 => s.ringAbort r
  | 4 => s.ringDisable r
  | _ => s.ctrlBad

/-- ENABLE (R103, R376). -/
def execEnable (req : Requester) (ring : Nat) (s : State) : Out := .next (s.rowWrite req .WK_RING_CTRL [ring] (·.ringEnable ring))

/-- PAUSE (R103). -/
def execPause (req : Requester) (ring : Nat) (s : State) : Out := .next (s.rowWrite req .WK_RING_CTRL [ring] (·.ringPause ring))

/-- ABORT (R103). -/
def execAbort (req : Requester) (ring : Nat) (s : State) : Out := .next (s.rowWrite req .WK_RING_CTRL [ring] (·.ringAbort ring))

/-- DISABLE (R103). -/
def execDisable (req : Requester) (ring : Nat) (s : State) : Out := .next (s.rowWrite req .WK_RING_CTRL [ring] (·.ringDisable ring))

/-! ### Consumers and events (R104, R110, R112) -/

/-- A word written to WK_CQ_CONS: taken where it lies from CONS to PROD modulo 2^32. -/
def State.consWrite (s : State) (q v : Nat) : State :=
  let cons := s.get F.WK_CQ_CONS_CONS [q]
  let span := (s.get F.WK_CQ_PROD_PROD [q] + 2 ^ 32 - cons) % 2 ^ 32
  if (v % 2 ^ 32 + 2 ^ 32 - cons) % 2 ^ 32 ≤ span then s.put F.WK_CQ_CONS_CONS [q] v else s.put F.WK_STATUS_CONS_BAD [] 1

/-- CONS_WRITE (R104). -/
def execConsWrite (req : Requester) (cq : Nat) (value : Word64) (s : State) : Out :=
  .next (s.rowWrite req .WK_CQ_CONS [cq] (·.consWrite cq (bits value 0 32)))

/-- EVENT_VALUE_WRITE (R110): the value; FAIL is not changed. Signals of the same cycle are the steps that follow. -/
def execEventValueWrite (req : Requester) (ev : Nat) (value : Word64) (s : State) : Out :=
  .next (s.rowWrite req .WK_EVENT [ev] (·.evSet ev value.toNat))

/-- FAIL_CLEAR (R112). -/
def execFailClear (req : Requester) (k : Nat) (mask : Word64) (s : State) : Out :=
  .next (s.rowWrite req .WK_EVFAIL [k] (·.applyWrite req .WK_EVFAIL [k] mask))

/-! ### Acceptance (R99 to R102, R105, R107, R125, R208) -/

/-- The address of a ring's head slot. -/
def State.headAddr (s : State) (r : Nat) : Nat := s.cget F.WK_RING_BASE_ADDR [r] + 64 * s.get F.WK_RING_HEAD_HEAD [r]

/-- Whether the line of a ring's head slot reads as uncorrectable or poisoned. -/
def State.headBad (s : State) (r : Nat) : Bool :=
  let l := s.headAddr r / 64
  if s.cget F.WK_RING_BASE_SPACE [r] = 2 then s.dockBad l else s.hostMem.bad.contains l

/-- A byte of a ring's head slot, as the engine's watch sees it. -/
def State.headByte (s : State) (r i : Nat) : Nat :=
  let a := s.headAddr r + i
  if s.cget F.WK_RING_BASE_SPACE [r] = 2 then (s.dockByte a).toNat
  else ((cellAt s.hostMem.cells a).getD (Config.hostByte a)).toNat

/-- Whether the head command would wait for the staging store (R125): a MOORING while 64 images are held. -/
def State.stagingFull (s : State) (r : Nat) : Bool := s.headByte r 1 = 5 && 64 ≤ s.mo.staging.length

/-- Whether the engine finds something to do at a ring's head slot (R101, R102). -/
def State.headReady (s : State) (r : Nat) : Bool :=
  s.powered && s.ringState r = Rs.run && s.ringServed r
    && s.ringInflight r < s.cget F.WK_RING_CFG_WINDOW [r] && s.rings.cmds.length < 16384
    && (s.cget F.WK_RING_BASE_SPACE [r] ≠ 4 || s.up.linkUp)
    && (s.headBad r || (s.headByte r 0 = s.get F.WK_RING_HEAD_EXPECT_GEN [r] && !s.stagingFull r))

/-- The head moves past an accepted slot. -/
def State.advanceHead (s : State) (r : Nat) : State :=
  let h := s.get F.WK_RING_HEAD_HEAD [r] + 1
  let s := s.put F.WK_RING_SEQ_SEQ [r] (s.get F.WK_RING_SEQ_SEQ [r] + 1)
  if h < s.cget F.WK_RING_CFG_SLOTS [r] then s.put F.WK_RING_HEAD_HEAD [r] h
  else
    let lap := spGet 0 s.rings.lap r + 1
    let s := (s.put F.WK_RING_HEAD_HEAD [r] 0).put F.WK_RING_HEAD_EXPECT_GEN [r] (generation lap)
    { s with rings := { s.rings with lap := spPut 0 s.rings.lap r lap } }

/-- The first bad field of a header: a reserved TYPE, a reserved bit (R105, R107, R108). -/
def headerBadAt (c : Cmd) : Option Nat :=
  minOpt (if c.type = 0 || 11 < c.type then some 0x01 else none) (strayBit 0 (c.word 0) 0xFFFFFFFF001FFFFF#64)

/-- Acceptance copies the image of a MOORING command, as much of it as any image has (R125). -/
def State.stage1 (s : State) (c : Cmd) : State :=
  if c.type = 5 && c.takesImage && c.moLen ≠ 0 && s.ptrOk (c.word 5) c.moLen then
    let (s, r) := s.ptrRead 2 (c.word 5) (min c.moLen 65536)
    let x : Sum Nat (List Byte) := match r with | .ok bs => .inr bs | .error o => .inl o
    { s with mo := { s.mo with staging := s.mo.staging ++ [((c.ring, c.seq), x)] } }
  else s

/-- The command in a ring's head slot is accepted; a slot that cannot be read pauses the ring (R208). -/
def State.accept (s : State) (r : Nat) : State :=
  let s := { s with rings := { s.rings with last := r } }
  let dock := s.cget F.WK_RING_BASE_SPACE [r] = 2
  match s.memRead 2 (s.cget F.WK_RING_BASE_SPACE [r]) (s.headAddr r) 64 with
  | (s, .error _) =>
    let s := ((s.setRing r Rs.paused).put F.WK_STATUS_SLOT_BAD [] 1).put F.WK_STATUS_SLOT_BAD_RING [] r
    if dock then s.put F.DK_STATUS_RING_PAUSED [] 1 else s
  | (s, .ok bs) =>
    let words := (List.range 8).map fun i => word64At bs (8 * i)
    let c : Cmd := ⟨r, s.get F.WK_RING_SEQ_SEQ [r], s.get F.WK_RING_HEAD_HEAD [r], words, .met, .met, .waiting, 0, 0, 0, 0, 0, 0⟩
    let c := { c with wait0 := if c.w0En then .pending else .met, wait1 := if c.w1En then .pending else .met }
    let s := ((({ s with rings := { s.rings with cmds := s.rings.cmds ++ [c] } } : State).advanceHead r).showInflight r).tally 0x01
    match headerBadAt c with
    | some d => s.endCmd c.ring c.seq St.badDescriptor d (s.idleResult c) 0
    | none => s.stage1 c

/-- The rings in round-robin order after the one accepted from last. -/
def State.ringOrder (s : State) : List Nat := (List.range 256).map fun i => (s.rings.last + 1 + i) % 256

/-- One descriptor is accepted, round-robin among the rings whose head slot matches. -/
def State.acceptNext (s : State) : State :=
  match s.ringOrder.find? s.headReady with
  | some r => s.accept r
  | none => s

/-- COMMAND_ACCEPTANCE (R101). -/
def execCommandAcceptance (s : State) : Out := .next s.acceptNext

/-- BACKSTOP_POLL (R101): with the poll on, the head slot of every ring in RUN is read again. -/
def execBackstopPoll (s : State) : Out :=
  .next (if s.get F.WK_POLL_INTERVAL = 0 then s
    else s.ringOrder.foldl (fun s r => if s.headReady r then s.accept r else s) s)

/-- HOST_SNOOP (R101, R389): the host has written a line of its memory, with data or poison, and its snoop of the engine's copy
shows the engine the ring whose head slot lies in it; one command is then accepted, round-robin among all rings that match. -/
def execHostSnoop (line : Nat) (poison : Bool) (bytes : List Byte) (s : State) : Out :=
  let m := s.hostMem
  let s : State := { s with hostMem :=
    if poison then { m with bad := line :: m.bad.erase line }
    else { m with cells := putCells m.cells (64 * line) (bytes.take 64), bad := m.bad.erase line } }
  .next (if (List.range 256).any fun r => s.cget F.WK_RING_BASE_SPACE [r] = 4 && s.headAddr r / 64 = line && s.headReady r then
      s.acceptNext
    else s)

/-! ### Waits (R110, R111) -/

/-- One wait looked at: FAIL first, then the threshold; what has resolved stays. -/
def State.lookAt (s : State) (w : WaitState) (e : Nat) (thresh : Word64) : WaitState :=
  match w with
  | .pending => if s.evFail e then .failed else if thresh.toNat ≤ s.evVal e then .met else .pending
  | w => w

/-- WAIT_RESOLVE (R111): the waits of a command resolve; one that fails ends it with DEP_FAILED. -/
def execWaitResolve (ring seq : Nat) (s : State) : Out :=
  .next (match s.cmd? ring seq with
    | none => s
    | some c =>
      if c.stage ≠ .waiting then s
      else
        let w0 := s.lookAt c.wait0 c.w0Event (c.word 2)
        let w1 := s.lookAt c.wait1 c.w1Event (c.word 3)
        let s := s.mapCmd ring seq fun c => { c with wait0 := w0, wait1 := w1 }
        if w0 = .failed || w1 = .failed then s.stopCmd { c with wait0 := w0, wait1 := w1 } St.depFailed else s)

/-! ### Starts (R107, R108, R122, R376) -/

/-- Whether a command may start: its waits have been met, SERIAL allows it, and no commit is pending on its set (R122). -/
def State.startable (s : State) (c : Cmd) : Bool :=
  c.stage = .waiting && c.wait0 = .met && c.wait1 = .met && (!c.serial || s.serialReady c.ring c.seq)
    && !(c.type = 9 && (s.commit? c.cfSet c.cfInst).isSome)

def State.startNop (s : State) (c : Cmd) : State :=
  match payloadBad c 0 0 0 0 with
  | some d => (s.running c).failCheck c ⟨St.badDescriptor, d, 0⟩
  | none => (s.running c).endCmd c.ring c.seq St.ok 0 0 0

def State.startShard (s : State) (c : Cmd) : State :=
  match c.subop with
  | 0 => s.startShardCreate c
  | 1 => s.startShardDelete c
  | 2 => s.startStripe c
  | 3 => s.startRebuild c
  | _ => (s.running c).failCheck c ⟨St.badDescriptor, (payloadBad c 0xFFFF000F#64 (BitVec.allOnes 64) (BitVec.allOnes 64) 0).elim 0x20 (min 0x20), 0⟩

/-- A command's start, by its type. In WINTER and STANDBY only NOP, EVENT and POWER run. -/
def State.startCommand (s : State) (c : Cmd) : State :=
  if s.get F.PM_STATE_STATE ≥ 2 && c.type ≠ 1 && c.type ≠ 10 && c.type ≠ 11 then s.stopCmd c St.aborted
  else
    match c.type with
    | 1 => s.startNop c
    | 2 => s.startColl c
    | 3 => s.startLaunch c
    | 4 => s.startImage c
    | 5 => s.startMooring c
    | 6 => s.startCommit c
    | 7 => s.startRestore c
    | 8 => s.startShard c
    | 9 => s.startConfig c
    | 10 => s.startEvent c
    | _ => s.startPower c

/-- The start of a ring's command that may start and is of the kind `f`. -/
def State.startIf (s : State) (ring seq : Nat) (f : Cmd → Bool) : State :=
  match s.cmd? ring seq with
  | none => s
  | some c => if s.startable c && f c then s.startCommand c else s

/-- COMMAND_START (R107). -/
def execCommandStart (ring seq : Nat) (s : State) : Out := .next (s.startIf ring seq fun _ => true)

/-! ### TIMEOUT (R107) -/

/-- TIMEOUT (R107): TIMEOUT units of 100 us have passed since the command's start. -/
def execTimeout (ring seq : Nat) (s : State) : Out :=
  .next (match s.cmd? ring seq with
    | none => s
    | some c =>
      if c.stage = .running && c.timeout ≠ 0 && c.startedAt + us (100 * c.timeout) ≤ s.now then s.stopCmd c St.timeout else s)

/-! ### Completion records (R99, R101, R104, R110, R113) -/

/-- The 32 bytes of a record. -/
def State.recordBytes (s : State) (c : Cmd) (gen : Nat) : List Byte :=
  leBytes (gen + c.status % 2 ^ 8 * 2 ^ 8 + c.type * 2 ^ 16 + c.detail % 2 ^ 8 * 2 ^ 24 + c.ring * 2 ^ 32 + c.slot * 2 ^ 40) 8
    ++ leBytes (c.seq + s.ts32 * 2 ^ 32) 8 ++ leBytes c.result 8 ++ leBytes c.result2 8

/-- A record written at the next slot of its completion ring, and counted. -/
def State.writeRecord (s : State) (c : Cmd) : State :=
  let q := s.cget F.WK_RING_CFG_CQ [c.ring]
  let n := s.cget F.WK_CQ_CFG_SLOTS [q]
  let prod := s.get F.WK_CQ_PROD_PROD [q]
  let lap := spGet 0 s.rings.cqLap q
  let s := s.memWrite (s.cget F.WK_CQ_BASE_SPACE [q]) (s.cget F.WK_CQ_BASE_ADDR [q] + 32 * (prod % n)) (s.recordBytes c (generation lap))
  let s := s.put F.WK_CQ_PROD_PROD [q] (prod + 1)
  let s : State := { s with rings := { s.rings with cqLap := spPut 0 s.rings.cqLap q (if (prod + 1) % n = 0 then lap + 1 else lap) } }
  let s := s.tally 0x02
  if c.status = St.ok then s else s.tally 0x03

/-- The signal and the interrupt that follow a record (R101, R110); with it DURABLE_EVENT of a COMMIT of no shard (R118). -/
def State.signal (s : State) (c : Cmd) : State :=
  let s := if !c.sigEn then s
    else if c.status = St.ok then s.evAdd c.sigEvent c.sigInc
    else s.evFailTo c.sigEvent true
  let s := if c.type = 6 && c.cmCount = 0 && c.durEn && c.status = St.ok then s.evAdd c.durEvent 1 else s
  if c.irq then s.send (.msix (s.cget F.WK_CQ_CFG_VECTOR [s.cget F.WK_RING_CFG_CQ [c.ring]])) else s

/-- Whether a record can be written now: in the standby states no record enters a completion ring in Dock once Dock sleeps. -/
def State.cqAwake (s : State) (r : Nat) : Bool :=
  s.cget F.WK_CQ_BASE_SPACE [s.cget F.WK_RING_CFG_CQ [r]] ≠ 2 || s.get F.PM_STATE_STATE < 2 || s.get F.DK_STATUS_POWER = 0

/-- COMPLETION_RECORD (R101): the record of a ring's oldest command once it has ended; held while the completion ring is full. -/
def execCompletionRecord (ring : Nat) (s : State) : Out :=
  .next (match s.rings.cmds.find? fun c => c.ring = ring with
    | none => s
    | some c =>
      if c.stage ≠ .ended || !s.cqAwake ring then s
      else if s.cqFull ring then s.put F.WK_STATUS_CQ_FULL_SEEN [] 1
      else
        let s := s.writeRecord c
        let s : State := { s with rings := { s.rings with cmds := s.rings.cmds.filter fun x => !(x.ring = ring && x.seq = c.seq) } }
        ((s.showInflight ring).signal c).settleRing ring)

/-! ### The rows of the commands: each starts a command of its own type -/

/-- Whether a command has a TYPE, and a SUBOP or OP. -/
def isType (t : Nat) (c : Cmd) : Bool := c.type = t
def isSub (t sub : Nat) (c : Cmd) : Bool := c.type = t && c.subop = sub
def isOp (op : Nat) (c : Cmd) : Bool := c.type = 2 && c.coOp = op

/-- NOP (R108): a command of this kind starts. -/
def execNop (ring seq : Nat) (s : State) : Out := .next (s.startIf ring seq (isType 1))

/-- REDUCE (R133): a command of this kind starts. -/
def execReduce (ring seq : Nat) (s : State) : Out := .next (s.startIf ring seq (isOp 0))

/-- REDUCE_SCATTER (R133): a command of this kind starts. -/
def execReduceScatter (ring seq : Nat) (s : State) : Out := .next (s.startIf ring seq (isOp 1))

/-- ALLREDUCE (R133): a command of this kind starts. -/
def execAllreduce (ring seq : Nat) (s : State) : Out := .next (s.startIf ring seq (isOp 2))

/-- ALLGATHER (R133): a command of this kind starts. -/
def execAllgather (ring seq : Nat) (s : State) : Out := .next (s.startIf ring seq (isOp 3))

/-- BCAST (R133): a command of this kind starts. -/
def execBcast (ring seq : Nat) (s : State) : Out := .next (s.startIf ring seq (isOp 4))

/-- SHIFT (R133): a command of this kind starts. -/
def execShift (ring seq : Nat) (s : State) : Out := .next (s.startIf ring seq (isOp 5))

/-- PERMUTE (R133): a command of this kind starts. -/
def execPermute (ring seq : Nat) (s : State) : Out := .next (s.startIf ring seq (isOp 6))

/-- BARRIER (R135): a command of this kind starts. -/
def execBarrier (ring seq : Nat) (s : State) : Out := .next (s.startIf ring seq (isOp 7))

/-- UPDATE (R170): a command of this kind starts. -/
def execUpdate (ring seq : Nat) (s : State) : Out := .next (s.startIf ring seq (isOp 8))

/-- LAUNCH (R92): a command of this kind starts. -/
def execLaunch (ring seq : Nat) (s : State) : Out := .next (s.startIf ring seq (isType 3))

/-- LOAD (R109): a command of this kind starts. -/
def execLoad (ring seq : Nat) (s : State) : Out := .next (s.startIf ring seq (isSub 4 0))

/-- UNLOAD (R109): a command of this kind starts. -/
def execUnload (ring seq : Nat) (s : State) : Out := .next (s.startIf ring seq (isSub 4 1))

/-- BIND (R90): a command of this kind starts. -/
def execBind (ring seq : Nat) (s : State) : Out := .next (s.startIf ring seq (isSub 4 2))

/-- UNBIND (R108): a command of this kind starts. -/
def execUnbind (ring seq : Nat) (s : State) : Out := .next (s.startIf ring seq (isSub 4 3))

/-- MOORING_CREATE (R123): a command of this kind starts. -/
def execMooringCreate (ring seq : Nat) (s : State) : Out := .next (s.startIf ring seq (isSub 5 0))

/-- EVICT (R127): a command of this kind starts. -/
def execEvict (ring seq : Nat) (s : State) : Out := .next (s.startIf ring seq (isSub 5 1))

/-- REFORM (R128): a command of this kind starts. -/
def execReform (ring seq : Nat) (s : State) : Out := .next (s.startIf ring seq (isSub 5 2))

/-- ADOPT (R129): a command of this kind starts. -/
def execAdopt (ring seq : Nat) (s : State) : Out := .next (s.startIf ring seq (isSub 5 3))

/-- RETIRE (R130): a command of this kind starts. -/
def execRetire (ring seq : Nat) (s : State) : Out := .next (s.startIf ring seq (isSub 5 4))

/-- COMMIT (R180): a command of this kind starts. -/
def execCommit (ring seq : Nat) (s : State) : Out := .next (s.startIf ring seq (isType 6))

/-- RESTORE (R194): a command of this kind starts. -/
def execRestore (ring seq : Nat) (s : State) : Out := .next (s.startIf ring seq (isType 7))

/-- SHARD_CREATE (R163): a command of this kind starts. -/
def execShardCreate (ring seq : Nat) (s : State) : Out := .next (s.startIf ring seq (isSub 8 0))

/-- SHARD_DELETE (R162): a command of this kind starts. -/
def execShardDelete (ring seq : Nat) (s : State) : Out := .next (s.startIf ring seq (isSub 8 1))

/-- STRIPE (R186): a command of this kind starts. -/
def execStripe (ring seq : Nat) (s : State) : Out := .next (s.startIf ring seq (isSub 8 2))

/-- REBUILD (R191): a command of this kind starts. -/
def execRebuild (ring seq : Nat) (s : State) : Out := .next (s.startIf ring seq (isSub 8 3))

/-- CONFIG (R120): a command of this kind starts. -/
def execConfig (ring seq : Nat) (s : State) : Out := .next (s.startIf ring seq (isType 9))

/-- EVENT_SET (R108): a command of this kind starts. -/
def execEventSet (ring seq : Nat) (s : State) : Out := .next (s.startIf ring seq (isSub 10 0))

/-- EVENT_ADD (R108): a command of this kind starts. -/
def execEventAdd (ring seq : Nat) (s : State) : Out := .next (s.startIf ring seq (isSub 10 1))

/-- EVENT_FAIL (R108): a command of this kind starts. -/
def execEventFail (ring seq : Nat) (s : State) : Out := .next (s.startIf ring seq (isSub 10 2))

/-- POWER_RUN (R374): a command of this kind starts. -/
def execPowerRun (ring seq : Nat) (s : State) : Out := .next (s.startIf ring seq (isSub 11 0))

/-- POWER_QUIET (R374): a command of this kind starts. -/
def execPowerQuiet (ring seq : Nat) (s : State) : Out := .next (s.startIf ring seq (isSub 11 1))

/-- POWER_WINTER (R374): a command of this kind starts. -/
def execPowerWinter (ring seq : Nat) (s : State) : Out := .next (s.startIf ring seq (isSub 11 2))

/-- POWER_STANDBY (R374): a command of this kind starts. -/
def execPowerStandby (ring seq : Nat) (s : State) : Out := .next (s.startIf ring seq (isSub 11 3))

/-- POWER_OFF (R374): a command of this kind starts. -/
def execPowerOff (ring seq : Nat) (s : State) : Out := .next (s.startIf ring seq (isSub 11 4))

end Sys2Proof.Machine
end

