-- ==== Sys2Proof/Machine/Lodge.lean ====
section
/-! DEFINITION. The power manager's estimate and steps (R364 to R366, R370), and the Lodge's samples, filters and actions (R301,
R380, R381). -/

namespace Sys2Proof.Machine

open Host (Outcome)

/-! ### Estimates (R365, R366)

Powers are exact, in units of 20 pW: 1 W is 5 x 10^10 units, and 1 fJ in 2 µs times 1.04 is 26 units. -/

def unitsPerW : Nat := 50000000000

/-- The filtered temperatures of the die sensors, in 1/16 °C. -/
def State.dieTemps (s : State) : List Int := (List.range 96).map fun i => ((spGet [] s.lodge.hist i).head?).getD 0

/-- The estimate of a domain: 0 link, 1 memory, 2 Pavilion, 3 fixed. -/
def State.estimate (s : State) (d : Nat) (counts : List Nat) : Nat :=
  let leak := Config.leakage d (s.get F.PM_STATE_ROW) s.dieTemps * 2000000
  let acts := (List.range 32).foldl (fun n k =>
    if s.get F.PM_WEIGHT_DOMAIN [k] = d then n + (counts[k]?).getD 0 * s.get F.PM_WEIGHT_FJ [k] else n) 0
  26 * (leak + acts)

/-- Watts as a 16-bit register shows them. -/
def shownW (e : Nat) : Nat := min (e / unitsPerW) 65535

/-- PM_MEAS.ERR_W brought up to date. -/
def State.showErr (s : State) : State :=
  s.put F.PM_MEAS_ERR_W [] (s.get F.PM_MEAS_PIN_W + 65536 - s.get F.PM_EST_TOTAL_W)

/-- CAP_W as it counts: at most 3,500. -/
def State.capW (s : State) : Nat := min (s.get F.PM_CAP_CAP_W) 3500

/-- Whether the prediction at row `r` is at most `num / den` of A. -/
def State.predicts (s : State) (ePav : Nat) (a : Int) (r num den : Nat) : Bool :=
  decide ((ePav * s.get F.PM_VTAB_KREL [r] * den : Nat) ≤ a * (s.get F.PM_VTAB_KREL [s.get F.PM_STATE_ROW] * num : Nat))

/-- A condition followed through time: since when it has held. -/
def State.since (s : State) (was : Option Nat) (holds : Bool) : Option Nat := if holds then some (was.getD s.now) else none

/-- POWER_ESTIMATE (R366): `counts` are the 32 activity counts of the last 2 µs. -/
def execPowerEstimate (counts : List Nat) (s : State) : Out :=
  .next (if !s.powered then s
    else
      let link := s.estimate 0 counts
      let mem := s.estimate 1 counts
      let pav := s.estimate 2 counts
      let fixed := s.estimate 3 counts
      let s := (s.put F.PM_EST_LINK_W [] (shownW link)).put F.PM_EST_MEM_W [] (shownW mem)
      let s := ((s.put F.PM_EST_PAV_W [] (shownW pav)).put F.PM_EST_TOTAL_W [] (shownW (link + mem + pav + fixed))).showErr
      let a : Int := (s.capW * unitsPerW : Nat) - (link + mem + fixed : Nat)
      let overs := if (pav : Int) > a then s.pwr.overs + 1 else 0
      let row := s.get F.PM_STATE_ROW
      let s : State := { s with pwr := { s.pwr with
        overs := overs, capSince := s.since s.pwr.capSince (s.predicts pav a (s.cget F.PM_STEP_ROW) 1 1) } }
      if overs ≥ 2 then
        let r := ((List.range 6).find? fun r => s.predicts pav a r 1 1).getD 5
        let s := s.put F.PM_STATE_OVERCAP [] (!s.predicts pav a 5 1 1).toNat
        if row < r then
          let s := s.trip Dc.cap r none none
          { s with pwr := { s.pwr with overs := 0, upSince := none } }
        else s
      else
        let s := if s.predicts pav a 5 1 1 then s.put F.PM_STATE_OVERCAP [] 0 else s
        let up := s.get F.PM_STATE_LOCAL_DROP = 0 && s.ceiling < row && s.pwr.ramp.isNone && s.predicts pav a (row - 1) 19 20
        let s : State := { s with pwr := { s.pwr with upSince := s.since s.pwr.upSince up } }
        if s.lasted s.pwr.upSince (us (s.get F.PM_CTRL_UP_HOLD_US)) then
          ({ s with pwr := { s.pwr with upSince := none } } : State).rise (row - 1) false
        else s)

/-! ### Filters (R380) -/

/-- The middle one of up to three samples, of two the smaller. -/
def median (l : List Int) : Int :=
  match l with
  | [a, b, c] => max (min a b) (min (max a b) c)
  | [a, b] => min a b
  | [a] => a
  | _ => 0

/-- The filtered input voltage, in 10 mV. -/
def Lodge.vin (l : Lodge) : Nat := (median (l.vins.map (Int.ofNat ·))).toNat

/-- The mean of the last ten input powers, in mW. -/
def Lodge.pin (l : Lodge) : Nat := if l.pins.isEmpty then 0 else (l.pins.foldl (· + ·) 0) / l.pins.length

/-- The input monitor: voltage in 10 mV, current in mA. -/
def State.sampleInput (s : State) (vin iin : Nat) : State :=
  let l := s.lodge
  { s with lodge := { l with
    vins := (vin :: l.vins).take 3, pins := (vin * iin / 100 :: l.pins).take 10, iin := iin } }

/-- One die sensor's sample: the raw values, and the filtered ones as far back as the slope looks. -/
def State.sampleDie (s : State) (i : Nat) (t : Int) : State :=
  let l := s.lodge
  let raw := (t :: spGet [] l.raw i).take 3
  { s with lodge := { l with raw := spPut [] l.raw i raw, hist := spPut [] l.hist i ((median raw :: spGet [] l.hist i).take 256) } }

/-! ### Port beacons (R301, R304, R381) -/

/-- One port at a sample: its misses counted, SUSPECT at three, cleared by a beacon. -/
def State.samplePort (s : State) (p : Nat) : State :=
  let x := s.port p
  let alive := x.heard || (s.isEth p && s.cget F.QY_PORT_CTRL_BEACON_CHK (pidx p) = 0 && s.linkUp p)
  if alive then
    let s := (s.mapPort p fun x => { x with heard := false, quietSamples := 0 }).put F.LG_PORT_MISSED [p] 0
    if s.get F.LG_PORT_SUSPECT [p] = 1 then (s.put F.LG_PORT_SUSPECT [p] 0).lodgeRec Lk.beaconBack (some p) none else s
  else
    let n := x.quietSamples + 1
    let s := s.mapPort p fun x => { x with quietSamples := n }
    let slow := s.linkUp p && !s.isEth p && !s.feature p 1
    if slow && n % 10 ≠ 0 then s
    else
      let s := s.bump F.LG_PORT_MISSED [p]
      if s.get F.LG_PORT_MISSED [p] ≥ 3 && s.get F.LG_PORT_SUSPECT [p] = 0 then
        (s.put F.LG_PORT_SUSPECT [p] 1).lodgeRec Lk.suspect (some p) none
      else s

/-- The counts of SUSPECT members of the ACTIVE contexts. -/
def State.showSuspects (s : State) : State :=
  (s.ctxsIn Cs.active).foldl (fun s m =>
    let c := s.ctx m
    s.put F.MO_CTX_LIVE_SUSPECT [m] (c.ring.filter fun i => s.get F.LG_PORT_SUSPECT [c.portOf i] = 1).length) s

/-! ### The sample (R381) -/

/-- A temperature as a record holds it. -/
def recT (t : Int) : Nat := (t % 2 ^ 64).toNat

/-- Whether a sensor has risen by SLOPE_DC tenths of a degree over SLOPE_WIN samples. -/
def State.sloped (s : State) (i : Nat) : Bool :=
  let h := spGet [] s.lodge.hist i
  let dc := s.get F.LG_LIMITS_SLOPE_DC
  match h.head?, h[s.get F.LG_LIMITS_SLOPE_WIN]? with
  | some a, some b => dc ≠ 0 && decide ((a - b) * 10 ≥ (dc * 16 : Nat))
  | _, _ => false

/-- The PMBus status bits whose cause now stands: STATUS_INPUT and STATUS_TEMPERATURE (R430). -/
def State.inputCauses (s : State) : Nat :=
  let v := s.lodge.vin
  (if s.get F.LG_LIMITS2_VIN_OV < v then 64 else 0) + (if v < s.get F.LG_LIMITS2_VIN_UV then 32 else 0)
    + (if s.lodge.pin > s.capW * 1000 then 1 else 0)

/-- THERM_HI and THERM_CRIT in 1/16 °C, as they count. -/
def State.thermHi (s : State) : Nat := min (s.get F.LG_LIMITS_THERM_HI) 110 * 16
def State.thermCrit (s : State) : Nat := min (s.get F.LG_LIMITS_THERM_CRIT) 120 * 16

def State.tempCauses (s : State) : Nat :=
  let hot := s.dieTemps.foldl max (-32768)
  (if decide (hot ≥ (s.thermCrit : Int)) then 128 else 0) + (if decide (hot ≥ (s.thermHi : Int)) then 64 else 0)

/-- What the filtered values call for, in the order of the table. -/
def State.lodgeActs (s : State) : State :=
  let ts := s.dieTemps
  let v := s.lodge.vin
  let out := v < s.get F.LG_LIMITS2_VIN_UV || s.get F.LG_LIMITS2_VIN_OV < v
  let bad := if out then s.lodge.vinBad + 1 else 0
  let s : State := { s with lodge := { s.lodge with vinBad := bad } }
  let s := if out && max 1 (s.get F.LG_LIMITS2_VIN_SAMPLES) ≤ bad then s.emergencyWinter none (some v) else s
  let s : State := match ts.findIdx? fun t => decide (t ≥ (s.thermCrit : Int)) with
    | some i => s.emergencyWinter (some i) (some (recT ((ts[i]?).getD 0)))
    | none => s
  let s : State := match (List.range 96).find? fun i => decide (((ts[i]?).getD 0) ≥ (s.thermHi : Int)) || s.sloped i with
    | some i => s.trip Dc.thermal 5 (some i) (some (recT ((ts[i]?).getD 0)))
    | none => s
  if s.lodge.pin > s.get F.PM_CAP_TRIP_W * 1000 then s.trip Dc.current 5 none (some (s.lodge.pin / 1000)) else s

/-- What the sample shows and since when: the hottest sensor, PM_MEAS, the release conditions, the latched status bits. -/
def State.lodgeShows (s : State) : State :=
  let ts := s.dieTemps
  let hot := ts.foldl max ((ts.head?).getD 0)
  let s := (s.put F.LG_STATUS_HOT_SENSOR [] ((ts.findIdx? (· = hot)).getD 0)).put F.LG_STATUS_HOT_T [] (hot % 4096).toNat
  let s := ((s.put F.PM_MEAS_VIN [] s.lodge.vin).put F.PM_MEAS_PIN_W [] (min (s.lodge.pin / 1000) 65535)).showErr
  let l := s.lodge
  { s with lodge := { l with
    clrSince := s.since l.clrSince (decide (hot < (s.get F.LG_LIMITS_THERM_CLR * 16 : Nat))),
    currSince := s.since l.currSince (l.pin < s.capW * 1000),
    critSince := s.since l.critSince (decide (hot ≥ (s.thermCrit + 80 : Nat))),
    stInput := l.stInput ||| s.inputCauses, stTemp := l.stTemp ||| s.tempCauses } }

/-- LODGE_SAMPLE (R380, R381): the die sensors in 1/16 °C, the input voltage in 10 mV and current in mA. In OFF the standby rail's
monitor alone samples (R430). -/
def execLodgeSample (temps : List Int) (vin iin : Nat) (s : State) : Out :=
  .next (match s.sup.rails with
    | .none => s
    | .standby =>
      let s := s.sampleInput vin iin
      { s with lodge := { s.lodge with stInput := s.lodge.stInput ||| s.inputCauses } }
    | .main =>
      let s := s.sampleInput vin iin
      let s := ((temps.take 96).zipIdx).foldl (fun s x => s.sampleDie x.2 x.1) s
      let s := (s.lodgeShows).lodgeActs
      let s := s.portList.foldl (fun s p => s.samplePort p) s
      s.showSuspects)

/-- DOCK_TEMPERATURE_READ (R380, R381): the Dock devices' temperatures in 1/16 °C while Dock is active; 100 °C is recorded only. -/
def execDockTemperatureRead (temps : List Int) (s : State) : Out :=
  .next (if !s.powered || s.get F.DK_STATUS_POWER ≠ 0 then s
    else
      ((temps.take 24).zipIdx).foldl (fun s x =>
        let s : State := { s with lodge := { s.lodge with dockT := spPut 0 s.lodge.dockT x.2 x.1 } }
        if decide (x.1 ≥ 1600) then s.lodgeRec Lk.thermal none (some (recT x.1)) else s) s)

end Sys2Proof.Machine
end

