-- ==== Sys2Proof/Machine/DockRows.lean ====
section
/-! DEFINITION. The Dock scrubber (R208, R210), the host's Dock windows (R214, R215, R387, R388), the Warehouse's root ports (R216,
R219). -/

namespace Sys2Proof.Machine

open Host (Outcome)

/-! ### The scrubber (R208, R210) -/

/-- Lines of the devices that hold data or check symbols: the length of a pass. -/
def deviceLines : Nat := dockDevices * deviceGroups * 17

/-- Whether the next line of a pass is due: a pass is spread over SCRUB_HOURS, or runs on without a pause (R210, R227). -/
def State.scrubDue (s : State) : Bool :=
  s.dock.scrub * (s.get F.DK_CTRL_SCRUB_HOURS * us 3600000000) ≤ (s.now - s.dock.scrubFrom) * deviceLines

/-- The scrubber reads a data line: a correctable one is corrected in place, an uncorrectable one recorded. -/
def State.scrubData (s : State) (line : Nat) : State :=
  let s := s.touchLine 5 line
  if s.dockBad line then s else s.repairLine line

/-- The scrubber reads the check line of a group of a device: check symbols of its data lines that need it are corrected. -/
def State.scrubChecks (s : State) (device group : Nat) : State :=
  (List.range 16).foldl (fun s j =>
    let line := lineAt device group j
    match decodeErrors (s.dock.lineErrs line) with
    | .correct i _ => if 32 ≤ i then s.scrubData line else s
    | _ => s) s

/-- The line at a place of a pass, device by device: 16 data lines, then their check line. -/
def State.scrubAt (s : State) (p : Nat) : State :=
  let device := p / (deviceGroups * 17)
  let group := p % (deviceGroups * 17) / 17
  if p % 17 = 16 then s.scrubChecks device group else s.scrubData (lineAt device group (p % 17))

/-- The scrubber goes on to the next line; the last line ends the pass. -/
def State.scrubNext (s : State) : State :=
  if s.dock.scrub + 1 < deviceLines then { s with dock := { s.dock with scrub := s.dock.scrub + 1 } }
  else ({ s with dock := { s.dock with scrub := 0, scrubFrom := s.now } } : State).advance F.DK_STATUS_SCRUB_PASSES

/-- DOCK_SCRUB (R210): in an idle cycle of a device the patrol scrubber reads the next line of its pass, where that line is the device's and
is due. -/
def execDockScrub (device : Nat) (s : State) : Out :=
  .next (if s.get F.DK_CTRL_SCRUB_EN = 0 || s.get F.DK_STATUS_POWER ≠ 0 || !s.scrubDue || s.dock.scrub / (deviceGroups * 17) ≠ device then s
    else (s.scrubAt s.dock.scrub).scrubNext)

/-- CORRECTED_WRITE_BACK (R208): a corrected line is written back. -/
def execCorrectedWriteBack (line : Nat) (s : State) : Out :=
  .next (if s.get F.DK_CTRL_WB_CORRECTED = 1 && s.dockWeak line && !s.dockBad line then (s.repairLine line).tally 0x41
    else s)

/-! ### Dock windows (R214, R215, R387, R388) -/

/-- The decoder that maps a host address, with its base. -/
def State.decoderOf (s : State) (a : Nat) : Option (Nat × Nat) :=
  (s.up.decoders.zipIdx).findSome? fun x =>
    let (base, size, committed, _) := x.1
    if committed && base ≤ a && a < base + size then some (x.2, base) else none

/-- A line that the host may now cache is tracked; the oldest makes room (R388). -/
def State.track (s : State) (line : Nat) : State :=
  let f := s.up.snoop
  if f.contains line then s
  else
    let s := if f.length < 2097152 then s
      else match f with
        | [] => s
        | o :: rest => ({ s with up := { s.up with snoop := rest } } : State).send (.biSnpInv o)
    { s with up := { s.up with snoop := s.up.snoop ++ [line] } }

/-- A CXL.mem access counted (KIND 1 of R407). -/
def State.countMem (s : State) (acc a : Nat) : State := s.pcCount 1 (accPass .host acc) a

/-- Whether Dock window `n` maps the line of a host address `off` bytes above its decoder's base (R214). -/
def State.windowMaps (s : State) (n off : Nat) : Bool :=
  s.cget F.DK_WIN_BASE_VALID [n] = 1 && off < s.cget F.DK_WIN_SIZE_SIZE [n] * 2 ^ 28

/-- HOST_WINDOW_READ (R208, R211, R214, R387): the line at a host address, or poison. -/
def execHostWindowRead (addr : Nat) (s : State) : Out :=
  .next (if !s.up.linkUp then s
    else match s.decoderOf addr with
      | none => s
      | some (n, base) =>
        if !s.windowMaps n (addr - base) then s.send (.memRead addr none)
        else
          let d := s.cget F.DK_WIN_BASE_BASE [n] + (addr - base)
          if s.get F.PM_STATE_STATE ≥ 2 && s.get F.DK_STATUS_POWER ≠ 0 then
            (s.put F.DK_STATUS_SR_ACCESS [] 1).send (.memRead addr none)
          else
            let s := (s.countMem 0 d).track (d / 64)
            match s.dockRead 4 (d / 64 * 64) 64 with
            | (s, .ok bs) => s.send (.memRead addr (some bs))
            | (s, .error _) => s.send (.memRead addr none))

/-- HOST_WINDOW_WRITE (R209, R211, R215, R387): bytes of one line at a host address, applied, or dropped and logged. -/
def execHostWindowWrite (addr : Nat) (bytes : List Byte) (s : State) : Out :=
  .next (if !s.up.linkUp || bytes.isEmpty then s
    else match s.decoderOf addr with
      | none => s
      | some (n, base) =>
        let d := s.cget F.DK_WIN_BASE_BASE [n] + (addr - base)
        let bs := bytes.take (64 - d % 64)
        if !s.windowMaps n (addr - base) || s.cget F.DK_WIN_BASE_WRITE [n] = 0 || s.protects d bs.length then
          (s.deny .host 2 d).countMem 2 d
        else if s.get F.PM_STATE_STATE ≥ 2 && s.get F.DK_STATUS_POWER ≠ 0 then s.put F.DK_STATUS_SR_ACCESS [] 1
        else
          let s := (s.countMem 1 d).track (d / 64)
          let snoop := s.up.snoop
          let s := ({ s with up := { s.up with snoop := [] } } : State).dockWrite d bs
          { s with up := { s.up with snoop := snoop } })

/-- HDM_DECODER_COMMIT (R387): a decoder of `size` bytes at a host address; refused where it does not fit its committed window. -/
def execHdmDecoderCommit (n base size : Nat) (s : State) : Out :=
  .next (if !s.powered || 8 ≤ n then s
    else
      let ok := size = 0 || (s.cget F.DK_WIN_BASE_VALID [n] = 1 && size = s.cget F.DK_WIN_SIZE_SIZE [n] * 2 ^ 28)
      let d : Nat × Nat × Bool × Bool := if ok then (base, size, true, false) else (base, size, false, true)
      { s with up := { s.up with decoders := s.up.decoders.set n d } })

/-! ### The Warehouse's root ports (R216, R219) -/

/-- WAREHOUSE_LINK_LOSS (R219): a root port fails, counted where it was up. Where it serves the Warehouse, the whole of it is FAILED: copies that run fail
and the fragments held are lost. -/
def execWarehouseLinkLoss (port : Nat) (s : State) : Out :=
  .next (if !s.powered || 4 ≤ port then s
    else
      let st := s.get F.WH_PORT_STATE [port]
      let s := if st = 2 || st = 3 then s.bump F.WH_ERR_CNT_LINK_DOWN else s
      let s := s.put F.WH_PORT_STATE [port] 4
      if s.get F.WH_STATUS_STATE = 1 && (s.cget F.WH_CFG_PORT_MASK).testBit port then
        let s := s.put F.WH_STATUS_STATE [] 2
        let s := s.setFrags []
        (s.bh.shards.map (·.1)).foldl (fun s n => if s.copying n then s.copyFail n else s) s
      else s)

/-- WAREHOUSE_LINK_UP (R216): a port trains with the width, rate and flits given, to an expander of a capacity in units of
256 MiB that is `fit` where it is a single logical device of Type 3, attached directly, in 256-byte flit mode. -/
def execWarehouseLinkUp (port width gts : Nat) (lopt fit : Bool) (cap : Nat) (s : State) : Out :=
  .next (if !s.powered || 4 ≤ port then s
    else
      let st := if !fit || cap < 384 then 5
        else if width = 16 && gts = 64 then 2
        else if (width = 8 && gts = 64) || (width = 16 && gts = 32) then 3
        else 5
      let s := ((s.put F.WH_PORT_STATE [port] st).put F.WH_PORT_WIDTH [port] width).put F.WH_PORT_GTS [port] gts
      let s := (s.put F.WH_PORT_LOPT [port] lopt.toNat).put F.WH_PORT_CAP_256M [port] (if st = 5 then 0 else min cap 4096)
      s.put F.WH_PORT_IDE_ON [port] (st ≠ 5 && (s.cget F.WH_CFG_IDE_EN).testBit port : Bool).toNat)

end Sys2Proof.Machine
end

