-- ==== Sys2Proof/Machine/Egress.lean ====
section
/-! DEFINITION. Egress service (R261, R262): the packet that a port takes next, and its transmission. -/

namespace Sys2Proof.Machine

open Host (Outcome)

/-- Whether the line of a port takes this packet now: a slot of a long-haul port sends and its window is open (R332, R346);
a channel in service has locked on a CONFIRMED circuit (R318, R322, R325); a native port has the credits and the replay room (R298,
R299). -/
def State.lineTakes (s : State) (p : Nat) (pkt : Packet) : Bool :=
  if s.isEth p then
    match s.slotOf p with
    | some i => (s.slotState i = Bw.up || s.slotState i = Bw.stalled) && s.windowOpen i
    | none => true
  else
    let c := s.channel (p / 8)
    let lit := !s.lhPort p || (s.get F.LH_PORT_STATUS_CALIBRATING [p / 8] = 0 && c.tuning.isNone && match c.lit with | some k => s.lhState (p / 8) k = 2 | none => false)
    lit && s.hasCredit p pkt && s.replayFits p pkt

/-- The classes whose head packet is eligible (R261). -/
def State.eligible (s : State) (p : Nat) : List Nat :=
  let mask := s.gateMask p
  (List.range 16).filter fun c =>
    match (s.classQ p c).pkts with
    | [] => false
    | x :: _ => mask.testBit c && s.guardFits p c x.pkt.size && s.lineTakes p x.pkt

/-- The class that the rules of R261 take, and whether the first did. -/
def State.selectClass (s : State) (p : Nat) : Option (Nat × Bool) :=
  let cs := s.eligible p
  match cs.find? (s.collCredit p) with
  | some c => some (c, true)
  | none =>
    match cs.filter fun c => 0 < s.weight p c with
    | c :: rest =>
      some (rest.foldl (fun a x => if tagLe (s.classQ p a).tag (s.classQ p x).tag then a else x) c, false)
    | [] => cs.head?.map fun c => (c, false)

/-- The head packet leaves its class queue: V is its tag, and the next head gets its own (R262). -/
def State.dequeue (s : State) (p c : Nat) : State :=
  let q := s.classQ p c
  let s := if s.weight p c = 0 then s
    else { s with basin := { s.basin with vtime := spPut 0 s.basin.vtime p q.tag } }
  match q.pkts with
  | _ :: y :: rest => s.setClassQ p c ⟨y :: rest, s.headTag p c false q.tag y.pkt⟩
  | _ => s.setClassQ p c ⟨[], q.tag⟩

/-- A forwarded PTP event message with its residence time added (R282). -/
def State.residence (s : State) (p : Nat) (x : BPkt) : Packet :=
  match nativePtp x.pkt with
  | some m =>
    if s.get F.CT_CTRL_TC_EN = 1 && !x.orig && ptpEvent x.pkt.body m then
      { x.pkt with body := addResidence x.pkt.body m (s.egressStamp p - x.stamp) }
    else x.pkt
  | none => x.pkt

/-- A packet taken by its port: mirrored, its residence and check word brought up to date, the priority bucket charged
where the first rule took it (R154, R231, R244), its event timestamp taken (R281), and sent (R303, R329). -/
def State.sendOut (s : State) (p : Nat) (prio : Bool) (x : BPkt) : State :=
  let pkt := (s.residence p x).fill
  let s := s.noteEvent p true pkt (s.egressStamp p)
  let s := s.mirrorPort 2 p { x with pkt := pkt }
  let s := if prio then
      (let (b, t) := spGet (0, 0) s.sched.prio p
       { s with sched := { s.sched with prio := spPut (0, 0) s.sched.prio p (b - pkt.size * 256, t) } })
    else s
  let s := { s with tal := { s.tal with txBytes := spPut 0 s.tal.txBytes p (spGet 0 s.tal.txBytes p + pkt.size) } }
  match if s.isEth p then s.slotOf p else none with
  | some i => s.bwSend i false pkt.bytes
  | none => s.transmit p pkt

/-- EGRESS_SELECT (R261): a port in stage 6 takes the next eligible packet; without COLL agreed, a collective or
Boathouse packet is dropped and counted (R309). -/
def execEgressSelect (port : Nat) (s : State) : Out :=
  .next (if !s.isPort port || !s.linkUp port then s
    else
      let s := s.fillPrio port
      match s.selectClass port with
      | none => s
      | some (c, prio) =>
        match (s.classQ port c).pkts with
        | [] => s
        | x :: _ =>
          let s := s.dequeue port c
          if !s.isEth port && !s.feature port 2 && (x.pkt.hdr.kind = 1 || x.pkt.hdr.kind = 2) then
            s.bump F.QY_LINK_CNT_KIND (pidx port)
          else s.sendOut port prio x)

end Sys2Proof.Machine
end

