-- ==== Sys2Proof/Machine/Host.lean ====
section
/-! DEFINITION. The Gatehouse and the Harbourmaster (R390 to R404): images, measurements and the seal, service requests and
the attestation messages, IDE keys, restarts of the Harbourmaster, the baseboard's messages. -/

namespace Sys2Proof.Machine

open Host (Outcome)

/-! ### Images (R391) -/

def State.fusedSvn (s : State) (kind : Nat) : Nat := (s.fuses.svn[kind]?).getD 0

/-- Whether an image is good for a KIND. -/
def State.imageGood (s : State) (kind : Nat) (bs : List Byte) : Bool :=
  let keyId := natAt bs 5 1 % 4
  let body := (bs.drop 0x1280).take (natAt bs 0x0C 4)
  natAt bs 0 4 = 0x4D49474A && natAt bs 4 1 = kind && !s.fuses.revoked.testBit keyId
    && Config.mldsaVerify (Config.romKey keyId) (bs.take 0x60) ((bs.drop 0x60).take 4627)
    && leBytes (Config.sha3 body).toNat 64 = (bs.drop 0x20).take 64 && s.fusedSvn kind ≤ natAt bs 8 2

/-- The DIGEST field of an image. -/
def imageDigest (bs : List Byte) : BitVec 512 := BitVec.ofNat 512 (leNat ((bs.drop 0x20).take 64))

def State.flashCopy (s : State) (kind copy : Nat) : List Byte := (s.gate.flash[2 * kind + copy]?).getD []

/-- The copy that boots: A if it is good, else B if it is (R392). -/
def State.goodCopy (s : State) (kind : Nat) : Option Nat :=
  if s.imageGood kind (s.flashCopy kind 0) then some 0
  else if s.imageGood kind (s.flashCopy kind 1) then some 1 else none

/-- An image of a KIND runs from a copy. -/
def State.runImage (s : State) (kind copy : Nat) : State :=
  { s with gate := { s.gate with running := s.gate.running.set kind (natAt (s.flashCopy kind copy) 8 2),
                                 bootedB := s.gate.bootedB.set kind (copy = 1) } }

/-! ### The seal (R396) -/

/-- The indices of a register with these array dimensions, ascending. -/
def idxAll : List (Nat × Nat) → List (List Nat)
  | [] => [[]]
  | (_, n) :: rest => (List.range n).flatMap fun i => (idxAll rest).map (i :: ·)

/-- The values of every RWL field in ascending BAR0 offset, eight bytes each. -/
def State.rwlBytes (s : State) : List Byte :=
  let rs := Reg.all.filter fun r => (regDesc r).fields.any fun f => f.acc = .rwl
  let m : Sp (List Byte) := rs.foldl (fun m r => (idxAll (regDesc r).dims).foldl (fun m idx =>
    spIns m (regAddr r idx) (((regDesc r).fields.filter fun f => f.acc = .rwl).flatMap fun f => leBytes (s.get f idx) 8)) m) []
  m.flatMap (·.2)

/-- The seal: SEALED is set and slot 6 is extended. -/
def State.sealAll (s : State) : State := (s.put F.GEN_STATUS_SEALED [] 1).extend 6 3 0 0 (Config.sha3 s.rwlBytes)

/-! ### Mailbox requests (R400, R405) -/

/-- The request that a code names may come from HM as well as HOST. -/
def hmMay (code : Nat) : Bool := code = 2 || code = 6

/-- STAGE_FW: an image is read, verified and written to the copy not booted. -/
def State.stageFw (s : State) (body : List Byte) (flashOk : Bool) : State × Nat :=
  let p := word64At body 0
  let len := natAt body 8 8
  if body.length < 16 || ptrSpace p = 0 && len ≠ 0 || !s.ptrOk p len && len ≠ 0 then (s, St.badDescriptor)
  else if len = 0 then (s, St.zeroSize)
  else
    let (s, r) := s.ptrRead 7 p len
    match r with
    | .error _ => (s, St.dataError)
    | .ok bs =>
      let kind := natAt bs 4 1
      if 2 < kind || !s.imageGood kind bs then (s, St.badDescriptor)
      else if !flashOk then (s, St.dataError)
      else
        let copy := if (s.gate.bootedB[kind]?).getD false then 0 else 1
        ({ s with gate := { s.gate with flash := s.gate.flash.set (2 * kind + copy) bs } }, St.ok)

/-- A mailbox request served: the state, its status and its response. A code that names no request has no list of requesters. -/
def State.serveMailbox (s : State) (r : ServiceReq) : State × Nat × List Byte :=
  let b := r.bytes
  let n := b.length
  if r.req ≠ .host && !hmMay r.code && 1 ≤ r.code && r.code ≤ 6 then (s, St.accessDenied, [])
  else if n % 8 ≠ 0 || 16384 < n || (n = 0 && r.code ≠ 1) then (s, St.badDescriptor, [])
  else
    match r.code with
    | 1 => (s.sealAll, St.ok, [])
    | 2 =>
      let slot := natAt b 0 1
      if slot < 7 || 15 < slot || n < 72 then (s, St.badDescriptor, [])
      else (s.extend slot 4 0 0 (BitVec.ofNat 512 (leNat ((b.drop 8).take 64))), St.ok, [])
    | 3 =>
      let i := natAt b 0 1
      let ep := natAt b 1 3
      if 63 < i || (n ≠ 8 && n ≠ 2600) then (s, St.badDescriptor, [])
      else
        let e := if n = 8 then none else some (ep, b.drop 8)
        ({ s with gate := { s.gate with peers := spPut none s.gate.peers i e } }, St.ok, [])
    | 4 => let (s, st) := s.stageFw b r.flashOk; (s, st, [])
    | 5 =>
      let k := natAt b 0 1
      let v := (s.gate.running[k]?).getD 0
      if 2 < k then (s, St.badDescriptor, [])
      else if 64 < v then (s, St.noResource, [])
      else ({ s with fuses := { s.fuses with svn := s.fuses.svn.set k (max v (s.fusedSvn k)) } }, St.ok, [])
    | 6 => (s, St.ok, Config.fuseSummary s.fuses.serial s.fuses.svn s.fuses.revoked)
    | _ => (s, St.badDescriptor, [])

/-! ### Attestation messages (R401, R402) -/

/-- Zero bytes up to a multiple of 4. -/
def pad4 (bs : List Byte) : List Byte := bs ++ List.replicate ((4 - bs.length % 4) % 4) 0

/-- Exactly `n` bytes. -/
def fitBytes (n : Nat) (bs : List Byte) : List Byte := bs.take n ++ List.replicate (n - bs.length) 0

/-- The header of a message of `len` bytes. -/
def msgHeader (code len tag : Nat) : List Byte :=
  leBytes (1 + code * 2 ^ 8 + len * 2 ^ 32) 8 ++ leBytes tag 4 ++ leBytes 0 4

/-- A message of a code, tag and body. -/
def message (code tag : Nat) (body : List Byte) : List Byte :=
  let b := pad4 body
  msgHeader code (16 + b.length) tag ++ b

def errorMsg (tag err : Nat) : List Byte := message 0x7F tag (leBytes err 4)

/-- The ML-DSA-87 signature of the Gatehouse identity key, 4,627 bytes. -/
def State.signature (s : State) (msg : List Byte) : List Byte :=
  fitBytes 4627 (Config.mldsaSign s.fuses.serial s.freeCtr msg)

def LogEntry.bytes (e : LogEntry) : List Byte :=
  leBytes (e.slot + e.kind * 2 ^ 8 + e.index * 2 ^ 16 + e.svn * 2 ^ 32) 8 ++ wordBytes e.time
    ++ leBytes e.digest.toNat 64 ++ leBytes 0 16

/-- GET_INFO's body. -/
def State.infoBody (s : State) : List Byte :=
  wordBytes (genIdWord s.fuses.grade) ++ wordBytes s.fuses.serial
    ++ leBytes ((s.gate.running.zipIdx).foldl (fun n x => n + x.1 * 2 ^ (16 * x.2)) 0) 8
    ++ leBytes (s.get F.GEN_STATUS_BOOT_DONE + 2 * s.get F.GEN_STATUS_SEALED + 4 * s.get F.GH_STATUS_DEBUG_SEALED
        + 8 * s.get F.GH_STATUS_LOG_FULL) 8

/-- GET_MEAS's response: the snapshot and its signature. -/
def State.measReply (s : State) (tag : Nat) (msg : List Byte) : List Byte :=
  let mask := natAt msg 0x30 2
  let slots := (List.range 16).filter mask.testBit
  let body := (msg.drop 0x10).take 32 ++ leBytes (s.gate.log.length + mask * 2 ^ 32) 8
    ++ slots.flatMap fun k => leBytes (spGet 0 s.gate.slots k).toNat 64
  let len := (16 + body.length + 4627 + 3) / 4 * 4
  let head := msgHeader 0x83 len tag ++ body
  pad4 (head ++ s.signature head)

/-- The IDE keys of R402. -/
def ideKeys (ss : List Byte) (stream kset : Nat) (serial : Word64) : BitVec 256 × BitVec 256 :=
  let h := (Config.sha3 (ss ++ leBytes 0x454449584A 5 ++ leBytes stream 1 ++ leBytes kset 1 ++ wordBytes serial)).toNat
  (BitVec.ofNat 256 h, BitVec.ofNat 256 (h / 2 ^ 256))

def State.ideStream (s : State) (k : Nat) : IdeStream := (s.up.ide[k]?).getD ⟨false, [0, 0], [none, none], [none, none]⟩

def State.setIde (s : State) (k : Nat) (x : IdeStream) : State := { s with up := { s.up with ide := s.up.ide.set k x } }

/-- The bytes that a request of each code has at least. -/
def msgMin : Nat → Nat
  | 1 => 16
  | 2 => 24
  | 3 => 52
  | 4 => 24
  | 5 => 1592
  | _ => 20

/-- A message served: the response and, for KEY_EXCH, what it installs. -/
def State.serveMessage (s : State) (msg : List Byte) : State × List Byte × Option (Nat × Nat × BitVec 256 × BitVec 256) :=
  let code := natAt msg 1 1
  let tag := natAt msg 8 4
  let fail (e : Nat) : State × List Byte × Option (Nat × Nat × BitVec 256 × BitVec 256) := (s, errorMsg tag e, none)
  let ok (body : List Byte) : State × List Byte × Option (Nat × Nat × BitVec 256 × BitVec 256) :=
    (s, message (code + 0x80) tag body, none)
  if msg.length < 16 || natAt msg 0 1 ≠ 1 || natAt msg 4 4 ≠ msg.length || msg.length % 4 ≠ 0 then fail 1
  else if code = 0 || 6 < code then fail 2
  else if msg.length < msgMin code then fail 1
  else
    match code with
    | 1 => ok s.infoBody
    | 2 =>
      let chain := Config.certChain s.fuses.serial
      let off := natAt msg 0x10 4
      let len := natAt msg 0x14 4
      if 65536 < len then fail 4 else ok (leBytes chain.length 4 ++ (chain.drop off).take len)
    | 3 => ({ s with freeCtr := s.freeCtr + 1 }, s.measReply tag msg, none)
    | 4 =>
      let n := natAt msg 0x14 4
      if 256 < n then fail 4 else ok (((s.gate.log.drop (natAt msg 0x10 4)).take n).flatMap (·.bytes))
    | 5 =>
      let st := natAt msg 0x10 1 % 2
      let ks := natAt msg 0x10 1 / 2 % 2
      let x := s.ideStream st
      if s.get F.GEN_STATUS_BOOT_DONE = 0 then fail 5
      else if x.established && x.inForce.contains ks then fail 4
      else
        let r := Config.mlkemEncap s.freeCtr ((msg.drop 0x18).take 1568)
        let ct := fitBytes 1568 r.1
        let body := leBytes 0 8 ++ ct ++ s.signature (msg.drop 0x10 ++ ct)
        ({ s with freeCtr := s.freeCtr + 1 }, message 0x85 tag body, some (st, ks, ideKeys r.2 st ks s.fuses.serial))
    | _ =>
      let w := natAt msg 0x10 1
      let st := w % 2
      let ks := w / 2 % 2
      let x := s.ideStream st
      if ((x.keys[ks]?).getD none).isNone then fail 5
      else
        let go := (x.pendingGo.zipIdx).map fun g => if (w / 4).testBit g.2 then some ks else g.1
        (s.setIde st { x with pendingGo := go }, message 0x86 tag [], none)

/-! ### Service in order (R399, R403) -/

/-- Service of a request starts: what it does is done, and its response is in progress. -/
def State.beginService (s : State) (r : ServiceReq) : State :=
  match r.chan with
  | .mailbox =>
    let (s, st, reply) := s.serveMailbox r
    { s with gate := { s.gate with serving := some ⟨.mailbox, st, reply, none⟩ } }
  | c =>
    let (s, reply, keys) := s.serveMessage r.bytes
    { s with gate := { s.gate with serving := some ⟨c, 0, reply, keys⟩ } }

/-- The mailbox shows a status and a response (R400). -/
def State.mailboxDone (s : State) (status : Nat) (reply : List Byte) : State :=
  let s := ((s.put F.GH_RSP_BUSY [] 0).put F.GH_RSP_RESULT [] status).put F.GH_RSP_LEN [] reply.length
  { s with gate := { s.gate with rspBuf := reply } }

/-- The next waiting request's service starts, where none is in progress. -/
def State.nextService (s : State) : State :=
  match s.gate.serving, s.gate.queue with
  | none, r :: rest => ({ s with gate := { s.gate with queue := rest } } : State).beginService r
  | _, _ => s

/-- The response in progress is given. -/
def State.finishService (s : State) : State :=
  match s.gate.serving with
  | none => s
  | some v =>
    let s := { s with gate := { s.gate with serving := none } }
    let s : State := match v.keys with
      | some (st, ks, k) => let x := s.ideStream st; s.setIde st { x with keys := x.keys.set ks (some k) }
      | none => s
    (match v.chan with
      | .mailbox => s.mailboxDone v.status v.reply
      | c => s.send (.reply c v.reply)).nextService

/-- A request arrives: answered at once by a Gatehouse at fault or where 16 others wait, else served in its turn. -/
def State.arriveReq (s : State) (r : ServiceReq) : State :=
  let tag := natAt r.bytes 8 4
  if s.get F.GH_STATUS_FAULT = 1 then
    (match r.chan with | .mailbox => s.mailboxDone St.dataError [] | c => s.send (.reply c (errorMsg tag 6)))
  else if 16 ≤ s.gate.queue.length then
    (match r.chan with
      | .mailbox => let (v, s) := s.fresh; s.mailboxDone (v.toNat % 256) []
      | c => s.send (.reply c (errorMsg tag 3)))
  else ({ s with gate := { s.gate with queue := s.gate.queue ++ [r] } } : State).nextService

/-- An attestation message arrives, over DOE while the upstream link is up, or over MCTP once the module has its I3C address
(R402, R404). -/
def State.attest (s : State) (code : Nat) (chan : MsgChan) (msg : List Byte) : State :=
  let heard := match chan with
    | .doe => s.up.linkUp
    | .mctp => s.gate.i3cAddr.isSome
    | .mailbox => false
  if s.powered && heard then s.arriveReq ⟨chan, .host, code, msg, true⟩ else s

/-- GET_INFO (R402). -/
def execGetInfo (chan : MsgChan) (msg : List Byte) (s : State) : Out := .next (s.attest 1 chan msg)

/-- GET_CERTS (R402). -/
def execGetCerts (chan : MsgChan) (msg : List Byte) (s : State) : Out := .next (s.attest 2 chan msg)

/-- GET_MEAS (R402, R403). -/
def execGetMeas (chan : MsgChan) (msg : List Byte) (s : State) : Out := .next (s.attest 3 chan msg)

/-- GET_LOG (R402). -/
def execGetLog (chan : MsgChan) (msg : List Byte) (s : State) : Out := .next (s.attest 4 chan msg)

/-- KEY_EXCH (R402). -/
def execKeyExch (chan : MsgChan) (msg : List Byte) (s : State) : Out := .next (s.attest 5 chan msg)

/-- KEY_GO (R402). -/
def execKeyGo (chan : MsgChan) (msg : List Byte) (s : State) : Out := .next (s.attest 6 chan msg)

/-- DOE_ABORT (R402): the DOE response in progress is discarded. -/
def execDoeAbort (s : State) : Out :=
  .next (match s.gate.serving with
    | some v => if v.chan = .doe then ({ s with gate := { s.gate with serving := none } } : State).nextService else s
    | none => s)

/-! ### The mailbox (R400) -/

/-- The request buffer's first bytes. -/
def State.reqBytes (s : State) (n : Nat) : List Byte := (List.range n).map fun i => spGet 0 s.gate.reqBuf i

/-- A GO: dropped while BUSY. -/
def State.mailboxGo (s : State) (req : Requester) (code len : Nat) (flashOk : Bool) : State :=
  if s.get F.GH_RSP_BUSY = 1 then s
  else
    let s := (s.put F.GH_REQ_CODE [] code).put F.GH_REQ_LEN [] len
    let s := (s.put F.GH_RSP_BUSY [] 1).put F.GH_RSP_OWNER [] (reqCode req)
    s.arriveReq ⟨.mailbox, req, code % 256, s.reqBytes (len % 2 ^ 15), flashOk⟩

def State.mailboxRow (s : State) (req : Requester) (code len : Nat) (flashOk : Bool) : Out :=
  .next (s.rowWrite req .GH_REQ [] (·.mailboxGo req code len flashOk))

/-- SEAL (R396, R400). -/
def execSeal (req : Requester) (len : Nat) (s : State) : Out := s.mailboxRow req 1 len true

/-- EXTEND (R394, R400). -/
def execExtend (req : Requester) (len : Nat) (s : State) : Out := s.mailboxRow req 2 len true

/-- SET_PEER (R400). -/
def execSetPeer (req : Requester) (len : Nat) (s : State) : Out := s.mailboxRow req 3 len true

/-- STAGE_FW (R400): `flashOk` false where the flash write fails its read-back. -/
def execStageFw (req : Requester) (len : Nat) (flashOk : Bool) (s : State) : Out := s.mailboxRow req 4 len flashOk

/-- COMMIT_SVN (R400). -/
def execCommitSvn (req : Requester) (len : Nat) (s : State) : Out := s.mailboxRow req 5 len true

/-- READ_FUSES (R400). -/
def execReadFuses (req : Requester) (len : Nat) (s : State) : Out := s.mailboxRow req 6 len true

/-- GATEHOUSE_FAULT (R399): FAULT, and what waits or is in progress is answered as at fault. -/
def execGatehouseFault (s : State) : Out :=
  .next (if !s.powered then s
    else
      let q := s.gate.queue
      let s := (s.put F.GH_STATUS_FAULT [] 1)
      let v := s.gate.serving
      let s := { s with gate := { s.gate with queue := [], serving := none } }
      let s : State := match v with
        | some v => (match v.chan with
          | .mailbox => s.mailboxDone St.dataError []
          | c => s.send (.reply c (errorMsg (natAt v.reply 8 4) 6)))
        | none => s
      q.foldl (fun s r => s.arriveReq r) s)

/-! ### IDE (R390) -/

/-- IDE_KEY_SWITCH (R390): a direction's key-switch boundary. -/
def execIdeKeySwitch (stream dir : Nat) (s : State) : Out :=
  let x := s.ideStream stream
  .next (match (x.pendingGo[dir]?).getD none with
    | some k => if stream < 2 && dir < 2
        then s.setIde stream { x with established := true, inForce := x.inForce.set dir k, pendingGo := x.pendingGo.set dir none } else s
    | none => s)

/-- IDE_INTEGRITY_FAIL (R390): the flit is dropped and the link is brought down. -/
def execIdeIntegrityFail (stream : Nat) (s : State) : Out :=
  .next (if (s.ideStream stream).established then { s with up := { s.up with linkUp := false } } else s)

/-! ### The Harbourmaster (R397, R398) -/

/-! The codes of HM_STATUS.STATE. -/
namespace Hs
def starting : Nat := 0
def running : Nat := 1
def restarting : Nat := 2
def held : Nat := 3
end Hs

/-- Steps 1 and 2 of R398: HM-owned rings pause, the cores stop, their CMIS transactions end with NACK. -/
def State.hmStop (s : State) : State :=
  let s := (List.range 256).foldl (fun s r =>
    if s.ringOwner r = .hm && s.ringState r = Rs.run then s.setRing r Rs.paused else s) s
  let s := (List.range 64).foldl (fun s q =>
    if (spGet none s.quays.cmis q).isSome then
      let s := { s with quays := { s.quays with cmis := spPut none s.quays.cmis q none } }
      (s.put F.QY_CMIS_STATUS_BUSY [q] 0).cmisNack q
    else s) s
  { s with hm := { s.hm with stopped := true } }

/-- A restart begins, where the cores are up (R398). -/
def State.hmRestart (s : State) : State :=
  let st := s.get F.HM_STATUS_STATE
  if !s.powered || s.hm.stopped || st ≠ Hs.running then s
  else
    let s := (s.hmStop.bump F.HM_STATUS_RESTARTS)
    s.put F.HM_STATUS_STATE [] (if s.get F.HM_CTRL_HOLD = 1 then Hs.held else Hs.restarting)

/-- Steps 3 and 4 of R398; where neither copy is good the cores stay stopped and FAIL_KIND says so. -/
def State.hmComplete (s : State) : State :=
  match s.goodCopy 2 with
  | none => (s.put F.GH_STATUS_BOOT_FAIL [] 1).put F.GH_STATUS_FAIL_KIND [] 2
  | some c =>
    let bs := s.flashCopy 2 c
    let s := (s.runImage 2 c).extend 2 5 2 (natAt bs 8 2) (imageDigest bs)
    let s := if c = 1 then s.put F.GH_STATUS_COPY_B [] 1 else s
    ({ s with hm := ⟨s.now, false⟩ } : State).put F.HM_STATUS_STATE [] Hs.running

/-- A write of HM_HEARTBEAT. -/
def State.heartbeat (s : State) (req : Requester) (value : Word64) : State :=
  ({ s with hm := { s.hm with beatAt := s.now } } : State).applyWrite req .HM_HEARTBEAT [] value

/-- HM_HEARTBEAT (R398). -/
def execHmHeartbeat (req : Requester) (value : Word64) (s : State) : Out :=
  .next (s.rowWrite req .HM_HEARTBEAT [] (·.heartbeat req value))

/-- HEARTBEAT_EXPIRY (R398): 1 s without a heartbeat. -/
def execHeartbeatExpiry (s : State) : Out :=
  .next (if s.hm.beatAt + us 1000000 ≤ s.now then s.hmRestart else s)

/-- RESTART (R398). -/
def execRestart (req : Requester) (s : State) : Out := .next (s.rowWrite req .HM_CTRL [] (·.hmRestart))

/-- HM_MEMORY_FAULT (R398). -/
def execHmMemoryFault (s : State) : Out :=
  .next (if s.powered && !s.hm.stopped && s.get F.HM_STATUS_STATE = Hs.running
    then (s.put F.HM_STATUS_MEM_FAULT [] 1).hmRestart else s)

/-- HM_RESTART_COMPLETE (R398). -/
def execHmRestartComplete (s : State) : Out :=
  .next (if s.powered && s.get F.HM_STATUS_STATE = Hs.restarting then s.hmComplete else s)

/-- A write of HM_CTRL.HOLD: clearing it completes a held restart. -/
def State.hmHold (s : State) (on : Bool) : State :=
  let s := s.put F.HM_CTRL_HOLD [] on.toNat
  if !on && s.get F.HM_STATUS_STATE = Hs.held then s.hmComplete else s

/-- HOLD (R398). -/
def execHold (req : Requester) (on : Bool) (s : State) : Out := .next (s.rowWrite req .HM_CTRL [] (·.hmHold on))

/-- A write of HM_DOCK k: a valid range that reaches the hardware reserve or a shard is dropped (R397). -/
def State.hmDock (s : State) (k : Nat) (v : Word64) : State :=
  let a := bits v 0 24 * MiB
  let n := bits v 24 24 * MiB
  let shards := s.bh.shards.any fun x => match x.2 with
    | some y => a < y.range.1 + y.range.2 && y.range.1 < a + n
    | none => false
  if bits v 63 1 = 1 && n ≠ 0 && (s.rsvBase < a + n || shards) then s.put F.HM_STATUS_DOCK_REFUSED [] 1
  else s.applyWrite .host .HM_DOCK [k] v

/-- HM_DOCK (R397). -/
def execHmDock (req : Requester) (k : Nat) (value : Word64) (s : State) : Out :=
  .next (s.rowWrite req .HM_DOCK [k] (·.hmDock k value))

/-! ### The baseboard's messages (R404) -/

/-- ENTDAA (R404): the module's dynamic address. -/
def execEntdaa (addr : Nat) (s : State) : Out :=
  .next (if s.powered then { s with gate := { s.gate with i3cAddr := some (addr % 128) } } else s)

/-- MCTP_CONTROL (R404): the Gatehouse answers; `mtu` is a transmission unit negotiated by it, 64 to 256 bytes. -/
def execMctpControl (msg : List Byte) (mtu : Option Nat) (s : State) : Out :=
  .next (if !s.powered || s.gate.i3cAddr.isNone then s
    else
      let m := match mtu with | some n => if 64 ≤ n && n ≤ 256 then n else s.gate.mtu | none => s.gate.mtu
      ({ s with gate := { s.gate with mtu := m } } : State).send (.reply .mctp (Config.mctpAnswer msg)))

/-- PLDM_REQUEST (R404): served by the Harbourmaster, or answered NOT_READY, code 0x04 after the request's header. PRESUMED:
that header is three bytes whose first has the request bit 7. -/
def execPldmRequest (msg : List Byte) (s : State) : Out :=
  .next (if !s.powered || s.gate.i3cAddr.isNone then s
    else if s.get F.HM_STATUS_STATE = Hs.running then
      ({ s with freeCtr := s.freeCtr + 1 } : State).send (.reply .mctp (Config.pldmAnswer s.freeCtr msg))
    else
      s.send (.reply .mctp (leBytes (natAt msg 0 1 % 128) 1 ++ (msg.drop 1).take 2 ++ leBytes 4 1)))

end Sys2Proof.Machine
end

