-- ==== Sys2Proof/Machine/Module.lean ====
section
/-! DEFINITION. The module: boot (R392), power-up and power-down (R426 to R428), resets and the upstream link (R429), the
reference (R21), PMBus (R430). -/

namespace Sys2Proof.Machine

open Host (Outcome)

/-! ### Boot (R2, R392) -/

/-- Step 1: the part data, the site map, PM_VTAB and PM_WEIGHT come from the fuses; slot 1 takes their summary. -/
def State.loadFuses (s : State) : State :=
  let f := s.fuses
  let s := s.gradeWords.put F.GH_STATUS_DEBUG_SEALED [] f.debugSeal.toNat
  let s := (f.site.zipIdx).foldl (fun s x =>
    ((s.put F.PV_SITE_DIE [x.2] (x.2 / (s.pavCount / 4))).put F.PV_SITE_ROW [x.2] x.1.1).put F.PV_SITE_COL [x.2] x.1.2) s
  let s := (f.vtab.zipIdx).foldl (fun s x => s.wr .PM_VTAB [x.2] x.1) s
  let s := (f.weights.zipIdx).foldl (fun s x => (s.put F.PM_WEIGHT_FJ [x.2] (bits x.1 0 32)).put F.PM_WEIGHT_DOMAIN [x.2] (bits x.1 32 2)) s
  s.extend 1 1 0 0 (Config.sha3 (Config.fuseSummary f.serial f.svn f.revoked))

/-- An image of a KIND is verified, copy A first, and measured in a slot; where neither copy is good, boot ends. -/
def State.bootImage (s : State) (kind slot stage : Nat) : State :=
  match s.goodCopy kind with
  | none => (s.put F.GH_STATUS_BOOT_FAIL [] 1).put F.GH_STATUS_FAIL_KIND [] kind
  | some c =>
    let bs := s.flashCopy kind c
    let s := (s.runImage kind c).extend slot 0 kind (natAt bs 8 2) (imageDigest bs)
    let s := if c = 1 then s.put F.GH_STATUS_COPY_B [] 1 else s
    s.put F.GH_STATUS_STAGE [] stage

/-- The next step of R392. -/
def State.bootStep (s : State) : State :=
  if !s.powered || s.bootDone || s.get F.GH_STATUS_BOOT_FAIL = 1 then s
  else
    match s.get F.GH_STATUS_STAGE with
    | 0 => s.loadFuses.put F.GH_STATUS_STAGE [] 1
    | 1 => s.bootImage 0 0 2
    | 2 => s.bootImage 1 3 3
    | 3 =>
      let s := s.bootImage 2 2 4
      if s.get F.GH_STATUS_STAGE = 4 then
        ({ s with hm := ⟨s.now, false⟩ } : State).put F.HM_STATUS_STATE [] Hs.running
      else s
    | 4 => (s.put F.DK_STATUS_POWER [] 0).put F.GH_STATUS_STAGE [] 5
    | _ =>
      let s := (s.put F.GH_STATUS_STAGE [] 6).put F.GEN_STATUS_BOOT_DONE [] 1
      { s with sup := { s.sup with whPerst := true } }

/-! ### Power-up (R426 to R429) -/

/-- Steps 4 and 5 of R426: the synthesiser locks, the main stages rise, and boot begins from a cold reset. -/
def State.powerUp (s : State) : State :=
  let s := s.coldReset
  { s with sup := { s.sup with rails := .main, armed := false, pwrGood := true, whPerst := false } }

/-- Step 3 of R426: power-up where the reference is present, else a wait for it. -/
def State.tryPowerUp (s : State) : State :=
  if s.sup.refclk then s.powerUp else { s with sup := { s.sup with armed := true } }

/-- VIN_RISE (R426): the standby rail is up and the module is in OFF; with MOD_EN high it goes on. -/
def execVinRise (s : State) : Out :=
  .next (if s.sup.rails ≠ .none then s
    else
      let s := s.powerOff
      let s : State := { s with sup := { s.sup with ovLatch := false } }
      if s.sup.modEn then s.tryPowerUp else s)

/-- UNDERVOLTAGE_LOCKOUT (R421): every stage turns off at once. -/
def execUndervoltageLockout (s : State) : Out :=
  .next (if s.sup.rails = .none then s
    else
      let s := s.powerOff
      { s with sup := { s.sup with rails := .none, ovLatch := false } })

/-- OVERVOLTAGE_LATCH (R421): every main stage turns off and latches off. -/
def execOvervoltageLatch (s : State) : Out :=
  .next (if s.sup.rails = .none then s
    else
      let s := if s.sup.rails = .main then s.powerOff else s
      { s with sup := { s.sup with ovLatch := true, armed := false } })

/-- MOD_EN_RISE (R426, R427). -/
def execModEnRise (s : State) : Out :=
  .next (if s.sup.modEn then s
    else
      let s : State := { s with sup := { s.sup with modEn := true } }
      if s.sup.rails = .standby && !s.sup.ovLatch then s.tryPowerUp else s)

/-- MOD_EN_FALL (R427): a POWER to OFF by the hardware; a POWER command that runs is aborted. It releases the overvoltage latch
for the next rise. -/
def execModEnFall (s : State) : Out :=
  .next (if !s.sup.modEn then s
    else
      let s : State := { s with sup := { s.sup with modEn := false, armed := false, ovLatch := false } }
      if s.sup.rails ≠ .main || (match s.pwr.entering with | some (4, _) => true | _ => false) then s
      else
        let s := s.quiesce none
        { s with pwr := { s.pwr with entering := some (4, none) } })

/-- SYS_RESET_L (R428): low for 10 µs and released: all logic stops at once and power-up resumes at step 4; in OFF the module
stays there. -/
def execSysResetL (s : State) : Out :=
  .next (match s.sup.rails with
    | .none => s
    | .standby => s.coldReset
    | .main => s.powerUp)

/-- REFERENCE_LOSS (R21): absent for 10 µs. -/
def execReferenceLoss (s : State) : Out :=
  .next (if !s.sup.refclk then s
    else
      let s : State := { s with sup := { s.sup with refclk := false } }
      if s.powered then
        ((s.put F.PM_STATE_REF_LOST [] 1).put F.LG_STATUS_ALT_OSC [] 1).lodgeRec Lk.refLost none none
      else s)

/-- REFERENCE_RETURN (R21, R426): the synthesiser re-locks by slewing; a power-up that waited for it goes on. -/
def execReferenceReturn (s : State) : Out :=
  .next (if s.sup.refclk then s
    else
      let s : State := { s with sup := { s.sup with refclk := true } }
      if s.powered then
        ((s.put F.PM_STATE_REF_LOST [] 0).put F.LG_STATUS_ALT_OSC [] 0).lodgeRec Lk.refBack none none
      else if s.sup.armed && s.sup.modEn && s.sup.rails = .standby then s.powerUp
      else s)

/-! ### The upstream link (R426, R429) -/

/-- DOE requests, waiting and in progress, are forgotten. -/
def State.dropDoe (s : State) : State :=
  let g := s.gate
  let gone : Bool := match g.serving with | some v => v.chan = .doe | none => false
  ({ s with gate := { g with queue := g.queue.filter fun r => r.chan ≠ .doe,
                             serving := if gone then none else g.serving } } : State).nextService

/-- PERST_L (R429): the upstream function is reset; HOST-owned rings abort; what was bound for host memory is discarded. -/
def execPerstL (s : State) : Out :=
  .next (if s.up.perst then s
    else
      let s := { s with up := { State.reset.up with perst := true } }
      if !s.powered then s
      else
        let s := s.dropDoe
        (List.range 256).foldl (fun s r => if s.ringOwner r = .host then s.abortRing r none else s) s)

/-- PERST_L_RELEASE (R426). -/
def execPerstLRelease (s : State) : Out := .next { s with up := { s.up with perst := false } }

/-- UPSTREAM_LINK_DOWN (R429): host-memory accesses fail, and writes are held. -/
def execUpstreamLinkDown (s : State) : Out := .next { s with up := { s.up with linkUp := false } }

/-- UPSTREAM_LINK_UP (R426, R429): with the main stages up and PERST_L released the link trains, and held writes are made. -/
def execUpstreamLinkUp (s : State) : Out :=
  .next (if !s.powered || s.up.perst || s.up.linkUp then s
    else
      let h := s.up.held
      h.foldl (fun s w => s.hostWrite w.1 w.2) { s with up := { s.up with linkUp := true, held := [] } })

/-- CONFIGURATION_REQUEST (R426): served once step 2 of boot has ended. -/
def execConfigurationRequest (s : State) : Out :=
  .next (if !s.up.linkUp then s
    else s.send (if 2 ≤ s.get F.GH_STATUS_STAGE then .configDone else .configRetry))

/-! ### PMBus (R430) -/

/-- The mantissa of `num / den` at exponent `n - 16`. -/
def mantissa (num : Int) (den n : Nat) : Int := if n ≤ 16 then num * 2 ^ (16 - n) / den else num / (den * 2 ^ (n - 16))

/-- LINEAR11: the smallest exponent whose mantissa fits 11 signed bits. PRESUMED: PMBus's format; the specification names it. -/
def linear11 (num : Int) (den : Nat) : Nat :=
  let fits (n : Nat) : Bool := let m : Int := mantissa num den n; decide (-1024 ≤ m) && decide (m ≤ 1023)
  let n := ((List.range 32).find? fits).getD 31
  (mantissa num den n % 2048).toNat + ((n + 16) % 32) * 2048

/-- An answer, where any rail is up. -/
def State.pmbus (s : State) (bytes : List Byte) : Out :=
  .next (if s.sup.rails = .none then s else s.send (.pmbus bytes))

/-- A block: its length, then its bytes. -/
def block (bs : List Byte) : List Byte := leBytes bs.length 1 ++ bs

def asciiBytes (l : List Nat) : List Byte := l.map (BitVec.ofNat 8 ·)

/-- The status summary. PRESUMED: PMBus's places for the summaries of input, temperature and communication. -/
def State.statusWord (s : State) : Nat :=
  (if s.lodge.stCml ≠ 0 then 2 else 0) + (if s.lodge.stTemp ≠ 0 then 4 else 0) + (if s.lodge.stInput ≠ 0 then 2 ^ 13 else 0)

/-- The output PMB_ALERT_L is low while any status bit is latched (R430). -/
def State.pmbAlertLow (s : State) : Bool := s.statusWord ≠ 0

/-- CLEAR_FAULTS: latched bits whose cause has gone are cleared. -/
def execClearFaults (s : State) : Out :=
  .next (if s.sup.rails = .none then s
    else
      let l := s.lodge
      { s with lodge := { l with stInput := l.stInput &&& s.inputCauses, stTemp := l.stTemp &&& s.tempCauses, stCml := 0 } })

/-- CAPABILITY. -/
def execCapability (s : State) : Out := s.pmbus (leBytes 0xB0 1)

/-- STATUS_BYTE. -/
def execStatusByte (s : State) : Out := s.pmbus (leBytes s.statusWord 1)

/-- STATUS_WORD. -/
def execStatusWord (s : State) : Out := s.pmbus (leBytes s.statusWord 2)

/-- STATUS_INPUT. -/
def execStatusInput (s : State) : Out := s.pmbus (leBytes s.lodge.stInput 1)

/-- STATUS_TEMPERATURE. -/
def execStatusTemperature (s : State) : Out := s.pmbus (leBytes s.lodge.stTemp 1)

/-- STATUS_CML. -/
def execStatusCml (s : State) : Out := s.pmbus (leBytes s.lodge.stCml 1)

/-- READ_VIN: the filtered voltage. -/
def execReadVin (s : State) : Out := s.pmbus (leBytes (linear11 (s.lodge.vin : Int) 100) 2)

/-- READ_IIN: the input current. -/
def execReadIin (s : State) : Out := s.pmbus (leBytes (linear11 (s.lodge.iin : Int) 1000) 2)

/-- READ_PIN: the mean over 100 µs. -/
def execReadPin (s : State) : Out := s.pmbus (leBytes (linear11 (s.lodge.pin : Int) 1000) 2)

/-- A temperature in 1/16 °C, which OFF does not serve. -/
def State.pmbusTemp (s : State) (t : Int) : Out :=
  match s.sup.rails with
  | .none => .next s
  | .standby => .next (s.send .nack)
  | .main => s.pmbus (leBytes (linear11 t 16) 2)

/-- The largest of some temperatures. -/
def hottest (l : List Int) : Int := l.foldl max ((l.head?).getD 0)

/-- READ_TEMPERATURE_1: the hottest die sensor. -/
def execReadTemperature1 (s : State) : Out := s.pmbusTemp (hottest s.dieTemps)

/-- READ_TEMPERATURE_2: the hottest Dock device. -/
def execReadTemperature2 (s : State) : Out := s.pmbusTemp (hottest ((List.range 24).map (spGet 0 s.lodge.dockT)))

/-- PMBUS_REVISION. -/
def execPmbusRevision (s : State) : Out := s.pmbus (leBytes 0x33 1)

/-- MFR_ID: "JEXWARD". -/
def execMfrId (s : State) : Out := s.pmbus (block (asciiBytes [0x4A, 0x45, 0x58, 0x57, 0x41, 0x52, 0x44]))

/-- MFR_MODEL: the part number (R431), "JX-SPL-800" or "JX-SPL-704". -/
def execMfrModel (s : State) : Out :=
  s.pmbus (block (asciiBytes ([0x4A, 0x58, 0x2D, 0x53, 0x50, 0x4C, 0x2D] ++
    match s.fuses.grade with | .g800 => [0x38, 0x30, 0x30] | .g704 => [0x37, 0x30, 0x34])))

/-- MFR_REVISION: "B0". -/
def execMfrRevision (s : State) : Out := s.pmbus (block (asciiBytes [0x42, 0x30]))

/-- MFR_SERIAL: the module serial number. -/
def execMfrSerial (s : State) : Out := s.pmbus (block (wordBytes s.fuses.serial))

/-- UNSUPPORTED_COMMAND: a data NACK, and the CML bit. -/
def execUnsupportedCommand (s : State) : Out :=
  .next (if s.sup.rails = .none then s
    else ({ s with lodge := { s.lodge with stCml := s.lodge.stCml ||| 128 } } : State).send .nack)

end Sys2Proof.Machine
end

