-- ==== Sys2Proof/Machine/TallyRows.lean ====
section
/-! DEFINITION. Reads of BAR0 (R4, R10, R28, R395, R432), the Tally's rows (R406 to R415), and the writes that clear counters. -/

namespace Sys2Proof.Machine

open Host (Outcome)

/-! ### Reads -/

/-- The gate entry that SC_GATE_ADDR names, committed or shadow (R274). -/
def State.gateWord (s : State) (committed : Bool) : Word64 :=
  let k := 1024 * s.get F.SC_GATE_ADDR_PORT + s.get F.SC_GATE_ADDR_ENTRY
  spGet 0 (if committed then s.sched.gateList else s.sched.gateShadow) k

/-- Whether a requester reads zero at a register (R395). -/
def hiddenFrom (req : Requester) (r : Reg) : Bool :=
  req ≠ .gh && (r = .BW_SA_KEYSEL || r = .BW_SA_KEYDATA)

/-- The 64-bit word a requester reads at an aligned offset. -/
def State.readWord (s : State) (req : Requester) (off : Nat) : Word64 :=
  if !s.powered || (!s.bootDone && req ≠ .gh && 0x100000 ≤ off) || s.beyondGrade off then 0
  else if 0x02008000 ≤ off && off < 0x0200C000 then
    BitVec.ofNat 64 (leNat ((List.range 8).map fun i => spGet 0 s.gate.reqBuf (off - 0x02008000 + i)))
  else if 0x0200C000 ≤ off && off < 0x02010000 then word64At s.gate.rspBuf (off - 0x0200C000)
  else if 0x02100000 ≤ off && off < 0x03000000 then
    match findReg (off - 0x02000000) with
    | some (r, idx) =>
      if (regDesc r).set.isNone || hiddenFrom req r then 0
      else if r = .SC_GATE_DATA then s.gateWord true
      else s.crd r idx
    | none => 0
  else
    match findReg off with
    | some (r, idx) =>
      if hiddenFrom req r then 0
      else if r = .SC_GATE_DATA then s.gateWord (s.get F.SC_GATE_ADDR_VIEW = 1)
      else s.rd r idx
    | none => 0

/-- What a BAR0 read of `size` bytes returns (R10). -/
def State.busRead (s : State) (req : Requester) (off size : Nat) : Word64 :=
  if size = 8 && off % 8 = 0 then s.readWord req off
  else if size = 4 && off % 4 = 0 then
    (let w := s.readWord req (off / 8 * 8)
     BitVec.ofNat 64 (if off % 8 = 0 then bits w 0 32 else bits w 32 32))
  else 0

/-! ### Port windows (R409) -/

/-- The number of whole windows or periods of `n` units of `ns` nanoseconds since time zero. -/
def State.periodNo (s : State) (n ns : Nat) : Nat := s.ctNs / (n * ns)

/-- WINDOW_END (R409): each port's counts in units of 64 bytes; the remainders are carried. -/
def execWindowEnd (s : State) : Out :=
  let w := s.get F.TL_BW_CFG_WINDOW_US
  let n := s.periodNo w 1000
  .next (if w = 0 || n = s.tal.lastWindow then s
    else
      let t := s.tal
      let s : State := (List.range 512).foldl (fun s p =>
        s.wr .TL_BW [p] (BitVec.ofNat 64 (spGet 0 t.rxBytes p / 64 % 2 ^ 32 + spGet 0 t.txBytes p / 64 % 2 ^ 32 * 2 ^ 32))) s
      let carry (m : Sp Nat) : Sp Nat := m.foldr (fun x c => spPut 0 c x.1 (x.2 % 64)) []
      { s with tal := { t with rxBytes := carry t.rxBytes, txBytes := carry t.txBytes, lastWindow := n } })

/-- A write of TL_BW_CFG: the window in progress is discarded. -/
def State.windowUs (s : State) (req : Requester) (v : Word64) : State :=
  let s := s.applyWrite req .TL_BW_CFG [] v
  { s with tal := { s.tal with rxBytes := [], txBytes := [], lastWindow := s.periodNo (s.get F.TL_BW_CFG_WINDOW_US) 1000 } }

/-- WINDOW_US (R409). -/
def execWindowUs (req : Requester) (value : Word64) (s : State) : Out :=
  .next (s.rowWrite req .TL_BW_CFG [] (·.windowUs req value))

/-! ### Dumps (R410 to R412) -/

/-- The words of a snapshot but SEQ. -/
def State.snapWords (s : State) (forced : Bool) : List (Nat × Word64) :=
  [(0x08, s.timeWord),
   (0x10, BitVec.ofNat 64 (forced.toNat + s.get F.PM_STATE_STATE % 8 * 2 + s.get F.PM_STATE_ROW % 8 * 16)),
   (0x18, BitVec.ofNat 64 (s.get F.TL_BW_CFG_WINDOW_US))]
    ++ ((List.range 256).map fun e => (0x40 + 8 * e, s.rd .TL_EVT [e]))
    ++ ((List.range 64).map fun k => (0x840 + 8 * k, s.rd .TL_PC_VAL [k]))
    ++ (List.range 512).map fun p => (0xA40 + 8 * p, s.rd .TL_BW [p])

/-- A snapshot taken, or skipped while a record is being written; none with the ring off, in WINTER or in STANDBY. A periodic and
a forced snapshot of one cycle are one record, with FORCED set. -/
def State.tallySnapshot (s : State) (forced : Bool) : State :=
  if s.get F.TL_DUMP_RING_EN = 0 || 2 ≤ s.get F.PM_STATE_STATE then s
  else
    match s.tal.snap with
    | some x =>
      if x.takenAt ≠ s.now then s.bump F.TL_DUMP_STAT_SKIPPED
      else if forced then
        { s with tal := { s.tal with snap := some { x with words := x.words.map fun w =>
          if w.1 = 0x10 then (w.1, w.2 ||| 1) else w } } }
      else s
    | none =>
      let n := s.get F.TL_DUMP_SEQ_SEQ + 1
      let slots := 2 ^ min 20 (s.get F.TL_DUMP_RING_SLOTS_LOG)
      let x : Snapshot := ⟨s.get F.TL_DUMP_RING_ADDR + 8192 * ((n - 1) % slots), n, s.snapWords forced, s.now⟩
      ({ s with tal := { s.tal with snap := some x } } : State).put F.TL_DUMP_STAT_BUSY [] 1

/-- DUMP_SNAPSHOT (R411): the time has reached a multiple of PERIOD_MS. -/
def execDumpSnapshot (s : State) : Out :=
  let p := s.get F.TL_DUMP_CFG_PERIOD_MS
  let n := s.periodNo p 1000000
  .next (if p = 0 || n = s.tal.lastDump then s
    else ({ s with tal := { s.tal with lastDump := n } } : State).tallySnapshot false)

/-- DUMP_NOW (R411). -/
def execDumpNow (req : Requester) (s : State) : Out := .next (s.rowWrite req .TL_CTRL [] (·.tallySnapshot true))

/-- A placement of the dump ring takes effect, and SEQ is 0. -/
def State.placeDump (s : State) (v : Word64) : State :=
  (s.wr .TL_DUMP_RING [] (applyFields false (regDesc .TL_DUMP_RING).fields 0 v).1).put F.TL_DUMP_SEQ_SEQ [] 0

/-- DUMP_RECORD_WRITTEN (R412): the record's bytes, then its SEQ; a placement that waited takes effect. -/
def execDumpRecordWritten (s : State) : Out :=
  .next (match s.tal.snap with
    | none => s
    | some x =>
      let next := s.tal.ringNext
      let s := { s with tal := { s.tal with snap := none, ringNext := none } }
      let s := s.dockWrite (x.addr + 8) ((layWords 8192 x.words).drop 8)
      let s := s.dockWrite x.addr (leBytes x.seq 8)
      let s := (s.put F.TL_DUMP_SEQ_SEQ [] x.seq).put F.TL_DUMP_STAT_BUSY [] 0
      match next with
      | some v => s.placeDump v
      | none => s)

/-- Whether a ring of `n` bytes at `a` lies wholly in Dock below the hardware reserve. -/
def State.ringFits (s : State) (a n : Nat) : Bool := a + n ≤ s.rsvBase && !s.onShard Sh.empty (a, n)

/-- A write of TL_DUMP_RING (R410). -/
def State.dumpRing (s : State) (v : Word64) : State :=
  let a := bits v 0 48
  if bits v 63 1 = 1 && (a % 8192 ≠ 0 || !s.ringFits a (8192 * 2 ^ min 20 (bits v 48 5))) then s.put F.TL_STATUS_DUMP_REFUSED [] 1
  else if s.tal.snap.isSome then { s with tal := { s.tal with ringNext := some v } }
  else s.placeDump v

/-- DUMP_RING_WRITE (R410). -/
def execDumpRingWrite (req : Requester) (value : Word64) (s : State) : Out :=
  .next (s.rowWrite req .TL_DUMP_RING [] (·.dumpRing value))

/-! ### Clearing and gathering (R406, R413) -/

/-- Every event and programmable counter set to zero. -/
def State.clearAll (s : State) : State :=
  let s := (List.range 256).foldl (fun s e => s.wr .TL_EVT [e] 0) s
  (List.range 64).foldl (fun s k => s.wr .TL_PC_VAL [k] 0) s

/-- CLEAR_ALL (R406). -/
def execClearAll (req : Requester) (s : State) : Out := .next (s.rowWrite req .TL_CTRL [] (·.clearAll))

/-- A capture (R413): every listed register as it stands, in one cycle, with BUSY set until the cycle ends; a GO while it is set
is dropped. -/
def State.gather (s : State) (req : Requester) (count : Nat) : State :=
  if s.get F.TL_GATHER_BUSY = 1 then s.put F.TL_GATHER_COUNT [] (min 256 count)
  else
    let n := min 256 count
    let vs := (List.range n).map fun i => s.busRead req (s.get F.TL_GLIST_OFFSET [i]) 8
    (vs.zipIdx).foldl (fun s v => s.wr .TL_GDATA [v.2] v.1)
      ((s.put F.TL_GATHER_COUNT [] n).put F.TL_GATHER_BUSY [] 1)

/-- GATHER_GO (R413). -/
def execGatherGo (req : Requester) (count : Nat) (s : State) : Out := .next (s.rowWrite req .TL_GATHER [] (·.gather req count))

/-! ### Programmable counters (R408) -/

/-- A write of TL_PC_CFG: dropped where it would change the filters of a counter that counts; EN refused where the filters
make no counter. -/
def State.pcEnable (s : State) (k : Nat) (v : Word64) : State :=
  let kind := bits v 0 3
  if s.get F.TL_PC_CFG_EN [k] = 1 then
    if bits v 0 26 = bits (s.rd .TL_PC_CFG [k]) 0 26 then s.put F.TL_PC_CFG_EN [k] (bits v 63 1) else s
  else if bits v 63 1 = 1 && (4 < kind || s.get F.TL_PC_HI_HI [k] < s.get F.TL_PC_LO_LO [k] || (kind = 1 && bits v 5 1 = 0)) then
    s.put F.TL_STATUS_PC_REFUSED [] 1
  else s.wr .TL_PC_CFG [k] (applyFields false (regDesc .TL_PC_CFG).fields 0 v).1

/-- PC_ENABLE (R408). -/
def execPcEnable (req : Requester) (k : Nat) (value : Word64) (s : State) : Out :=
  .next (s.rowWrite req .TL_PC_CFG [k] (·.pcEnable k value))

/-- PC_VALUE_WRITE (R408): occurrences of the same cycle are the steps that follow. -/
def execPcValueWrite (req : Requester) (k : Nat) (value : Word64) (s : State) : Out :=
  .next (s.rowWrite req .TL_PC_VAL [k] (·.wr .TL_PC_VAL [k] value))

/-! ### Samples (R414, R415) -/

/-- A write of TL_SAMPLE_RING. -/
def State.sampleRing (s : State) (v : Word64) : State :=
  let a := bits v 0 48
  if bits v 63 1 = 1 && (a % 64 ≠ 0 || !s.ringFits a (32 * 2 ^ min 24 (bits v 48 5))) then s.put F.TL_STATUS_SAMPLE_REFUSED [] 1
  else s.wr .TL_SAMPLE_RING [] (applyFields false (regDesc .TL_SAMPLE_RING).fields 0 v).1

/-- SAMPLE_RING_WRITE (R415). -/
def execSampleRingWrite (req : Requester) (value : Word64) (s : State) : Out :=
  .next (s.rowWrite req .TL_SAMPLE_RING [] (·.sampleRing value))

/-- A write of TL_SAMPLE_CTL writes SEED: every generator is reseeded. -/
def State.sampleCtl (s : State) (v : Word64) : State :=
  (s.wr .TL_SAMPLE_CTL [] (applyFields false (regDesc .TL_SAMPLE_CTL).fields 0 v).1).seedAll

/-- SAMPLE_SEED (R414). -/
def execSampleSeed (req : Requester) (value : Word64) (s : State) : Out :=
  .next (s.rowWrite req .TL_SAMPLE_CTL [] (·.sampleCtl value))

/-! ### Clearing counters -/

/-- Fields of a register made zero. -/
def State.zero (s : State) (fs : List Fld) (idx : List Nat) : State := fs.foldl (fun s f => s.put f idx 0) s

def State.clearTileErr (s : State) : State := s.zero [F.PV_TILE_ERR_CORRECTED, F.PV_TILE_ERR_UNCORRECTED] []
def State.clearXrange (s : State) : State := s.zero [F.PV_XRANGE_COUNT] []
def State.clearNondet (s : State) : State := s.zero [F.MO_NONDET_COUNT_COUNT] []
def State.clearDkErr (s : State) : State := s.zero [F.DK_ERR_CNT_CORRECTED, F.DK_ERR_CNT_UNCORRECTED] []
def State.clearWhErr (s : State) : State := s.zero [F.WH_ERR_CNT_POISON, F.WH_ERR_CNT_LINK_DOWN] []
def State.clearPeak (s : State) (d : Nat) : State := s.put F.BS_BUF_USED_PEAK [d] (s.get F.BS_BUF_USED_USED [d])
def State.clearParErr (s : State) (p : Nat) : State := s.zero [F.HB_PAR_ERR_COUNT] [p]
def State.clearWithdraw (s : State) : State := s.zero [F.LH_WITHDRAW_CNT_COUNT] []
def State.clearBwDrop (s : State) : State := s.zero [F.BW_DROP_UNKNOWN, F.BW_DROP_DUP, F.BW_DROP_STALE] []
def State.clearPmDrops (s : State) : State := s.zero [F.PM_DROPS_THERMAL, F.PM_DROPS_CURRENT, F.PM_DROPS_CAP] []
def State.clearDeny (s : State) : State := s.zero [F.GH_DENY_CNT_HOST, F.GH_DENY_CNT_HM] []
def State.clearPrbs (s : State) (lane : Nat) : State := s.wr .QY_PRBS_CNT (pidx lane) 0

/-- The registers that each bit of MO_CNT_CLEAR clears. -/
def State.clearMo (s : State) (mask : Nat) : State :=
  ([Reg.MO_DROP_STALE, .MO_DROP_FENCED, .MO_DROP_UNGRANTED, .MO_DUP, .MO_REREQ_SENT, .MO_DROP_BAD].zipIdx).foldl
    (fun s r => if mask.testBit r.2 then s.wr r.1 [] 0 else s) s

def State.clearBh (s : State) (mask : Nat) : State :=
  ([Reg.BH_DROP, .BH_BAD_CHUNK, .BH_REPARENT].zipIdx).foldl (fun s r => if mask.testBit r.2 then s.wr r.1 [] 0 else s) s

def State.clearBs (s : State) (mask : Nat) : State :=
  ([Reg.BS_DROP_HDR, .BS_DROP_HOPS, .BS_DROP_BUF, .BS_DROP_MISS, .BS_DROP_MCDOWN, .BS_DROP_MIRROR, .BS_DROP_DOWN,
    .BS_DROP_UNKMOOR].zipIdx).foldl (fun s r => if mask.testBit r.2 then s.wr r.1 [] 0 else s) s

/-- PV_TILE_ERR_CLEAR (R33). -/
def execPvTileErrClear (req : Requester) (s : State) : Out := .next (s.rowWrite req .PV_TILE_ERR [] (·.clearTileErr))

/-- PV_XRANGE_CLEAR (R48). -/
def execPvXrangeClear (req : Requester) (s : State) : Out := .next (s.rowWrite req .PV_XRANGE [] (·.clearXrange))

/-- MO_NONDET_COUNT_CLEAR (R147). -/
def execMoNondetCountClear (req : Requester) (s : State) : Out := .next (s.rowWrite req .MO_NONDET_COUNT [] (·.clearNondet))

/-- MO_CNT_CLEAR (R140). -/
def execMoCntClear (req : Requester) (mask : Nat) (s : State) : Out := .next (s.rowWrite req .MO_CNT_CLEAR [] (·.clearMo mask))

/-- BH_CNT_CLEAR (R188). -/
def execBhCntClear (req : Requester) (mask : Nat) (s : State) : Out := .next (s.rowWrite req .BH_CNT_CLEAR [] (·.clearBh mask))

/-- DK_ERR_CNT_CLEAR (R208). -/
def execDkErrCntClear (req : Requester) (s : State) : Out := .next (s.rowWrite req .DK_ERR_CNT [] (·.clearDkErr))

/-- WH_ERR_CNT_CLEAR (R219). -/
def execWhErrCntClear (req : Requester) (s : State) : Out := .next (s.rowWrite req .WH_ERR_CNT [] (·.clearWhErr))

/-- BS_CNT_CLEAR (R232). -/
def execBsCntClear (req : Requester) (mask : Nat) (s : State) : Out := .next (s.rowWrite req .BS_CNT_CLEAR [] (·.clearBs mask))

/-- PEAK_CLR (R236): PEAK is set to USED. -/
def execPeakClr (req : Requester) (die : Nat) (s : State) : Out := .next (s.rowWrite req .BS_BUF_USED [die] (·.clearPeak die))

/-- HB_PAR_ERR_CLEAR (R254). -/
def execHbParErrClear (req : Requester) (pipe : Nat) (s : State) : Out :=
  .next (s.rowWrite req .HB_PAR_ERR [pipe] (·.clearParErr pipe))

/-- LH_WITHDRAW_CNT_CLEAR (R323). -/
def execLhWithdrawCntClear (req : Requester) (s : State) : Out := .next (s.rowWrite req .LH_WITHDRAW_CNT [] (·.clearWithdraw))

/-- BW_DROP_CLEAR (R331). -/
def execBwDropClear (req : Requester) (s : State) : Out := .next (s.rowWrite req .BW_DROP [] (·.clearBwDrop))

/-- PM_DROPS_CLEAR (R370). -/
def execPmDropsClear (req : Requester) (s : State) : Out := .next (s.rowWrite req .PM_DROPS [] (·.clearPmDrops))

/-- GH_DENY_CNT_CLEAR (R395). -/
def execGhDenyCntClear (req : Requester) (s : State) : Out := .next (s.rowWrite req .GH_DENY_CNT [] (·.clearDeny))

/-- PRBS_CLEAR (R310): a lane's error count and lock. -/
def execPrbsClear (req : Requester) (lane : Nat) (s : State) : Out :=
  .next (s.rowWrite req .QY_PRBS_CTRL (pidx lane) (·.clearPrbs lane))

end Sys2Proof.Machine
end

