-- ==== Sys2Proof/Machine/RegWrite.lean ====
section
/-! DEFINITION. REGISTER_WRITE: a write of BAR0 by offset (R4, R10 to R12, R28, R395, R396, R432), with what each register's
own text adds to the general rule; and STRICT_ORDER (R148). -/

namespace Sys2Proof.Machine

open Host (Outcome)

/-! ### Writes with a rule of their own -/

/-- A write of GEN_CTRL: one that would change STRICT_ORDER while any parcel is in progress is dropped. -/
def State.strictWrite (s : State) (req : Requester) (v : Word64) : State :=
  if bits v 0 1 ≠ s.get F.GEN_CTRL_STRICT_ORDER && s.mo.colls.any (fun c => !c.live.isEmpty) then
    s.put F.GEN_STATUS_STRICT_REFUSED [] 1
  else s.applyWrite req .GEN_CTRL [] v

/-- A write of a register with an ARM bit that is refused for KIND 0 and 3 (PV_INJECT, DK_INJECT). -/
def State.armWrite (s : State) (req : Requester) (r : Reg) (kindLo armLo : Nat) (v : Word64) : State :=
  let k := bits v kindLo 2
  s.applyWrite req r [] (if k = 0 || k = 3 then putBits v armLo 1 0 else v)

/-- A CONS field that takes a value from CONS to PROD, modulo 2 to its width; any other leaves it. -/
def State.consTake (s : State) (cons prod : Fld) (idx : List Nat) (v : Nat) : State :=
  let m := 2 ^ cons.width
  let c := s.get cons idx
  if (v % m + m - c) % m ≤ (s.get prod idx + m - c) % m then s.put cons idx v else s

/-- A write of TL_PC_LO or TL_PC_HI: dropped where it would change the range of a counter that counts (R408). -/
def State.pcRange (s : State) (req : Requester) (r : Reg) (k : Nat) (v : Word64) : State :=
  if s.get F.TL_PC_CFG_EN [k] = 1 && bits v 0 48 ≠ bits (s.rd r [k]) 0 48 then s else s.applyWrite req r [k] v

/-- A write of TL_CTRL: the snapshot of a cycle in which the counters are cleared is taken before the clear. -/
def State.tallyCtl (s : State) (v : Word64) : State :=
  let s := if bits v 1 1 = 1 then s.tallySnapshot true else s
  if bits v 0 1 = 1 then s.clearAll else s

/-- A write of TL_GATHER. -/
def State.gatherWrite (s : State) (req : Requester) (v : Word64) : State :=
  let n := min 256 (bits v 0 9)
  if bits v 9 1 = 1 then s.gather req n else s.put F.TL_GATHER_COUNT [] n

/-- A write of HM_CTRL: HOLD, then RESTART. -/
def State.hmCtl (s : State) (v : Word64) : State :=
  let s := s.hmHold (bits v 1 1 = 1)
  if bits v 0 1 = 1 then s.hmRestart else s

/-- A write of QY_PRBS_CTRL: CLEAR clears the lane's counts; EN holds the lane's port out of stage 6 (R310). -/
def State.prbsCtl (s : State) (req : Requester) (idx : List Nat) (v : Word64) : State :=
  let lane := 8 * idx.headD 0 + (idx[1]?).getD 0
  let s := s.applyWrite req .QY_PRBS_CTRL idx v
  let s := if bits v 4 1 = 1 then s.clearPrbs lane else s
  if bits v 0 1 = 1 then s.leaveService (s.portOf lane) else s

/-- A write of a register whose CLEAR bit is bit 63. -/
def State.clearBit (s : State) (req : Requester) (r : Reg) (idx : List Nat) (v : Word64) (f : State → State) : State :=
  let s := s.applyWrite req r idx v
  if bits v 63 1 = 1 then f s else s

/-- What a write that passed the checks does to a register (R12 and the register's own text). -/
def State.regEffect (s : State) (req : Requester) (r : Reg) (idx : List Nat) (v : Word64) : State :=
  let i := idx.headD 0
  match r with
  | .GEN_CTRL => s.strictWrite req v
  | .WK_RING_CTRL => s.ringCtl i (bits v 0 3)
  | .WK_CQ_CONS => s.consWrite i (bits v 0 32)
  | .WK_EVENT => s.evSet i v.toNat
  | .WK_COMMIT => s.wkCommit req v
  | .MO_SLIP_CFG => s.floorBerths (bits v 0 16)
  | .MO_REREQ => (s.applyWrite req r idx v).askDue
  | .MO_FENCE_SEL => (s.applyWrite req r idx v).showFences (bits v 0 14)
  | .MO_CNT_CLEAR => s.clearMo (bits v 0 6)
  | .MO_NONDET_COUNT => s.clearBit req r idx v (·.clearNondet)
  | .BH_CTRL => s.bgHold req v
  | .BH_CNT_CLEAR => s.clearBh (bits v 0 3)
  | .BS_CNT_CLEAR => s.clearBs (bits v 0 8)
  | .BS_BUF_USED => s.clearBit req r idx v (·.clearPeak i)
  | .PV_TILE_ERR => s.clearBit req r idx v (·.clearTileErr)
  | .PV_XRANGE => s.clearBit req r idx v (·.clearXrange)
  | .PV_INJECT => s.armWrite req r 10 12 v
  | .PV_FAULT => s.faultRelease req i v
  | .DK_ERR_CNT => s.clearBit req r idx v (·.clearDkErr)
  | .DK_INJECT => s.armWrite req r 48 50 v
  | .WH_ERR_CNT => s.clearBit req r idx v (·.clearWhErr)
  | .HB_AGE => s.applyWrite req r idx (putBits v 10 16 (min 32768 (bits v 10 16)))
  | .HB_OP => s.hOp i (bits v 0 40) (bits v 40 3)
  | .HB_LEARN_CONS => s.consTake F.HB_LEARN_CONS_CONS F.HB_LEARN_PROD_PROD idx (bits v 0 32)
  | .HB_PAR_ERR => s.clearBit req r idx v (·.clearParErr i)
  | .SC_METER_SEL => s.meterOp (bits v 0 16) (bits v 16 3)
  | .CT_RATE => s.setRate v
  | .CT_STEP => s.stepTime v
  | .CT_SNAP_CMD => if bits v 0 1 = 1 then s.captureTo F.CT_SNAP_S_SECONDS F.CT_SNAP_NS_NS else s
  | .QY_CMIS_CMD => s.cmisGo i v
  | .QY_PRBS_CTRL => s.prbsCtl req idx v
  | .QY_INJECT => s.inject req (8 * i + (idx[1]?).getD 0) v
  | .LH_CAL => s.lhCal v
  | .LH_WITHDRAW_CNT => s.clearBit req r idx v (·.clearWithdraw)
  | .BW_DROP => s.clearBit req r idx v (·.clearBwDrop)
  | .PM_CAP => s.applyWrite req r idx (putBits v 0 16 (min 3500 (bits v 0 16)))
  | .PM_CTRL => (s.applyWrite req r idx v).holdCeiling
  | .PM_PACE => (s.applyWrite req r idx v).holdCeiling
  | .PM_DROPS => s.clearBit req r idx v (·.clearPmDrops)
  | .LG_REC_PTR => s.consTake F.LG_REC_PTR_CONS F.LG_REC_PTR_PROD idx (bits v 16 16)
  | .GH_REQ => if bits v 23 1 = 1 then s.mailboxGo req (bits v 0 8) (bits v 8 15) true else s.applyWrite req r idx v
  | .GH_DENY_CNT => s.clearBit req r idx v (·.clearDeny)
  | .HM_CTRL => s.hmCtl v
  | .HM_HEARTBEAT => s.heartbeat req v
  | .HM_DOCK => s.hmDock i v
  | .TL_CTRL => s.tallyCtl v
  | .TL_DUMP_RING => s.dumpRing v
  | .TL_BW_CFG => s.windowUs req v
  | .TL_SAMPLE_CTL => s.sampleCtl v
  | .TL_SAMPLE_RING => s.sampleRing v
  | .TL_SAMPLE_PTR => s.consTake F.TL_SAMPLE_PTR_CONS F.TL_SAMPLE_PTR_PROD idx (bits v 32 32)
  | .TL_GATHER => s.gatherWrite req v
  | .TL_PC_CFG => s.pcEnable i v
  | .TL_PC_LO => s.pcRange req r i v
  | .TL_PC_HI => s.pcRange req r i v
  | r => s.shadowWrite req r idx v

/-! ### The rows -/

/-- STRICT_ORDER (R148): a write of GEN_CTRL. -/
def execStrictOrder (req : Requester) (value : Word64) (s : State) : Out :=
  .next (s.rowWrite req .GEN_CTRL [] (·.strictWrite req value))

/-- REGISTER_WRITE: a write of `size` bytes at a BAR0 offset. A word of the mailbox's request buffer is taken unless a
request runs (R400). -/
def execRegisterWrite (req : Requester) (off size : Nat) (value : Word64) (s : State) : Out :=
  .next (match s.checkWrite req off size with
    | .drop => s.countBar0 req 2 off
    | .deny => (s.deny req 0 off).countBar0 req 2 off
    | .mailbox =>
      if s.get F.GH_RSP_BUSY = 1 then s.countBar0 req 2 off
      else
        let b := (wordBytes value).zipIdx.foldl (fun m x => spPut 0 m (off - 0x02008000 + x.2) x.1) s.gate.reqBuf
        ({ s with gate := { s.gate with reqBuf := b } } : State).countBar0 req 1 off
    | .reg r idx => (s.regEffect req r idx value).countBar0 req 1 off)

end Sys2Proof.Machine
end

