-- ==== Sys2Proof/Machine/Dispatch.lean ====
section
/-! DEFINITION. The meaning of each command: one arm per constructor of Instr, each one call. -/

namespace Sys2Proof.Machine

open Host (Outcome)

/-- The effect of a command on everything but the queue. -/
def exec (i : Instr) (s : State) : Host.Outcome State Fault Refusal :=
  match i with
  | .registerWrite req off size value => Sys2Proof.Machine.execRegisterWrite req off size value s
  | .strictOrder req value => Sys2Proof.Machine.execStrictOrder req value s
  | .enable req ring => Sys2Proof.Machine.execEnable req ring s
  | .pause req ring => Sys2Proof.Machine.execPause req ring s
  | .abort req ring => Sys2Proof.Machine.execAbort req ring s
  | .disable req ring => Sys2Proof.Machine.execDisable req ring s
  | .consWrite req cq value => Sys2Proof.Machine.execConsWrite req cq value s
  | .eventValueWrite req ev value => Sys2Proof.Machine.execEventValueWrite req ev value s
  | .failClear req k mask => Sys2Proof.Machine.execFailClear req k mask s
  | .wkCommitGo req value => Sys2Proof.Machine.execWkCommitGo req value s
  | .commandAcceptance => Sys2Proof.Machine.execCommandAcceptance s
  | .backstopPoll => Sys2Proof.Machine.execBackstopPoll s
  | .waitResolve ring seq => Sys2Proof.Machine.execWaitResolve ring seq s
  | .commandStart ring seq => Sys2Proof.Machine.execCommandStart ring seq s
  | .timeout ring seq => Sys2Proof.Machine.execTimeout ring seq s
  | .completionRecord ring => Sys2Proof.Machine.execCompletionRecord ring s
  | .nop ring seq => Sys2Proof.Machine.execNop ring seq s
  | .reduce ring seq => Sys2Proof.Machine.execReduce ring seq s
  | .reduceScatter ring seq => Sys2Proof.Machine.execReduceScatter ring seq s
  | .allreduce ring seq => Sys2Proof.Machine.execAllreduce ring seq s
  | .allgather ring seq => Sys2Proof.Machine.execAllgather ring seq s
  | .bcast ring seq => Sys2Proof.Machine.execBcast ring seq s
  | .shift ring seq => Sys2Proof.Machine.execShift ring seq s
  | .permute ring seq => Sys2Proof.Machine.execPermute ring seq s
  | .barrier ring seq => Sys2Proof.Machine.execBarrier ring seq s
  | .update ring seq => Sys2Proof.Machine.execUpdate ring seq s
  | .launch ring seq => Sys2Proof.Machine.execLaunch ring seq s
  | .load ring seq => Sys2Proof.Machine.execLoad ring seq s
  | .unload ring seq => Sys2Proof.Machine.execUnload ring seq s
  | .bind ring seq => Sys2Proof.Machine.execBind ring seq s
  | .unbind ring seq => Sys2Proof.Machine.execUnbind ring seq s
  | .mooringCreate ring seq => Sys2Proof.Machine.execMooringCreate ring seq s
  | .evict ring seq => Sys2Proof.Machine.execEvict ring seq s
  | .reform ring seq => Sys2Proof.Machine.execReform ring seq s
  | .adopt ring seq => Sys2Proof.Machine.execAdopt ring seq s
  | .retire ring seq => Sys2Proof.Machine.execRetire ring seq s
  | .commit ring seq => Sys2Proof.Machine.execCommit ring seq s
  | .restore ring seq => Sys2Proof.Machine.execRestore ring seq s
  | .shardCreate ring seq => Sys2Proof.Machine.execShardCreate ring seq s
  | .shardDelete ring seq => Sys2Proof.Machine.execShardDelete ring seq s
  | .stripe ring seq => Sys2Proof.Machine.execStripe ring seq s
  | .rebuild ring seq => Sys2Proof.Machine.execRebuild ring seq s
  | .config ring seq => Sys2Proof.Machine.execConfig ring seq s
  | .eventSet ring seq => Sys2Proof.Machine.execEventSet ring seq s
  | .eventAdd ring seq => Sys2Proof.Machine.execEventAdd ring seq s
  | .eventFail ring seq => Sys2Proof.Machine.execEventFail ring seq s
  | .powerRun ring seq => Sys2Proof.Machine.execPowerRun ring seq s
  | .powerQuiet ring seq => Sys2Proof.Machine.execPowerQuiet ring seq s
  | .powerWinter ring seq => Sys2Proof.Machine.execPowerWinter ring seq s
  | .powerStandby ring seq => Sys2Proof.Machine.execPowerStandby ring seq s
  | .powerOff ring seq => Sys2Proof.Machine.execPowerOff ring seq s
  | .stagedSetSwap set inst => Sys2Proof.Machine.execStagedSetSwap set inst s
  | .pinCommit => Sys2Proof.Machine.execPinCommit s
  | .gateListSwap port => Sys2Proof.Machine.execGateListSwap port s
  | .clockStepSwap => Sys2Proof.Machine.execClockStepSwap s
  | .timeSet => Sys2Proof.Machine.execTimeSet s
  | .boundDispatch pav => Sys2Proof.Machine.execBoundDispatch pav s
  | .launchedDispatch pav => Sys2Proof.Machine.execLaunchedDispatch pav s
  | .arrivalRecord pav bad => Sys2Proof.Machine.execArrivalRecord pav bad s
  | .pavilionWake pav => Sys2Proof.Machine.execPavilionWake pav s
  | .pavilionGating pav => Sys2Proof.Machine.execPavilionGating pav s
  | .watchdog pav => Sys2Proof.Machine.execWatchdog pav s
  | .faultRelease req pav value => Sys2Proof.Machine.execFaultRelease req pav value s
  | .tileScrub pav word => Sys2Proof.Machine.execTileScrub pav word s
  | .arrayRampUp pav array => Sys2Proof.Machine.execArrayRampUp pav array s
  | .arrayRampDown pav array => Sys2Proof.Machine.execArrayRampDown pav array s
  | .productDrain pav tag => Sys2Proof.Machine.execProductDrain pav tag s
  | .transferComplete pav tag bad => Sys2Proof.Machine.execTransferComplete pav tag bad s
  | .multicastArrival pav tag receiver => Sys2Proof.Machine.execMulticastArrival pav tag receiver s
  | .conditionMet pav => Sys2Proof.Machine.execConditionMet pav s
  | .add pav g rd rs1 rs2 => Sys2Proof.Machine.execAdd pav g rd rs1 rs2 s
  | .sub pav g rd rs1 rs2 => Sys2Proof.Machine.execSub pav g rd rs1 rs2 s
  | .and pav g rd rs1 rs2 => Sys2Proof.Machine.execAnd pav g rd rs1 rs2 s
  | .or pav g rd rs1 rs2 => Sys2Proof.Machine.execOr pav g rd rs1 rs2 s
  | .xor pav g rd rs1 rs2 => Sys2Proof.Machine.execXor pav g rd rs1 rs2 s
  | .sll pav g rd rs1 rs2 => Sys2Proof.Machine.execSll pav g rd rs1 rs2 s
  | .srl pav g rd rs1 rs2 => Sys2Proof.Machine.execSrl pav g rd rs1 rs2 s
  | .sra pav g rd rs1 rs2 => Sys2Proof.Machine.execSra pav g rd rs1 rs2 s
  | .mul pav g rd rs1 rs2 => Sys2Proof.Machine.execMul pav g rd rs1 rs2 s
  | .mulhu pav g rd rs1 rs2 => Sys2Proof.Machine.execMulhu pav g rd rs1 rs2 s
  | .min pav g rd rs1 rs2 => Sys2Proof.Machine.execMin pav g rd rs1 rs2 s
  | .max pav g rd rs1 rs2 => Sys2Proof.Machine.execMax pav g rd rs1 rs2 s
  | .minu pav g rd rs1 rs2 => Sys2Proof.Machine.execMinu pav g rd rs1 rs2 s
  | .maxu pav g rd rs1 rs2 => Sys2Proof.Machine.execMaxu pav g rd rs1 rs2 s
  | .mix pav g rd rs1 => Sys2Proof.Machine.execMix pav g rd rs1 s
  | .addi pav g rd rs1 imm => Sys2Proof.Machine.execAddi pav g rd rs1 imm s
  | .andi pav g rd rs1 imm => Sys2Proof.Machine.execAndi pav g rd rs1 imm s
  | .ori pav g rd rs1 imm => Sys2Proof.Machine.execOri pav g rd rs1 imm s
  | .xori pav g rd rs1 imm => Sys2Proof.Machine.execXori pav g rd rs1 imm s
  | .shi pav g rd rs1 amount kind => Sys2Proof.Machine.execShi pav g rd rs1 amount kind s
  | .shin pav g rd imm => Sys2Proof.Machine.execShin pav g rd imm s
  | .cmpCc pav g cc pd rs1 rs2 => Sys2Proof.Machine.execCmpCc pav g cc pd rs1 rs2 s
  | .pand pav g pd p1 p2 => Sys2Proof.Machine.execPand pav g pd p1 p2 s
  | .por pav g pd p1 p2 => Sys2Proof.Machine.execPor pav g pd p1 p2 s
  | .pxor pav g pd p1 p2 => Sys2Proof.Machine.execPxor pav g pd p1 p2 s
  | .pnot pav g pd p1 => Sys2Proof.Machine.execPnot pav g pd p1 s
  | .cmpiCc pav g cc pd rs1 imm => Sys2Proof.Machine.execCmpiCc pav g cc pd rs1 imm s
  | .ldb pav g rd rs1 imm => Sys2Proof.Machine.execLdb pav g rd rs1 imm s
  | .ldh pav g rd rs1 imm => Sys2Proof.Machine.execLdh pav g rd rs1 imm s
  | .ldw pav g rd rs1 imm => Sys2Proof.Machine.execLdw pav g rd rs1 imm s
  | .ldd pav g rd rs1 imm => Sys2Proof.Machine.execLdd pav g rd rs1 imm s
  | .stb pav g rs2 rs1 imm => Sys2Proof.Machine.execStb pav g rs2 rs1 imm s
  | .sth pav g rs2 rs1 imm => Sys2Proof.Machine.execSth pav g rs2 rs1 imm s
  | .stw pav g rs2 rs1 imm => Sys2Proof.Machine.execStw pav g rs2 rs1 imm s
  | .std pav g rs2 rs1 imm => Sys2Proof.Machine.execStd pav g rs2 rs1 imm s
  | .br pav g off => Sys2Proof.Machine.execBr pav g off s
  | .jal pav g off => Sys2Proof.Machine.execJal pav g off s
  | .jr pav g rd rs1 imm => Sys2Proof.Machine.execJr pav g rd rs1 imm s
  | .crr pav g rd c => Sys2Proof.Machine.execCrr pav g rd c s
  | .crw pav g c rs1 => Sys2Proof.Machine.execCrw pav g c rs1 s
  | .vadd pav g ty vd vs1 vs2 => Sys2Proof.Machine.execVadd pav g ty vd vs1 vs2 s
  | .vsub pav g ty vd vs1 vs2 => Sys2Proof.Machine.execVsub pav g ty vd vs1 vs2 s
  | .vmul pav g ty vd vs1 vs2 => Sys2Proof.Machine.execVmul pav g ty vd vs1 vs2 s
  | .vmax pav g ty vd vs1 vs2 => Sys2Proof.Machine.execVmax pav g ty vd vs1 vs2 s
  | .vmin pav g ty vd vs1 vs2 => Sys2Proof.Machine.execVmin pav g ty vd vs1 vs2 s
  | .vand pav g ty vd vs1 vs2 => Sys2Proof.Machine.execVand pav g ty vd vs1 vs2 s
  | .vor pav g ty vd vs1 vs2 => Sys2Proof.Machine.execVor pav g ty vd vs1 vs2 s
  | .vxor pav g ty vd vs1 vs2 => Sys2Proof.Machine.execVxor pav g ty vd vs1 vs2 s
  | .vsll pav g ty vd vs1 vs2 => Sys2Proof.Machine.execVsll pav g ty vd vs1 vs2 s
  | .vsrl pav g ty vd vs1 vs2 => Sys2Proof.Machine.execVsrl pav g ty vd vs1 vs2 s
  | .vsra pav g ty vd vs1 vs2 => Sys2Proof.Machine.execVsra pav g ty vd vs1 vs2 s
  | .vsqrt pav g ty vd vs1 => Sys2Proof.Machine.execVsqrt pav g ty vd vs1 s
  | .vdiv pav g ty vd vs1 vs2 => Sys2Proof.Machine.execVdiv pav g ty vd vs1 vs2 s
  | .vfma pav g ty vd vs1 vs2 => Sys2Proof.Machine.execVfma pav g ty vd vs1 vs2 s
  | .vfnma pav g ty vd vs1 vs2 => Sys2Proof.Machine.execVfnma pav g ty vd vs1 vs2 s
  | .vfms pav g ty vd vs1 vs2 => Sys2Proof.Machine.execVfms pav g ty vd vs1 vs2 s
  | .vaddS pav g ty vd vs1 rs2 => Sys2Proof.Machine.execVaddS pav g ty vd vs1 rs2 s
  | .vsubS pav g ty vd vs1 rs2 => Sys2Proof.Machine.execVsubS pav g ty vd vs1 rs2 s
  | .vmulS pav g ty vd vs1 rs2 => Sys2Proof.Machine.execVmulS pav g ty vd vs1 rs2 s
  | .vmaxS pav g ty vd vs1 rs2 => Sys2Proof.Machine.execVmaxS pav g ty vd vs1 rs2 s
  | .vminS pav g ty vd vs1 rs2 => Sys2Proof.Machine.execVminS pav g ty vd vs1 rs2 s
  | .vandS pav g ty vd vs1 rs2 => Sys2Proof.Machine.execVandS pav g ty vd vs1 rs2 s
  | .vorS pav g ty vd vs1 rs2 => Sys2Proof.Machine.execVorS pav g ty vd vs1 rs2 s
  | .vxorS pav g ty vd vs1 rs2 => Sys2Proof.Machine.execVxorS pav g ty vd vs1 rs2 s
  | .vsllS pav g ty vd vs1 rs2 => Sys2Proof.Machine.execVsllS pav g ty vd vs1 rs2 s
  | .vsrlS pav g ty vd vs1 rs2 => Sys2Proof.Machine.execVsrlS pav g ty vd vs1 rs2 s
  | .vsraS pav g ty vd vs1 rs2 => Sys2Proof.Machine.execVsraS pav g ty vd vs1 rs2 s
  | .vcvt pav g dst src vd vs1 => Sys2Proof.Machine.execVcvt pav g dst src vd vs1 s
  | .vld pav g vd rs1 imm => Sys2Proof.Machine.execVld pav g vd rs1 imm s
  | .vst pav g vs rs1 imm => Sys2Proof.Machine.execVst pav g vs rs1 imm s
  | .vbc pav g vd rs1 => Sys2Proof.Machine.execVbc pav g vd rs1 s
  | .vred pav g fn rd vs1 => Sys2Proof.Machine.execVred pav g fn rd vs1 s
  | .vget pav g rd vs1 lane => Sys2Proof.Machine.execVget pav g rd vs1 lane s
  | .vset pav g vd rs1 lane => Sys2Proof.Machine.execVset pav g vd rs1 lane s
  | .vdg pav g vs1 => Sys2Proof.Machine.execVdg pav g vs1 s
  | .trd pav g r tile vd => Sys2Proof.Machine.execTrd pav g r tile vd s
  | .twr pav g r tile vd => Sys2Proof.Machine.execTwr pav g r tile vd s
  | .tclr pav g tile => Sys2Proof.Machine.execTclr pav g tile s
  | .xacc pav g fmt vs a => Sys2Proof.Machine.execXacc pav g fmt vs a s
  | .xrnd pav g fmt a vd => Sys2Proof.Machine.execXrnd pav g fmt a vd s
  | .xclr pav g a => Sys2Proof.Machine.execXclr pav g a s
  | .xacct pav g fmt vs rs1 => Sys2Proof.Machine.execXacct pav g fmt vs rs1 s
  | .xrndt pav g fmt rs1 vd => Sys2Proof.Machine.execXrndt pav g fmt rs1 vd s
  | .xlda pav g rs1 a => Sys2Proof.Machine.execXlda pav g rs1 a s
  | .xsta pav g rs1 a => Sys2Proof.Machine.execXsta pav g rs1 a s
  | .xclrt pav g rs1 => Sys2Proof.Machine.execXclrt pav g rs1 s
  | .mma pav g td acc split array quad fmt ra rb rk rt => Sys2Proof.Machine.execMma pav g td acc split array quad fmt ra rb rk rt s
  | .tpf pav g array rt => Sys2Proof.Machine.execTpf pav g array rt s
  | .tst pav g td ra rt => Sys2Proof.Machine.execTst pav g td ra rt s
  | .tld pav g td ra rt => Sys2Proof.Machine.execTld pav g td ra rt s
  | .xld pav g rt rl rm ra => Sys2Proof.Machine.execXld pav g rt rl rm ra s
  | .xst pav g rt rl rm ra => Sys2Proof.Machine.execXst pav g rt rl rm ra s
  | .pmc pav g dir rt rl rm rd => Sys2Proof.Machine.execPmc pav g dir rt rl rm rd s
  | .waite pav g rs1 rs2 => Sys2Proof.Machine.execWaite pav g rs1 rs2 s
  | .sige pav g rs1 rs2 => Sys2Proof.Machine.execSige pav g rs1 rs2 s
  | .fence pav g mask => Sys2Proof.Machine.execFence pav g mask s
  | .waitx pav g rs1 => Sys2Proof.Machine.execWaitx pav g rs1 s
  | .waitm pav g rs1 => Sys2Proof.Machine.execWaitm pav g rs1 s
  | .arrv pav g rd re => Sys2Proof.Machine.execArrv pav g rd re s
  | .endK pav g code => Sys2Proof.Machine.execEndK pav g code s
  | .contrib port pkt => Sys2Proof.Machine.execContrib port pkt s
  | .parcelAdmission => Sys2Proof.Machine.execParcelAdmission s
  | .rereq moor pseq entry member => Sys2Proof.Machine.execRereq moor pseq entry member s
  | .rereqInterval req value => Sys2Proof.Machine.execRereqInterval req value s
  | .floorBerths req value => Sys2Proof.Machine.execFloorBerths req value s
  | .gatePassage moor bad => Sys2Proof.Machine.execGatePassage moor bad s
  | .memberDead moor member => Sys2Proof.Machine.execMemberDead moor member s
  | .backgroundCopy shard => Sys2Proof.Machine.execBackgroundCopy shard s
  | .bgHold req value => Sys2Proof.Machine.execBgHold req value s
  | .announce port pkt => Sys2Proof.Machine.execAnnounce port pkt s
  | .boathouseAck port pkt => Sys2Proof.Machine.execBoathouseAck port pkt s
  | .frag port pkt => Sys2Proof.Machine.execFrag port pkt s
  | .fack port pkt => Sys2Proof.Machine.execFack port pkt s
  | .fget port pkt => Sys2Proof.Machine.execFget port pkt s
  | .chunk port pkt => Sys2Proof.Machine.execChunk port pkt s
  | .gap port pkt => Sys2Proof.Machine.execGap port pkt s
  | .done port pkt => Sys2Proof.Machine.execDone port pkt s
  | .stripePeerDead endpoint => Sys2Proof.Machine.execStripePeerDead endpoint s
  | .reparent ring seq => Sys2Proof.Machine.execReparent ring seq s
  | .dockScrub device => Sys2Proof.Machine.execDockScrub device s
  | .correctedWriteBack line => Sys2Proof.Machine.execCorrectedWriteBack line s
  | .selfRefreshEntry => Sys2Proof.Machine.execSelfRefreshEntry s
  | .hostWindowRead addr => Sys2Proof.Machine.execHostWindowRead addr s
  | .hostWindowWrite addr bytes => Sys2Proof.Machine.execHostWindowWrite addr bytes s
  | .hostSnoop line poison bytes => Sys2Proof.Machine.execHostSnoop line poison bytes s
  | .warehouseLinkLoss port => Sys2Proof.Machine.execWarehouseLinkLoss port s
  | .packetArrival port pkt => Sys2Proof.Machine.execPacketArrival port pkt s
  | .matching => Sys2Proof.Machine.execMatching s
  | .egressReassembly port bad => Sys2Proof.Machine.execEgressReassembly port bad s
  | .egressSelect port => Sys2Proof.Machine.execEgressSelect port s
  | .agerVisit pipe => Sys2Proof.Machine.execAgerVisit pipe s
  | .ageingTick pipe => Sys2Proof.Machine.execAgeingTick pipe s
  | .insert req pipe key => Sys2Proof.Machine.execInsert req pipe key s
  | .delete req pipe key => Sys2Proof.Machine.execDelete req pipe key s
  | .lookup req pipe key => Sys2Proof.Machine.execLookup req pipe key s
  | .memberUnusable port => Sys2Proof.Machine.execMemberUnusable port s
  | .downHoldExpiry port => Sys2Proof.Machine.execDownHoldExpiry port s
  | .meterWrite req index => Sys2Proof.Machine.execMeterWrite req index s
  | .meterRead req index => Sys2Proof.Machine.execMeterRead req index s
  | .clearCounts req index => Sys2Proof.Machine.execClearCounts req index s
  | .gateEntry port => Sys2Proof.Machine.execGateEntry port s
  | .rate req value => Sys2Proof.Machine.execRate req value s
  | .step req value => Sys2Proof.Machine.execStep req value s
  | .capture req => Sys2Proof.Machine.execCapture req s
  | .ppsInEdge => Sys2Proof.Machine.execPpsInEdge s
  | .ppsOutRise => Sys2Proof.Machine.execPpsOutRise s
  | .ppsOutFall => Sys2Proof.Machine.execPpsOutFall s
  | .freerun => Sys2Proof.Machine.execFreerun s
  | .frame port start words => Sys2Proof.Machine.execFrame port start words s
  | .ack port lseq => Sys2Proof.Machine.execAck port lseq s
  | .nak port lseq => Sys2Proof.Machine.execNak port lseq s
  | .credit port cls total => Sys2Proof.Machine.execCredit port cls total s
  | .beacon port content => Sys2Proof.Machine.execBeacon port content s
  | .ident port index content => Sys2Proof.Machine.execIdent port index content s
  | .align lane n => Sys2Proof.Machine.execAlign lane n s
  | .nakRepeat port => Sys2Proof.Machine.execNakRepeat port s
  | .replayTimeout port => Sys2Proof.Machine.execReplayTimeout port s
  | .beaconSend port => Sys2Proof.Machine.execBeaconSend port s
  | .signalDetect port => Sys2Proof.Machine.execSignalDetect port s
  | .training port lanes inverted => Sys2Proof.Machine.execTraining port lanes inverted s
  | .alignmentLock rx => Sys2Proof.Machine.execAlignmentLock rx s
  | .lossOfLock rx => Sys2Proof.Machine.execLossOfLock rx s
  | .lossOfSignal port => Sys2Proof.Machine.execLossOfSignal port s
  | .stageLimit port => Sys2Proof.Machine.execStageLimit port s
  | .generationStepDown port => Sys2Proof.Machine.execGenerationStepDown port s
  | .ethernetFrame port words bytes => Sys2Proof.Machine.execEthernetFrame port words bytes s
  | .ethernetBeacon port => Sys2Proof.Machine.execEthernetBeacon port s
  | .cmisRead req quay value => Sys2Proof.Machine.execCmisRead req quay value s
  | .cmisWrite req quay value => Sys2Proof.Machine.execCmisWrite req quay value s
  | .cmisComplete quay ack bytes => Sys2Proof.Machine.execCmisComplete quay ack bytes s
  | .lock quay => Sys2Proof.Machine.execLock quay s
  | .echo quay heard => Sys2Proof.Machine.execEcho quay heard s
  | .confirmTimeout quay colour => Sys2Proof.Machine.execConfirmTimeout quay colour s
  | .miss quay colour => Sys2Proof.Machine.execMiss quay colour s
  | .lockLost quay => Sys2Proof.Machine.execLockLost quay s
  | .lhCalGo req value => Sys2Proof.Machine.execLhCalGo req value s
  | .calibration => Sys2Proof.Machine.execCalibration s
  | .calMeasurement offsets => Sys2Proof.Machine.execCalMeasurement offsets s
  | .data port f => Sys2Proof.Machine.execData port f s
  | .parity port f => Sys2Proof.Machine.execParity port f s
  | .breakwaterAck port f => Sys2Proof.Machine.execBreakwaterAck port f s
  | .breakwaterNak port f => Sys2Proof.Machine.execBreakwaterNak port f s
  | .keepalive port f => Sys2Proof.Machine.execKeepalive port f s
  | .partialSum port f => Sys2Proof.Machine.execPartialSum port f s
  | .keyxOffer port msg => Sys2Proof.Machine.execKeyxOffer port msg s
  | .keyxAccept port msg => Sys2Proof.Machine.execKeyxAccept port msg s
  | .keyxConfirm port msg => Sys2Proof.Machine.execKeyxConfirm port msg s
  | .keyxResend port => Sys2Proof.Machine.execKeyxResend port s
  | .resync port f => Sys2Proof.Machine.execResync port f s
  | .ackTimer slot => Sys2Proof.Machine.execAckTimer slot s
  | .reorderExpiry slot => Sys2Proof.Machine.execReorderExpiry slot s
  | .rtoExpiry slot => Sys2Proof.Machine.execRtoExpiry slot s
  | .blockClose slot => Sys2Proof.Machine.execBlockClose slot s
  | .keepaliveSend slot => Sys2Proof.Machine.execKeepaliveSend slot s
  | .stallExpiry slot => Sys2Proof.Machine.execStallExpiry slot s
  | .outageExpiry slot => Sys2Proof.Machine.execOutageExpiry slot s
  | .holdExpiry slot => Sys2Proof.Machine.execHoldExpiry slot s
  | .spanPeerDead span site => Sys2Proof.Machine.execSpanPeerDead span site s
  | .powerEstimate counts => Sys2Proof.Machine.execPowerEstimate counts s
  | .lodgeSample temps vin iin => Sys2Proof.Machine.execLodgeSample temps vin iin s
  | .emergencyStandby => Sys2Proof.Machine.execEmergencyStandby s
  | .dropRelease => Sys2Proof.Machine.execDropRelease s
  | .voltageReached => Sys2Proof.Machine.execVoltageReached s
  | .referenceLoss => Sys2Proof.Machine.execReferenceLoss s
  | .referenceReturn => Sys2Proof.Machine.execReferenceReturn s
  | .dockTemperatureRead temps => Sys2Proof.Machine.execDockTemperatureRead temps s
  | .hdmDecoderCommit n base size => Sys2Proof.Machine.execHdmDecoderCommit n base size s
  | .ideKeySwitch stream dir => Sys2Proof.Machine.execIdeKeySwitch stream dir s
  | .ideIntegrityFail stream => Sys2Proof.Machine.execIdeIntegrityFail stream s
  | .getInfo chan msg => Sys2Proof.Machine.execGetInfo chan msg s
  | .getCerts chan msg => Sys2Proof.Machine.execGetCerts chan msg s
  | .getMeas chan msg => Sys2Proof.Machine.execGetMeas chan msg s
  | .getLog chan msg => Sys2Proof.Machine.execGetLog chan msg s
  | .keyExch chan msg => Sys2Proof.Machine.execKeyExch chan msg s
  | .keyGo chan msg => Sys2Proof.Machine.execKeyGo chan msg s
  | .doeAbort => Sys2Proof.Machine.execDoeAbort s
  | .seal req len => Sys2Proof.Machine.execSeal req len s
  | .extend req len => Sys2Proof.Machine.execExtend req len s
  | .setPeer req len => Sys2Proof.Machine.execSetPeer req len s
  | .stageFw req len flashOk => Sys2Proof.Machine.execStageFw req len flashOk s
  | .commitSvn req len => Sys2Proof.Machine.execCommitSvn req len s
  | .readFuses req len => Sys2Proof.Machine.execReadFuses req len s
  | .mctpControl msg mtu => Sys2Proof.Machine.execMctpControl msg mtu s
  | .pldmRequest msg => Sys2Proof.Machine.execPldmRequest msg s
  | .gatehouseFault => Sys2Proof.Machine.execGatehouseFault s
  | .hmHeartbeat req value => Sys2Proof.Machine.execHmHeartbeat req value s
  | .heartbeatExpiry => Sys2Proof.Machine.execHeartbeatExpiry s
  | .restart req => Sys2Proof.Machine.execRestart req s
  | .hmMemoryFault => Sys2Proof.Machine.execHmMemoryFault s
  | .hmRestartComplete => Sys2Proof.Machine.execHmRestartComplete s
  | .hold req on => Sys2Proof.Machine.execHold req on s
  | .hmDock req k value => Sys2Proof.Machine.execHmDock req k value s
  | .windowEnd => Sys2Proof.Machine.execWindowEnd s
  | .windowUs req value => Sys2Proof.Machine.execWindowUs req value s
  | .dumpSnapshot => Sys2Proof.Machine.execDumpSnapshot s
  | .dumpNow req => Sys2Proof.Machine.execDumpNow req s
  | .dumpRecordWritten => Sys2Proof.Machine.execDumpRecordWritten s
  | .clearAll req => Sys2Proof.Machine.execClearAll req s
  | .gatherGo req count => Sys2Proof.Machine.execGatherGo req count s
  | .pcEnable req k value => Sys2Proof.Machine.execPcEnable req k value s
  | .pcValueWrite req k value => Sys2Proof.Machine.execPcValueWrite req k value s
  | .dumpRingWrite req value => Sys2Proof.Machine.execDumpRingWrite req value s
  | .sampleRingWrite req value => Sys2Proof.Machine.execSampleRingWrite req value s
  | .sampleSeed req value => Sys2Proof.Machine.execSampleSeed req value s
  | .pvTileErrClear req => Sys2Proof.Machine.execPvTileErrClear req s
  | .pvXrangeClear req => Sys2Proof.Machine.execPvXrangeClear req s
  | .moNondetCountClear req => Sys2Proof.Machine.execMoNondetCountClear req s
  | .moCntClear req mask => Sys2Proof.Machine.execMoCntClear req mask s
  | .bhCntClear req mask => Sys2Proof.Machine.execBhCntClear req mask s
  | .dkErrCntClear req => Sys2Proof.Machine.execDkErrCntClear req s
  | .whErrCntClear req => Sys2Proof.Machine.execWhErrCntClear req s
  | .bsCntClear req mask => Sys2Proof.Machine.execBsCntClear req mask s
  | .peakClr req die => Sys2Proof.Machine.execPeakClr req die s
  | .hbParErrClear req pipe => Sys2Proof.Machine.execHbParErrClear req pipe s
  | .lhWithdrawCntClear req => Sys2Proof.Machine.execLhWithdrawCntClear req s
  | .bwDropClear req => Sys2Proof.Machine.execBwDropClear req s
  | .pmDropsClear req => Sys2Proof.Machine.execPmDropsClear req s
  | .ghDenyCntClear req => Sys2Proof.Machine.execGhDenyCntClear req s
  | .prbsClear req lane => Sys2Proof.Machine.execPrbsClear req lane s
  | .vinRise => Sys2Proof.Machine.execVinRise s
  | .undervoltageLockout => Sys2Proof.Machine.execUndervoltageLockout s
  | .overvoltageLatch => Sys2Proof.Machine.execOvervoltageLatch s
  | .modEnRise => Sys2Proof.Machine.execModEnRise s
  | .modEnFall => Sys2Proof.Machine.execModEnFall s
  | .sysResetL => Sys2Proof.Machine.execSysResetL s
  | .perstL => Sys2Proof.Machine.execPerstL s
  | .upstreamLinkDown => Sys2Proof.Machine.execUpstreamLinkDown s
  | .clearFaults => Sys2Proof.Machine.execClearFaults s
  | .capability => Sys2Proof.Machine.execCapability s
  | .statusByte => Sys2Proof.Machine.execStatusByte s
  | .statusWord => Sys2Proof.Machine.execStatusWord s
  | .statusInput => Sys2Proof.Machine.execStatusInput s
  | .statusTemperature => Sys2Proof.Machine.execStatusTemperature s
  | .statusCml => Sys2Proof.Machine.execStatusCml s
  | .readVin => Sys2Proof.Machine.execReadVin s
  | .readIin => Sys2Proof.Machine.execReadIin s
  | .readPin => Sys2Proof.Machine.execReadPin s
  | .readTemperature1 => Sys2Proof.Machine.execReadTemperature1 s
  | .readTemperature2 => Sys2Proof.Machine.execReadTemperature2 s
  | .pmbusRevision => Sys2Proof.Machine.execPmbusRevision s
  | .mfrId => Sys2Proof.Machine.execMfrId s
  | .mfrModel => Sys2Proof.Machine.execMfrModel s
  | .mfrRevision => Sys2Proof.Machine.execMfrRevision s
  | .mfrSerial => Sys2Proof.Machine.execMfrSerial s
  | .unsupportedCommand => Sys2Proof.Machine.execUnsupportedCommand s
  | .illegalOpcode pav word => Sys2Proof.Machine.execIllegalOpcode pav word s
  | .contextChange ring seq => Sys2Proof.Machine.execContextChange ring seq s
  | .initLoadComplete shard => Sys2Proof.Machine.execInitLoadComplete shard s
  | .powerStateEntered => Sys2Proof.Machine.execPowerStateEntered s
  | .selfRefreshExit => Sys2Proof.Machine.execSelfRefreshExit s
  | .warehouseLinkUp port width gts lopt fit cap => Sys2Proof.Machine.execWarehouseLinkUp port width gts lopt fit cap s
  | .upstreamLinkUp => Sys2Proof.Machine.execUpstreamLinkUp s
  | .perstLRelease => Sys2Proof.Machine.execPerstLRelease s
  | .configurationRequest => Sys2Proof.Machine.execConfigurationRequest s
  | .prbsCheckerLock rx => Sys2Proof.Machine.execPrbsCheckerLock rx s
  | .presentL quay level => Sys2Proof.Machine.execPresentL quay level s
  | .intL quay level => Sys2Proof.Machine.execIntL quay level s
  | .entdaa addr => Sys2Proof.Machine.execEntdaa addr s

end Sys2Proof.Machine
end

