-- ==== Sys2Proof/Machine/Line.lean ====
section
/-! DEFINITION. What the lines of native ports carry (R290 to R298): blocks made of control blocks and of the frame stream, dealt to the lanes
as numbered codewords, at the pace of the port's generation. -/

namespace Sys2Proof.Machine

/-- The next `n` bytes of the frame stream, zero where it has run out, and where the first frame among them begins. -/
def LineTx.take (x : LineTx) (n : Nat) : List Byte × Option Nat × LineTx :=
  let l := x.stream.take n
  (l.map (·.2) ++ List.replicate (n - l.length) 0, l.findIdx? (·.1), { x with stream := x.stream.drop n })

/-- A control block with the next bytes of the frame stream (R295). -/
def LineTx.control (x : LineTx) (type content : Nat) : Block × LineTx :=
  let (bs, at_, x) := x.take 24
  (controlBlock type content (match at_ with | some i => 8 + i | none => 0) bs, { x with opens := false })

/-- Block `j` of codeword `n` (R293): ALIGN in its slot; in stage 5, which sends `record`, an IDENT first in each codeword (R308); else a
control block that waits; IDLE where the stuffing rule or a replay wants a control block; else the frame stream. -/
def LineTx.nextBlock (x : LineTx) (record : Option (List Byte)) (n j : Nat) : Block × LineTx :=
  if j = 0 && n % 4096 = 0 then x.control Ctl.align n
  else
    match record, x.ctl with
    | some r, _ =>
      if j = 0 then { x with ident := (x.ident + 1) % 8 }.control Ctl.ident (x.ident + natAt r (5 * x.ident) 5 * 2 ^ 8)
      else (let (bs, _, x) := x.take 32; (dataBlock bs, x))
    | none, (t, c) :: rest => { x with ctl := rest }.control t c
    | none, [] =>
      if (j = 0 && n % 8 = 0) || x.opens then x.control Ctl.idle 0
      else (let (bs, _, x) := x.take 32; (dataBlock bs, x))

/-- The bits that an injection spoils (R311): one, or one in each of sixteen symbols. -/
def flipMask (kind : Nat) : Nat := if kind = 0 then 1 else (List.range 16).foldl (fun n i => n + 2 ^ (10 * i)) 0

/-- The next message of a port, dealt to its lane as a codeword, with the injections that the lane's port has waiting in service. -/
def State.sendMessage (s : State) (p : Nat) : State :=
  let x := (s.link p).tx
  let flips := (s.port p).flip.filter fun f => s.stage p = 6 && f.1 = p + (s.link p).tx.count % s.portWidth p
  let w := s.portWidth p
  let lane := p + x.count % w
  let n := x.count / w % 2 ^ 40
  let record := if s.stage p = 5 then some (s.identRecord p) else none
  let (bs, x) := (List.range 20).foldl (fun (l, x) j => let (b, x) := x.nextBlock record n j; (l ++ [b], x)) (([] : List Block), x)
  let (m, st) := messageOf (spGet 0 x.scr lane) bs
  let c := flips.foldl (fun c f => c ^^^ flipMask f.2) (rsEncode m)
  let x := { x with count := x.count + 1, scr := spPut 0 x.scr lane st }
  ((s.mapPort p fun y => { y with flip := y.flip.filter fun f => !flips.contains f }).mapLink p fun l => { l with tx := x }).send
    (.codeword lane n (levelsOf (s.inner p) (s.get F.QY_LANE_CTRL_TX_INV (pidx lane) = 1) c))

/-- The messages that a port's lanes have had time for since the numbering began. -/
def State.messagesDue (s : State) (p : Nat) : Nat := s.portWidth p * (20 * (s.now - (s.link p).tx.since) / s.codewordTime p)

/-- A native port from stage 4 on sends the messages that are due; a dark channel sends none. -/
def State.runLine (s : State) (p : Nat) : State :=
  let dark := s.lhPort p && (s.channel (p / 8)).lit.isNone
  if s.isEth p || s.stage p < 4 || dark then s
  else (List.range (s.messagesDue p - (s.link p).tx.count)).foldl (fun s _ => s.sendMessage p) s

/-- The lines of every port. -/
def State.runLines (s : State) : State := s.quays.ports.foldl (fun s x => s.runLine x.1) s

end Sys2Proof.Machine
end

