-- ==== Sys2Proof/Machine/Tick.lean ====
section
/-! DEFINITION. The passing of time: what a step on an empty queue does. -/

namespace Sys2Proof.Machine

/-- The counters of one mgc cycle (2 ns): the cycle count, network time, the Pavilions' clock. -/
def State.advanceTime (s : State) : State :=
  { s with
    now := s.now + 1
    clock := s.clock.tick (s.get F.CT_RATE_INC)
    pv := { s.pv with clock := s.pv.clock + 13440 / pvcDivider (s.get F.PM_STATE_ROW) } }

/-- Packets and partials held in RX areas that can be taken now (R334, R344). -/
def State.drainAll (s : State) : State := (s.bw.slots.map (·.1)).foldl (fun s i => s.drainRx i) s

/-- One mgc cycle: time goes on, and with it what waits for nothing but time: a step of boot (R392), the response in progress
(R403), the ramp of a commit at TIME (R369), held packets, the codewords on the lines. In OFF no clock runs. -/
def State.tick (s : State) : State :=
  if !s.powered then s
  else (((((s.advanceTime.tally 0).put F.TL_GATHER_BUSY [] 0).bootStep).finishService).commitRamp).drainAll.runLines

end Sys2Proof.Machine
end

