-- ==== Sys2Proof/Machine/BelocWord.lean ====
section
/-! DEFINITION. Which instruction of Beloc a word is, by the forms of R66 and the tables of R69 to R84: the meaning that the
word has on a Pavilion. The rows of the opcode table carry an instruction's fields, not its word; this map says which row, with
which fields, a word is. -/

namespace Sys2Proof.Machine

/-! ### Fields of the forms (R66) -/

def wordRd (w : Word64) : BitVec 5 := w.extractLsb' 11 5
def wordRs1 (w : Word64) : BitVec 5 := w.extractLsb' 16 5
def wordRs2 (w : Word64) : BitVec 5 := w.extractLsb' 21 5
def wordImm11 (w : Word64) : BitVec 11 := w.extractLsb' 21 11
def wordFn6 (w : Word64) : Nat := bits w 26 6
def wordFn4 (w : Word64) : Nat := bits w 28 4
def wordTy (w : Word64) : BitVec 2 := w.extractLsb' 26 2
def wordFmt (w : Word64) : BitVec 4 := w.extractLsb' 26 4

/-- The meaning of an instruction on a Pavilion. -/
abbrev Meaning := Nat → State → Out

/-- Opcode 0x01: arithmetic of form A (R69). -/
def wordArith (w : Word64) : Option Meaning :=
  let g := guardOf w
  let d := wordRd w
  let a := wordRs1 w
  let b := wordRs2 w
  match wordFn6 w with
  | 0x00 => some fun n => execAdd n g d a b
  | 0x01 => some fun n => execSub n g d a b
  | 0x02 => some fun n => execAnd n g d a b
  | 0x03 => some fun n => execOr n g d a b
  | 0x04 => some fun n => execXor n g d a b
  | 0x05 => some fun n => execSll n g d a b
  | 0x06 => some fun n => execSrl n g d a b
  | 0x07 => some fun n => execSra n g d a b
  | 0x08 => some fun n => execMul n g d a b
  | 0x09 => some fun n => execMulhu n g d a b
  | 0x0A => some fun n => execMin n g d a b
  | 0x0B => some fun n => execMax n g d a b
  | 0x0C => some fun n => execMinu n g d a b
  | 0x0D => some fun n => execMaxu n g d a b
  | 0x0F => some fun n => execMix n g d a
  | _ => none

/-- Opcode 0x08: compares and predicate logic (R69). -/
def wordCompare (w : Word64) : Option Meaning :=
  let g := guardOf w
  let d : BitVec 3 := w.extractLsb' 11 3
  let p : BitVec 3 := w.extractLsb' 16 3
  let q : BitVec 3 := w.extractLsb' 21 3
  let cmp (c : Cond) : Option Meaning := some fun n => execCmpCc n g c d (wordRs1 w) (wordRs2 w)
  match wordFn6 w with
  | 0x00 => cmp .eq
  | 0x01 => cmp .ne
  | 0x02 => cmp .lt
  | 0x03 => cmp .ltu
  | 0x04 => cmp .ge
  | 0x05 => cmp .geu
  | 0x10 => some fun n => execPand n g d p q
  | 0x11 => some fun n => execPor n g d p q
  | 0x12 => some fun n => execPxor n g d p q
  | 0x13 => some fun n => execPnot n g d p
  | _ => none

/-- Opcodes 0x02 to 0x16 but 0x08: immediates, loads, stores, branches, control registers (R69). -/
def wordScalar (w : Word64) : Option Meaning :=
  let g := guardOf w
  let d := wordRd w
  let a := wordRs1 w
  let i := wordImm11 w
  match bits w 0 7 with
  | 0x02 => some fun n => execAddi n g d a i
  | 0x03 => some fun n => execAndi n g d a i
  | 0x04 => some fun n => execOri n g d a i
  | 0x05 => some fun n => execXori n g d a i
  | 0x06 => some fun n => execShi n g d a (w.extractLsb' 21 6) (w.extractLsb' 27 2)
  | 0x07 => some fun n => execShin n g d (w.extractLsb' 16 16)
  | 0x09 => some fun n => execCmpiCc n g (w.extractLsb' 14 2) (w.extractLsb' 11 3) a i
  | 0x0A => some fun n => execLdb n g d a i
  | 0x0B => some fun n => execLdh n g d a i
  | 0x0C => some fun n => execLdw n g d a i
  | 0x0D => some fun n => execLdd n g d a i
  | 0x0E => some fun n => execStb n g d a i
  | 0x0F => some fun n => execSth n g d a i
  | 0x10 => some fun n => execStw n g d a i
  | 0x11 => some fun n => execStd n g d a i
  | 0x12 => some fun n => execBr n g (w.extractLsb' 11 21)
  | 0x13 => some fun n => execJal n g (w.extractLsb' 11 21)
  | 0x14 => some fun n => execJr n g d a i
  | 0x15 => some fun n => execCrr n g d (wordRs2 w)
  | 0x16 => some fun n => execCrw n g (wordRs2 w) a
  | _ => none

/-- Opcodes 0x20 and 0x21: vector arithmetic with two vector operands (R70). -/
def wordVector (w : Word64) : Option Meaning :=
  let g := guardOf w
  let t := wordTy w
  let d := wordRd w
  let a := wordRs1 w
  let b := wordRs2 w
  match bits w 0 7, wordFn4 w with
  | 0x20, 0x0 => some fun n => execVadd n g t d a b
  | 0x20, 0x1 => some fun n => execVsub n g t d a b
  | 0x20, 0x2 => some fun n => execVmul n g t d a b
  | 0x20, 0x3 => some fun n => execVmax n g t d a b
  | 0x20, 0x4 => some fun n => execVmin n g t d a b
  | 0x20, 0x5 => some fun n => execVand n g t d a b
  | 0x20, 0x6 => some fun n => execVor n g t d a b
  | 0x20, 0x7 => some fun n => execVxor n g t d a b
  | 0x20, 0x8 => some fun n => execVsll n g t d a b
  | 0x20, 0x9 => some fun n => execVsrl n g t d a b
  | 0x20, 0xA => some fun n => execVsra n g t d a b
  | 0x20, 0xB => some fun n => execVsqrt n g t d a
  | 0x20, 0xC => some fun n => execVdiv n g t d a b
  | 0x21, 0x0 => some fun n => execVfma n g t d a b
  | 0x21, 0x1 => some fun n => execVfnma n g t d a b
  | 0x21, 0x2 => some fun n => execVfms n g t d a b
  | _, _ => none

/-- Opcode 0x22: vector arithmetic with a scalar second operand (R70). -/
def wordVecScalar (w : Word64) : Option Meaning :=
  let g := guardOf w
  let t := wordTy w
  let d := wordRd w
  let a := wordRs1 w
  let b := wordRs2 w
  match wordFn4 w with
  | 0x0 => some fun n => execVaddS n g t d a b
  | 0x1 => some fun n => execVsubS n g t d a b
  | 0x2 => some fun n => execVmulS n g t d a b
  | 0x3 => some fun n => execVmaxS n g t d a b
  | 0x4 => some fun n => execVminS n g t d a b
  | 0x5 => some fun n => execVandS n g t d a b
  | 0x6 => some fun n => execVorS n g t d a b
  | 0x7 => some fun n => execVxorS n g t d a b
  | 0x8 => some fun n => execVsllS n g t d a b
  | 0x9 => some fun n => execVsrlS n g t d a b
  | 0xA => some fun n => execVsraS n g t d a b
  | _ => none

/-- Opcodes 0x23 to 0x2A: conversions, vector loads and stores, lanes, digests, tiles (R70 to R73). -/
def wordLanes (w : Word64) : Option Meaning :=
  let g := guardOf w
  let d := wordRd w
  let a := wordRs1 w
  let r : BitVec 4 := w.extractLsb' 24 4
  let t : BitVec 3 := w.extractLsb' 21 3
  match bits w 0 7 with
  | 0x23 => some fun n => execVcvt n g (w.extractLsb' 28 4) r d a
  | 0x24 => some fun n => execVld n g d a (wordImm11 w)
  | 0x25 => some fun n => execVst n g d a (wordImm11 w)
  | 0x26 => some fun n => execVbc n g d a
  | 0x27 => some fun n => execVred n g (wordTy w) d a
  | 0x28 =>
    if bits w 31 1 = 0 then some fun n => execVget n g d a (w.extractLsb' 21 6)
    else some fun n => execVset n g d a (w.extractLsb' 21 6)
  | 0x29 => some fun n => execVdg n g a
  | 0x2A =>
    match wordFn4 w with
    | 0 => some fun n => execTrd n g r t d
    | 1 => some fun n => execTwr n g r t d
    | 2 => some fun n => execTclr n g t
    | _ => none
  | _ => none

/-- Opcodes 0x30 to 0x37: exact accumulation (R74). -/
def wordExact (w : Word64) : Option Meaning :=
  let g := guardOf w
  let f := wordFmt w
  let a : BitVec 3 := w.extractLsb' 11 3
  let r := wordRs1 w
  match bits w 0 7 with
  | 0x30 => some fun n => execXacc n g f (wordRs2 w) a
  | 0x31 => some fun n => execXrnd n g f (w.extractLsb' 16 3) (wordRd w)
  | 0x32 => some fun n => execXclr n g a
  | 0x33 => some fun n => execXacct n g f (wordRs2 w) r
  | 0x34 => some fun n => execXrndt n g f r (wordRd w)
  | 0x35 => some fun n => execXlda n g r a
  | 0x36 => some fun n => execXsta n g r a
  | 0x37 => some fun n => execXclrt n g r
  | _ => none

/-- Opcodes 0x38 to 0x3E: synchronisation (R83, R84). -/
def wordSync (w : Word64) : Option Meaning :=
  let g := guardOf w
  let a := wordRs1 w
  let b := wordRs2 w
  match bits w 0 7 with
  | 0x38 => some fun n => execWaite n g a b
  | 0x39 => some fun n => execSige n g a b
  | 0x3A => some fun n => execFence n g (w.extractLsb' 21 3)
  | 0x3B => some fun n => execWaitx n g a
  | 0x3C => some fun n => execWaitm n g a
  | 0x3D => some fun n => execArrv n g (wordRd w) b
  | 0x3E => some fun n => execEndK n g (w.extractLsb' 21 8)
  | _ => none

/-- The 64-bit forms T, X and M (R66, R76, R78, R81). -/
def wordLong (w : Word64) : Option Meaning :=
  let g := guardOf w
  let td : BitVec 3 := w.extractLsb' 11 3
  let array := bits w 16 1 = 1
  let ra : BitVec 5 := w.extractLsb' 23 5
  let rt : BitVec 5 := w.extractLsb' 38 5
  let xt := wordRd w
  let rl := wordRs1 w
  let rm := wordRs2 w
  let xa : BitVec 5 := w.extractLsb' 26 5
  match bits w 0 7 with
  | 0x60 => some fun n => execMma n g td (bits w 14 1 = 1) (bits w 15 1 = 1) array (w.extractLsb' 17 2) (w.extractLsb' 19 4) ra
      (w.extractLsb' 28 5) (w.extractLsb' 33 5) rt
  | 0x61 => some fun n => execTpf n g array rt
  | 0x62 => some fun n => execTst n g td ra rt
  | 0x63 => some fun n => execTld n g td ra rt
  | 0x68 => some fun n => execXld n g xt rl rm xa
  | 0x69 => some fun n => execXst n g xt rl rm xa
  | 0x70 => some fun n => execPmc n g (bits w 31 1 = 1) xt rl rm xa
  | _ => none

/-- The instruction that a word is (R65, R66); none where its opcode or function is unassigned or a reserved field is
nonzero. -/
def belocWord (w : Word64) : Option Meaning :=
  let op := bits w 0 7
  if !assigned w then none
  else if op = 0x01 then wordArith w
  else if op = 0x08 then wordCompare w
  else if op < 0x20 then wordScalar w
  else if op < 0x22 then wordVector w
  else if op = 0x22 then wordVecScalar w
  else if op < 0x30 then wordLanes w
  else if op < 0x38 then wordExact w
  else if op < 0x60 then wordSync w
  else wordLong w

end Sys2Proof.Machine
end

