-- ==== Sys2Proof/WellFormed.lean ====
section
/-! DEFINITION. Well-formed commands: every number that names an instance or fills a field lies within its range (R2, R8, R97,
R110, R123, R161, R230, R250, R288, R328, R341 and the register arrays of R27). A command that is not well formed names something the
block does not have. -/

namespace Sys2Proof

/-- The numbers of a received codeword: its lane and number, 58 bits before it, the level at each of its 2,720 places, the places of
its 544 symbols (R291, R293, R294). -/
def RxWord.ranges (w : RxWord) : List (Nat × Nat) :=
  [(w.lane, 512), (w.n, 2 ^ 40), (w.prior, 2 ^ 58), (w.levels.length, 2721)] ++ w.levels.map (·, 4) ++ w.marks.map (·, 544)

def LaneWords.ranges (x : LaneWords) : List (Nat × Nat) := (x.lane, 512) :: x.words.flatMap RxWord.ranges

def LaneErrors.ranges (x : LaneErrors) : List (Nat × Nat) := [(x.lane, 512)]

/-- The numbers of a Breakwater frame's header (R330, R331). -/
def BwIn.ranges (f : BwIn) : List (Nat × Nat) :=
  [(f.an, 4), (f.pn, 2 ^ 64), (f.btype, 16), (f.ver, 16), (f.km1, 64), (f.m, 32), (f.idx, 128), (f.block, 2 ^ 32), (f.tseq, 2 ^ 48),
   (f.payload.length, 9251)]

/-- The numbers a command carries, each with the bound it must stay below. -/
def Instr.ranges (i : Instr) : List (Nat × Nat) :=
  match i with
  | .registerWrite _ off size _ => [(off, 2 ^ 26), (size, 9)]
  | .strictOrder _ _ => []
  | .enable _ ring => [(ring, 256)]
  | .pause _ ring => [(ring, 256)]
  | .abort _ ring => [(ring, 256)]
  | .disable _ ring => [(ring, 256)]
  | .consWrite _ cq _ => [(cq, 256)]
  | .eventValueWrite _ ev _ => [(ev, 65536)]
  | .failClear _ k _ => [(k, 1024)]
  | .wkCommitGo _ _ => []
  | .commandAcceptance => []
  | .backstopPoll => []
  | .waitResolve ring seq => [(ring, 256), (seq, 2 ^ 32)]
  | .commandStart ring seq => [(ring, 256), (seq, 2 ^ 32)]
  | .timeout ring seq => [(ring, 256), (seq, 2 ^ 32)]
  | .completionRecord ring => [(ring, 256)]
  | .nop ring seq => [(ring, 256), (seq, 2 ^ 32)]
  | .reduce ring seq => [(ring, 256), (seq, 2 ^ 32)]
  | .reduceScatter ring seq => [(ring, 256), (seq, 2 ^ 32)]
  | .allreduce ring seq => [(ring, 256), (seq, 2 ^ 32)]
  | .allgather ring seq => [(ring, 256), (seq, 2 ^ 32)]
  | .bcast ring seq => [(ring, 256), (seq, 2 ^ 32)]
  | .shift ring seq => [(ring, 256), (seq, 2 ^ 32)]
  | .permute ring seq => [(ring, 256), (seq, 2 ^ 32)]
  | .barrier ring seq => [(ring, 256), (seq, 2 ^ 32)]
  | .update ring seq => [(ring, 256), (seq, 2 ^ 32)]
  | .launch ring seq => [(ring, 256), (seq, 2 ^ 32)]
  | .load ring seq => [(ring, 256), (seq, 2 ^ 32)]
  | .unload ring seq => [(ring, 256), (seq, 2 ^ 32)]
  | .bind ring seq => [(ring, 256), (seq, 2 ^ 32)]
  | .unbind ring seq => [(ring, 256), (seq, 2 ^ 32)]
  | .mooringCreate ring seq => [(ring, 256), (seq, 2 ^ 32)]
  | .evict ring seq => [(ring, 256), (seq, 2 ^ 32)]
  | .reform ring seq => [(ring, 256), (seq, 2 ^ 32)]
  | .adopt ring seq => [(ring, 256), (seq, 2 ^ 32)]
  | .retire ring seq => [(ring, 256), (seq, 2 ^ 32)]
  | .commit ring seq => [(ring, 256), (seq, 2 ^ 32)]
  | .restore ring seq => [(ring, 256), (seq, 2 ^ 32)]
  | .shardCreate ring seq => [(ring, 256), (seq, 2 ^ 32)]
  | .shardDelete ring seq => [(ring, 256), (seq, 2 ^ 32)]
  | .stripe ring seq => [(ring, 256), (seq, 2 ^ 32)]
  | .rebuild ring seq => [(ring, 256), (seq, 2 ^ 32)]
  | .config ring seq => [(ring, 256), (seq, 2 ^ 32)]
  | .eventSet ring seq => [(ring, 256), (seq, 2 ^ 32)]
  | .eventAdd ring seq => [(ring, 256), (seq, 2 ^ 32)]
  | .eventFail ring seq => [(ring, 256), (seq, 2 ^ 32)]
  | .powerRun ring seq => [(ring, 256), (seq, 2 ^ 32)]
  | .powerQuiet ring seq => [(ring, 256), (seq, 2 ^ 32)]
  | .powerWinter ring seq => [(ring, 256), (seq, 2 ^ 32)]
  | .powerStandby ring seq => [(ring, 256), (seq, 2 ^ 32)]
  | .powerOff ring seq => [(ring, 256), (seq, 2 ^ 32)]
  | .stagedSetSwap set inst => [(set, 4096), (inst, 2 ^ 32)]
  | .pinCommit => []
  | .gateListSwap port => [(port, 512)]
  | .clockStepSwap => []
  | .timeSet => []
  | .boundDispatch pav => [(pav, 800)]
  | .launchedDispatch pav => [(pav, 800)]
  | .arrivalRecord pav _ => [(pav, 800)]
  | .pavilionWake pav => [(pav, 800)]
  | .pavilionGating pav => [(pav, 800)]
  | .watchdog pav => [(pav, 800)]
  | .faultRelease _ pav _ => [(pav, 800)]
  | .tileScrub pav word => [(pav, 800), (word, 65536)]
  | .arrayRampUp pav _ => [(pav, 800)]
  | .arrayRampDown pav _ => [(pav, 800)]
  | .productDrain pav tag => [(pav, 800), (tag, 256)]
  | .transferComplete pav tag _ => [(pav, 800), (tag, 256)]
  | .multicastArrival pav tag receiver => [(pav, 800), (tag, 256), (receiver, 800)]
  | .conditionMet pav => [(pav, 800)]
  | .add pav _ _ _ _ => [(pav, 800)]
  | .sub pav _ _ _ _ => [(pav, 800)]
  | .and pav _ _ _ _ => [(pav, 800)]
  | .or pav _ _ _ _ => [(pav, 800)]
  | .xor pav _ _ _ _ => [(pav, 800)]
  | .sll pav _ _ _ _ => [(pav, 800)]
  | .srl pav _ _ _ _ => [(pav, 800)]
  | .sra pav _ _ _ _ => [(pav, 800)]
  | .mul pav _ _ _ _ => [(pav, 800)]
  | .mulhu pav _ _ _ _ => [(pav, 800)]
  | .min pav _ _ _ _ => [(pav, 800)]
  | .max pav _ _ _ _ => [(pav, 800)]
  | .minu pav _ _ _ _ => [(pav, 800)]
  | .maxu pav _ _ _ _ => [(pav, 800)]
  | .mix pav _ _ _ => [(pav, 800)]
  | .addi pav _ _ _ _ => [(pav, 800)]
  | .andi pav _ _ _ _ => [(pav, 800)]
  | .ori pav _ _ _ _ => [(pav, 800)]
  | .xori pav _ _ _ _ => [(pav, 800)]
  | .shi pav _ _ _ _ _ => [(pav, 800)]
  | .shin pav _ _ _ => [(pav, 800)]
  | .cmpCc pav _ _ _ _ _ => [(pav, 800)]
  | .pand pav _ _ _ _ => [(pav, 800)]
  | .por pav _ _ _ _ => [(pav, 800)]
  | .pxor pav _ _ _ _ => [(pav, 800)]
  | .pnot pav _ _ _ => [(pav, 800)]
  | .cmpiCc pav _ _ _ _ _ => [(pav, 800)]
  | .ldb pav _ _ _ _ => [(pav, 800)]
  | .ldh pav _ _ _ _ => [(pav, 800)]
  | .ldw pav _ _ _ _ => [(pav, 800)]
  | .ldd pav _ _ _ _ => [(pav, 800)]
  | .stb pav _ _ _ _ => [(pav, 800)]
  | .sth pav _ _ _ _ => [(pav, 800)]
  | .stw pav _ _ _ _ => [(pav, 800)]
  | .std pav _ _ _ _ => [(pav, 800)]
  | .br pav _ _ => [(pav, 800)]
  | .jal pav _ _ => [(pav, 800)]
  | .jr pav _ _ _ _ => [(pav, 800)]
  | .crr pav _ _ _ => [(pav, 800)]
  | .crw pav _ _ _ => [(pav, 800)]
  | .vadd pav _ _ _ _ _ => [(pav, 800)]
  | .vsub pav _ _ _ _ _ => [(pav, 800)]
  | .vmul pav _ _ _ _ _ => [(pav, 800)]
  | .vmax pav _ _ _ _ _ => [(pav, 800)]
  | .vmin pav _ _ _ _ _ => [(pav, 800)]
  | .vand pav _ _ _ _ _ => [(pav, 800)]
  | .vor pav _ _ _ _ _ => [(pav, 800)]
  | .vxor pav _ _ _ _ _ => [(pav, 800)]
  | .vsll pav _ _ _ _ _ => [(pav, 800)]
  | .vsrl pav _ _ _ _ _ => [(pav, 800)]
  | .vsra pav _ _ _ _ _ => [(pav, 800)]
  | .vsqrt pav _ _ _ _ => [(pav, 800)]
  | .vdiv pav _ _ _ _ _ => [(pav, 800)]
  | .vfma pav _ _ _ _ _ => [(pav, 800)]
  | .vfnma pav _ _ _ _ _ => [(pav, 800)]
  | .vfms pav _ _ _ _ _ => [(pav, 800)]
  | .vaddS pav _ _ _ _ _ => [(pav, 800)]
  | .vsubS pav _ _ _ _ _ => [(pav, 800)]
  | .vmulS pav _ _ _ _ _ => [(pav, 800)]
  | .vmaxS pav _ _ _ _ _ => [(pav, 800)]
  | .vminS pav _ _ _ _ _ => [(pav, 800)]
  | .vandS pav _ _ _ _ _ => [(pav, 800)]
  | .vorS pav _ _ _ _ _ => [(pav, 800)]
  | .vxorS pav _ _ _ _ _ => [(pav, 800)]
  | .vsllS pav _ _ _ _ _ => [(pav, 800)]
  | .vsrlS pav _ _ _ _ _ => [(pav, 800)]
  | .vsraS pav _ _ _ _ _ => [(pav, 800)]
  | .vcvt pav _ _ _ _ _ => [(pav, 800)]
  | .vld pav _ _ _ _ => [(pav, 800)]
  | .vst pav _ _ _ _ => [(pav, 800)]
  | .vbc pav _ _ _ => [(pav, 800)]
  | .vred pav _ _ _ _ => [(pav, 800)]
  | .vget pav _ _ _ _ => [(pav, 800)]
  | .vset pav _ _ _ _ => [(pav, 800)]
  | .vdg pav _ _ => [(pav, 800)]
  | .trd pav _ _ _ _ => [(pav, 800)]
  | .twr pav _ _ _ _ => [(pav, 800)]
  | .tclr pav _ _ => [(pav, 800)]
  | .xacc pav _ _ _ _ => [(pav, 800)]
  | .xrnd pav _ _ _ _ => [(pav, 800)]
  | .xclr pav _ _ => [(pav, 800)]
  | .xacct pav _ _ _ _ => [(pav, 800)]
  | .xrndt pav _ _ _ _ => [(pav, 800)]
  | .xlda pav _ _ _ => [(pav, 800)]
  | .xsta pav _ _ _ => [(pav, 800)]
  | .xclrt pav _ _ => [(pav, 800)]
  | .mma pav _ _ _ _ _ _ _ _ _ _ _ => [(pav, 800)]
  | .tpf pav _ _ _ => [(pav, 800)]
  | .tst pav _ _ _ _ => [(pav, 800)]
  | .tld pav _ _ _ _ => [(pav, 800)]
  | .xld pav _ _ _ _ _ => [(pav, 800)]
  | .xst pav _ _ _ _ _ => [(pav, 800)]
  | .pmc pav _ _ _ _ _ _ => [(pav, 800)]
  | .waite pav _ _ _ => [(pav, 800)]
  | .sige pav _ _ _ => [(pav, 800)]
  | .fence pav _ _ => [(pav, 800)]
  | .waitx pav _ _ => [(pav, 800)]
  | .waitm pav _ _ => [(pav, 800)]
  | .arrv pav _ _ _ => [(pav, 800)]
  | .endK pav _ _ => [(pav, 800)]
  | .contrib port _ => [(port, 512)]
  | .parcelAdmission => []
  | .rereq moor pseq entry member => [(moor, 16384), (pseq, 2 ^ 32), (entry, 16), (member, 4096)]
  | .rereqInterval _ _ => []
  | .floorBerths _ _ => []
  | .gatePassage moor _ => [(moor, 16384)]
  | .memberDead moor member => [(moor, 16384), (member, 4096)]
  | .backgroundCopy shard => [(shard, 4096)]
  | .bgHold _ _ => []
  | .announce port _ => [(port, 512)]
  | .boathouseAck port _ => [(port, 512)]
  | .frag port _ => [(port, 512)]
  | .fack port _ => [(port, 512)]
  | .fget port _ => [(port, 512)]
  | .chunk port _ => [(port, 512)]
  | .gap port _ => [(port, 512)]
  | .done port _ => [(port, 512)]
  | .stripePeerDead endpoint => [(endpoint, 2 ^ 24)]
  | .reparent ring seq => [(ring, 256), (seq, 2 ^ 32)]
  | .dockScrub device => [(device, 24)]
  | .correctedWriteBack line => [(line, 2 ^ 42)]
  | .selfRefreshEntry => []
  | .hostWindowRead addr => [(addr, 2 ^ 52)]
  | .hostWindowWrite addr _ => [(addr, 2 ^ 52)]
  | .hostSnoop line _ _ => [(line, 2 ^ 42)]
  | .warehouseLinkLoss port => [(port, 4)]
  | .packetArrival port _ => [(port, 512)]
  | .matching => []
  | .egressReassembly port _ => [(port, 512)]
  | .egressSelect port => [(port, 512)]
  | .agerVisit pipe => [(pipe, 4)]
  | .ageingTick pipe => [(pipe, 4)]
  | .insert _ pipe key => [(pipe, 4), (key, 2 ^ 40)]
  | .delete _ pipe key => [(pipe, 4), (key, 2 ^ 40)]
  | .lookup _ pipe key => [(pipe, 4), (key, 2 ^ 40)]
  | .memberUnusable port => [(port, 512)]
  | .downHoldExpiry port => [(port, 512)]
  | .meterWrite _ index => [(index, 65536)]
  | .meterRead _ index => [(index, 65536)]
  | .clearCounts _ index => [(index, 65536)]
  | .gateEntry port => [(port, 512)]
  | .rate _ _ => []
  | .step _ _ => []
  | .capture _ => []
  | .ppsInEdge => []
  | .ppsOutRise => []
  | .ppsOutFall => []
  | .freerun => []
  | .frame port start words => [(port, 512), (start, 2 ^ 20)] ++ words.flatMap RxWord.ranges
  | .ack port lseq => [(port, 512), (lseq, 2 ^ 32)]
  | .nak port lseq => [(port, 512), (lseq, 2 ^ 32)]
  | .credit port cls total => [(port, 512), (cls, 16), (total, 2 ^ 32)]
  | .beacon port content => [(port, 512), (content, 2 ^ 48)]
  | .ident port index content => [(port, 512), (index, 8), (content, 2 ^ 40)]
  | .align lane n => [(lane, 512), (n, 2 ^ 40)]
  | .nakRepeat port => [(port, 512)]
  | .replayTimeout port => [(port, 512)]
  | .beaconSend port => [(port, 512)]
  | .signalDetect port => [(port, 512)]
  | .training port _ _ => [(port, 512)]
  | .alignmentLock rx => rx.ranges
  | .lossOfLock rx => rx.ranges
  | .lossOfSignal port => [(port, 512)]
  | .stageLimit port => [(port, 512)]
  | .generationStepDown port => [(port, 512)]
  | .ethernetFrame port words _ => [(port, 512)] ++ words.flatMap RxWord.ranges
  | .ethernetBeacon port => [(port, 512)]
  | .cmisRead _ quay _ => [(quay, 64)]
  | .cmisWrite _ quay _ => [(quay, 64)]
  | .cmisComplete quay _ _ => [(quay, 64)]
  | .lock quay => [(quay, 64)]
  | .echo quay heard => [(quay, 64), (heard, 2 ^ 32)]
  | .confirmTimeout quay colour => [(quay, 64), (colour, 64)]
  | .miss quay colour => [(quay, 64), (colour, 64)]
  | .lockLost quay => [(quay, 64)]
  | .lhCalGo _ _ => []
  | .calibration => []
  | .calMeasurement _ => []
  | .data port f => [(port, 512)] ++ f.ranges
  | .parity port f => [(port, 512)] ++ f.ranges
  | .breakwaterAck port f => [(port, 512)] ++ f.ranges
  | .breakwaterNak port f => [(port, 512)] ++ f.ranges
  | .keepalive port f => [(port, 512)] ++ f.ranges
  | .partialSum port f => [(port, 512)] ++ f.ranges
  | .keyxOffer port _ => [(port, 512)]
  | .keyxAccept port _ => [(port, 512)]
  | .keyxConfirm port _ => [(port, 512)]
  | .keyxResend port => [(port, 512)]
  | .resync port f => [(port, 512)] ++ f.ranges
  | .ackTimer slot => [(slot, 32)]
  | .reorderExpiry slot => [(slot, 32)]
  | .rtoExpiry slot => [(slot, 32)]
  | .blockClose slot => [(slot, 32)]
  | .keepaliveSend slot => [(slot, 32)]
  | .stallExpiry slot => [(slot, 32)]
  | .outageExpiry slot => [(slot, 32)]
  | .holdExpiry slot => [(slot, 32)]
  | .spanPeerDead span site => [(span, 16), (site, 16)]
  | .powerEstimate _ => []
  | .lodgeSample _ vin iin => [(vin, 65536), (iin, 65536)]
  | .emergencyStandby => []
  | .dropRelease => []
  | .voltageReached => []
  | .referenceLoss => []
  | .referenceReturn => []
  | .dockTemperatureRead _ => []
  | .hdmDecoderCommit n base size => [(n, 8), (base, 2 ^ 52), (size, 2 ^ 52)]
  | .ideKeySwitch stream dir => [(stream, 2), (dir, 2)]
  | .ideIntegrityFail stream => [(stream, 2)]
  | .getInfo _ _ => []
  | .getCerts _ _ => []
  | .getMeas _ _ => []
  | .getLog _ _ => []
  | .keyExch _ _ => []
  | .keyGo _ _ => []
  | .doeAbort => []
  | .seal _ len => [(len, 32768)]
  | .extend _ len => [(len, 32768)]
  | .setPeer _ len => [(len, 32768)]
  | .stageFw _ len _ => [(len, 32768)]
  | .commitSvn _ len => [(len, 32768)]
  | .readFuses _ len => [(len, 32768)]
  | .mctpControl _ _ => []
  | .pldmRequest _ => []
  | .gatehouseFault => []
  | .hmHeartbeat _ _ => []
  | .heartbeatExpiry => []
  | .restart _ => []
  | .hmMemoryFault => []
  | .hmRestartComplete => []
  | .hold _ _ => []
  | .hmDock _ k _ => [(k, 4)]
  | .windowEnd => []
  | .windowUs _ _ => []
  | .dumpSnapshot => []
  | .dumpNow _ => []
  | .dumpRecordWritten => []
  | .clearAll _ => []
  | .gatherGo _ count => [(count, 512)]
  | .pcEnable _ k _ => [(k, 64)]
  | .pcValueWrite _ k _ => [(k, 64)]
  | .dumpRingWrite _ _ => []
  | .sampleRingWrite _ _ => []
  | .sampleSeed _ _ => []
  | .pvTileErrClear _ => []
  | .pvXrangeClear _ => []
  | .moNondetCountClear _ => []
  | .moCntClear _ mask => [(mask, 64)]
  | .bhCntClear _ mask => [(mask, 8)]
  | .dkErrCntClear _ => []
  | .whErrCntClear _ => []
  | .bsCntClear _ mask => [(mask, 256)]
  | .peakClr _ die => [(die, 4)]
  | .hbParErrClear _ pipe => [(pipe, 4)]
  | .lhWithdrawCntClear _ => []
  | .bwDropClear _ => []
  | .pmDropsClear _ => []
  | .ghDenyCntClear _ => []
  | .prbsClear _ lane => [(lane, 512)]
  | .vinRise => []
  | .undervoltageLockout => []
  | .overvoltageLatch => []
  | .modEnRise => []
  | .modEnFall => []
  | .sysResetL => []
  | .perstL => []
  | .upstreamLinkDown => []
  | .clearFaults => []
  | .capability => []
  | .statusByte => []
  | .statusWord => []
  | .statusInput => []
  | .statusTemperature => []
  | .statusCml => []
  | .readVin => []
  | .readIin => []
  | .readPin => []
  | .readTemperature1 => []
  | .readTemperature2 => []
  | .pmbusRevision => []
  | .mfrId => []
  | .mfrModel => []
  | .mfrRevision => []
  | .mfrSerial => []
  | .unsupportedCommand => []
  | .illegalOpcode pav _ => [(pav, 800)]
  | .contextChange ring seq => [(ring, 256), (seq, 2 ^ 32)]
  | .initLoadComplete shard => [(shard, 4096)]
  | .powerStateEntered => []
  | .selfRefreshExit => []
  | .warehouseLinkUp port width gts _ _ cap => [(port, 4), (width, 17), (gts, 65), (cap, 8192)]
  | .upstreamLinkUp => []
  | .perstLRelease => []
  | .configurationRequest => []
  | .prbsCheckerLock rx => rx.ranges
  | .presentL quay _ => [(quay, 64)]
  | .intL quay _ => [(quay, 64)]
  | .entdaa addr => [(addr, 128)]

/-- Whether every number of a command lies below its bound. -/
def Instr.wellFormed (i : Instr) : Bool := i.ranges.all fun p => decide (p.1 < p.2)

end Sys2Proof
end

