-- ==== Sys2Proof/Safety.lean ====
section
/-! DEFINITION. The terms in which claims about the block are stated: canonical memories and registers, what no command
undoes. -/

namespace Sys2Proof.Machine

/-- The canonical form of a byte memory: addresses strictly rising, one entry an address. -/
abbrev Memory.wf (m : List Host.Cell) : Prop := spSorted m

/-- The state's tables are in canonical form: registers, committed registers, and the three memories. -/
structure State.Wf (s : State) : Prop where
  regs : spSorted s.regs
  cregs : spSorted s.cregs
  dock : Memory.wf s.dock.cells
  host : Memory.wf s.hostMem.cells
  wh : Memory.wf s.wh

/-- What no command undoes, from `s` to `t`: the queue is as it was; nothing sent is taken back; no free value is drawn twice;
cold resets only add up; the part's grade and serial number stand and its fused SVN rows never fall (R393); canonical tables stay
canonical. -/
structure Keeps (s t : State) : Prop where
  pending : t.pending = s.pending
  sent : s.sent <+: t.sent
  freeCtr : s.freeCtr ≤ t.freeCtr
  resets : s.resets ≤ t.resets
  grade : t.fuses.grade = s.fuses.grade
  serial : t.fuses.serial = s.fuses.serial
  svn : ∀ k, s.fusedSvn k ≤ t.fusedSvn k
  wf : s.Wf → t.Wf

/-! ### Register rows -/

/-- The register that a command writes through its own row: the requester, the register, its indices. -/
def rowReg : Instr → Option (Requester × Reg × List Nat)
  | .strictOrder req _ => some (req, .GEN_CTRL, [])
  | .enable req ring => some (req, .WK_RING_CTRL, [ring])
  | .pause req ring => some (req, .WK_RING_CTRL, [ring])
  | .abort req ring => some (req, .WK_RING_CTRL, [ring])
  | .disable req ring => some (req, .WK_RING_CTRL, [ring])
  | .consWrite req cq _ => some (req, .WK_CQ_CONS, [cq])
  | .eventValueWrite req ev _ => some (req, .WK_EVENT, [ev])
  | .failClear req k _ => some (req, .WK_EVFAIL, [k])
  | .wkCommitGo req _ => some (req, .WK_COMMIT, [])
  | .faultRelease req pav _ => some (req, .PV_FAULT, [pav])
  | .rereqInterval req _ => some (req, .MO_REREQ, [])
  | .floorBerths req _ => some (req, .MO_SLIP_CFG, [])
  | .bgHold req _ => some (req, .BH_CTRL, [])
  | .insert req pipe _ => some (req, .HB_OP, [pipe])
  | .delete req pipe _ => some (req, .HB_OP, [pipe])
  | .lookup req pipe _ => some (req, .HB_OP, [pipe])
  | .meterWrite req _ => some (req, .SC_METER_SEL, [])
  | .meterRead req _ => some (req, .SC_METER_SEL, [])
  | .clearCounts req _ => some (req, .SC_METER_SEL, [])
  | .rate req _ => some (req, .CT_RATE, [])
  | .step req _ => some (req, .CT_STEP, [])
  | .capture req => some (req, .CT_SNAP_CMD, [])
  | .cmisRead req quay _ => some (req, .QY_CMIS_CMD, [quay])
  | .cmisWrite req quay _ => some (req, .QY_CMIS_CMD, [quay])
  | .lhCalGo req _ => some (req, .LH_CAL, [])
  | .hmHeartbeat req _ => some (req, .HM_HEARTBEAT, [])
  | .restart req => some (req, .HM_CTRL, [])
  | .hold req _ => some (req, .HM_CTRL, [])
  | .hmDock req k _ => some (req, .HM_DOCK, [k])
  | .windowUs req _ => some (req, .TL_BW_CFG, [])
  | .dumpNow req => some (req, .TL_CTRL, [])
  | .clearAll req => some (req, .TL_CTRL, [])
  | .gatherGo req _ => some (req, .TL_GATHER, [])
  | .pcEnable req k _ => some (req, .TL_PC_CFG, [k])
  | .pcValueWrite req k _ => some (req, .TL_PC_VAL, [k])
  | .dumpRingWrite req _ => some (req, .TL_DUMP_RING, [])
  | .sampleRingWrite req _ => some (req, .TL_SAMPLE_RING, [])
  | .sampleSeed req _ => some (req, .TL_SAMPLE_CTL, [])
  | .pvTileErrClear req => some (req, .PV_TILE_ERR, [])
  | .pvXrangeClear req => some (req, .PV_XRANGE, [])
  | .moNondetCountClear req => some (req, .MO_NONDET_COUNT, [])
  | .moCntClear req _ => some (req, .MO_CNT_CLEAR, [])
  | .bhCntClear req _ => some (req, .BH_CNT_CLEAR, [])
  | .dkErrCntClear req => some (req, .DK_ERR_CNT, [])
  | .whErrCntClear req => some (req, .WH_ERR_CNT, [])
  | .bsCntClear req _ => some (req, .BS_CNT_CLEAR, [])
  | .peakClr req die => some (req, .BS_BUF_USED, [die])
  | .hbParErrClear req pipe => some (req, .HB_PAR_ERR, [pipe])
  | .lhWithdrawCntClear req => some (req, .LH_WITHDRAW_CNT, [])
  | .bwDropClear req => some (req, .BW_DROP, [])
  | .pmDropsClear req => some (req, .PM_DROPS, [])
  | .ghDenyCntClear req => some (req, .GH_DENY_CNT, [])
  | .prbsClear req lane => some (req, .QY_PRBS_CTRL, pidx lane)
  | _ => none

/-- A write by `req` of the register `r` at the indices `idx` passes the checks of every write: the registers can be reached, the
indices name a register, and boot, the grade and the "written by" line allow it (R4, R11, R28, R426). -/
structure State.Writes (s : State) (req : Requester) (r : Reg) (idx : List Nat) : Prop where
  powered : s.powered = true
  inRange : idxIn r idx = true
  allowed : s.checkReg req r idx = true

/-- A register write has taken effect and left `t`, in which the programmable counters then count it (R407). -/
def State.written (t : State) (req : Requester) (r : Reg) (idx : List Nat) : Out :=
  .next (t.countBar0 req 1 (regAddr r idx))

/-! ### Beloc instructions -/

/-- The Beloc instruction that a command is: its Pavilion, guard, major opcode and length in bytes. -/
def belocOf : Instr → Option (Nat × Guard × Nat × Nat)
  | .add pav g _ _ _ => some (pav, g, 0x01, 4)
  | .sub pav g _ _ _ => some (pav, g, 0x01, 4)
  | .and pav g _ _ _ => some (pav, g, 0x01, 4)
  | .or pav g _ _ _ => some (pav, g, 0x01, 4)
  | .xor pav g _ _ _ => some (pav, g, 0x01, 4)
  | .sll pav g _ _ _ => some (pav, g, 0x01, 4)
  | .srl pav g _ _ _ => some (pav, g, 0x01, 4)
  | .sra pav g _ _ _ => some (pav, g, 0x01, 4)
  | .mul pav g _ _ _ => some (pav, g, 0x01, 4)
  | .mulhu pav g _ _ _ => some (pav, g, 0x01, 4)
  | .min pav g _ _ _ => some (pav, g, 0x01, 4)
  | .max pav g _ _ _ => some (pav, g, 0x01, 4)
  | .minu pav g _ _ _ => some (pav, g, 0x01, 4)
  | .maxu pav g _ _ _ => some (pav, g, 0x01, 4)
  | .mix pav g _ _ => some (pav, g, 0x01, 4)
  | .addi pav g _ _ _ => some (pav, g, 0x02, 4)
  | .andi pav g _ _ _ => some (pav, g, 0x03, 4)
  | .ori pav g _ _ _ => some (pav, g, 0x04, 4)
  | .xori pav g _ _ _ => some (pav, g, 0x05, 4)
  | .shi pav g _ _ _ _ => some (pav, g, 0x06, 4)
  | .shin pav g _ _ => some (pav, g, 0x07, 4)
  | .cmpCc pav g _ _ _ _ => some (pav, g, 0x08, 4)
  | .pand pav g _ _ _ => some (pav, g, 0x08, 4)
  | .por pav g _ _ _ => some (pav, g, 0x08, 4)
  | .pxor pav g _ _ _ => some (pav, g, 0x08, 4)
  | .pnot pav g _ _ => some (pav, g, 0x08, 4)
  | .cmpiCc pav g _ _ _ _ => some (pav, g, 0x09, 4)
  | .ldb pav g _ _ _ => some (pav, g, 0x0A, 4)
  | .ldh pav g _ _ _ => some (pav, g, 0x0B, 4)
  | .ldw pav g _ _ _ => some (pav, g, 0x0C, 4)
  | .ldd pav g _ _ _ => some (pav, g, 0x0D, 4)
  | .stb pav g _ _ _ => some (pav, g, 0x0E, 4)
  | .sth pav g _ _ _ => some (pav, g, 0x0F, 4)
  | .stw pav g _ _ _ => some (pav, g, 0x10, 4)
  | .std pav g _ _ _ => some (pav, g, 0x11, 4)
  | .br pav g _ => some (pav, g, 0x12, 4)
  | .jal pav g _ => some (pav, g, 0x13, 4)
  | .jr pav g _ _ _ => some (pav, g, 0x14, 4)
  | .crr pav g _ _ => some (pav, g, 0x15, 4)
  | .crw pav g _ _ => some (pav, g, 0x16, 4)
  | .vadd pav g _ _ _ _ => some (pav, g, 0x20, 4)
  | .vsub pav g _ _ _ _ => some (pav, g, 0x20, 4)
  | .vmul pav g _ _ _ _ => some (pav, g, 0x20, 4)
  | .vmax pav g _ _ _ _ => some (pav, g, 0x20, 4)
  | .vmin pav g _ _ _ _ => some (pav, g, 0x20, 4)
  | .vand pav g _ _ _ _ => some (pav, g, 0x20, 4)
  | .vor pav g _ _ _ _ => some (pav, g, 0x20, 4)
  | .vxor pav g _ _ _ _ => some (pav, g, 0x20, 4)
  | .vsll pav g _ _ _ _ => some (pav, g, 0x20, 4)
  | .vsrl pav g _ _ _ _ => some (pav, g, 0x20, 4)
  | .vsra pav g _ _ _ _ => some (pav, g, 0x20, 4)
  | .vsqrt pav g _ _ _ => some (pav, g, 0x20, 4)
  | .vdiv pav g _ _ _ _ => some (pav, g, 0x20, 4)
  | .vfma pav g _ _ _ _ => some (pav, g, 0x21, 4)
  | .vfnma pav g _ _ _ _ => some (pav, g, 0x21, 4)
  | .vfms pav g _ _ _ _ => some (pav, g, 0x21, 4)
  | .vaddS pav g _ _ _ _ => some (pav, g, 0x22, 4)
  | .vsubS pav g _ _ _ _ => some (pav, g, 0x22, 4)
  | .vmulS pav g _ _ _ _ => some (pav, g, 0x22, 4)
  | .vmaxS pav g _ _ _ _ => some (pav, g, 0x22, 4)
  | .vminS pav g _ _ _ _ => some (pav, g, 0x22, 4)
  | .vandS pav g _ _ _ _ => some (pav, g, 0x22, 4)
  | .vorS pav g _ _ _ _ => some (pav, g, 0x22, 4)
  | .vxorS pav g _ _ _ _ => some (pav, g, 0x22, 4)
  | .vsllS pav g _ _ _ _ => some (pav, g, 0x22, 4)
  | .vsrlS pav g _ _ _ _ => some (pav, g, 0x22, 4)
  | .vsraS pav g _ _ _ _ => some (pav, g, 0x22, 4)
  | .vcvt pav g _ _ _ _ => some (pav, g, 0x23, 4)
  | .vld pav g _ _ _ => some (pav, g, 0x24, 4)
  | .vst pav g _ _ _ => some (pav, g, 0x25, 4)
  | .vbc pav g _ _ => some (pav, g, 0x26, 4)
  | .vred pav g _ _ _ => some (pav, g, 0x27, 4)
  | .vget pav g _ _ _ => some (pav, g, 0x28, 4)
  | .vset pav g _ _ _ => some (pav, g, 0x28, 4)
  | .vdg pav g _ => some (pav, g, 0x29, 4)
  | .trd pav g _ _ _ => some (pav, g, 0x2A, 4)
  | .twr pav g _ _ _ => some (pav, g, 0x2A, 4)
  | .tclr pav g _ => some (pav, g, 0x2A, 4)
  | .xacc pav g _ _ _ => some (pav, g, 0x30, 4)
  | .xrnd pav g _ _ _ => some (pav, g, 0x31, 4)
  | .xclr pav g _ => some (pav, g, 0x32, 4)
  | .xacct pav g _ _ _ => some (pav, g, 0x33, 4)
  | .xrndt pav g _ _ _ => some (pav, g, 0x34, 4)
  | .xlda pav g _ _ => some (pav, g, 0x35, 4)
  | .xsta pav g _ _ => some (pav, g, 0x36, 4)
  | .xclrt pav g _ => some (pav, g, 0x37, 4)
  | .mma pav g _ _ _ _ _ _ _ _ _ _ => some (pav, g, 0x60, 8)
  | .tpf pav g _ _ => some (pav, g, 0x61, 8)
  | .tst pav g _ _ _ => some (pav, g, 0x62, 8)
  | .tld pav g _ _ _ => some (pav, g, 0x63, 8)
  | .xld pav g _ _ _ _ => some (pav, g, 0x68, 8)
  | .xst pav g _ _ _ _ => some (pav, g, 0x69, 8)
  | .pmc pav g _ _ _ _ _ => some (pav, g, 0x70, 8)
  | .waite pav g _ _ => some (pav, g, 0x38, 4)
  | .sige pav g _ _ => some (pav, g, 0x39, 4)
  | .fence pav g _ => some (pav, g, 0x3A, 4)
  | .waitx pav g _ => some (pav, g, 0x3B, 4)
  | .waitm pav g _ => some (pav, g, 0x3C, 4)
  | .arrv pav g _ _ => some (pav, g, 0x3D, 4)
  | .endK pav g _ => some (pav, g, 0x3E, 4)
  | _ => none

/-- The Pavilion `n` is RUNNING the kernel `k`, the line of its next instruction can be fetched (R208), and the instruction's guard `g` is
a legal one whose value is 1: the instruction executes (R66). -/
structure State.Issues (s : State) (n : Nat) (g : Guard) (k : Kern) : Prop where
  kern : (s.pav n).kern = some k
  running : s.pvState n = Ps.running
  fetched : s.fetchBad k (s.pav n).pc = none
  legal : ¬(g.pred = 0 ∧ g.inv = true)
  guard : (s.pav n).guard g = true

/-- The state after an instruction of `len` bytes with the major opcode `op` that leaves its Pavilion's own state as `p`, its
tag and tile or transfer address for a sample record: PC moves past the instruction, and the instruction counts toward the
sampling gap. -/
def State.retires (s : State) (n op len : Nat) (k : Kern) (p : Pav) (tag addr : Nat) : State :=
  (s.setPav n p).retire n op len tag addr k (s.pav n).pc none

/-- As `retires`, of an instruction of the vector unit, which counts a cycle in PV_CYC_VEC. -/
def State.retiresVec (s : State) (n op : Nat) (k : Kern) (p : Pav) : State :=
  ((s.setPav n p).advance F.PV_CYC_VEC_COUNT [n]).retire n op 4 0 0 k (s.pav n).pc none

/-- A fault at issue of the instruction with the major opcode `op` at PC (R85). -/
def State.faultsAt (s : State) (n op : Nat) (k : Kern) (cls addr : Nat) : State :=
  (s.sampleOne n (s.pav n).pc op 0 k true addr).raiseFault n cls 0 (s.pav n).pc addr

/-- The Pavilion's tile memory can serve an access of `len` bytes at `a` at once: it lies below 0x8_0000 and no incomplete
transfer is writing the range (R32, R61). -/
def Pav.serves (p : Pav) (a len : Nat) : Prop := a + len ≤ tileSize ∧ p.rangeBusy a len = false

end Sys2Proof.Machine
end

