-- ==== Sys2Proof/Certificates/Slice0/Obligations.lean ====
section
/-! DEFINITION. What is claimed of the block: one statement per definition, by family of commands. -/

open Sys2Proof Sys2Proof.Machine

/-- R69, form A of opcode 0x01. -/
def claimScalarArithmetic : Prop :=
  ∀ (s : State) (n : Nat) (g : Guard) (k : Kern) (rd rs1 rs2 : BitVec 5), s.Issues n g k →
    let p := s.pav n
    let a := p.reg rs1
    let b := p.reg rs2
    let sh := b.toNat % 64
    let gives (v : Word64) : Out := .next (s.retires n 0x01 4 k (p.setReg rd v) 0 0)
    exec (.add n g rd rs1 rs2) s = gives (a + b) ∧
    exec (.sub n g rd rs1 rs2) s = gives (a - b) ∧
    exec (.and n g rd rs1 rs2) s = gives (a &&& b) ∧
    exec (.or n g rd rs1 rs2) s = gives (a ||| b) ∧
    exec (.xor n g rd rs1 rs2) s = gives (a ^^^ b) ∧
    exec (.sll n g rd rs1 rs2) s = gives (BitVec.ofNat 64 (a.toNat * 2 ^ sh)) ∧
    exec (.srl n g rd rs1 rs2) s = gives (BitVec.ofNat 64 (a.toNat / 2 ^ sh)) ∧
    exec (.sra n g rd rs1 rs2) s = gives (BitVec.ofInt 64 (a.toInt / 2 ^ sh)) ∧
    exec (.mul n g rd rs1 rs2) s = gives (BitVec.ofNat 64 (a.toNat * b.toNat)) ∧
    exec (.mulhu n g rd rs1 rs2) s = gives (BitVec.ofNat 64 (a.toNat * b.toNat / 2 ^ 64)) ∧
    exec (.min n g rd rs1 rs2) s = gives (BitVec.ofInt 64 (min a.toInt b.toInt)) ∧
    exec (.max n g rd rs1 rs2) s = gives (BitVec.ofInt 64 (max a.toInt b.toInt)) ∧
    exec (.minu n g rd rs1 rs2) s = gives (BitVec.ofNat 64 (min a.toNat b.toNat)) ∧
    exec (.maxu n g rd rs1 rs2) s = gives (BitVec.ofNat 64 (max a.toNat b.toNat)) ∧
    (let y := (a ^^^ a >>> 31) * 0xD1B54A32D192ED03#64
     let z := (y ^^^ y >>> 29) * 0xAEF17502108EF2D9#64
     exec (.mix n g rd rs1) s = gives (z ^^^ z >>> 32))

/-- R69, opcodes 0x02 to 0x07. -/
def claimScalarImmediates : Prop :=
  ∀ (s : State) (n : Nat) (g : Guard) (k : Kern) (rd rs1 : BitVec 5) (imm : BitVec 11) (sh : BitVec 6) (imm16 : BitVec 16),
    s.Issues n g k →
    let p := s.pav n
    let a := p.reg rs1
    let gives (op : Nat) (v : Word64) : Out := .next (s.retires n op 4 k (p.setReg rd v) 0 0)
    exec (.addi n g rd rs1 imm) s = gives 0x02 (BitVec.ofInt 64 (a.toInt + imm.toInt)) ∧
    exec (.andi n g rd rs1 imm) s = gives 0x03 (a &&& BitVec.ofInt 64 imm.toInt) ∧
    exec (.ori n g rd rs1 imm) s = gives 0x04 (a ||| BitVec.ofInt 64 imm.toInt) ∧
    exec (.xori n g rd rs1 imm) s = gives 0x05 (a ^^^ BitVec.ofInt 64 imm.toInt) ∧
    exec (.shi n g rd rs1 sh 0) s = gives 0x06 (BitVec.ofNat 64 (a.toNat * 2 ^ sh.toNat)) ∧
    exec (.shi n g rd rs1 sh 1) s = gives 0x06 (BitVec.ofNat 64 (a.toNat / 2 ^ sh.toNat)) ∧
    exec (.shi n g rd rs1 sh 2) s = gives 0x06 (BitVec.ofInt 64 (a.toInt / 2 ^ sh.toNat)) ∧
    exec (.shi n g rd rs1 sh 3) s = gives 0x06 ((a >>> sh.toNat) ||| (a <<< (64 - sh.toNat))) ∧
    exec (.shin n g rd imm16) s = gives 0x07 (BitVec.ofNat 64 ((p.reg rd).toNat * 65536 + imm16.toNat))

/-- R69, opcodes 0x08 and 0x09. -/
def claimPredicateInstructions : Prop :=
  ∀ (s : State) (n : Nat) (g : Guard) (k : Kern) (pd p1 p2 : BitVec 3) (rs1 rs2 : BitVec 5) (imm : BitVec 11), s.Issues n g k →
    let p := s.pav n
    let a := p.reg rs1
    let b := p.reg rs2
    let gives (op : Nat) (v : Bool) : Out := .next (s.retires n op 4 k (p.setPred pd v) 0 0)
    exec (.cmpCc n g .eq pd rs1 rs2) s = gives 0x08 (decide (a.toNat = b.toNat)) ∧
    exec (.cmpCc n g .ne pd rs1 rs2) s = gives 0x08 (decide (a.toNat ≠ b.toNat)) ∧
    exec (.cmpCc n g .lt pd rs1 rs2) s = gives 0x08 (decide (a.toInt < b.toInt)) ∧
    exec (.cmpCc n g .ltu pd rs1 rs2) s = gives 0x08 (decide (a.toNat < b.toNat)) ∧
    exec (.cmpCc n g .ge pd rs1 rs2) s = gives 0x08 (decide (b.toInt ≤ a.toInt)) ∧
    exec (.cmpCc n g .geu pd rs1 rs2) s = gives 0x08 (decide (b.toNat ≤ a.toNat)) ∧
    exec (.pand n g pd p1 p2) s = gives 0x08 (p.pred p1 && p.pred p2) ∧
    exec (.por n g pd p1 p2) s = gives 0x08 (p.pred p1 || p.pred p2) ∧
    exec (.pxor n g pd p1 p2) s = gives 0x08 (xor (p.pred p1) (p.pred p2)) ∧
    exec (.pnot n g pd p1) s = gives 0x08 (!p.pred p1) ∧
    exec (.cmpiCc n g 0 pd rs1 imm) s = gives 0x09 (decide (a.toInt = imm.toInt)) ∧
    exec (.cmpiCc n g 1 pd rs1 imm) s = gives 0x09 (decide (a.toInt ≠ imm.toInt)) ∧
    exec (.cmpiCc n g 2 pd rs1 imm) s = gives 0x09 (decide (a.toInt < imm.toInt)) ∧
    exec (.cmpiCc n g 3 pd rs1 imm) s = gives 0x09 (decide (a.toNat < (imm.signExtend 64).toNat))

/-- Scalar arithmetic, compares and predicate logic. -/
def Obligations.ScalarArithmetic : Prop := claimScalarArithmetic ∧ claimScalarImmediates ∧ claimPredicateInstructions

/-- R58: s0 and p0. -/
def Obligations.HardWiredRegisters : Prop :=
  (∀ (p : Pav), spSorted p.s → p.reg 0 = 0 → ∀ (r r' : BitVec 5) (v : Word64),
    (p.setReg 0 v = p) ∧ spSorted (p.setReg r v).s ∧ (p.setReg r v).reg 0 = 0 ∧
    (r ≠ 0 → (p.setReg r v).reg r = v) ∧ (r' ≠ r → (p.setReg r v).reg r' = p.reg r')) ∧
  (∀ (p : Pav) (i j : BitVec 3) (b : Bool), p.pred 0 = true ∧ p.setPred 0 b = p ∧
    (i ≠ 0 → (p.setPred i b).pred i = b) ∧ (j ≠ i → (p.setPred i b).pred j = p.pred j))

/-- R69, opcodes 0x0A to 0x0D. -/
def claimScalarLoads : Prop :=
  ∀ (s : State) (n : Nat) (g : Guard) (k : Kern) (rd rs1 : BitVec 5) (imm : BitVec 11), s.Issues n g k →
    let p := s.pav n
    let a := (BitVec.ofInt 64 ((p.reg rs1).toInt + imm.toInt)).toNat
    let ready (w : Nat) : Prop := a % w = 0 ∧ p.serves a w ∧ p.badWord a w = none
    let gives (op w : Nat) : Out :=
      .next (((s.countTile n a w).setPav n (p.setReg rd (BitVec.ofNat 64 (leNat (p.bytes a w))))).retire n op 4 0 a k p.pc none)
    (ready 1 → exec (.ldb n g rd rs1 imm) s = gives 0x0A 1) ∧
    (ready 2 → exec (.ldh n g rd rs1 imm) s = gives 0x0B 2) ∧
    (ready 4 → exec (.ldw n g rd rs1 imm) s = gives 0x0C 4) ∧
    (ready 8 → exec (.ldd n g rd rs1 imm) s = gives 0x0D 8)

/-- R69, opcodes 0x0E to 0x11. -/
def claimScalarStores : Prop :=
  ∀ (s : State) (n : Nat) (g : Guard) (k : Kern) (rs2 rs1 : BitVec 5) (imm : BitVec 11), s.Issues n g k →
    let p := s.pav n
    let a := (BitVec.ofInt 64 ((p.reg rs1).toInt + imm.toInt)).toNat
    let ready (w : Nat) : Prop := a % w = 0 ∧ p.serves a w
    let gives (op w : Nat) : Out := .next ((s.tileStore n a (leBytes (p.reg rs2).toNat w)).retire n op 4 0 a k p.pc none)
    (ready 1 → exec (.stb n g rs2 rs1 imm) s = gives 0x0E 1) ∧
    (ready 2 → exec (.sth n g rs2 rs1 imm) s = gives 0x0F 2) ∧
    (ready 4 → exec (.stw n g rs2 rs1 imm) s = gives 0x10 4) ∧
    (ready 8 → exec (.std n g rs2 rs1 imm) s = gives 0x11 8)

/-- The frame of the tile-memory write that every store shares. -/
def claimTileStoreFrame : Prop :=
  ∀ (p : Pav) (a : Nat) (bs : List Byte), spSorted p.tile →
    spSorted (p.store a bs).tile ∧
    (∀ x, (p.store a bs).bytes x 1 = if a ≤ x ∧ x < a + bs.length then [(bs[x - a]?).getD 0] else p.bytes x 1) ∧
    (∀ w, a ≤ 8 * w → 8 * w + 8 ≤ a + bs.length → w ∉ (p.store a bs).bad ∧ w ∉ (p.store a bs).weak) ∧
    (∀ w, 8 * w + 8 ≤ a ∨ a + bs.length ≤ 8 * w →
      (w ∈ (p.store a bs).bad ↔ w ∈ p.bad) ∧ (w ∈ (p.store a bs).weak ↔ w ∈ p.weak)) ∧
    (p.store a bs).s = p.s ∧ (p.store a bs).p = p.p ∧ (p.store a bs).v = p.v ∧ (p.store a bs).a = p.a ∧
    (p.store a bs).t = p.t ∧ (p.store a bs).pc = p.pc ∧ (p.store a bs).kern = p.kern ∧ (p.store a bs).out = p.out

/-- Scalar loads, stores, and what a store leaves alone. -/
def Obligations.ScalarStores : Prop := claimScalarStores ∧ claimTileStoreFrame ∧ claimScalarLoads

/-- R69, opcodes 0x12 to 0x14. -/
def claimBranches : Prop :=
  ∀ (s : State) (n : Nat) (g : Guard) (k : Kern) (off : BitVec 21) (rd rs1 : BitVec 5) (imm : BitVec 11), s.Issues n g k →
    let p := s.pav n
    let rel := (BitVec.ofInt 48 ((p.pc : Int) + 4 * off.toInt)).toNat
    let abs := (BitVec.ofInt 64 ((p.reg rs1).toInt + imm.toInt)).toNat
    let link := BitVec.ofNat 64 (p.pc + 4)
    let goes (op : Nat) (q : Pav) (t : Nat) : Out :=
      if k.codeLen ≤ t then .next (s.faultsAt n op k Fc.illegal 0)
      else if t % 4 ≠ 0 then .next (s.faultsAt n op k Fc.misaligned t)
      else .next ((s.setPav n q).retire n op 4 0 0 k p.pc (some t))
    exec (.br n g off) s = goes 0x12 p rel ∧
    exec (.jal n g off) s = goes 0x13 (p.setReg 31 link) rel ∧
    exec (.jr n g rd rs1 imm) s = goes 0x14 (p.setReg rd link) abs

/-- R59: CRR and CRW. -/
def claimControlRegisters : Prop :=
  ∀ (s : State) (n : Nat) (g : Guard) (k : Kern) (rd rs1 c : BitVec 5), s.Issues n g k →
    let p := s.pav n
    let v := (p.reg rs1).toNat
    let reads (x : Nat) : Out := .next (s.retires n 0x15 4 k (p.setReg rd (BitVec.ofNat 64 x)) 0 0)
    let writes (q : Pav) : Out := .next (s.retires n 0x16 4 k q 0 0)
    let illegal (op : Nat) : Out := .next (s.faultsAt n op k Fc.illegal 0)
    exec (.crr n g rd 0) s = reads k.kid ∧ exec (.crr n g rd 1) s = reads p.vl ∧ exec (.crr n g rd 2) s = reads p.rmode ∧
    exec (.crr n g rd 3) s = reads p.srJob ∧ exec (.crr n g rd 4) s = reads p.srMoor ∧ exec (.crr n g rd 5) s = reads p.srPsq ∧
    exec (.crr n g rd 6) s = reads p.eidx ∧ exec (.crr n g rd 7) s = reads p.fstat ∧ exec (.crr n g rd 8) s = reads p.digest.toNat ∧
    exec (.crr n g rd 9) s = reads p.mcnt ∧ exec (.crr n g rd 10) s = reads (s.mrcv n k) ∧
    exec (.crr n g rd 11) s = reads (s.pvc - k.startedAt) ∧ exec (.crr n g rd 12) s = reads (s.wdog k) ∧
    exec (.crr n g rd 13) s = reads (s.get F.TL_SAMPLE_CTL_EN + 2 * s.sampleExp) ∧
    exec (.crr n g rd 14) s = reads (k.evBase + 65536 * k.evCount) ∧ exec (.crr n g rd 15) s = reads n ∧
    (16 ≤ c.toNat → exec (.crr n g rd c) s = illegal 0x15) ∧
    exec (.crw n g 1 rs1) s = (if v ≤ 64 then writes { p with vl := v } else illegal 0x16) ∧
    exec (.crw n g 2 rs1) s = (if v ≤ 1 then writes { p with rmode := v } else illegal 0x16) ∧
    exec (.crw n g 3 rs1) s = (if k.bound then illegal 0x16 else writes { p with srJob := v % 4096 }) ∧
    exec (.crw n g 4 rs1) s = (if k.bound then illegal 0x16 else writes { p with srMoor := v % 16384 }) ∧
    exec (.crw n g 5 rs1) s = (if k.bound then illegal 0x16 else writes { p with srPsq := v % 2 ^ 32 }) ∧
    exec (.crw n g 6 rs1) s = writes { p with eidx := v % 2 ^ 32 } ∧
    exec (.crw n g 7 rs1) s = writes { p with fstat := v % 32 } ∧
    exec (.crw n g 8 rs1) s = writes { p with digest := p.reg rs1 } ∧
    (v ≤ s.wdog k → ∃ k', s.wdog k' = v ∧ k' = { k with wdog := v, wdogAt := k'.wdogAt } ∧
      exec (.crw n g 12 rs1) s = writes { p with kern := some k' }) ∧
    (s.wdog k < v → exec (.crw n g 12 rs1) s = illegal 0x16) ∧
    (c = 0 ∨ c = 9 ∨ c = 10 ∨ c = 11 ∨ 13 ≤ c.toNat → exec (.crw n g c rs1) s = illegal 0x16)

/-- Branches and control registers. -/
def Obligations.Branches : Prop := claimBranches ∧ claimControlRegisters

/-- R57 and R66: an instruction that is not issued or does not execute. -/
def claimNotExecutedOnlyMovesPc : Prop :=
  (∀ (i : Instr) (s : State) (n : Nat) (g : Guard) (op len : Nat), belocOf i = some (n, g, op, len) →
    (s.pav n).kern = none ∨ s.pvState n ≠ Ps.running → exec i s = .next s) ∧
  ∀ (i : Instr) (s : State) (n : Nat) (g : Guard) (op len : Nat) (k : Kern), belocOf i = some (n, g, op, len) →
    (s.pav n).kern = some k → s.pvState n = Ps.running → s.fetchBad k (s.pav n).pc = none →
    ¬(g.pred = 0 ∧ g.inv = true) → (s.pav n).guard g = false →
    exec i s = .next (s.setPav n { s.pav n with pc := ((s.pav n).pc + len) % 2 ^ 48 })

/-- R65, R66 and R208: the traps that every instruction shares. -/
def claimSharedIssueFaults : Prop :=
  ∀ (i : Instr) (s : State) (n : Nat) (g : Guard) (op len : Nat) (k : Kern), belocOf i = some (n, g, op, len) →
    (s.pav n).kern = some k → s.pvState n = Ps.running →
    let pc := (s.pav n).pc
    (∀ l, s.fetchBad k pc = some l → exec i s = .next ((s.touchLine 0 l).raiseFault n Fc.data 0 pc (64 * l))) ∧
    (s.fetchBad k pc = none →
      (g.pred = 0 → g.inv = true → exec i s = .next (s.faultsAt n op k Fc.illegal 0)) ∧
      (¬(g.pred = 0 ∧ g.inv = true) → (s.pav n).guard g = true → len = 8 → pc % 8 ≠ 0 →
        exec i s = .next (s.faultsAt n op k Fc.misaligned pc))) ∧
    (∀ im, spGet none s.pv.images k.kid = some im → s.fetchBad k pc =
      if pc < k.codeLen ∧ s.dockBad ((im.place + 64 + pc) / 64) = true then some ((im.place + 64 + pc) / 64) else none)

/-- R65: ILLEGAL_OPCODE. -/
def claimUnassignedOpcodes : Prop :=
  (∀ (s : State) (n : Nat) (k : Kern) (w : Word64), (s.pav n).kern = some k → s.pvState n = Ps.running →
    s.fetchBad k (s.pav n).pc = none →
    let op := w.toNat % 128
    let g : Guard := ⟨BitVec.ofNat 3 (w.toNat / 128), w.getLsbD 10⟩
    let nope : Prop := g.pred = 0 ∧ g.inv = true
    let apart : Prop := 0x60 ≤ op ∧ (s.pav n).pc % 8 ≠ 0
    assigned (if op < 0x60 then BitVec.ofNat 64 (w.toNat % 2 ^ 32) else w) = false →
    (nope → exec (.illegalOpcode n w) s = .next (s.faultsAt n op k Fc.illegal 0)) ∧
    (¬nope → (s.pav n).guard g = true → ¬apart → exec (.illegalOpcode n w) s = .next (s.faultsAt n op k Fc.illegal 0)) ∧
    (¬nope → (s.pav n).guard g = true → apart →
      exec (.illegalOpcode n w) s = .next (s.faultsAt n op k Fc.misaligned (s.pav n).pc)) ∧
    (¬nope → (s.pav n).guard g = false → exec (.illegalOpcode n w) s =
      .next (s.setPav n { s.pav n with pc := ((s.pav n).pc + (if op < 0x60 then 4 else 8)) % 2 ^ 48 }))) ∧
  (∀ (w : Word64), w.toNat % 128 = 0 → assigned w = false) ∧ assigned 0x00000035_6B0CD060#64 = true ∧
  (∃ f, belocWord 0x2#64 = some f ∧ ∀ n s, f n s = exec (.addi n ⟨0, false⟩ 0 0 0) s) ∧
  (∃ f, belocWord 0x00E62801#64 = some f ∧ ∀ n s, f n s = exec (.add n ⟨0, false⟩ 5 6 7) s) ∧
  (∃ f, belocWord 0xFFFFE192#64 = some f ∧ ∀ n s, f n s = exec (.br n ⟨3, false⟩ (BitVec.ofInt 21 (-4))) s)

/-- What does not execute, faults at issue, and the opcodes that stand for no instruction. -/
def Obligations.SharedIssueFaults : Prop := claimSharedIssueFaults ∧ claimUnassignedOpcodes ∧ claimNotExecutedOnlyMovesPc

/-- R96: the sampling gap. -/
def Obligations.RetireAndSampling : Prop :=
  ∀ (s : State) (n op len tag addr pc : Nat) (k : Kern) (dest issue : Option Nat),
    let next := (dest.getD (pc + len)) % 2 ^ 48
    let moved := s.mapPav n fun p => { p with pc := next }
    (s.pvState n ≠ Ps.faulted →
      (s.get F.TL_SAMPLE_CTL_EN = 0 → s.retire n op len tag addr k pc dest issue = moved) ∧
      (s.get F.TL_SAMPLE_CTL_EN ≠ 0 → 1 < (s.pav n).gap →
        s.retire n op len tag addr k pc dest issue = moved.setPav n { s.pav n with pc := next, gap := (s.pav n).gap - 1 }) ∧
      (s.get F.TL_SAMPLE_CTL_EN ≠ 0 → (s.pav n).gap ≤ 1 → s.get F.TL_SAMPLE_RING_EN = 0 → tag = 0 →
        let d := drawGap s.sampleExp 4096 (s.pav n).gen
        s.retire n op len tag addr k pc dest issue =
          { moved.setPav n { s.pav n with pc := next, gap := d.1, gen := d.2 } with freeCtr := s.freeCtr + 1 })) ∧
    (s.pvState n = Ps.faulted → s.get F.TL_SAMPLE_CTL_EN = 0 → s.retire n op len tag addr k pc dest issue = s)

/-- The rows of op 0x20 and, with a scalar second operand, of op 0x22, in the order of R70's table, with what each does. -/
def vectorRows : List ((Nat → Guard → BitVec 2 → BitVec 5 → BitVec 5 → BitVec 5 → Instr) ×
    (Nat → Guard → BitVec 2 → BitVec 5 → BitVec 5 → BitVec 5 → Instr) × VOp) :=
  [(.vadd, .vaddS, .add), (.vsub, .vsubS, .sub), (.vmul, .vmulS, .mul), (.vmax, .vmaxS, .max), (.vmin, .vminS, .min),
   (.vand, .vandS, .and), (.vor, .vorS, .or), (.vxor, .vxorS, .xor), (.vsll, .vsllS, .sll), (.vsrl, .vsrlS, .srl),
   (.vsra, .vsraS, .sra)]

/-- R70, opcodes 0x20 (functions 0x0 to 0xA) and 0x22. -/
def claimVectorArithmetic : Prop :=
  ∀ row ∈ vectorRows, ∀ (s : State) (n : Nat) (g : Guard) (k : Kern) (ty : BitVec 2) (vd vs1 vs2 : BitVec 5), s.Issues n g k →
    let p := s.pav n
    let o := row.2.2
    let allowed : Prop := o ∈ [VOp.add, .sub, .mul, .max, .min] ∨ ty = 3
    let scalar := if ty = 1 ∨ ty = 2 then BitVec.ofNat 32 ((p.reg vs2).toNat % 65536 * 65537) else (p.reg vs2).setWidth 32
    (allowed →
      exec (row.1 n g ty vd vs1 vs2) s =
        .next (s.retiresVec n 0x20 k (p.mapLanes ty vd (fun i => [p.lane vs1 i, p.lane vs2 i]) (o.elem ty))) ∧
      exec (row.2.1 n g ty vd vs1 vs2) s =
        .next (s.retiresVec n 0x22 k (p.mapLanes ty vd (fun i => [p.lane vs1 i, scalar]) (o.elem ty)))) ∧
    (¬allowed →
      exec (row.1 n g ty vd vs1 vs2) s = .next (s.faultsAt n 0x20 k Fc.illegal 0) ∧
      exec (row.2.1 n g ty vd vs1 vs2) s = .next (s.faultsAt n 0x22 k Fc.illegal 0))

/-- R70: functions 0xB and 0xC of opcode 0x20, and opcode 0x21. -/
def claimVectorRoundedOnce : Prop :=
  ∀ (s : State) (n : Nat) (g : Guard) (k : Kern) (ty : BitVec 2) (vd vs1 vs2 : BitVec 5), s.Issues n g k →
    let p := s.pav n
    let f := typeFmt ty
    let val (l : List Nat) (j : Nat) : Val := decodeVal f ((l[j]?).getD 0)
    let made (op : Nat) (i : Instr) (srcs : Nat → List Word32) (v : List Nat → Val) : Prop :=
      (ty ≠ 3 → ∃ h : List Nat → Nat × Nat, (∀ l, (h l).1 = roundIeee f .rne (v l)) ∧
        exec i s = .next (s.retiresVec n op k (p.mapLanes ty vd srcs h))) ∧
      (ty = 3 → exec i s = .next (s.faultsAt n op k Fc.illegal 0))
    let one (i : Nat) := [p.lane vs1 i]
    let two (i : Nat) := [p.lane vs1 i, p.lane vs2 i]
    let three (i : Nat) := [p.lane vd i, p.lane vs1 i, p.lane vs2 i]
    made 0x20 (.vsqrt n g ty vd vs1) one (fun l => (val l 0).sqrt) ∧
    made 0x20 (.vdiv n g ty vd vs1 vs2) two (fun l => (val l 0).div (val l 1)) ∧
    made 0x21 (.vfma n g ty vd vs1 vs2) three (fun l => ((val l 1).mul (val l 2)).add (val l 0)) ∧
    made 0x21 (.vfnma n g ty vd vs1 vs2) three (fun l => ((val l 1).mul (val l 2)).neg.add (val l 0)) ∧
    made 0x21 (.vfms n g ty vd vs1 vs2) three (fun l => ((val l 1).mul (val l 2)).add (val l 0).neg)

/-- R70: lanes at and above VL keep their value; INT32 arithmetic is modulo 2^32. -/
def claimVectorLaneFrame : Prop :=
  (∀ (p : Pav) (ty : BitVec 2) (vd : BitVec 5) (srcs : Nat → List Word32) (f : List Nat → Nat × Nat), spSorted p.v → p.vl ≤ 64 →
    let q := p.mapLanes ty vd srcs f
    spSorted q.v ∧ (∀ i, i < p.vl → q.lane vd i = (laneResult ty f (srcs i)).1) ∧
    (∀ i, p.vl ≤ i → i < 64 → q.lane vd i = p.lane vd i) ∧ (∀ r i, r ≠ vd → i < 64 → q.lane r i = p.lane r i) ∧
    q.s = p.s ∧ q.p = p.p ∧ q.a = p.a ∧ q.t = p.t ∧ q.tile = p.tile ∧ q.pc = p.pc ∧ q.digest = p.digest ∧ q.eidx = p.eidx) ∧
  (∀ (a b : Word32),
    let r (o : VOp) := (laneResult 3 (o.elem 3) [a, b]).1
    r .add = a + b ∧ r .sub = a - b ∧ r .mul = a * b ∧ r .max = BitVec.ofInt 32 (max a.toInt b.toInt) ∧
    r .min = BitVec.ofInt 32 (min a.toInt b.toInt) ∧ r .and = a &&& b ∧ r .or = a ||| b ∧ r .xor = a ^^^ b ∧
    r .sll = a <<< (b.toNat % 32) ∧ r .srl = a >>> (b.toNat % 32) ∧ r .sra = a.sshiftRight (b.toNat % 32)) ∧
  (∀ (o : VOp) (ty : BitVec 2) (a b : Word32), ty = 1 ∨ ty = 2 →
    let lo := (o.float (typeFmt ty) (a.toNat % 65536) (b.toNat % 65536)).1
    let hi := (o.float (typeFmt ty) (a.toNat / 65536) (b.toNat / 65536)).1
    (laneResult ty (o.elem ty) [a, b]).1 = BitVec.ofNat 32 (lo % 65536 + 65536 * hi))

/-- R70: opcodes 0x24 to 0x26, 0x28 and 0x2A. -/
def claimVectorMoves : Prop :=
  ∀ (s : State) (n : Nat) (g : Guard) (k : Kern) (vd vs1 rd rs1 : BitVec 5) (imm : BitVec 11) (lane : BitVec 6) (r : BitVec 4)
    (tile : BitVec 3), s.Issues n g k →
    let p := s.pav n
    let a := (BitVec.ofInt 64 ((p.reg rs1).toInt + 64 * imm.toInt)).toNat
    let word := (p.reg rs1).setWidth 32
    let free := ∀ o ∈ p.out, ∀ arr sp q cells, o.op ≠ .product arr tile.toNat sp q cells
    (p.vl = 0 → exec (.vld n g vd rs1 imm) s = .next (s.retires n 0x24 4 k p 0 0) ∧
      exec (.vst n g vd rs1 imm) s = .next (s.retires n 0x25 4 k p 0 0)) ∧
    (0 < p.vl → a % 64 = 0 → p.serves a (4 * p.vl) →
      (p.badWord a (4 * p.vl) = none → exec (.vld n g vd rs1 imm) s =
        .next (((s.countTile n a (4 * p.vl)).setPav n (p.setLanes vd ((List.range p.vl).map fun i =>
          BitVec.ofNat 32 (leNat (((p.bytes a (4 * p.vl)).drop (4 * i)).take 4))))).retire n 0x24 4 0 a k p.pc none)) ∧
      exec (.vst n g vd rs1 imm) s =
        .next ((s.tileStore n a ((List.range p.vl).flatMap fun i => leBytes (p.lane vd i).toNat 4)).retire n 0x25 4 0 a k p.pc none)) ∧
    exec (.vbc n g vd rs1) s = .next (s.retiresVec n 0x26 k (p.setLanes vd (List.replicate p.vl word))) ∧
    exec (.vget n g rd vs1 lane) s = .next (s.retiresVec n 0x28 k (p.setReg rd ((p.lane vs1 lane.toNat).setWidth 64))) ∧
    exec (.vset n g vd rs1 lane) s = .next (s.retiresVec n 0x28 k (p.setLane vd lane.toNat word)) ∧
    (free →
      exec (.trd n g r tile vd) s = .next (s.retiresVec n 0x2A k (p.setLanes vd ((List.range 64).map fun i =>
        p.cell tile.toNat (2 * r.toNat + i / 32) (i % 32)))) ∧
      exec (.twr n g r tile vd) s = .next (s.retiresVec n 0x2A k ((List.range 64).foldl (fun q i =>
        q.setCell tile.toNat (2 * r.toNat + i / 32) (i % 32) (p.lane vd i)) p)) ∧
      exec (.tclr n g tile) s = .next (s.retiresVec n 0x2A k { p with t := p.t.filter fun c => c.1 / 1024 ≠ tile.toNat }))

/-- Vector moves, and the lanes of a vector result. -/
def Obligations.VectorMoves : Prop := claimVectorMoves ∧ claimVectorLaneFrame

/-- R72: the tree of VRED. -/
def Obligations.VredTree : Prop :=
  (∀ (s : State) (n : Nat) (g : Guard) (k : Kern) (fn : BitVec 2) (rd vs1 : BitVec 5), s.Issues n g k →
    let p := s.pav n
    let f (a b : Nat) : Nat × Nat :=
      if fn = 0 then VOp.float .add .fp32 a b else if fn = 1 then VOp.float .max .fp32 a b
      else if fn = 2 then VOp.float .min .fp32 a b else ((a + b) % 2 ^ 32, 0)
    let r := treeOf f 7 ((List.range p.vl).map fun i => (p.lane vs1 i).toNat)
    exec (.vred n g fn rd vs1) s = .next (s.retiresVec n 0x27 k { p.setReg rd (BitVec.ofNat 64 r.1) with fstat := p.fstat ||| r.2 }) ∧
    (p.vl = 0 → r = (0, 0))) ∧
  (∀ (f : Nat → Nat → Nat × Nat) (m : Nat) (l : List Nat), l.length ≤ 2 ^ m →
    (l.length ≤ 1 → treeOf f m l = ((l.head?).getD 0, 0)) ∧
    (1 < l.length → ∃ up : List Nat, up.length = (l.length + 1) / 2 ∧
      (∀ j, 2 * j + 1 < l.length → up[j]? = some (f ((l[2 * j]?).getD 0) ((l[2 * j + 1]?).getD 0)).1) ∧
      (l.length % 2 = 1 → up[l.length / 2]? = l[l.length - 1]?) ∧ (treeOf f m l).1 = (treeOf f (m - 1) up).1))

/-- R73. -/
def Obligations.VdgFold : Prop :=
  ∀ (s : State) (n : Nat) (g : Guard) (k : Kern) (vs1 : BitVec 5), s.Issues n g k →
    let p := s.pav n
    let w (j : Nat) : Word64 :=
      (p.lane vs1 (2 * j)).setWidth 64 ||| (if 2 * j + 1 < p.vl then (p.lane vs1 (2 * j + 1)).setWidth 64 <<< 32 else 0)
    exec (.vdg n g vs1) s =
      .next (s.retiresVec n 0x29 k { p with digest := (List.range ((p.vl + 1) / 2)).foldl (fun d j => mix (d ^^^ w j)) p.digest })

/-- R71. -/
def claimVcvtConversions : Prop :=
  ∀ (s : State) (n : Nat) (g : Guard) (k : Kern) (dst src : BitVec 4) (vd vs1 : BitVec 5), s.Issues n g k →
    let p := s.pav n
    let ints (f : Fmt) := f = .int32 ∨ f = .int8
    let ieee (f : Fmt) := f = .fp32 ∨ f = .bf16 ∨ f = .fp16
    let mx (f : Fmt) := ¬ints f ∧ ¬ieee f
    let listed (f d : Fmt) := f ≠ d ∧ ((¬mx f ∧ ¬mx d) ∨ (ieee f ∧ mx d) ∨ (mx f ∧ ieee d))
    (∀ f d, Fmt.ofCode src.toNat = some f → Fmt.ofCode dst.toNat = some d → listed f d →
      let es := readElems f p.vl (p.vecBytes vs1)
      let q := p.writeElems d vd (es.map (·.2))
      let q' := if p.rmode = 1 then { q with eidx := (p.eidx + p.vl) % 2 ^ 32 } else q
      (p.vl = 0 → exec (.vcvt n g dst src vd vs1) s = .next (s.retiresVec n 0x23 k p)) ∧
      (0 < p.vl → mx d → exec (.vcvt n g dst src vd vs1) s =
        .next (({ s with freeCtr := s.freeCtr + 1 } : State).retiresVec n 0x23 k
          { q' with fstat := p.fstat ||| ((Config.freeValue s.freeCtr).toNat % 32) })) ∧
      (0 < p.vl → ¬mx d → exec (.vcvt n g dst src vd vs1) s =
        .next (s.retiresVec n 0x23 k { q' with fstat := p.fstat ||| ((es.zipIdx).map fun x =>
          cvtFlags f d (p.rnd x.2) x.1.1 x.1.2 (roundVal d (p.rnd x.2) x.1.2)).foldl (· ||| ·) 0 }))) ∧
    ((Fmt.ofCode src.toNat = none ∨ Fmt.ofCode dst.toNat = none ∨
        ∃ f d, Fmt.ofCode src.toNat = some f ∧ Fmt.ofCode dst.toNat = some d ∧ ¬listed f d) →
      exec (.vcvt n g dst src vd vs1) s = .next (s.faultsAt n 0x23 k Fc.illegal 0))

/-- Vector arithmetic and conversions, each result rounded once. -/
def Obligations.VectorArithmetic : Prop := claimVectorArithmetic ∧ claimVectorRoundedOnce ∧ claimVcvtConversions

/-- R74. -/
def claimExactInstructions : Prop :=
  ∀ (s : State) (n : Nat) (g : Guard) (k : Kern) (fmt : BitVec 4) (vs vd rs1 : BitVec 5) (a : BitVec 3), s.Issues n g k →
    let p := s.pav n
    let b := (p.reg rs1).toNat
    let bs := p.bytes b 2592
    let blk := blockLane bs
    let ready := b % 64 = 0 ∧ p.serves b 2592 ∧ p.badWord b 2592 = none
    let reads := s.countTile n b 2592
    let addsTo (f : Fmt) (lane : Nat → Exact) := p.accumulate f vs lane
    (∀ f, Fmt.ofCode fmt.toNat = some f → f ≠ .int8 →
      (exec (.xacc n g fmt vs a) s =
        .next (((s.setPav n ((List.range p.vl).foldl (fun q i => q.setAcc a i ((addsTo f (p.acc a)).1 i)) p)).bump
          F.PV_XRANGE_COUNT [] (addsTo f (p.acc a)).2).retire n 0x30 4 0 0 k p.pc none)) ∧
      exec (.xrnd n g fmt a vd) s = .next ((s.roundOut n p f vd (p.acc a)).retire n 0x31 4 0 0 k p.pc none) ∧
      (p.vl = 0 → exec (.xacct n g fmt vs rs1) s = .next (s.retires n 0x33 4 k p 0 0) ∧
        exec (.xrndt n g fmt rs1 vd) s = .next (s.retires n 0x34 4 k p 0 0)) ∧
      (0 < p.vl → ready →
        exec (.xacct n g fmt vs rs1) s =
          .next (((reads.tileStore n b (blockBytes (addsTo f blk).1)).bump F.PV_XRANGE_COUNT [] (addsTo f blk).2).retire n 0x33 4 0 b
            k p.pc none) ∧
        exec (.xrndt n g fmt rs1 vd) s = .next ((reads.roundOut n p f vd blk).retire n 0x34 4 0 b k p.pc none))) ∧
    (Fmt.ofCode fmt.toNat = none ∨ Fmt.ofCode fmt.toNat = some .int8 →
      exec (.xacc n g fmt vs a) s = .next (s.faultsAt n 0x30 k Fc.illegal 0) ∧
      exec (.xrnd n g fmt a vd) s = .next (s.faultsAt n 0x31 k Fc.illegal 0) ∧
      exec (.xacct n g fmt vs rs1) s = .next (s.faultsAt n 0x33 k Fc.illegal 0) ∧
      exec (.xrndt n g fmt rs1 vd) s = .next (s.faultsAt n 0x34 k Fc.illegal 0)) ∧
    exec (.xclr n g a) s = .next (s.retires n 0x32 4 k { p with a := p.a.filter fun x => x.1 / 64 ≠ a.toNat } 0 0) ∧
    (ready → exec (.xlda n g rs1 a) s =
      .next ((reads.setPav n ((List.range 64).foldl (fun q i => q.setAcc a i (blk i)) p)).retire n 0x35 4 0 b k p.pc none)) ∧
    (b % 64 = 0 → p.serves b 2592 →
      exec (.xsta n g rs1 a) s = .next ((s.tileStore n b (blockBytes (p.acc a))).retire n 0x36 4 0 b k p.pc none) ∧
      exec (.xclrt n g rs1) s = .next ((s.tileStore n b (List.replicate 2592 0)).retire n 0x37 4 0 b k p.pc none))

/-- R47, R48 and the block layout of R74. -/
def claimExactBlocks : Prop :=
  (∀ (lane : Nat → Exact), (blockBytes lane).length = 2592 ∧ ∀ i, i < 64 → blockLane (blockBytes lane) i = lane i) ∧
  (∀ (x : Exact) (v w : Val), (((x.add v).1.add w).1) = (((x.add w).1.add v).1)) ∧
  (∀ (x : Exact), (x.add .nan).1 = { x with nan := true } ∧ (x.add (.inf false)).1 = { x with pinf := true } ∧
    (x.add (.inf true)).1 = { x with ninf := true }) ∧
  (∀ (x : Exact) (neg : Bool) (m : Nat) (e : Int), -160 ≤ e → m * 2 ^ (e + 160).toNat < 2 ^ 296 →
    (x.add (.fin neg m e)).1 = { x with word := x.word + BitVec.ofInt 320 ((if neg then -1 else 1) * (m * 2 ^ (e + 160).toNat : Nat)) } ∧
    (x.add (.fin neg m e)).2 = false)

/-- The exact accumulators and their blocks in memory. -/
def Obligations.ExactInstructions : Prop := claimExactInstructions ∧ claimExactBlocks

/-- R76. -/
def Obligations.TensorInstructions : Prop :=
  (∀ (s : State) (n : Nat) (g : Guard) (k : Kern) (td : BitVec 3) (acc split array : Bool) (quad : BitVec 2) (fmt : BitVec 4)
    (ra rb rk rt : BitVec 5), s.Issues n g k → (s.pav n).pc % 8 = 0 →
    let p := s.pav n
    let a := (p.reg ra).toNat
    let b := (p.reg rb).toNat
    let steps := (p.reg rk).toNat
    let arr := array.toNat
    let mma : Instr := .mma n g td acc split array quad fmt ra rb rk rt
    let w := if split then 16 else 32
    (mmaFmt fmt = none ∨ 65535 < steps ∨ (quad ≠ 0 ∧ split = false) → exec mma s = .next (s.faultsAt n 0x60 k Fc.illegal 0)) ∧
    (∀ f, mmaFmt fmt = some f → steps ≤ 65535 → (quad = 0 ∨ split = true) →
      let len := (if f.isMx then roundUp ((w * steps * f.width + 7) / 8) 64 + w * ((steps + 31) / 32) else (w * steps * f.width + 7) / 8)
      (a % 64 ≠ 0 → exec mma s = .next (s.faultsAt n 0x60 k Fc.misaligned a)) ∧
      (a % 64 = 0 → b % 64 ≠ 0 → exec mma s = .next (s.faultsAt n 0x60 k Fc.misaligned b)) ∧
      (a % 64 = 0 → b % 64 = 0 → (p.products arr).length < 4 → p.tagBusy = false → p.rangeBusy a len = false →
        p.rangeBusy b len = false → p.quadBusy td.toNat split quad.toNat = false →
        (split = true ∨ ∀ o ∈ p.products arr, ∀ x y q c, o.op ≠ .product x y true q c) →
        let bad := (p.panelFault a len).orElse fun _ => p.panelFault b len
        let cells := if bad.isSome then [] else p.productCells td.toNat acc split quad.toNat f steps (p.bytes a len) (p.bytes b len)
        let q := p.takeTag rt (some (.product arr td.toNat split quad.toNat cells)) bad
        let t := ((s.countTile n a (min len (tileSize - a))).countTile n b (min len (tileSize - b)))
        let u : State := { t with freeCtr := t.freeCtr + 1 }
        exec mma s = .next ((((u.setPav n { q with fstat := q.fstat ||| ((Config.freeValue t.freeCtr).toNat % 32) }).present n arr
          s.pvc).put (splitFld arr) [n] split.toNat).retire n 0x60 8 p.nextTag a k p.pc none))) ∧
    (p.tagBusy = false → exec (.tpf n g array rt) s =
      .next (((s.setPav n (p.takeTag rt none none)).present n arr (s.pvc + 256)).retire n 0x61 8 p.nextTag 0 k p.pc none))) ∧
  ∀ (s : State) (n : Nat) (g : Guard) (k : Kern) (td : BitVec 3) (ra rt : BitVec 5), s.Issues n g k → (s.pav n).pc % 8 = 0 →
    let p := s.pav n
    let a := (p.reg ra).toNat
    let q := p.takeTag rt none none
    let t := td.toNat
    let past (x : State) := x.mapPav n fun p => { p with pc := (p.pc + 8) % 2 ^ 48 }
    let tagged (op cls addr : Nat) (x : State) : Out :=
      .next (((past x).sampleOne n p.pc op p.nextTag k true addr).raiseFault n cls p.nextTag p.pc addr)
    (a % 64 ≠ 0 → exec (.tst n g td ra rt) s = .next (s.faultsAt n 0x62 k Fc.misaligned a) ∧
      exec (.tld n g td ra rt) s = .next (s.faultsAt n 0x63 k Fc.misaligned a)) ∧
    (a % 64 = 0 → p.tagBusy = false → p.tileBusy t = false → p.rangeBusy a 4096 = false →
      (tileSize < a + 4096 →
        exec (.tst n g td ra rt) s = tagged 0x62 Fc.tileRange (max a tileSize) (s.setPav n q) ∧
        exec (.tld n g td ra rt) s = tagged 0x63 Fc.tileRange (max a tileSize) (s.setPav n q)) ∧
      (a + 4096 ≤ tileSize →
        exec (.tst n g td ra rt) s =
          .next (((s.setPav n q).tileStore n a ((List.range 1024).flatMap fun i =>
            leBytes (p.cell t (i / 32) (i % 32)).toNat 4)).retire n 0x62 8 p.nextTag a k p.pc none) ∧
        (∀ w, p.badWord a 4096 = some w →
          exec (.tld n g td ra rt) s = tagged 0x63 Fc.tileUncorr (8 * w) ((s.countTile n a 4096).setPav n q)) ∧
        (p.badWord a 4096 = none →
          exec (.tld n g td ra rt) s =
            .next (((s.countTile n a 4096).setPav n ((List.range 1024).foldl (fun q i =>
              q.setCell t (i / 32) (i % 32) (BitVec.ofNat 32 (leNat (((p.bytes a 4096).drop (4 * i)).take 4)))) q)).retire n 0x63 8
                p.nextTag a k p.pc none))))

/-- R78, R80 and R81: XLD, XST and PMC. -/
def Obligations.TransfersIssue : Prop :=
  (∀ (s : State) (n : Nat) (g : Guard) (k : Kern) (rt rl rm ra : BitVec 5), s.Issues n g k → (s.pav n).pc % 8 = 0 →
    let p := s.pav n
    let len := (p.reg rl).toNat
    let t := (p.reg rm).toNat
    let a := p.reg ra
    let off := a.toNat % 2 ^ 48
    let both (x y : Out) : Prop := exec (.xld n g rt rl rm ra) s = x ∧ exec (.xst n g rt rl rm ra) s = y
    (524288 < len → both (.next (s.faultsAt n 0x68 k Fc.illegal 0)) (.next (s.faultsAt n 0x69 k Fc.illegal 0))) ∧
    (len ≤ 524288 → len ≠ 0 → len % 64 ≠ 0 ∨ t % 64 ≠ 0 →
      both (.next (s.faultsAt n 0x68 k Fc.misaligned t)) (.next (s.faultsAt n 0x69 k Fc.misaligned t))) ∧
    (len ≤ 524288 → len ≠ 0 → len % 64 = 0 → t % 64 = 0 → off % 64 ≠ 0 →
      both (.next (s.faultsAt n 0x68 k Fc.misaligned a.toNat)) (.next (s.faultsAt n 0x69 k Fc.misaligned a.toNat))) ∧
    (len ≤ 524288 → len = 0 ∨ (len % 64 = 0 ∧ t % 64 = 0 ∧ off % 64 = 0) → p.transfers < 32 → p.tagBusy = false →
      p.rangeBusy t len = false →
      (len = 0 →
        both (.next ((s.setPav n (p.takeTag rt none none)).retire n 0x68 8 p.nextTag 0 k p.pc none))
          (.next ((s.setPav n (p.takeTag rt none none)).retire n 0x69 8 p.nextTag 0 k p.pc none))) ∧
      (len ≠ 0 →
        let seg := k.seg (a.toNat / 2 ^ 61)
        let fits := a.toNat / 2 ^ 48 % 2 ^ 13 = 0 ∧ off + len ≤ seg.len
        let badOf (write : Bool) : Option (Nat × Nat) :=
          if tileSize < t + len then some (Fc.tileRange, max t tileSize)
          else if fits ∧ (if write then seg.write else seg.read) = true then none else some (Fc.denied, seg.base + off)
        let badX := badOf false
        let badS := (badOf true).orElse fun _ => (p.badWord t len).map fun w => (Fc.tileUncorr, 8 * w)
        let bs := if badS.isSome then [] else p.bytes t len
        let q := p.takeTag rt (some (.xst a bs)) badS
        let q' := if badS = none ∧ k.bound = true ∧ a.toNat / 2 ^ 61 ≤ 1 then
            { q with kern := some { k with staged := k.staged ++ [(a.toNat / 2 ^ 61, off, bs)] } } else q
        both (.next ((s.setPav n (p.takeTag rt (some (.xld a t len)) badX)).retire n 0x68 8 p.nextTag a.toNat k p.pc none))
          (.next (((s.countTile n t (min len (tileSize - t))).setPav n q').retire n 0x69 8 p.nextTag a.toNat k p.pc none))))) ∧
  ∀ (s : State) (n : Nat) (g : Guard) (k : Kern) (dir : Bool) (rt rl rm rd : BitVec 5), s.Issues n g k → (s.pav n).pc % 8 = 0 →
    let p := s.pav n
    let len := (p.reg rl).toNat
    let t := (p.reg rm).toNat
    let d := (p.reg rd).toNat
    let pmc : Instr := .pmc n g dir rt rl rm rd
    (65536 < len → exec pmc s = .next (s.faultsAt n 0x70 k Fc.illegal 0)) ∧
    (len ≤ 65536 → len % 64 ≠ 0 ∨ t % 64 ≠ 0 → exec pmc s = .next (s.faultsAt n 0x70 k Fc.misaligned t)) ∧
    (len ≤ 65536 → len % 64 = 0 → t % 64 = 0 → d % 64 ≠ 0 → exec pmc s = .next (s.faultsAt n 0x70 k Fc.misaligned d)) ∧
    (len ≤ 65536 → len % 64 = 0 → t % 64 = 0 → d % 64 = 0 → p.transfers < 32 → p.tagBusy = false → p.rangeBusy t len = false →
      let bad := if len = 0 then none
        else if tileSize < t + len then some (Fc.tileRange, max t tileSize)
        else if tileSize < d + len then some (Fc.tileRange, max d tileSize)
        else if k.bound = true ∧ (overlaps d len k.arrwBase (4096 * k.arrwSlots) = true ∨ overlaps d len 0x7FC00 0x400 = true) then
          some (Fc.tileRange, d)
        else (p.badWord t len).map fun w => (Fc.tileUncorr, 8 * w)
      let site := if dir then F.PV_SITE_COL else F.PV_SITE_ROW
      let rcv := k.group.filter fun m => m ≠ n ∧ s.get site [m] = s.get site [n]
      let u := s.countTile n t (min len (tileSize - t))
      exec pmc s = .next ((u.setPav n (if bad = none ∧ rcv = [] then p.takeTag rt none none
        else p.takeTag rt (some (.pmc d (if bad = none then p.bytes t len else []) rcv)) bad)).retire n 0x70 8 p.nextTag t k p.pc none))

/-- R39, R76, R78 to R82: the events that end outstanding instructions, and the arrays' levels. -/
def Obligations.OutstandingCompletes : Prop :=
  (∀ (s : State) (n tag : Nat) (o : Outst) (k : Kern), (s.pav n).outst tag = some o → (s.pav n).kern = some k →
    let p := s.pav n
    let gone := (s.dropOut n tag).sampleOut o false
    (∀ array td sp q cells, o.op = .product array td sp q cells → o.bad = none → s.pvc < spGet 0 p.shown array →
      o.sample = none →
      exec (.productDrain n tag) s = .next ((s.dropOut n tag).mapPav n fun p =>
        { p with t := cells.foldl (fun m c => spPut 0 m (1024 * td + c.1) c.2) p.t })) ∧
    (∀ cls addr array td sp q cells, o.op = .product array td sp q cells → o.bad = some (cls, addr) →
      exec (.productDrain n tag) s = .next (((s.dropOut n tag).sampleOut o true).raiseFault n cls o.tag o.pc addr)) ∧
    (∀ a t len bs u, o.op = .xld a t len → o.bad = none → p.mustWait k o = false →
      (k.bound = true → xferSeg a = 1 → s.stagedBefore k (xferOff a) len = false) → s.fetch k a len false = (u, .ok bs) →
      exec (.transferComplete n tag false) s = .next (((u.dropOut n tag).sampleOut o false).tileStore n t bs)) ∧
    (∀ a bs, o.op = .xst a bs → o.bad = none → p.mustWait k o = false →
      (k.stages a = true → exec (.transferComplete n tag false) s = .next gone) ∧
      (k.stages a = false → (k.seg (xferSeg a)).space = 1 →
        exec (.transferComplete n tag false) s = .next (gone.slipWrite (k.place a) bs)) ∧
      (k.stages a = false → (k.seg (xferSeg a)).space ≠ 1 →
        ((k.seg (xferSeg a)).space = 2 → s.protects (k.place a) bs.length = false) →
        exec (.transferComplete n tag false) s = .next (gone.memWrite (k.seg (xferSeg a)).space (k.place a) bs))) ∧
    (∀ a t len cls addr, o.op = .xld a t len → o.bad = some (cls, addr) → p.mustWait k o = false →
      exec (.transferComplete n tag false) s = .next (((s.dropOut n tag).sampleOut o true).raiseFault n cls o.tag o.pc addr)) ∧
    (∀ t bs left r, o.op = .pmc t bs left → o.bad = none → r ∈ left → s.pvState r ≠ Ps.faulted →
      let put := (s.tileStore r t bs).mapPav r fun p => { p with mcnt := (p.mcnt + 1) % 2 ^ 64 }
      (left.erase r = [] → exec (.multicastArrival n tag r) s = .next ((put.dropOut n tag).sampleOut o false)) ∧
      (left.erase r ≠ [] → exec (.multicastArrival n tag r) s = .next (put.mapPav n fun p =>
        { p with out := p.out.map fun q => if q.tag = tag then { q with op := .pmc t bs (left.erase r) } else q })))) ∧
  ∀ (s : State) (n : Nat) (array : Bool),
    let arr := array.toNat
    let f := if array then F.PV_RUN_LEVEL1 else F.PV_RUN_LEVEL0
    let l := s.get f [n]
    let p := s.pav n
    let moved := spGet 0 p.ramp arr
    let goes (x : Nat) : Out := .next ((s.put f [n] x).mapPav n fun p => { p with ramp := spPut 0 p.ramp arr s.pvc })
    let shown := (∃ o ∈ p.out, ∃ td sp q c, o.op = .product arr td sp q c) ∨ s.pvc < spGet 0 p.shown arr
    (l < 4 → shown → (l = 0 ∨ moved + 8 ≤ s.pvc) → exec (.arrayRampUp n array) s = goes (l + 1)) ∧
    (0 < l → ¬shown → spGet 0 p.shown arr + 8 ≤ s.pvc → moved + 8 ≤ s.pvc → exec (.arrayRampDown n array) s = goes (l - 1))

/-- R83, R84 and R95. -/
def claimSynchronisation : Prop :=
  ∀ (s : State) (n : Nat) (g : Guard) (k : Kern) (rs1 rs2 rd re : BitVec 5) (mask : BitVec 3) (code : BitVec 8), s.Issues n g k →
    let p := s.pav n
    let x := (p.reg rs1).toNat
    let y := (p.reg rs2).toNat
    let ends (op : Nat) (t : State) : Out := .next (t.retire n op 4 0 0 k p.pc none)
    let waits (w : PvWait) : Out := .next ((s.mapPav n fun p => { p with wait := some w, issueAt := s.pvc }).setPvState n Ps.waiting)
    let idleIn (m : Nat) : Prop := p.fenceMet m = true
    (k.evCount ≤ x → exec (.waite n g rs1 rs2) s = .next (s.faultsAt n 0x38 k Fc.illegal 0) ∧
      exec (.sige n g rs1 rs2) s = .next (s.faultsAt n 0x39 k Fc.illegal 0)) ∧
    (x < k.evCount →
      (y ≤ s.evVal (k.evBase + x) → exec (.waite n g rs1 rs2) s = ends 0x38 s) ∧
      (s.evVal (k.evBase + x) < y → exec (.waite n g rs1 rs2) s = waits (.event (k.evBase + x) y)) ∧
      (idleIn 7 → exec (.sige n g rs1 rs2) s = ends 0x39 (s.advance F.WK_EVENT_VALUE [k.evBase + x] y)) ∧
      (¬idleIn 7 → exec (.sige n g rs1 rs2) s = waits (.signal (k.evBase + x) y))) ∧
    (idleIn mask.toNat → exec (.fence n g mask) s = ends 0x3A s) ∧
    (¬idleIn mask.toNat → exec (.fence n g mask) s = waits (.fence mask.toNat)) ∧
    (let tag := x % 256
     let done : Prop := ∀ o ∈ p.out, tag ≠ 0 ∧ o.tag ≠ tag
     (done → exec (.waitx n g rs1) s = ends 0x3B s) ∧ (¬done → exec (.waitx n g rs1) s = waits (.tag tag))) ∧
    (x ≤ p.mcnt → exec (.waitm n g rs1) s = ends 0x3C s) ∧ (p.mcnt < x → exec (.waitm n g rs1) s = waits (.mcnt x)) ∧
    (k.bound = false → exec (.arrv n g rd re) s = .next (s.faultsAt n 0x3D k Fc.illegal 0)) ∧
    (k.bound = true →
      (∀ q, s.popRecord p k rd re = some q → exec (.arrv n g rd re) s = ends 0x3D (s.setPav n q)) ∧
      (s.popRecord p k rd re = none → exec (.arrv n g rd re) s = waits (.arrival rd.toNat re.toNat))) ∧
    (idleIn 7 → exec (.endK n g code) s = ends 0x3E (s.endKernel n code.toNat)) ∧
    (¬idleIn 7 → exec (.endK n g code) s = waits (.ending code.toNat))

/-- R83: CONDITION_MET; R84: what ARRV gives. -/
def claimConditionMetAndRecords : Prop :=
  (∀ (s : State) (n : Nat) (w : PvWait) (k : Kern), (s.pav n).wait = some w → (s.pav n).kern = some k →
    (s.pvState n ≠ Ps.waiting → exec (.conditionMet n) s = .next s) ∧
    (s.pvState n = Ps.waiting → s.waitOver n w = none → exec (.conditionMet n) s = .next s) ∧
    (∀ t, s.pvState n = Ps.waiting → s.waitOver n w = some t → (∀ c, w ≠ .ending c) →
      exec (.conditionMet n) s =
        .next (((t.retire n w.opcode 4 0 0 k (s.pav n).pc none (some (s.pav n).issueAt)).mapPav n fun p => { p with wait := none }).setPvState n Ps.running))) ∧
  (∀ (s : State) (p : Pav) (k : Kern) (r : ArrRec) (rest : List ArrRec) (rd re : BitVec 5), k.queue = r :: rest →
    ∃ k', s.popRecord p k rd re = some ((({ p with kern := some k' } : Pav).setReg rd (BitVec.ofNat 64 r.addr)).setReg re
      (BitVec.ofNat 64 (r.len + r.member * 2 ^ 16 + r.entry * 2 ^ 32))) ∧
      k'.queue = rest ∧ k'.holding = true ∧ k'.inUse = (if k.holding then k.inUse - 1 else k.inUse)) ∧
  (∀ (s : State) (p : Pav) (k : Kern) (rd re : BitVec 5), k.queue = [] →
    (s.lastRecord k = true → ∃ k', s.popRecord p k rd re =
      some ((({ p with kern := some k' } : Pav).setReg rd (BitVec.allOnes 64)).setReg re 0)) ∧
    (s.lastRecord k = false → s.popRecord p k rd re = none))

/-- Waits, signals, fences and what ends a wait. -/
def Obligations.Synchronisation : Prop := claimSynchronisation ∧ claimConditionMetAndRecords

/-- R11 and R395: a write that is not permitted. -/
def claimDeniedWriteIsLogged : Prop :=
  ∀ (s : State) (req : Requester) (r : Reg) (idx : List Nat), s.powered = true → idxIn r idx = true →
    let off := regAddr r idx
    let who := match req with | .gh => 0 | .hm => 1 | .host => 2
    let logged := s.wr .GH_DENY_LAST [] (BitVec.ofNat 64 (off % 2 ^ 48 + who * 2 ^ 52 + 2 ^ 63))
    let counted := match req with
      | .gh => logged
      | .hm => logged.put F.GH_DENY_CNT_HM [] (min (logged.get F.GH_DENY_CNT_HM + 1) (2 ^ F.GH_DENY_CNT_HM.width - 1))
      | .host => logged.put F.GH_DENY_CNT_HOST [] (min (logged.get F.GH_DENY_CNT_HOST + 1) (2 ^ F.GH_DENY_CNT_HOST.width - 1))
    let after : Out := .next ((counted.tally 0x70).countBar0 req 2 off)
    (∀ i, rowReg i = some (req, r, idx) → s.checkReg req r idx = false → exec i s = after) ∧
    (∀ v, off % 8 = 0 → s.bootDone = true → ¬(0x02008000 ≤ off ∧ off < 0x02010000) → s.beyondGrade off = false →
      findReg off = some (r, idx) → s.mayWrite req r idx = false → exec (.registerWrite req off 8 v) s = after)

/-- R10. -/
def claimMisshapenWriteHasNoEffect : Prop :=
  (∀ (s : State) (req : Requester) (off size : Nat) (v : Word64),
    (s.powered = false ∨ size ≠ 8 ∨ off % 8 ≠ 0 ∨
      (s.bootDone = true ∧ ¬(0x02008000 ≤ off ∧ off < 0x02010000) ∧ ¬(0x02100000 ≤ off ∧ off < 0x03000000) ∧ s.beyondGrade off = false ∧
        findReg off = none)) →
    exec (.registerWrite req off size v) s = .next (s.countBar0 req 2 off)) ∧
  (∀ (i : Instr) (s : State) (req : Requester) (r : Reg) (idx : List Nat), rowReg i = some (req, r, idx) →
    s.powered = false ∨ idxIn r idx = false → exec i s = .next s)

/-- The registers whose own text adds to the general rule of R12. -/
def ownText : List Reg :=
  [.GEN_CTRL, .WK_RING_CTRL, .WK_CQ_CONS, .WK_EVENT, .WK_COMMIT, .MO_SLIP_CFG, .MO_REREQ, .MO_FENCE_SEL,
   .MO_CNT_CLEAR, .MO_NONDET_COUNT, .BH_CTRL, .BH_CNT_CLEAR, .BS_CNT_CLEAR, .BS_BUF_USED, .PV_TILE_ERR, .PV_XRANGE,
   .PV_INJECT, .PV_FAULT, .DK_ERR_CNT, .DK_INJECT, .WH_ERR_CNT, .HB_AGE, .HB_OP, .HB_LEARN_CONS, .HB_PAR_ERR,
   .SC_METER_SEL, .CT_RATE, .CT_STEP, .CT_SNAP_CMD, .QY_CMIS_CMD, .QY_PRBS_CTRL, .QY_INJECT, .LH_CAL,
   .LH_WITHDRAW_CNT, .BW_DROP, .PM_CAP, .PM_CTRL, .PM_PACE, .PM_DROPS, .LG_REC_PTR, .GH_REQ, .GH_DENY_CNT, .HM_CTRL, .HM_HEARTBEAT,
   .HM_DOCK, .TL_CTRL, .TL_DUMP_RING, .TL_BW_CFG, .TL_SAMPLE_CTL, .TL_SAMPLE_RING, .TL_SAMPLE_PTR, .TL_GATHER,
   .TL_PC_CFG, .TL_PC_LO, .TL_PC_HI, .SC_GATE_DATA, .BW_SA_KEYDATA]

/-- Writes that are dropped. -/
def Obligations.DeniedWriteIsLogged : Prop := claimDeniedWriteIsLogged ∧ claimMisshapenWriteHasNoEffect

/-- R12 and R396: the access codes. -/
def Obligations.RegisterWriteReachesFields : Prop :=
  (∀ (s : State) (req : Requester) (off : Nat) (r : Reg) (idx : List Nat) (v : Word64), s.powered = true → s.bootDone = true →
    off % 8 = 0 → ¬(0x02008000 ≤ off ∧ off < 0x02010000) → ¬(0x02100000 ≤ off ∧ off < 0x03000000) → s.beyondGrade off = false →
    findReg off = some (r, idx) →
    s.mayWrite req r idx = true → r ∉ ownText →
    let old (f : Fld) := bits (s.rd r idx) f.lo f.width
    let new (f : Fld) := bits v f.lo f.width
    let tried : Prop := s.isSealed = true ∧ ∃ f ∈ (regDesc r).fields, f.acc = .rwl ∧ new f ≠ old f
    ∃ w : Word64,
      (¬tried → exec (.registerWrite req off 8 v) s = .next ((s.wr r idx w).countBar0 req 1 off)) ∧
      (tried → exec (.registerWrite req off 8 v) s =
        .next (((s.wr r idx w).deny req 0 (regAddr r idx)).countBar0 req 1 off)) ∧
      (∀ f ∈ (regDesc r).fields, bits w f.lo f.width =
        match f.acc with
        | .rw => new f
        | .rwl => if s.isSealed then old f else new f
        | .ro | .wo => old f
        | .w1c => bits (s.rd r idx &&& ~~~v) f.lo f.width
        | .w1s => bits (s.rd r idx ||| v) f.lo f.width) ∧
      (∀ i, i < 64 → (∀ f ∈ (regDesc r).fields, ¬(f.lo ≤ i ∧ i < f.lo + f.width)) → w.getLsbD i = (s.rd r idx).getLsbD i)) ∧
  (∀ (s : State) (req : Requester) (off : Nat) (v : Word64), s.powered = true → s.bootDone = true → off % 8 = 0 →
    0x02008000 ≤ off → off < 0x0200C000 → req ≠ .gh → s.get F.GH_RSP_BUSY = 0 →
    exec (.registerWrite req off 8 v) s = .next (({ s with gate := { s.gate with
      reqBuf := (wordBytes v).zipIdx.foldl (fun m x => spPut 0 m (off - 0x02008000 + x.2) x.1) s.gate.reqBuf } } : State).countBar0
        req 1 off))

/-- R103: the states of a work ring. -/
def claimRingControl : Prop :=
  ∀ (s : State) (req : Requester) (r : Nat), s.Writes req .WK_RING_CTRL [r] →
    let st := s.get F.WK_RING_CTRL_STATE [r]
    let cfg := s.cget F.WK_RING_CFG_SLOTS [r] ≠ 0 ∧ s.cget F.WK_CQ_CFG_SLOTS [s.cget F.WK_RING_CFG_CQ [r]] ≠ 0
    let gives (t : State) : Out := t.written req .WK_RING_CTRL [r]
    let go (t : State) (x : Nat) : Out := gives (t.put F.WK_RING_CTRL_STATE [r] x)
    let bad : Out := gives (s.put F.WK_STATUS_CTRL_BAD [] 1)
    (s.ringServed r = true → st = 0 → cfg →
      let t := ((s.put F.WK_RING_HEAD_HEAD [r] 0).put F.WK_RING_SEQ_SEQ [r] 0).put F.WK_RING_HEAD_EXPECT_GEN [r] 1
      exec (.enable req r) s = go { t with rings := { t.rings with lap := spPut 0 t.rings.lap r 0 } } 1) ∧
    (s.ringServed r = true → st = 2 → exec (.enable req r) s = go s 1) ∧
    (s.ringServed r = false ∨ (st = 0 ∧ ¬cfg) ∨ (st ≠ 0 ∧ st ≠ 2) → exec (.enable req r) s = bad) ∧
    (st = 1 → exec (.pause req r) s = go s 2) ∧ (st ≠ 1 → exec (.pause req r) s = bad) ∧
    (st = 2 → s.ringInflight r = 0 → exec (.disable req r) s = go (s.put F.WK_RING_HEAD_EXPECT_GEN [r] 0) 0) ∧
    (st ≠ 2 ∨ s.ringInflight r ≠ 0 → exec (.disable req r) s = bad) ∧
    (st = 1 ∨ st = 2 → exec (.abort req r) s =
      gives (((s.put F.WK_RING_CTRL_STATE [r] 3).stopAll (s.rings.cmds.filter fun c => c.ring = r) St.aborted).settleRing r)) ∧
    (st ≠ 1 → st ≠ 2 → exec (.abort req r) s = bad)

/-- R104, R110 and R112. -/
def claimConsumerAndEventWrites : Prop :=
  (∀ (s : State) (req : Requester) (q : Nat) (v : Word64), s.Writes req .WK_CQ_CONS [q] →
    let cons := s.get F.WK_CQ_CONS_CONS [q]
    let prod := s.get F.WK_CQ_PROD_PROD [q]
    let new := v.toNat % 2 ^ 32
    ((new + 2 ^ 32 - cons) % 2 ^ 32 ≤ (prod + 2 ^ 32 - cons) % 2 ^ 32 →
      exec (.consWrite req q v) s = (s.put F.WK_CQ_CONS_CONS [q] new).written req .WK_CQ_CONS [q]) ∧
    ((prod + 2 ^ 32 - cons) % 2 ^ 32 < (new + 2 ^ 32 - cons) % 2 ^ 32 →
      exec (.consWrite req q v) s = (s.put F.WK_STATUS_CONS_BAD [] 1).written req .WK_CQ_CONS [q])) ∧
  (∀ (s : State) (req : Requester) (e : Nat) (v : Word64), s.Writes req .WK_EVENT [e] →
    exec (.eventValueWrite req e v) s = (s.put F.WK_EVENT_VALUE [e] v.toNat).written req .WK_EVENT [e]) ∧
  (∀ (s : State) (req : Requester) (k : Nat) (v : Word64), s.Writes req .WK_EVFAIL [k] →
    exec (.failClear req k v) s = (s.wr .WK_EVFAIL [k] (s.rd .WK_EVFAIL [k] &&& ~~~v)).written req .WK_EVFAIL [k])

/-- The rows that start a command of one kind, with the kind. -/
def startRows : List ((Nat → Nat → Instr) × (Cmd → Bool)) :=
  let op (i : Nat) (c : Cmd) : Bool := c.type = 2 && c.fld 4 16 4 = i
  let ty (t : Nat) (c : Cmd) : Bool := c.type = t
  let sub (t i : Nat) (c : Cmd) : Bool := c.type = t && c.fld 4 0 4 = i
  [(.nop, ty 1), (.reduce, op 0), (.reduceScatter, op 1), (.allreduce, op 2), (.allgather, op 3), (.bcast, op 4), (.shift, op 5),
   (.permute, op 6), (.barrier, op 7), (.update, op 8), (.launch, ty 3), (.load, sub 4 0), (.unload, sub 4 1), (.bind, sub 4 2),
   (.unbind, sub 4 3), (.mooringCreate, sub 5 0), (.evict, sub 5 1), (.reform, sub 5 2), (.adopt, sub 5 3), (.retire, sub 5 4),
   (.commit, ty 6), (.restore, ty 7), (.shardCreate, sub 8 0), (.shardDelete, sub 8 1), (.stripe, sub 8 2), (.rebuild, sub 8 3),
   (.config, ty 9), (.eventSet, sub 10 0), (.eventAdd, sub 10 1), (.eventFail, sub 10 2), (.powerRun, sub 11 0),
   (.powerQuiet, sub 11 1), (.powerWinter, sub 11 2), (.powerStandby, sub 11 3), (.powerOff, sub 11 4)]

/-- The control of rings, consumer indices and events. -/
def Obligations.RingControl : Prop := claimRingControl ∧ claimConsumerAndEventWrites

/-- R107: from waiting to running. -/
def Obligations.CommandStarts : Prop :=
  ∀ (s : State) (r q : Nat) (c : Cmd), s.cmd? r q = some c →
    let may : Prop := c.stage = .waiting ∧ c.wait0 = .met ∧ c.wait1 = .met ∧ (c.serial = true → s.serialReady r q = true) ∧
      (c.type = 9 → s.commit? c.cfSet c.cfInst = none)
    (∀ row ∈ startRows, (may ∧ row.2 c = true → exec (row.1 r q) s = exec (.commandStart r q) s) ∧
      (¬(may ∧ row.2 c = true) → exec (row.1 r q) s = .next s)) ∧
    (¬may → exec (.commandStart r q) s = .next s) ∧
    (may → 2 ≤ s.get F.PM_STATE_STATE → c.type ∉ [1, 5, 10, 11] →
      exec (.commandStart r q) s = .next (s.endCmd r q St.aborted 0 (if c.type = 3 then 0x3FF else 0) 0))

/-- R108, R109: NOP, EVENT, IMAGE and LAUNCH. -/
def Obligations.ShortCommandsRun : Prop :=
  ∀ (s : State) (r q : Nat) (c : Cmd), s.cmd? r q = some c → s.startable c = true → s.get F.PM_STATE_STATE < 2 →
    let go : State := s.mapCmd r q fun c => { c with stage := .running, startedAt := s.now }
    let ok (t : State) (result : Nat) : Out := .next (t.endCmd r q St.ok 0 result 0)
    let sub (i : Nat) : Prop := c.fld 4 0 4 = i
    let first := c.fld 4 16 16
    let count := c.fld 4 32 17
    let v := (c.word 5).toNat
    let kid := c.fld 4 16 16
    let moor := c.fld 4 32 14
    let len := (c.word 6).toNat
    (c.type = 1 → c.word 4 = 0 → c.word 5 = 0 → c.word 6 = 0 → c.word 7 = 0 → exec (.nop r q) s = ok go 0) ∧
    (c.type = 10 → c.fld 4 4 12 = 0 → c.fld 4 49 15 = 0 → c.word 6 = 0 → c.word 7 = 0 → first + count ≤ 65536 →
      (sub 0 → exec (.eventSet r q) s = ok ((List.range count).foldl (fun t i => (t.evSet (first + i) v).evFailTo (first + i) false) go) 0) ∧
      (sub 1 → exec (.eventAdd r q) s = ok ((List.range count).foldl (fun t i => t.evAdd (first + i) v) go) 0) ∧
      (sub 2 → exec (.eventFail r q) s = ok ((List.range count).foldl (fun t i => t.evFailTo (first + i) true) go) 0)) ∧
    (c.type = 4 → s.imageDesc c = none →
      (sub 1 → exec (.unload r q) s =
        ok { go with pv := { go.pv with images := spPut none go.pv.images kid none } } 0) ∧
      (sub 3 → exec (.unbind r q) s = ok { go with pv := { go.pv with binds := spPut none go.pv.binds moor none } } 0) ∧
      (∀ u bs, sub 2 → go.ptrRead 0 (c.word 5) 96 = (u, .ok bs) → u.segFault bs 6 = none → exec (.bind r q) s =
        ok { u with pv := { u.pv with binds := spPut none u.pv.binds moor (some ⟨kid, (List.range 6).map (segAt bs)⟩) } } 0) ∧
      (∀ u bs, sub 0 → len ≠ 0 → go.ptrRead 0 (c.word 5) len = (u, .ok bs) →
        (len ≠ 64 + natAt bs 0x0C 4 + natAt bs 0x10 4 → exec (.load r q) s = .next (u.endCmd r q St.badDescriptor 0x30 0 0)) ∧
        (len = 64 + natAt bs 0x0C 4 + natAt bs 0x10 4 → imageFault bs = none → natAt bs 0x0C 4 ≠ 0 → natAt bs 0x1C 4 ≠ 0 →
          ∀ k a, u.freeKid = some k → u.imagePlace len = some a →
          let v := u.storeWrite a len
          exec (.load r q) s =
            ok ((({ v with pv := { v.pv with images := spPut none v.pv.images k (some (parseKImage bs a)) } } : State).extend 5 2 k 0
              (Config.sha3 bs))) k))) ∧
    (c.type = 3 → s.launchDesc c = none → ∀ u bs, go.ptrRead 0 (c.word 5) (128 + c.laArgs) = (u, .ok bs) → u.segFault bs 8 = none →
      (c.laCount = 0 → exec (.launch r q) s = ok u 0x3FF) ∧
      (0 < c.laCount → ∃ l : Launch, l.ring = r ∧ l.seq = q ∧ l.kid = c.fld 4 0 16 ∧ l.first = c.laFirst ∧ l.count = c.laCount ∧
        l.toGo = (List.range c.laCount).map (c.laFirst + ·) ∧ l.left = l.toGo ∧ l.segs = (List.range 8).map (segAt bs) ∧
        l.args = bs.drop 128 ∧ l.failed = none ∧
        exec (.launch r q) s = .next ({ u with
          mo := { u.mo with order := u.mo.order + 1 }, pv := { u.pv with launches := u.pv.launches ++ [l] } } : State).wakeNext))

/-- R101 to R111: the engine's own steps. -/
def claimRingEngineSteps : Prop :=
  (∀ (s : State) (r : Nat),
    (s.ringOrder.find? s.headReady = some r → exec .commandAcceptance s = .next (s.accept r)) ∧
    (s.ringOrder.find? s.headReady = none → exec .commandAcceptance s = .next s) ∧
    s.ringOrder = (List.range 256).map (fun i => (s.rings.last + 1 + i) % 256) ∧
    (s.get F.WK_POLL_INTERVAL ≠ 0 →
      exec .backstopPoll s = .next (s.ringOrder.foldl (fun s r => if s.headReady r then s.accept r else s) s)) ∧
    (s.get F.WK_POLL_INTERVAL = 0 → exec .backstopPoll s = .next s)) ∧
  (∀ (s : State) (line : Nat) (bytes : List Byte) (poison : Bool),
    let m : HostMem := if poison then { s.hostMem with bad := line :: s.hostMem.bad.erase line }
      else { s.hostMem with cells := putCells s.hostMem.cells (64 * line) (bytes.take 64), bad := s.hostMem.bad.erase line }
    let t : State := { s with hostMem := m }
    let here : Prop := ∃ r, r < 256 ∧ t.cget F.WK_RING_BASE_SPACE [r] = 4 ∧ t.headAddr r / 64 = line ∧ t.headReady r = true
    (¬here → exec (.hostSnoop line poison bytes) s = .next t) ∧
    (here → ∃ r, t.ringOrder.find? t.headReady = some r ∧ exec (.hostSnoop line poison bytes) s = .next (t.accept r))) ∧
  (∀ (s : State) (r q : Nat) (c : Cmd), s.cmd? r q = some c →
    let look (w : WaitState) (e : Nat) (th : Word64) : WaitState :=
      if w ≠ .pending then w else if s.evFail e then .failed else if th.toNat ≤ s.evVal e then .met else .pending
    let w0 := look c.wait0 (c.fld 1 0 16) (c.word 2)
    let w1 := look c.wait1 (c.fld 1 16 16) (c.word 3)
    let t := s.mapCmd r q fun c => { c with wait0 := w0, wait1 := w1 }
    (c.stage = .waiting → w0 ≠ .failed → w1 ≠ .failed → exec (.waitResolve r q) s = .next t) ∧
    (c.stage = .waiting → w0 = .failed ∨ w1 = .failed →
      exec (.waitResolve r q) s = .next (t.stopCmd { c with wait0 := w0, wait1 := w1 } St.depFailed)) ∧
    (c.stage ≠ .waiting → exec (.waitResolve r q) s = .next s) ∧
    (let due : Prop := c.stage = .running ∧ c.fld 0 48 16 ≠ 0 ∧ c.startedAt + 50000 * c.fld 0 48 16 ≤ s.now
     (due → exec (.timeout r q) s = .next (s.stopCmd c St.timeout)) ∧ (¬due → exec (.timeout r q) s = .next s))) ∧
  (∀ (s : State) (r : Nat) (c : Cmd), s.rings.cmds.find? (fun c => c.ring = r) = some c → s.cqAwake r = true →
    (c.stage ≠ .ended → exec (.completionRecord r) s = .next s) ∧
    (c.stage = .ended → s.cqFull r = true → exec (.completionRecord r) s = .next (s.put F.WK_STATUS_CQ_FULL_SEEN [] 1)) ∧
    (c.stage = .ended → s.cqFull r = false →
      let t := s.writeRecord c
      let u : State := { t with rings := { t.rings with cmds := t.rings.cmds.filter fun x => !(x.ring = r && x.seq = c.seq) } }
      exec (.completionRecord r) s = .next (((u.showInflight r).signal c).settleRing r)))

/-- R113: the record; R110: the signal. -/
def claimRecordsAndSignals : Prop :=
  ∀ (s : State) (c : Cmd) (gen : Nat),
    let bs := s.recordBytes c gen
    (gen < 256 → c.status < 256 → c.type < 256 → c.detail < 256 → c.ring < 256 → c.slot < 65536 → c.seq < 2 ^ 32 →
      c.result < 2 ^ 64 → c.result2 < 2 ^ 64 →
      bs.length = 32 ∧ leNat (bs.take 1) = gen ∧ leNat ((bs.drop 1).take 1) = c.status ∧ leNat ((bs.drop 2).take 1) = c.type ∧
      leNat ((bs.drop 3).take 1) = c.detail ∧ leNat ((bs.drop 4).take 1) = c.ring ∧ leNat ((bs.drop 5).take 2) = c.slot ∧
      leNat ((bs.drop 8).take 4) = c.seq ∧ leNat ((bs.drop 16).take 8) = c.result ∧ leNat ((bs.drop 24).take 8) = c.result2) ∧
    let durable : Bool := c.type = 6 && c.fld 4 16 16 = 0 && c.fld 6 0 1 = 1 && c.status = 0
    let rung (t : State) : State := if durable then t.advance F.WK_EVENT_VALUE [c.fld 4 48 16] 1 else t
    let told (t : State) : State :=
      if c.irq then { t with sent := s.sent ++ [.msix (s.cget F.WK_CQ_CFG_VECTOR [s.cget F.WK_RING_CFG_CQ [c.ring]])] } else t
    (c.sigEn = false → s.signal c = told (rung s)) ∧
    (c.sigEn = true → c.status = 0 → s.signal c = told (rung (s.advance F.WK_EVENT_VALUE [c.sigEvent] c.sigInc))) ∧
    (c.sigEn = true → c.status ≠ 0 → s.signal c = told (s.evFailTo c.sigEvent true))

/-- The ring engine, completion records and signals. -/
def Obligations.RingEngineSteps : Prop := claimRingEngineSteps ∧ claimRecordsAndSignals

/-- The rows that start a COLLECTIVE, with their OP. -/
def collRows : List ((Nat → Nat → Instr) × Nat) :=
  [(.reduce, 0), (.reduceScatter, 1), (.allreduce, 2), (.allgather, 3), (.bcast, 4), (.shift, 5), (.permute, 6), (.barrier, 7),
   (.update, 8)]

/-- R133 to R137, R156, R158 and R208: the start of a COLLECTIVE. Its context is read first (`useCtx`, log entry on the context
store); a context that is lost in both copies ends it with DATA_ERROR. -/
def Obligations.CollectiveStarts : Prop :=
  ∀ (s : State) (r q : Nat) (c : Cmd), s.cmd? r q = some c → s.startable c = true → s.get F.PM_STATE_STATE < 2 → c.type = 2 →
    ∀ row ∈ collRows, c.fld 4 16 4 = row.2 →
    let m := c.fld 4 0 14
    let len := (c.word 5).toNat
    let go : State := (s.useCtx m).mapCmd r q fun c => { c with stage := .running, startedAt := (s.useCtx m).now }
    let x := go.ctx m
    let go2 : State := { go with bh := { go.bh with lastJob := spIns go.bh.lastJob (16384 * r + m) (go.job m) } }
    let reduces : Prop := row.2 ≤ 2 ∨ row.2 = 8
    let dead : Prop := ∃ j, go2.spanOf m = some j ∧ go2.get F.BW_SPAN_STATUS_DEAD [j] ≠ 0
    let enters (u : State) (h : List Byte) (t : State) : Prop :=
      let parcels := if row.2 = 7 then 1 else (len + 4096 * u.parcelGr m - 1) / (4096 * u.parcelGr m)
      ∃ co : Coll, co.ring = r ∧ co.seq = q ∧ co.moor = m ∧ co.op = row.2 ∧ co.kind = c.fld 4 20 4 ∧
        co.rmode = c.fld 4 32 1 ∧ co.layer = c.fld 4 48 16 ∧ co.len = len ∧ co.offset = (c.word 6).toNat ∧
        co.pseq0 = c.fld 7 0 32 ∧ co.epoch = c.fld 7 32 16 ∧ co.parcels = parcels ∧ co.nextAdmit = 0 ∧ co.applied = 0 ∧
        co.nondet = 0 ∧ co.live = [] ∧ co.shard = (u.ctx m).shard ∧ co.hyper = h ∧ co.span = u.spanOf m ∧
        co.inFmt = (Fmt.ofCode (c.fld 4 24 4)).getD .fp32 ∧ co.outFmt = (Fmt.ofCode (c.fld 4 28 4)).getD .fp32 ∧
        (let v := u.put F.MO_CTX_SEQ_PSEQ_NEXT [m] (c.fld 7 0 32 + parcels)
         t = { v with mo := { v.mo with colls := v.mo.colls ++ [co] } })
    (∀ d, go.collDesc c = some d → exec (row.1 r q) s = .next (go.endCmd r q St.badDescriptor d 0 0)) ∧
    (go.collDesc c = none →
      (go.ctxState m = Cs.active ∧ row.2 ≤ 8 ∧ c.fld 7 0 32 = go.pseqNext m ∧ (c.word 6).toNat % 4096 = 0 ∧ (row.2 = 7 → len = 0) ∧
        (row.2 = 0 ∨ row.2 = 4 → x.bitmap.testBit x.root = true) ∧
        (row.2 = 8 → x.shard ≠ 0xFFFF ∧ go.shardState x.shard = Sh.live) ∧
        (row.2 ≤ 2 → c.fld 4 20 4 = 1 → c.fld 4 24 4 ≠ 3 ∧ c.fld 4 24 4 ≠ 4) ∧
        (∃ i o, Fmt.ofCode (c.fld 4 24 4) = some i ∧ Fmt.ofCode (c.fld 4 28 4) = some o)) ∧
      (x.lost = true → exec (row.1 r q) s = .next (go.endCmd r q St.dataError 0 0 0)) ∧
      (x.lost = false → c.fld 7 32 16 ≠ go.epoch m → exec (row.1 r q) s = .next (go.endCmd r q St.epochStale 0 0 0)) ∧
      (x.lost = false → c.fld 7 32 16 = go.epoch m →
        (x.fences ≠ 0 → exec (row.1 r q) s = .next (go2.endCmd r q
          (if go2.get F.MO_CTX_STATE_FENCE_BY_VERDICT [m] = 1 then St.memberLost else St.fenced) 0 0
          (if go2.get F.MO_CTX_LIVE_FIRST_VALID [m] = 1 then go2.get F.MO_CTX_LIVE_FIRST_FENCED [m] * 2 ^ 32 + 2 ^ 44 else 0))) ∧
        (x.fences = 0 → reduces → dead → exec (row.1 r q) s = .next (go2.endCmd r q St.memberLost 0 0 0)) ∧
        (x.fences = 0 → ¬(reduces ∧ dead) → len = 0 → row.2 ≠ 7 → exec (row.1 r q) s = .next (go2.endCmd r q St.ok 0 0 0)) ∧
        (x.fences = 0 → ¬(reduces ∧ dead) → len ≠ 0 ∨ row.2 = 7 →
          (row.2 ≠ 8 → ∃ t, exec (row.1 r q) s = .next t ∧ enters go2 [] t) ∧
          (row.2 = 8 → ∀ y, go2.shard x.shard = some y → ∀ u,
            (∀ h, go2.dockRead 1 y.hyper 256 = (u, .ok h) → ∃ t, exec (row.1 r q) s = .next t ∧ enters u h t) ∧
            (∀ a, go2.dockRead 1 y.hyper 256 = (u, .error a) → ∃ t, exec (row.1 r q) s = .next (t.stopColl r q St.dataError 0 none) ∧
              enters u [] t)))))

/-- The rows that start a MOORING command, with their SUBOP. -/
def mooringRows : List ((Nat → Nat → Instr) × Nat) :=
  [(.mooringCreate, 0), (.evict, 1), (.reform, 2), (.adopt, 3), (.retire, 4)]

/-- R123 to R130: the life of a context. -/
def Obligations.MooringCommands : Prop :=
  ∀ (s : State) (r q : Nat) (c : Cmd), s.cmd? r q = some c →
    let m := c.fld 4 8 14
    let e := s.epoch m
    let img := c.image s
    let ended (t : State) (status detail result result2 : Nat) : State :=
      ({ t with mo := { t.mo with staging := t.mo.staging.filter fun x => x.1 ≠ (r, q) } } : State).endCmd r q status detail result result2
    (s.startable c = true → s.get F.PM_STATE_STATE < 2 → c.type = 5 → s.mo.queue.contains (r, q) = false →
      ∀ row ∈ mooringRows, c.fld 4 0 4 = row.2 →
      (s.mo.engine ≠ none → exec (row.1 r q) s = .next { s with mo := { s.mo with queue := s.mo.queue ++ [(r, q)] } }) ∧
      (s.mo.engine = none → s.mo.queue = [] →
        let u := s.useCtx m
        (∀ f, u.mooringCheck c = some f → exec (row.1 r q) s = .next (ended u f.status f.detail
          (if f.status = St.badDescriptor ∧ f.detail = 0x28 then 0 else u.epoch m) f.result2)) ∧
        (u.mooringCheck c = none → row.2 = 1 →
          exec (row.1 r q) s = .next (ended (u.fence m (c.fld 4 36 12) false) St.ok 0 (u.epoch m) 0)) ∧
        (u.mooringCheck c = none → row.2 ≠ 1 → exec (row.1 r q) s = .next (({ u with
          mo := { u.mo with engine := some (r, q), floor := u.planCharge (u.newCtx c) (imgCount (c.image u)) false } }
            : State).mapCmd r q fun c => { c with stage := .running, startedAt := u.now })))) ∧
    (s.mo.engine ≠ some (r, q) → exec (.contextChange r q) s = .next s) ∧
    (s.Wf → s.mo.engine = some (r, q) → s.mo.queue = [] → c.fld 4 0 4 ≤ 4 → c.fld 4 0 4 ≠ 1 → ∃ t u result,
      exec (.contextChange r q) s = .next t ∧ t = ended u St.ok 0 result 0 ∧ t.mo.engine = none ∧ result = (if c.fld 4 0 4 = 4 then e else t.epoch m) ∧
      (c.fld 4 0 4 ≠ 2 ∨ (s.ctx m).verdictAt ≠ s.now → c.fld 4 0 4 ≤ 3 → (t.ctx m).fences = 0) ∧
      (c.fld 4 0 4 = 2 → (s.ctx m).verdictAt = s.now → ∀ i, i < 4096 →
        ((t.ctx m).fenced i = true ↔ (s.ctx m).verdicts.testBit i = true ∧ (t.ctx m).bitmap.testBit i = true) ∧
        ((t.ctx m).fenced i = true → t.get F.MO_CTX_STATE_FENCE_BY_VERDICT [m] = 1)) ∧
      (c.fld 4 0 4 ≤ 3 → t.ctxState m = Cs.active ∧
        t.epoch m = (if c.fld 4 0 4 = 0 then c.fld 4 48 16 else (e + 1) % 2 ^ 16) ∧
        t.job m = (if c.fld 4 0 4 = 2 then s.job m else c.fld 4 24 12) ∧
        t.pseqNext m = imgPseq img ∧ t.gateNext m = imgPseq img ∧
        t.get F.MO_CTX_SLIP_FLOOR [m] = s.mo.floor % 2 ^ 16) ∧
      (c.fld 4 0 4 = 4 → s.ctxState m = Cs.active → s.get F.MO_CTX_STATE_RETAIN [m] = 1 →
        t.ctxState m = Cs.retained ∧ t.epoch m = e ∧ t.get F.MO_CTX_SLIP_FLOOR [m] = 0) ∧
      (c.fld 4 0 4 = 4 → s.ctxState m ≠ Cs.active ∨ s.get F.MO_CTX_STATE_RETAIN [m] ≠ 1 →
        t.ctxState m = Cs.free ∧ t.ctx m = Ctx.none ∧ t.epoch m = 0))

/-- R119 to R122: a commit is requested. -/
def Obligations.CommitsRequested : Prop :=
  (∀ (s : State) (r q : Nat) (c : Cmd), s.cmd? r q = some c → s.startable c = true → s.get F.PM_STATE_STATE < 2 → c.type = 9 →
    let set := c.fld 4 0 12
    let inst := c.fld 4 32 32
    let n := c.fld 6 0 16
    let ends (t : State) (st d r2 : Nat) : Out := .next (t.endCmd r q st d 0 r2)
    let readable : Prop := n ≤ 4096 ∧ s.ptrOk (c.word 5) (16 * n) = true
    (∀ d, ¬readable → s.configDesc c = some d → exec (.config r q) s = ends s St.badDescriptor d 0) ∧
    (readable → ∀ u bs, s.ptrRead 7 (c.word 5) (16 * n) = (u, .ok bs) → bs.length = 16 * n →
      let off (i : Nat) := natAt bs (16 * i) 8
      let denied (i : Nat) : Prop := ∃ g idx, findReg (off i) = some (g, idx) ∧ u.mayWrite (u.ringOwner r) g idx = false
      let foreign := badEntry set inst 0 ((List.range n).map fun i => (off i, word64At bs (16 * i + 8))) (u.get F.SC_GATE_ADDR_PORT)
      let w := (List.range n).foldl (fun v i => match findReg (off i) with
        | some (g, idx) => v.shadowWrite (u.ringOwner r) g idx (word64At bs (16 * i + 8))
        | none => v) u
      let time := c.fld 6 16 48 * 1000000000 + c.fld 7 0 30
      (∀ i, i < n → denied i → (∀ j, j < i → ¬denied j) → exec (.config r q) s = ends u St.accessDenied 0x28 (16 * i)) ∧
      ((∀ i, i < n → ¬denied i) →
        (∀ d, s.configDesc c = some d → exec (.config r q) s = ends u St.badDescriptor d 0) ∧
        (s.configDesc c = none → ∀ i, foreign = some i → exec (.config r q) s = ends u St.badDescriptor 0x28 (16 * i)) ∧
        (s.configDesc c = none → foreign = none →
          (w.setCheck set inst (c.fld 4 12 1 = 1) = .bad → exec (.config r q) s = ends w St.badDescriptor 0 0) ∧
          (w.setCheck set inst (c.fld 4 12 1 = 1) = .zero → exec (.config r q) s = ends w St.zeroSize 0 0) ∧
          (w.setCheck set inst (c.fld 4 12 1 = 1) = .good → ∃ t, exec (.config r q) s = .next t ∧ t.cregs = w.cregs ∧
            t.rings = (w.mapCmd r q fun c => { c with stage := .running, startedAt := w.now }).rings ∧ ∃ a late, t.commits = w.commits ++
              [⟨set, inst, w.snapshot set inst, a, late, some (r, q), if a = none then some w.ctNs else none, false⟩] ∧
            (late = true ↔ c.fld 4 12 1 = 1 ∧ time < w.ctNs) ∧
            a = (if c.fld 4 12 1 = 1 ∧ w.ctNs ≤ time then some (c.fld 6 16 48, c.fld 7 0 30) else none)))))) ∧
  (∀ (s : State) (req : Requester) (v : Word64), s.Writes req .WK_COMMIT [] →
    let set := v.toNat % 2 ^ 12
    let inst := v.toNat / 2 ^ 12 % 2 ^ 32
    let t := (s.put F.WK_COMMIT_SET [] set).put F.WK_COMMIT_INSTANCE [] inst
    let gives (u : State) : Out := u.written req .WK_COMMIT []
    let go : Prop := v.getLsbD 44 = true
    (¬go → exec (.wkCommitGo req v) s = gives t) ∧
    (go → setInfo set = none → exec (.wkCommitGo req v) s = gives (t.commitResult set St.badDescriptor)) ∧
    (∀ n g, go → setInfo set = some (n, g) →
      (n ≤ inst → exec (.wkCommitGo req v) s = gives (t.commitResult set St.badDescriptor)) ∧
      (inst < n → t.mayWrite req g [inst] = false →
        exec (.wkCommitGo req v) s = gives ((t.deny req 0 (regAddr g (if n = 1 then [] else [inst]))).commitResult set St.accessDenied)) ∧
      (inst < n → t.mayWrite req g [inst] = true → t.commit? set inst = none →
        let b := set / 64
        let st := t.get F.PM_STATE_STATE
        let off : Prop := (st = 2 ∧ ¬(b = 1 ∨ (5 ≤ b ∧ b ≤ 10))) ∨ (st = 3 ∧ ¬(b = 1 ∨ b = 8))
        (off → exec (.wkCommitGo req v) s = gives (t.commitResult set St.aborted)) ∧
        (¬off → t.setCheck set inst false = .bad → exec (.wkCommitGo req v) s = gives (t.commitResult set St.badDescriptor)) ∧
        (¬off → t.setCheck set inst false = .zero → exec (.wkCommitGo req v) s = gives (t.commitResult set St.zeroSize)) ∧
        (¬off → t.setCheck set inst false = .good → ∃ u,
          exec (.wkCommitGo req v) s = gives u ∧ u.cregs = t.cregs ∧
            u.commits = t.commits ++ [⟨set, inst, t.snapshot set inst, none, false, none, some t.ctNs, false⟩])) ∧
      (inst < n → t.mayWrite req g [inst] = true →
        (t.commit? set inst ≠ none → exec (.wkCommitGo req v) s = gives (t.put F.WK_COMMIT_STATUS_REFUSED [] 1)))))

/-- R15, R120: a snapshot becomes the copy in force. -/
def Obligations.StagedSetsSwap : Prop :=
  (∀ (s : State) (set inst : Nat) (r : Reg) (idx : List Nat), s.Wf → idxIn r idx = true →
    (inSet set inst (regAddr r idx) = true → (s.install set inst (s.snapshot set inst)).crd r idx = s.rd r idx) ∧
    (∀ t : State, inSet set inst (regAddr r idx) = false → (t.install set inst (s.snapshot set inst)).regs = t.regs ∧
      (t.Wf → (t.install set inst (s.snapshot set inst)).crd r idx = t.crd r idx))) ∧
  (∀ (s : State) (set inst : Nat) (c : Commit), s.Wf → s.commit? set inst = some c →
    let come : Prop := c.since ≠ none ∨ ∀ sec ns, c.atTime = some (sec, ns) → sec * 1000000000 + ns ≤ s.ctNs
    let after (t : State) (was : Nat) : Out := .next (t.endCommit c St.ok was)
    (¬come → exec (.stagedSetSwap set inst) s = .next s ∧ (set = 0x180 → inst = 0 → exec .pinCommit s = .next s) ∧
      (set = 0x200 → inst = 0 → exec .timeSet s = .next s) ∧ (set = 0x1C0 → exec (.gateListSwap inst) s = .next s) ∧
      (set = 0x380 → inst = 0 → exec .clockStepSwap s = .next s)) ∧
    (set ∈ [0x180, 0x1C0, 0x200, 0x380] → exec (.stagedSetSwap set inst) s = .next s) ∧
    (set ∉ [0x180, 0x1C0, 0x200, 0x380] → come → ∃ t, exec (.stagedSetSwap set inst) s = after t s.ctNs ∧
      t.cregs = (s.install set inst c.snapshot).cregs) ∧
    (set ∈ [0x040, 0x0C0, 0x140, 0x142, 0x143, 0x301] → come →
      exec (.stagedSetSwap set inst) s = after (s.install set inst c.snapshot) s.ctNs) ∧
    (set = 0x080 → come →
      exec (.stagedSetSwap set inst) s = after ((s.install set inst c.snapshot).put F.MO_DLOG_PROD_PROD [] 0) s.ctNs) ∧
    (set = 0x180 → inst = 0 → come →
      (s.applyPins (pinsOf c.snapshot) = none → exec .pinCommit s = .next (s.endCommit c St.badDescriptor s.ctNs).pinsEnd) ∧
      (∀ t, s.applyPins (pinsOf c.snapshot) = some t →
        exec .pinCommit s = .next ((t.install 0x180 0 c.snapshot).endCommit c St.ok s.ctNs).pinsEnd)) ∧
    (set = 0x200 → inst = 0 → come → ∃ t, exec .timeSet s = after t s.ctNs ∧ t.clock.frac = 0 ∧ t.clock.wroteAt = s.now ∧
      let u := s.install 0x200 0 c.snapshot
      (u.cget F.CT_SET_NS_NS < 1000000000 → t.clock.sec = u.cget F.CT_SET_S_SECONDS ∧ t.clock.ns = u.cget F.CT_SET_NS_NS)) ∧
    (set = 0x1C0 → come → c.since ≠ none ∨ c.atTime ≠ none →
      let calibrates : Prop := inst % 8 = 0 ∧ s.get F.LH_PORT_STATUS_CALIBRATING [inst / 8] = 1
      let base := s.install 0x1C0 inst c.snapshot
      let es := s.gateEntries inst
      let from_ := c.since.getD ((c.atTime.map fun t => t.1 * 1000000000 + t.2).getD 0)
      let n : Int := cycleOf es
      let reached : Prop := c.due = true ∨ es = [] ∨ (s.sinceBase inst from_ + n - 1).ediv n ≤ (s.sinceBase inst s.ctNs).ediv n
      (¬reached ∨ calibrates → exec (.gateListSwap inst) s = .next s) ∧
      (reached → ¬calibrates →
        exec (.gateListSwap inst) s = after ((if inst % 8 = 0 then base.swapColours s (inst / 8) else base).takeUpList inst) s.ctNs)) ∧
    (set = 0x380 → inst = 0 → come → ∀ row, row = s.rowAfter c →
      (row < s.get F.PM_STATE_ROW → row < s.pwr.volt → exec .clockStepSwap s = .next s) ∧
      (s.get F.PM_STATE_ROW < row → ∃ t : State, exec .clockStepSwap s = after ((t.toRow row).put F.PM_STATE_RAMPING [] 1) s.ctNs ∧
        t.cregs = (s.install 0x380 0 c.snapshot).cregs ∧ t.pwr.ramp = none ∧ t.pwr.volt = row) ∧
      (row = s.get F.PM_STATE_ROW ∨ (row < s.get F.PM_STATE_ROW ∧ s.pwr.volt ≤ row) → ∃ t : State,
        exec .clockStepSwap s = after (t.toRow row) s.ctNs ∧ t.cregs = (s.install 0x380 0 c.snapshot).cregs ∧
        t.pwr.volt = s.pwr.volt ∧ t.get F.PM_STATE_ROW = s.get F.PM_STATE_ROW))) ∧
  (∀ (s : State) (set inst : Nat), (s.commit? set inst = none → exec (.stagedSetSwap set inst) s = .next s) ∧
    (s.commit? 0x1C0 inst = none → exec (.gateListSwap inst) s = .next s)) ∧
  (∀ s : State, (s.commit? 0x180 0 = none → exec .pinCommit s = .next s) ∧ (s.commit? 0x200 0 = none → exec .timeSet s = .next s) ∧
    (s.commit? 0x380 0 = none → exec .clockStepSwap s = .next s)) ∧
  (∀ (s : State) (c : Commit) (r q was : Nat), c.owner = some (r, q) → s.endCommit c St.ok was =
    ({ s with commits := s.commits.filter fun x => !(x.set = c.set && x.inst = c.inst) } : State).endCmd r q St.ok 0 c.late.toNat
      (was % 1000000000 + was / 1000000000 % 2 ^ 32 * 2 ^ 32))

/-- R374 and R375: POWER. -/
def claimPowerStates : Prop :=
  (∀ (s : State) (r q : Nat) (c : Cmd), s.cmd? r q = some c → s.startable c = true → c.type = 11 →
    ∀ row ∈ [(Instr.powerRun, 0), (Instr.powerQuiet, 1), (Instr.powerWinter, 2), (Instr.powerStandby, 3), (Instr.powerOff, 4)],
    c.fld 4 0 4 = row.2 →
    let old := s.get F.PM_STATE_STATE
    let ends (st d res : Nat) : Out := .next (s.endCmd r q st d res 0)
    let plain : Prop := c.word 4 = BitVec.ofNat 64 row.2 ∧ c.word 5 = 0 ∧ c.word 6 = 0 ∧ c.word 7 = 0
    let listed : Prop := (old, row.2) ∈ [(0, 1), (1, 0), (0, 2), (1, 2), (0, 3), (1, 3), (2, 3), (2, 0), (3, 0), (0, 4), (1, 4), (2, 4), (3, 4)]
    let go : State := s.mapCmd r q fun c => { c with stage := .running, startedAt := s.now }
    let begin_ (t : State) : State := { t with pwr := { t.pwr with entering := some (row.2, some (r, q)) } }
    old < 4 →
    (s.ringOwner r ≠ .host → exec (row.1 r q) s = ends St.accessDenied 1 old) ∧
    (s.ringOwner r = .host → plain →
      (row.2 = old → exec (row.1 r q) s = .next (go.endCmd r q St.ok 0 old 0)) ∧
      (row.2 ≠ old → ¬listed → exec (row.1 r q) s = ends St.badDescriptor 0x20 old) ∧
      (listed → row.2 < 2 → s.pwr.entering = none → exec (row.1 r q) s = .next (begin_ go)) ∧
      (listed → 2 ≤ row.2 → row.2 < 4 → exec (row.1 r q) s = .next (begin_ (go.quiesce (some (r, q))))) ∧
      (row.2 = 4 → exec (row.1 r q) s = .next ((begin_ (go.quiesce (some (r, q)))).endCmd r q St.ok 0 4 0)))) ∧
  (∀ s : State, s.pwr.entering = none → exec .powerStateEntered s = .next s) ∧
  (∀ (s : State) (st r q : Nat), s.pwr.entering = some (st, some (r, q)) → st < 4 → st < 2 ∨ s.recordsDue (some (r, q)) = false →
    exec .powerStateEntered s = .next (({ s.enterPower st with
      pwr := { (s.enterPower st).pwr with entering := none } } : State).endCmd r q St.ok 0 st 0)) ∧
  (∀ (s : State) (o : Option (Nat × Nat)), s.pwr.entering = some (4, o) → (∀ r q, o = some (r, q) → s.cmd? r q = none) →
    s.recordsDue none = false → ∃ t, exec .powerStateEntered s = .next t ∧
    t.pending = s.pending ∧ t.fuses = s.fuses ∧ t.hostMem = s.hostMem ∧ t.gate.flash = s.gate.flash ∧ t.sent = s.sent ∧
    t.regs = ({ State.reset with fuses := s.fuses } : State).gradeWords.regs ∧ t.cregs = State.reset.cregs ∧ t.rings = State.reset.rings ∧ t.dock = State.reset.dock ∧
    t.resets = s.resets + 1 ∧ t.sup.rails = .standby ∧ t.powered = false)

/-- Whether a command's record is due with a status, and what it holds. -/
def endedWith (t : State) (r q status result result2 : Nat) : Prop :=
  ∃ c, t.cmd? r q = some c ∧ c.stage = .ended ∧ c.status = status ∧ c.result = result ∧ c.result2 = result2

/-- R162 to R194 and R436: the life of a shard. -/
def Obligations.ShardCommands : Prop :=
  (∀ (s : State) (r q : Nat) (c : Cmd), s.Wf → s.cmd? r q = some c → s.startable c = true → s.get F.PM_STATE_STATE < 2 →
    let go : State := s.mapCmd r q fun c => { c with stage := .running, startedAt := s.now }
    let n := c.fld 4 16 16
    let len := (c.word 6).toNat
    (c.type = 8 → c.fld 4 0 4 = 0 → ∀ u bs, go.shardItem c (· = 64) (s.shardState n ≠ Sh.free) = (u, .ok bs) → u.shardFault bs = none →
      let x := parseShard bs
      x.params ≠ 0 → ¬(x.optimizer = 15 ∧ x.planes = 0) → u.bh.shards.length < 4096 → ∀ a, u.manifestPlace x = some a →
      ∃ t, exec (.shardCreate r q) s = .next t ∧ t.shard n = some { x with msBase := a } ∧ t.committed n = leNat ((bs.drop 4).take 2) ∧
        (x.initKind = 0 → t.shardState n = Sh.empty ∧ endedWith t r q St.ok 0 0) ∧
        (x.initKind ≠ 0 → t.shardState n = Sh.loading ∧ t.bh.loads = u.bh.loads ++ [(r, q, n)])) ∧
    (c.type = 8 → c.fld 4 0 4 = 1 → go.shardDesc c false = none → len = 0 → s.shardState n = Sh.empty ∨ s.shardState n = Sh.live →
      s.shardMoor n = none → (∀ x, s.shard n = some x → x.freeze = none) →
      ∃ t, exec (.shardDelete r q) s = .next t ∧ t.shard n = none ∧ t.shardState n = Sh.free ∧ endedWith t r q St.ok 0 0) ∧
    (c.type = 8 → c.fld 4 0 4 = 2 → ∀ u bs x st m, go.shardItem c (fun l => 16 ≤ l && l % 16 = 0) (s.shardState n = Sh.free) = (u, .ok bs) →
      parseStripe bs = (st, false, m) → u.stripeFault bs false = none → st.k ≠ 0 → len = 16 + 16 * (st.k + st.m) → u.shard n = some x →
      ∃ t, exec (.stripe r q) s = .next t ∧ t.shard n = some { x with stripe := some st } ∧ t.get F.BH_SH_FAULT_LOST [n] = 0 ∧
        (∀ h ∈ st.holders, h.1 ∉ t.bh.deadPeers) ∧ endedWith t r q St.ok 0 0) ∧
    (c.type = 8 → c.fld 4 0 4 = 3 → ∀ u v bs x st again p m, go.shardItem c (fun l => 16 ≤ l && l % 16 = 0) (s.shardState n ≠ Sh.empty) = (u, .ok bs) →
      parseStripe bs = (st, again, p) → u.stripeFault bs true = none → st.k ≠ 0 → len = 16 + 16 * (st.k + st.m) → u.ptrOk p 64 = true →
      u.readManifest p n (u.shard n) = (v, .ok m) → v.shard n = some x → x.imageBytes ≠ 0 → v.rebuild? r q = none →
      let us := (v.revive st).usableFrags ⟨r, q, n, m, st, [], [], [], [], [], 0, [], false⟩
      st.k ≤ us.length → ∃ (t : State) (y : Rebuild), exec (.rebuild r q) s = .next t ∧ t.shardState n = Sh.loading ∧
        t.rebuild? r q = some y ∧ y.shard = n ∧ y.manifest = m ∧ y.stripe = st ∧ y.chosen = us.take st.k ∧ y.nextRow = 0 ∧
        (∀ f ∈ y.chosen, f ∈ y.asked)) ∧
    (c.type = 7 → ∀ u v bs m node t0, go.ptrOk (c.word 5) len = true → go.ptrRead 1 (c.word 5) len = (u, .ok bs) →
      let tree := parseTree bs
      u.restoreDesc c (s.shardState (c.fld 4 0 16)) tree = none → len ≠ 0 → tree ≠ [] → u.treeFault bs = none →
      (tree.findIdx? fun t => u.isOwn t.endpoint) = some node → node ≠ 0 → tree[node]? = some t0 →
      u.readManifest (c.word 7) (c.fld 4 0 16) none = (v, .ok m) → (manShard m (c.fld 4 0 16)).epoch = c.fld 4 16 16 →
      let dead := (List.range tree.length).filter fun i => match tree[i]? with | some t => v.bh.deadPeers.contains t.endpoint | none => false
      ∃ f, Fmt.ofCode (c.fld 4 36 4) = some f ∧ exec (.restore r q) s = .next { v with bh := { v.bh with
        served := v.bh.served.filter fun y => y.shard ≠ c.fld 4 0 16, restores := v.bh.restores ++
        [⟨r, q, c.fld 4 0 16, c.fld 4 16 16, c.fld 4 40 14, f, m, tree, node, t0.parent, (manShard m (c.fld 4 0 16)).bdt.length, [], 0,
          [], dead, [], 0, v.now, []⟩] } })) ∧
  (∀ (s : State) (n r q : Nat) (x : Shard), (s.bh.loads.find? fun l => l.2.2 = n) = some (r, q, n) → s.shard n = some x → x.initKind = 1 →
    let w : State := (List.range x.blocks).foldl (fun t b => t.writeBlock x b (List.replicate x.blockBytes 0))
      { s with bh := { s.bh with loads := s.bh.loads.filter fun l => l.2.2 ≠ n } }
    exec (.initLoadComplete n) s = .next ((w.setShardState n Sh.live).endCmd r q St.ok 0 0 0)) ∧
  (∀ (s : State) (x : Shard) (b : Nat) (bs : List Byte), s.writeBlock x b bs =
    (s.dockWrite (x.dockBase + b * (4096 * x.planes + x.side)) bs).dockWrite
      (x.dockBase + x.blocks * (4096 * x.planes + x.side) + 8 * b) (leBytes (granuleDigest bs).toNat 8))

/-- R177 to R185: COMMIT and durability. -/
def Obligations.CommitAndCopy : Prop :=
  (∀ (s : State) (r q : Nat) (c : Cmd), s.cmd? r q = some c → s.startable c = true → s.get F.PM_STATE_STATE < 2 → c.type = 6 →
    let ns := (List.range (c.fld 4 16 16)).map (c.fld 4 0 16 + ·)
    let e := c.fld 4 32 16
    s.commitCheck c = none →
    (ns = [] ∨ (∀ n ∈ ns, n ≤ 4095 ∧ s.shardState n = Sh.live ∧ e = (s.committed n + 1) % 2 ^ 16)) ∧
    ((∃ n ∈ ns, s.stuck n = true) →
      exec (.commit r q) s = .next ((s.discardFreeze r q).endCmd r q St.noResource 0 0 (s.frozenBy r q))) ∧
    ((∀ n ∈ ns, s.stuck n = false) →
      ((∃ n ∈ ns, s.commitOpen n = true) → exec (.commit r q) s =
        .next (ns.foldl (fun t n => t.mapShard n fun x => { x with waiting := x.waiting.erase (r, q) ++ [(r, q)] }) s)) ∧
      ((∀ n ∈ ns, s.commitOpen n = false) →
        (ns = [] → exec (.commit r q) s = .next (s.endCmd r q St.ok 0 e 0)) ∧
        (ns ≠ [] → exec (.commit r q) s =
          .next ((s.mapCmd r q fun c => { c with stage := .running, startedAt := s.now }).freezeAll c))))) ∧
  (∀ (s : State) (r q n : Nat) (x : Shard) (f : Freeze), s.Wf → s.bh.shards = [(n, some x)] → x.freeze = some f → f.ring = r → f.seq = q →
    f.committed = false → f.refused = false →
    (f.awaitAck ≠ [] → s.commitDone r q = s) ∧
    (f.awaitAck = [] → n < 4096 → f.epoch < 2 ^ 16 → ∀ c0, s.cmd? r q = some c0 → c0.stage ≠ .ended →
      ∃ c, (s.commitDone r q).cmd? r q = some c ∧ c.stage = .ended ∧ c.status = St.ok ∧ c.result = f.epoch ∧ c.result2 = 1 ∧
        (s.commitDone r q).committed n = f.epoch)) ∧
  (∀ (s : State) (n : Nat), (∀ r ∈ s.bh.resends, r.shard = n → r.stage ≠ 1) →
    ((∀ x f, s.shard n = some x → x.freeze = some f → f.committed = false ∨ f.refused = true ∨ s.get F.BH_CTRL_BG_HOLD = 1) →
      exec (.backgroundCopy n) s = .next s) ∧
    (∀ x f, s.shard n = some x → x.freeze = some f → f.committed = true → f.refused = false → s.get F.BH_CTRL_BG_HOLD ≠ 1 →
      f.next + 1 < x.blocks → f.ahead = [] → s.whReady = true → f.slot ≠ none →
      ∀ u bs, s.readBlock x f.next = (u, .ok bs) → granuleDigest bs = (f.bdt[f.next]?).getD 0 →
        ∃ t y g, exec (.backgroundCopy n) s = .next t ∧ t.shard n = some y ∧ y.freeze = some g ∧ g.next = f.next + 1 ∧ g.ahead = [] ∧
          y.blocks = x.blocks)) ∧
  (∀ (s : State) (n b : Nat) (x : Shard) (f : Freeze), s.shard n = some x → x.freeze = some f →
    (f.copied b = true ∨ f.refused = true → s.copyBlock n b = s) ∧
    (f.copied b = false → f.refused = false → s.whReady = false → s.copyBlock n b = s.copyFail n)) ∧
  (∀ (s : State) (p : Nat) (pkt : Packet) (x : Shard) (t : Stripe) (f : Freeze),
    let e := parseBh pkt.body
    let u := (s.takeBh p pkt).answered pkt.hdr.src e
    32 ≤ pkt.body.length → s.peerOk pkt e = true → e.btype = Bt.ack → (∀ r ∈ u.bh.resends, r.shard ≠ e.shard) →
    u.shard e.shard = some x → x.freeze = some f → f.stripe = some t → e.epoch = f.epoch → (t.holders[e.fidx]?).map (·.1) = some pkt.hdr.src → e.fidx ∈ f.awaitAck →
    let v := u.mapShard e.shard fun y => { y with freeze := some { f with awaitAck := f.awaitAck.erase e.fidx } }
    (e.code = 0 → exec (.boathouseAck p pkt) s = .next (v.commitDone f.ring f.seq)) ∧
    (e.code ≠ 0 → exec (.boathouseAck p pkt) s = .next (((v.put F.BH_SH_FAULT_LOST [e.shard]
      (v.get F.BH_SH_FAULT_LOST [e.shard] ||| 2 ^ e.fidx)).failDurability e.shard).commitDone f.ring f.seq))) ∧
  (∀ (s : State) (req : Requester) (v : Word64), s.Writes req .BH_CTRL [] →
    let t := s.applyWrite req .BH_CTRL [] v
    ((∀ n x, (n, some x) ∈ t.bh.shards → x.waiting ≠ [] → t.stuck n = false) →
      exec (.bgHold req v) s = t.written req .BH_CTRL []) ∧
    (∀ n x w, t.bh.shards = [(n, some x)] → x.waiting = [w] → t.stuck n = true → exec (.bgHold req v) s =
      ((t.discardFreeze w.1 w.2).endCmd w.1 w.2 St.noResource 0 0 (t.frozenBy w.1 w.2)).written req .BH_CTRL [])) ∧
  (∀ (s : State) (n : Nat) (x : Shard) (f : Freeze), s.shard n = some x → x.freeze = some f → f.committed = true → f.refused = false →
    f.next = x.blocks → f.awaitFack = [] → (f.slot.bind x.copySlot).isSome = true → f.stripe = none ∨ s.get F.BH_CTRL_BG_LINK_SHARE ≠ 0 →
    s.checkDurable n = s.makeDurable n ∧ (s.makeDurable n).shard n = some { x with durable := some f.epoch, freeze := none })

/-- The rows of a received Boathouse packet, with the BTYPE that each takes. -/
def bhRows : List ((Nat → Packet → Instr) × Nat) :=
  [(.announce, 0), (.boathouseAck, 1), (.frag, 2), (.fack, 3), (.fget, 4), (.chunk, 5), (.gap, 6), (.done, 7)]

/-- R188 to R200: what each Boathouse packet does. -/
def Obligations.BoathousePackets : Prop :=
  (∀ (s : State) (p : Nat) (pkt : Packet), ∀ row ∈ bhRows,
    let x := parseBh pkt.body
    let short : Prop := pkt.body.length < 32 ∨ s.peerOk pkt x = false
    (short → exec (row.1 p pkt) s = .next ((s.takeBh p pkt).bump F.BH_DROP_PEER)) ∧
    (¬short → 8 ≤ x.btype → exec (row.1 p pkt) s = .next (s.takeBh p pkt)) ∧
    (¬short → x.btype < 8 → x.btype ≠ row.2 → exec (row.1 p pkt) s = .next s)) ∧
  (∀ (s : State) (p : Nat) (pkt : Packet),
    let x := parseBh pkt.body
    let o := pkt.hdr.src
    let u := (s.takeBh p pkt).answered o x
    let payload := (pkt.body.drop 32).take x.len
    let ext (btype fidx code seq : Nat) : BhExt := ⟨btype, 0, x.shard, x.epoch, fidx, code, seq, 0, 0, x.sdigest⟩
    let answer (t : State) (btype fidx code seq : Nat) : Out := .next (t.sendBh o (ext btype fidx code seq) [])
    32 ≤ pkt.body.length → s.peerOk pkt x = true →
    (x.btype = 0 → (∀ f ∈ u.bh.frags, f.is o x.shard x.fidx = false) →
      let rows := (Config.freeValue u.freeCtr).toNat % 2 ^ 28 + 1
      let v : State := { u with freeCtr := u.freeCtr + 1 }
      let f : Fragment := ⟨o, x.shard, x.fidx, x.epoch, x.sdigest, [], rows, false, 0⟩
      let base := u.cget F.BH_FSTORE_BASE_ADDR
      let place := lowestGap base (base + u.cget F.BH_FSTORE_LEN_BYTES) f.size 64 (u.bh.frags.map fun g => (g.place, g.size))
      (∀ a, u.whReady = true → place = some a →
        exec (.announce p pkt) s = answer (v.setFrags (u.bh.frags ++ [{ f with place := a }])) Bt.ack x.fidx 0 0) ∧
      (u.whReady = false ∨ place = none → exec (.announce p pkt) s = answer (v.setFrags u.bh.frags) Bt.ack x.fidx 1 0)) ∧
    (x.btype = 2 → granuleDigest payload ≠ x.digest →
      exec (.frag p pkt) s = .next ((u.bump F.BH_BAD_CHUNK_COUNT).askBh o (ext Bt.fget x.fidx 0 x.seq) [])) ∧
    (x.btype = 2 → granuleDigest payload = x.digest →
      (∀ r, u.rebuildOf o x = some r → x.epoch = (manShard r.manifest r.shard).epoch → x.sdigest = (manShard r.manifest r.shard).sdigest →
        exec (.frag p pkt) s = .next ((u.mapRebuild r.ring r.seq fun r =>
          { r with got := spIns r.got (32 * x.seq + x.fidx) payload }).advanceRebuild r.ring r.seq)) ∧
      (u.rebuildOf o x = none →
        ((∀ f ∈ u.bh.frags, f.is o x.shard x.fidx = false) → exec (.frag p pkt) s = answer u Bt.fack x.fidx 3 0) ∧
        (∀ f, (u.bh.frags.find? fun f => f.is o x.shard x.fidx && !f.whole) = some f → f.epoch = x.epoch → f.sdigest = x.sdigest →
          x.seq < f.total → (∀ g ∈ u.bh.frags, g.is o x.shard x.fidx = true → epochOlder x.epoch g.epoch = false) →
          (spIns f.rows x.seq payload).length < f.total → exec (.frag p pkt) s =
            .next (u.setFrags ((u.bh.frags.filter fun g => g ≠ f) ++ [{ f with rows := spIns f.rows x.seq payload }]))))) ∧
    (x.btype = 3 → u.rebuildOf o x = none → (∀ r ∈ u.bh.resends, r.shard ≠ x.shard) → ∀ sh t f, u.shard x.shard = some sh →
      sh.freeze = some f → f.stripe = some t → x.epoch = f.epoch → (t.holders[x.fidx]?).map (·.1) = some o → x.fidx ∈ f.awaitFack →
      let frag := ((fragmentsOf t (f.image sh.blocks))[x.fidx]?).getD []
      (x.code ≠ 0 → exec (.fack p pkt) s =
        .next ((u.put F.BH_SH_FAULT_LOST [x.shard] (u.get F.BH_SH_FAULT_LOST [x.shard] ||| 2 ^ x.fidx)).failDurability x.shard)) ∧
      (x.code = 0 → frag.length / 4096 ≤ x.seq → x.digest = granuleDigest frag → exec (.fack p pkt) s =
        .next ((u.mapShard x.shard fun y => { y with freeze := some { f with awaitFack := f.awaitFack.erase x.fidx } }).checkDurable
          x.shard))) ∧
    (x.btype = 4 →
      let held (f : Fragment) : Bool := f.shard = x.shard && f.fidx = x.fidx && f.epoch = x.epoch && f.sdigest = x.sdigest && f.whole
      let newer : Prop := ∃ f ∈ u.bh.frags, f.shard = x.shard ∧ f.fidx = x.fidx ∧ epochOlder x.epoch f.epoch = true
      (∀ f v bs, u.bh.frags.find? held = some f → x.seq < f.total → u.stowAt f.place x.seq = (v, some bs) → v.fragsMove = true →
        exec (.fget p pkt) s = .next (v.sendBh o (ext Bt.frag x.fidx 0 x.seq) bs)) ∧
      ((∀ f ∈ u.bh.frags, held f = false) → u.shard x.shard = none → (∀ r ∈ u.bh.resends, r.shard ≠ x.shard) →
        (newer → exec (.fget p pkt) s = .next (u.bump F.BH_DROP_STALE)) ∧
        (¬newer → exec (.fget p pkt) s = answer u Bt.fack x.fidx 3 0))) ∧
    ((∀ r ∈ u.bh.restores, r.shard ≠ x.shard) → (∀ r ∈ u.bh.served, r.shard ≠ x.shard) →
      (x.btype = 5 → exec (.chunk p pkt) s = .next u) ∧ (x.btype = 6 → exec (.gap p pkt) s = .next u) ∧
      (x.btype = 7 → exec (.done p pkt) s = .next u)) ∧
    (∀ r, (u.bh.restores.find? fun r => r.shard = x.shard) = some r → r.epoch = x.epoch →
      (x.btype = 5 → r.node ≠ 0 → x.seq < r.chunks →
        let r0 := if r.endpointOf r.parent = some o then { r with lastChunk := u.now } else r
        (granuleDigest payload ≠ x.digest → exec (.chunk p pkt) s =
          answer ((u.mapRestore r.ring r.seq fun _ => r0).bump F.BH_BAD_CHUNK_COUNT) Bt.gap 0 0 x.seq) ∧
        (granuleDigest payload = x.digest → (∀ h ∈ r.held, h.1 ≠ x.seq) →
          ∃ r', r' = u.trimHeld { r0 with held := spIns r.held x.seq payload, verified := r.verified + 1 } ∧
            exec (.chunk p pkt) s = .next (((r'.children.foldl (fun t n => t.sendChunk r' n x.seq payload)
              (u.mapRestore r.ring r.seq fun _ => r')).sendDone r').restoreDone r.ring r.seq))) ∧
      (x.btype = 6 → (∀ t ∈ r.tree, t.endpoint ≠ o) → exec (.gap p pkt) s = .next u) ∧
      (x.btype = 6 → r.node ≠ 0 → (∀ h ∈ r.held, h.2 ≠ []) → ∀ n, (r.tree.findIdx? fun t => t.endpoint = o) = some n → r.child n = true →
        exec (.gap p pkt) s = .next (((List.range r.chunks).drop x.seq).foldl (fun t c =>
          if (spGet [] r.held c).isEmpty then t else t.sendChunk r n c (spGet [] r.held c)) (u.mapRestore r.ring r.seq fun _ => r))) ∧
      (x.btype = 7 → r.endpointOf (x.digest.toNat % 4096) = some o →
        let n := x.digest.toNat % 4096
        let r' := { r with reported := spPut 0 r.reported n (max x.seq (spGet 0 r.reported n)) }
        exec (.done p pkt) s = .next (((u.mapRestore r.ring r.seq fun _ => r').sendDone r').restoreDone r.ring r.seq))))

/-- R190, R199 and R201. -/
def Obligations.SilentPeers : Prop :=
  (∀ (s : State) (r q : Nat), s.restore? r q = none → exec (.reparent r q) s = .next s) ∧
  (∀ (s : State) (r : Restore) (t a : TreeNode), s.restore? r.ring r.seq = some r → r.tree[r.node]? = some t → r.tree[t.alt]? = some a →
    r.node ≠ 0 →
    (r.inRow < r.chunks ∧ r.lastChunk + 500 * s.get F.BH_RESTORE_CFG_SILENCE_US ≤ s.now) ∨
      (∃ e, r.endpointOf r.parent = some e ∧ e ∈ s.bh.deadPeers) →
    ∃ r', r' = { r with parent := t.alt, reparents := r.reparents + 1, lastChunk := s.now } ∧ exec (.reparent r.ring r.seq) s =
      .next (((s.mapRestore r.ring r.seq fun _ => r').bump F.BH_REPARENT_COUNT).sendBh a.endpoint
        ⟨Bt.gap, 0, r.shard, r.epoch, 0, 0, r.inRow, 0, 0, (manShard r.manifest r.shard).sdigest⟩ [])) ∧
  (∀ (s : State) (e : Nat),
    let limit := 500000 * s.get F.BH_CTRL_PEER_TIMEOUT_MS
    ((∀ a ∈ s.bh.awaits, a.endpoint ≠ e) → exec (.stripePeerDead e) s = .next s) ∧
    (∀ a, s.bh.awaits = [a] → a.endpoint = e → s.now < a.sentAt + limit → a.sends + 1 = min 3 (1 + 3 * (s.now - a.sentAt) / limit) →
      let t := s.sendBh e a.ext a.payload
      exec (.stripePeerDead e) s = .next { t with bh := { t.bh with awaits := [{ a with sends := a.sends + 1 }] } }) ∧
    ((∃ a ∈ s.bh.awaits, a.endpoint = e ∧ a.sentAt + limit ≤ s.now) → (∀ a ∈ s.bh.awaits, a.endpoint = e → s.sendsDue a ≤ a.sends) →
      s.bh.shards = [] → s.bh.rebuilds = [] → s.bh.restores = [] →
      exec (.stripePeerDead e) s = .next { s with bh := { s.bh with
        deadPeers := e :: s.bh.deadPeers.erase e, awaits := s.bh.awaits.filter fun a => a.endpoint ≠ e,
        resends := s.bh.resends.filter fun r => r.endpoint ≠ e } }))

/-- R33, R57, R84, R86, R91, R92 and R379. -/
def Obligations.PavilionEvents : Prop :=
  (∀ (s : State) (n : Nat) (l : Launch), s.Wf → n < 800 → s.nextReady n = some (.launched l) → s.pvState n = Ps.idle →
    s.get F.PV_CTRL_DISPATCH_HOLD = 0 → s.get F.PM_STATE_STATE ≤ 1 →
    let im := (s.image l.kid).getD KImage.none
    ∃ t k, exec (.launchedDispatch n) s = .next t ∧ t.pvState n = Ps.running ∧ (t.pav n).kern = some k ∧ k.bound = false ∧
      k.ring = l.ring ∧ k.seq = l.seq ∧ k.segs = l.segs ∧ k.evBase = l.evBase ∧ k.evCount = l.evCount ∧ k.wdog = im.wdog ∧
      (t.pav n).pc = im.entry ∧ (t.pav n).vl = 64 ∧ (t.pav n).rmode = l.rmode ∧ (t.pav n).srJob = l.srJob ∧
      (t.pav n).srMoor = l.srMoor ∧ (t.pav n).srPsq = l.srPsq ∧
      (∀ r : BitVec 5, (t.pav n).reg r = if r = 1 then 0x7FC00 else if r = 2 then BitVec.ofNat 64 (n - l.first)
        else if r = 3 then BitVec.ofNat 64 l.count else 0) ∧
      (∀ p, (t.pav n).pred p = decide (p = 0)) ∧ (∀ v i, (t.pav n).lane v i = 0) ∧ (t.pav n).out = []) ∧
  (∀ (s : State) (n : Nat) (c : Coll) (x : Parcel) (stamp : Nat), s.Wf → n < 800 → s.nextReady n = some (.bound c x stamp) →
    s.pvState n = Ps.idle → s.get F.PV_CTRL_DISPATCH_HOLD = 0 → s.get F.PM_STATE_STATE ≤ 1 →
    ∃ t k, exec (.boundDispatch n) s = .next t ∧ t.pvState n = Ps.running ∧ (t.pav n).kern = some k ∧ k.bound = true ∧
      k.ring = c.ring ∧ k.seq = c.seq ∧ k.parcel = x.k ∧ k.entries = s.owned c x.k n ∧ (t.pav n).vl = 64 ∧
      (t.pav n).rmode = c.rmode ∧ (t.pav n).srMoor = c.moor ∧ (t.pav n).reg 1 = 0x7FC00 ∧
      (t.pav n).reg 2 = BitVec.ofNat 64 (s.owned c x.k n).length ∧ (t.pav n).reg 3 = BitVec.ofNat 64 (c.pseq x.k)) ∧
  (∀ (s : State) (n : Nat) (d : Ready), s.nextReady n = some d → s.pvState n ≠ Ps.gated →
    s.pvState n ≠ Ps.idle ∨ s.get F.PV_CTRL_DISPATCH_HOLD ≠ 0 ∨ 1 < s.get F.PM_STATE_STATE →
    exec (.launchedDispatch n) s = .next s ∧ exec (.boundDispatch n) s = .next s) ∧
  (∀ (s : State) (n : Nat) (l : Launch), s.nextReady n = some (.launched l) → s.pvState n = Ps.gated →
    exec (.launchedDispatch n) s = .next s.wakeNext) ∧
  (∀ (s : State) (n : Nat),
    (s.pvState n = Ps.waking → s.get F.PM_STATE_STATE ≤ 1 → exec (.pavilionWake n) s = .next (s.setPvState n Ps.idle).wakeNext) ∧
    (s.pvState n ≠ Ps.waking ∨ 1 < s.get F.PM_STATE_STATE → exec (.pavilionWake n) s = .next s) ∧
    (let due : Prop := s.pvState n = Ps.idle ∧ s.readyFor n = [] ∧ (s.get F.PM_STATE_STATE = 1 ∨
      s.get F.PM_STATE_STATE = 0 ∧ s.get F.PM_CTRL_RUN_GATE = 1 ∧ (s.pav n).since + 500 * s.get F.PM_CTRL_GATE_IDLE_US ≤ s.now)
     (due → exec (.pavilionGating n) s = .next (s.setPvState n Ps.gated)) ∧ (¬due → exec (.pavilionGating n) s = .next s)) ∧
    (∀ k, (s.pav n).kern = some k → k.kid ≠ 0 → k.wdog ≤ (s.pvc - k.wdogAt) / 1024 →
      s.pvState n = Ps.running ∨ s.pvState n = Ps.waiting →
      exec (.watchdog n) s = .next (s.raiseFault n Fc.watchdog 0 (s.pav n).pc 0)) ∧
    ((∀ k, (s.pav n).kern = some k → k.kid = 0 ∨ (s.pvc - k.wdogAt) / 1024 < k.wdog) → exec (.watchdog n) s = .next s)) ∧
  (∀ (s : State) (n : Nat) (k : Kern) (c : Coll) (x : Parcel) (a : Arrival), (s.pav n).kern = some k → k.bound = true → k.codec = none →
    s.pvState n = Ps.running ∨ s.pvState n = Ps.waiting → s.coll? k.ring k.seq = some c →
    (c.live.find? fun x => x.k = k.parcel) = some x →
    (s.nextPost c x k = none → ∀ b, exec (.arrivalRecord n b) s = .next s) ∧
    (s.nextPost c x k = some a →
      (k.arrwSlots ≤ k.inUse → exec (.arrivalRecord n false) s = .next s) ∧
      (k.inUse < k.arrwSlots → exec (.arrivalRecord n false) s =
        .next (s.setPav n { (s.pav n).store (k.arrwBase + 4096 * k.slotNext) a.elems with kern := some { k with
          posted := k.posted ++ [(a.entry, a.member)],
          queue := k.queue ++ [⟨k.arrwBase + 4096 * k.slotNext, a.elems.length, a.member, k.entries.idxOf a.entry⟩],
          slotNext := (k.slotNext + 1) % k.arrwSlots, inUse := k.inUse + 1 } })) ∧
      (4 ≤ spGet 0 c.discards (s.granNo c x.k a.entry * 4096 + a.member) →
        exec (.arrivalRecord n true) s = .next ((s.tally 0x23).stopColl c.ring c.seq St.dataError 0 (some a.member))))) ∧
  (∀ (s : State) (req : Requester) (n : Nat) (v : Word64), s.Writes req .PV_FAULT [n] →
    let t := s.applyWrite req .PV_FAULT [n] v
    (t.pvState n = Ps.faulted → t.get F.PV_FAULT_VALID [n] = 0 → exec (.faultRelease req n v) s =
      ((t.clearKern n).setPvState n Ps.idle).written req .PV_FAULT [n]) ∧
    (t.pvState n ≠ Ps.faulted ∨ t.get F.PV_FAULT_VALID [n] ≠ 0 → exec (.faultRelease req n v) s = t.written req .PV_FAULT [n])) ∧
  (∀ (s : State) (n w : Nat), let p := s.pav n
    let on : Prop := s.get F.PV_CTRL_SCRUB_EN ≠ 0 ∧ s.pvState n ≠ Ps.gated ∧ s.pvState n ≠ Ps.waking
    (on → w ∈ p.bad → exec (.tileScrub n w) s = .next (s.bump F.PV_TILE_ERR_UNCORRECTED)) ∧
    (on → w ∉ p.bad → w ∈ p.weak →
      exec (.tileScrub n w) s = .next ((s.bump F.PV_TILE_ERR_CORRECTED).setPav n { p with weak := p.weak.erase w })) ∧
    (¬on ∨ (w ∉ p.bad ∧ w ∉ p.weak) → exec (.tileScrub n w) s = .next s))

/-- R52 and R182. -/
def Obligations.SliceAndShardDigest : Prop :=
  (∀ m g : Nat, g < 2 ^ 64 → m < 2 ^ 24 → sliceOfGranule m g =
      (((BitVec.ofNat 64 g + (BitVec.ofNat 64 m <<< 40)) * 0x2545F4914F6CDD1D#64) >>> 58).toNat ∧ sliceOfGranule m g < 64) ∧
  (∀ (epoch params : Nat), epoch < 2 ^ 16 → params < 2 ^ 40 →
    shardDigest [] epoch params = mix ((BitVec.ofNat 64 epoch <<< 48) ||| BitVec.ofNat 64 params)) ∧
  (∀ (bdt : List Word64) (epoch params : Nat), epoch < 2 ^ 16 → params < 2 ^ 40 → ∃ d : Nat → Word64, d 0 = 0 ∧
    (∀ b, b < bdt.length → d (b + 1) = mix (d b ^^^ (bdt[b]?).getD 0)) ∧
    shardDigest bdt epoch params = mix (d bdt.length ^^^ ((BitVec.ofNat 64 epoch <<< 48) ||| BitVec.ofNat 64 params)))

/-- R139, R140 and R145: CONTRIB. -/
def Obligations.Contributions : Prop :=
  ∀ (s : State) (p : Nat) (pkt : Packet),
    let w (i : Nat) : Word64 := word64At pkt.body (8 * i)
    let m := bits (w 0) 16 14
    let i := bits (w 0) 48 12
    let pseq := bits (w 1) 0 32
    let e := bits (w 1) 32 4
    let t := s.unsteer p pkt
    let dropped (f : Fld) : Out := .next (t.bump f)
    let live : Prop := s.ctxState m = Cs.active ∧ bits (w 0) 0 4 = 0
    let mine : Prop := pkt.hdr.job = s.job m ∧ bits (w 0) 4 12 = s.job m ∧ bits (w 0) 32 16 = s.epoch m
    (¬live → exec (.contrib p pkt) s = .next (t.unknownMooring p pkt.hdr.tc)) ∧
    (live → ¬mine → exec (.contrib p pkt) s = dropped F.MO_DROP_STALE_COUNT) ∧
    (live → mine → (s.ctx m).fenced i = true → exec (.contrib p pkt) s = dropped F.MO_DROP_FENCED_COUNT) ∧
    (live → mine → (s.ctx m).fenced i = false →
      (s.findParcel m pseq = none →
        ((s.gateNext m + 2 ^ 32 - 1 - pseq) % 2 ^ 32 < 2 ^ 31 → exec (.contrib p pkt) s = dropped F.MO_DUP_COUNT) ∧
        (2 ^ 31 ≤ (s.gateNext m + 2 ^ 32 - 1 - pseq) % 2 ^ 32 → exec (.contrib p pkt) s = dropped F.MO_DROP_UNGRANTED_COUNT)) ∧
      (∀ c x, s.findParcel m pseq = some (c, x) →
        let len := contribLen c.inFmt (((s.granLens c x.k)[e]?).getD 0)
        let fits : Prop := e < (s.granLens c x.k).length ∧ i ∈ s.contributors c ∧ bits (w 2) 0 32 = s.granNo c x.k e % 2 ^ 32 ∧
          bits (w 1) 36 13 = len ∧
          pkt.body.length = 24 + len + (if c.inFmt.isMx then (((s.granElems c x.k)[e]?).getD 0 + 31) / 32 else 0)
        (¬fits → exec (.contrib p pkt) s = dropped F.MO_DROP_BAD_COUNT) ∧
        (fits → x.arrival e i ≠ none → exec (.contrib p pkt) s = dropped F.MO_DUP_COUNT) ∧
        (fits → x.arrival e i = none → s.berthsFull c x e = true → exec (.contrib p pkt) s = .next s) ∧
        (fits → x.arrival e i = none → s.berthsFull c x e = false →
          ∃ a : Arrival, a.entry = e ∧ a.member = i ∧ a.elems = (pkt.body.drop 24).take len ∧ a.scales = pkt.body.drop (24 + len) ∧
            exec (.contrib p pkt) s = .next ((({ t with mo := { t.mo with order := t.mo.order + 1 } } : State).mapParcel
              c.ring c.seq x.k fun x => { x with arrivals := x.arrivals ++ [a] }).formReady c.ring c.seq x.k))))

/-- R141 to R155: the engine of a Mooring. -/
def Obligations.AdmissionAndGate : Prop :=
  (∀ s : State,
    (s.candidate = none → exec .parcelAdmission s = .next s.joinOverflow) ∧
    (∀ m cls, s.candidate = some (m, cls) → exec .parcelAdmission s = .next (s.takeIn m cls).joinOverflow ∧
      (cls = 1 → m ∈ s.waitingMoors ∧ s.floorBusy m = false ∧ s.waitingCharge m ≤ s.get F.MO_CTX_SLIP_FLOOR [m]) ∧
      (cls = 2 → m ∈ s.waitingMoors ∧ (∀ n ∈ s.waitingMoors, s.fitsFloor n = false) ∧
        s.sharedHeld m + s.waitingCharge m ≤ s.sharedPool / s.waitingMoors.length ∧ s.waitingCharge m ≤ s.sharedBerths) ∧
      (cls = 3 → s.mo.overflow.head? = some m ∧ s.waitingCharge m ≤ s.sharedBerths ∧
        ∀ n ∈ s.waitingMoors, s.fitsFloor n = false ∧ s.fitsShare n = false) ∧ (cls = 1 ∨ cls = 2 ∨ cls = 3))) ∧
  (∀ (s : State) (m pseq e i : Nat), (s.findParcel m pseq = none → exec (.rereq m pseq e i) s = .next s) ∧
    ∀ c x, s.findParcel m pseq = some (c, x) →
      let due : Prop := e < (s.granLens c x.k).length ∧ i ∈ s.contributors c ∧ s.get F.MO_REREQ_INTERVAL ≠ 0 ∧ x.arrival e i = none ∧
        (s.ctx c.moor).fenced i = false ∧ spGet x.grantedAt x.asked (4096 * e + i) + 500 * s.get F.MO_REREQ_INTERVAL ≤ s.now
      (due → exec (.rereq m pseq e i) s = .next (((s.mapParcel c.ring c.seq x.k fun x => { x with
        asked := spIns x.asked (4096 * e + i) s.now }).sendMember c.moor i 3 ((c.pseq0 + x.k) % 2 ^ 32) e 0 (s.granNo c x.k e) 0 []).bump
          F.MO_REREQ_SENT_COUNT)) ∧
      (¬due → exec (.rereq m pseq e i) s = .next s)) ∧
  (∀ (s : State) (req : Requester) (v : Word64), s.Writes req .MO_REREQ [] →
    exec (.rereqInterval req v) s = (s.applyWrite req .MO_REREQ [] v).askDue.written req .MO_REREQ []) ∧
  (∀ (s : State) (req : Requester) (v : Word64), s.Writes req .MO_SLIP_CFG [] →
    let fb := v.toNat % 2 ^ 16
    (32768 < fb → exec (.floorBerths req v) s = (s.put F.MO_STATUS_CFG_REFUSED [] 1).written req .MO_SLIP_CFG []) ∧
    (fb ≠ s.get F.MO_SLIP_CFG_FLOOR_BERTHS → s.ctxsIn Cs.active ≠ [] ∨ s.engineBusy = true →
      exec (.floorBerths req v) s = (s.put F.MO_STATUS_CFG_REFUSED [] 1).written req .MO_SLIP_CFG []) ∧
    (fb ≤ 32768 → s.ctxsIn Cs.active = [] → s.engineBusy = false →
      let t := s.put F.MO_SLIP_CFG_FLOOR_BERTHS [] fb
      exec (.floorBerths req v) s = (t.put F.MO_SLIP_STATUS_SHARED_FREE [] t.sharedBerths).written req .MO_SLIP_CFG [])) ∧
  (∀ (s : State) (m i : Nat),
    let c := s.ctx m
    let dead : Prop := s.ctxState m = Cs.active ∧ c.bitmap.testBit i = true ∧ s.beaconAt (c.portOf i) + 500000 * c.leaseMs ≤ s.now ∧
      c.since + 500000 * c.leaseMs ≤ s.now
    (dead → exec (.memberDead m i) s = .next ((s.fence m i true).memberGone m (c.endpoint i))) ∧ (¬dead → exec (.memberDead m i) s = .next s)) ∧
  (∀ (s : State) (m : Nat), (s.findParcel m (s.gateNext m) = none → ∀ b, exec (.gatePassage m b) s = .next s) ∧
    ∀ c x, s.findParcel m (s.gateNext m) = some (c, x) →
      (s.passable c x = true → s.parcelDone c x = true) ∧
      (s.passable c x = false → ∀ b, exec (.gatePassage m b) s = .next s) ∧
      (s.passable c x = true → ∀ b, b < (s.granLens c x.k).length →
        exec (.gatePassage m (some b)) s = .next (s.granuleReset c.ring c.seq x.k b)) ∧
      (s.passable c x = true → c.kid ≠ none → exec (.gatePassage m none) s = .next (s.passGate c x (s.kernelOut c x) [])) ∧
      (s.passable c x = true → c.kid = none → c.op ≠ 8 →
        exec (.gatePassage m none) s = .next ((s.countXrange c x).passGate c x (s.builtinOut c x) [])) ∧
      (s.passable c x = true → c.kid = none → c.op = 8 → ∀ sh u l st, s.shard c.shard = some sh → s.updateAll c x sh = (u, .ok (l, st)) →
        exec (.gatePassage m none) s = .next ((u.countXrange c x).passGate c x l st))) ∧
  (∀ (s : State) (req : Requester) (v : Word64), s.Writes req .GEN_CTRL [] →
    let changes : Prop := (v.getLsbD 0).toNat ≠ s.get F.GEN_CTRL_STRICT_ORDER
    let going : Prop := ∃ c ∈ s.mo.colls, c.live ≠ []
    (changes → going → exec (.strictOrder req v) s = (s.put F.GEN_STATUS_STRICT_REFUSED [] 1).written req .GEN_CTRL []) ∧
    (¬changes ∨ ¬going → exec (.strictOrder req v) s = (s.applyWrite req .GEN_CTRL [] v).written req .GEN_CTRL []))

/-- R205 to R215, R387, R388: Dock's own events and the host's windows onto it. The places and values of injected errors are free
values; that the scrubber's lines come due evenly over SCRUB_HOURS, and that host writes into a protected shard range are those of
R166's shards, are the model's (log entries 65 and the one on the scrubber). -/
def claimDockAndWindows : Prop :=
  (∀ s : State, s.get F.DK_CTRL_SCRUB_EN = 1 → s.get F.DK_STATUS_POWER = 0 → s.scrubDue = true →
    let p := s.dock.scrub
    let line := lineAt (p / (17 * deviceGroups)) (p % (17 * deviceGroups) / 17) (p % 17)
    ∃ t, exec (.dockScrub (p / (17 * deviceGroups))) s = .next t ∧ t.dock.scrub = (if p + 1 < 17 * deviceGroups * dockDevices then p + 1 else 0) ∧
      (s.Wf → t.get F.DK_STATUS_SCRUB_PASSES = (s.get F.DK_STATUS_SCRUB_PASSES + if p + 1 < 17 * deviceGroups * dockDevices then 0 else 1) %
        2 ^ F.DK_STATUS_SCRUB_PASSES.width) ∧
      (s.Wf → ∀ a, t.dockByte a = s.dockByte a) ∧
      (p % 17 ≠ 16 → (∀ l, t.dock.lineErrs l = if l = line ∧ s.dockBad line = false then [] else s.dock.lineErrs l) ∧
        (s.Wf → t.get F.DK_ERR_CNT_UNCORRECTED =
          min (s.get F.DK_ERR_CNT_UNCORRECTED + if s.dockBad line = true then 1 else 0) (2 ^ F.DK_ERR_CNT_UNCORRECTED.width - 1) ∧
        t.get F.DK_ERR_CNT_CORRECTED = min (s.get F.DK_ERR_CNT_CORRECTED +
          if s.dockBad line = false ∧ s.dockWeak line = true then 1 else 0) (2 ^ F.DK_ERR_CNT_CORRECTED.width - 1)))) ∧
  (∀ (s : State) (device : Nat), s.get F.DK_CTRL_SCRUB_EN = 0 ∨ s.get F.DK_STATUS_POWER ≠ 0 ∨ s.scrubDue = false ∨
    device ≠ s.dock.scrub / (17 * deviceGroups) → exec (.dockScrub device) s = .next s) ∧
  (∀ (s : State) (line : Nat), s.get F.DK_CTRL_WB_CORRECTED = 1 → s.dockWeak line = true → s.dockBad line = false →
    ∃ t, exec (.correctedWriteBack line) s = .next t ∧ (∀ l, t.dock.lineErrs l = if l = line then [] else s.dock.lineErrs l) ∧
      (s.Wf → ∀ a, t.dockByte a = s.dockByte a)) ∧
  (∀ s : State,
    let still : Prop := (2 ≤ s.get F.PM_STATE_STATE ∧ s.recordsDue none = false) ∨
      (s.get F.PM_STATE_STATE = 1 ∧ s.get F.DK_CTRL_QUIET_SR = 1 ∧ s.dockAt + 500000 ≤ s.now)
    (s.get F.DK_STATUS_POWER = 0 → still → exec .selfRefreshEntry s = .next (s.flushChecks.put F.DK_STATUS_POWER [] 1) ∧
      (∀ x ∈ s.flushChecks.dock.cached, ∀ g ∈ x.2, g.2 = false)) ∧
    (¬(s.get F.DK_STATUS_POWER = 0 ∧ still) → exec .selfRefreshEntry s = .next s) ∧
    (s.get F.DK_STATUS_POWER = 2 → exec .selfRefreshExit s = .next (s.put F.DK_STATUS_POWER [] 0)) ∧
    (s.get F.DK_STATUS_POWER ≠ 2 → exec .selfRefreshExit s = .next s)) ∧
  (∀ (s : State) (addr n base : Nat), s.up.linkUp = true → s.decoderOf addr = some (n, base) →
    let d := s.cget F.DK_WIN_BASE_BASE [n] + (addr - base)
    let open' : Prop := s.cget F.DK_WIN_BASE_VALID [n] = 1 ∧ addr - base < s.cget F.DK_WIN_SIZE_SIZE [n] * 2 ^ 28
    let asleep : Prop := 2 ≤ s.get F.PM_STATE_STATE ∧ s.get F.DK_STATUS_POWER ≠ 0
    (¬open' → exec (.hostWindowRead addr) s = .next (s.send (.memRead addr none))) ∧
    (open' → asleep →
      exec (.hostWindowRead addr) s = .next ((s.put F.DK_STATUS_SR_ACCESS [] 1).send (.memRead addr none))) ∧
    (open' → ¬asleep → ∃ t pre, exec (.hostWindowRead addr) s = .next t ∧
      t.sent = s.sent ++ pre ++ [.memRead addr (if s.dockBad (d / 64) = true then none
        else some ((List.range 64).map fun i => s.dockByte (d / 64 * 64 + i)))] ∧
      (s.up.snoop.length < 2097152 → pre = []) ∧ t.dock.cells = s.dock.cells ∧ t.dock.errs = s.dock.errs ∧ d / 64 ∈ t.up.snoop)) ∧
  (∀ (s : State) (addr n base : Nat) (bytes : List Byte), s.Wf → s.up.linkUp = true → s.decoderOf addr = some (n, base) → bytes ≠ [] →
    let d := s.cget F.DK_WIN_BASE_BASE [n] + (addr - base)
    let bs := bytes.take (64 - d % 64)
    let barred : Prop := s.cget F.DK_WIN_BASE_VALID [n] = 0 ∨ s.cget F.DK_WIN_SIZE_SIZE [n] * 2 ^ 28 ≤ addr - base ∨
      s.cget F.DK_WIN_BASE_WRITE [n] = 0 ∨ s.protects d bs.length = true
    let asleep : Prop := 2 ≤ s.get F.PM_STATE_STATE ∧ s.get F.DK_STATUS_POWER ≠ 0
    let taken : Prop := bs.length = 64 ∨ s.dockBad (d / 64) = false
    let armed : Prop := s.get F.DK_INJECT_ARM = 1 ∧ s.get F.DK_INJECT_ADDR / 64 = d / 64
    (barred → exec (.hostWindowWrite addr bytes) s = .next ((s.deny .host 2 d).countMem 2 d)) ∧
    (¬barred → asleep → exec (.hostWindowWrite addr bytes) s = .next (s.put F.DK_STATUS_SR_ACCESS [] 1)) ∧
    (¬barred → ¬asleep → ∃ t, exec (.hostWindowWrite addr bytes) s = .next t ∧ d / 64 ∈ t.up.snoop ∧
      (taken → ∀ a, t.dockStored a = if d ≤ a ∧ a < d + bs.length then bs.getD (a - d) 0
        else if a / 64 = d / 64 then s.dockByte a else s.dockStored a) ∧
      (taken → ¬armed → ∀ l, t.dock.lineErrs l = if l = d / 64 then [] else s.dock.lineErrs l) ∧
      (taken → armed → ∀ l, t.dock.lineErrs l = if l = d / 64 then
        injected (s.get F.DK_INJECT_KIND) (Config.freeValue s.freeCtr) else s.dock.lineErrs l) ∧
      (¬taken → t.dock.cells = s.dock.cells ∧ t.dock.errs = s.dock.errs))) ∧
  (∀ (s : State) (n base size : Nat), s.powered = true → n < 8 →
    let ok : Prop := size = 0 ∨ (s.cget F.DK_WIN_BASE_VALID [n] = 1 ∧ size = s.cget F.DK_WIN_SIZE_SIZE [n] * 2 ^ 28)
    (ok → exec (.hdmDecoderCommit n base size) s =
      .next { s with up := { s.up with decoders := s.up.decoders.set n (base, size, true, false) } }) ∧
    (¬ok → exec (.hdmDecoderCommit n base size) s =
      .next { s with up := { s.up with decoders := s.up.decoders.set n (base, size, false, true) } }))

/-- R216, R219: the Warehouse's root ports. -/
def claimWarehouseLinks : Prop :=
  ∀ (s : State) (port : Nat), s.powered = true → port < 4 →
    (let was : Prop := s.get F.WH_PORT_STATE [port] = 2 ∨ s.get F.WH_PORT_STATE [port] = 3
     let serving : Prop := s.get F.WH_STATUS_STATE = 1 ∧ (s.cget F.WH_CFG_PORT_MASK).testBit port = true
     ∃ t : State, (was → t = (s.bump F.WH_ERR_CNT_LINK_DOWN).put F.WH_PORT_STATE [port] 4) ∧
       (¬was → t = s.put F.WH_PORT_STATE [port] 4) ∧
       (¬serving → exec (.warehouseLinkLoss port) s = .next t) ∧
       (serving →
         let u := (t.put F.WH_STATUS_STATE [] 2).setFrags []
         u.bh.frags = [] ∧ exec (.warehouseLinkLoss port) s =
           .next ((u.bh.shards.map (·.1)).foldl (fun v n => if v.copying n = true then v.copyFail n else v) u))) ∧
    (∀ (width gts cap : Nat) (lopt fit : Bool), s.Wf → width < 32 → gts < 128 →
      ∃ t, exec (.warehouseLinkUp port width gts lopt fit cap) s = .next t ∧
        t.get F.WH_PORT_WIDTH [port] = width ∧ t.get F.WH_PORT_GTS [port] = gts ∧
        let good : Prop := fit = true ∧ 384 ≤ cap
        (good → width = 16 → gts = 64 → t.get F.WH_PORT_STATE [port] = 2 ∧ t.get F.WH_PORT_CAP_256M [port] = min cap 4096) ∧
        (good → (width = 8 ∧ gts = 64) ∨ (width = 16 ∧ gts = 32) →
          t.get F.WH_PORT_STATE [port] = 3 ∧ t.get F.WH_PORT_CAP_256M [port] = min cap 4096) ∧
        (¬good ∨ ¬((width = 16 ∧ gts = 64) ∨ (width = 8 ∧ gts = 64) ∨ (width = 16 ∧ gts = 32)) →
          t.get F.WH_PORT_STATE [port] = 5 ∧ t.get F.WH_PORT_CAP_256M [port] = 0 ∧ t.get F.WH_PORT_IDE_ON [port] = 0))

/-- Dock, its windows, and the Warehouse. -/
def Obligations.DockAndWindows : Prop := claimDockAndWindows ∧ claimWarehouseLinks

/-- R232 to R249 and R261: the way of a packet. That a bad packet of the module's own is built again as the same packet is the model's
choice (R355; log entry on EGRESS_REASSEMBLY). -/
def Obligations.BasinPath : Prop :=
  (∀ pkt : Packet, headerBad pkt = false ↔ pkt.hdr.hcrc = pkt.hdr.crc ∧ pkt.hdr.ver = 1 ∧ pkt.hdr.kind ≤ 3 ∧ pkt.hdr.len ≤ 9216 ∧
    pkt.hdr.len = pkt.body.length ∧ (pkt.hdr.kind = 1 → 24 ≤ pkt.hdr.len) ∧ (pkt.hdr.kind = 2 → 32 ≤ pkt.hdr.len) ∧
    (pkt.hdr.mc = true → (pkt.hdr.kind = 0 ∨ pkt.hdr.kind = 3) ∧ pkt.hdr.dst < 4096)) ∧
  (∀ (s : State) (port : Nat) (pkt : Packet),
    let c := pkt.hdr.tc
    let came : BPkt := (s.basin.handed.find? fun x => x.port = port && x.pkt = pkt).getD
      ⟨pkt, port, s.ingressStamp port, false, s.lossless port c, none⟩
    let u : State := { s with
      basin := { s.basin with handed := s.basin.handed.erase came },
      tal := { s.tal with rxBytes := spPut 0 s.tal.rxBytes port (spGet 0 s.tal.rxBytes port + (32 + pkt.hdr.len)) } }
    let u' := u.noteEvent port false pkt came.stamp
    (headerBad pkt = true → exec (.packetArrival port pkt) s = .next ((u.bump F.BS_DROP_HDR_COUNT).countDrop port c).grantAll) ∧
    (headerBad pkt = false → ∀ v, u'.police port came.lossless pkt = (none, v) →
      exec (.packetArrival port pkt) s = .next (v.countDrop port c).grantAll) ∧
    (headerBad pkt = false → ∀ q v, u'.police port came.lossless pkt = (some q, v) →
      let x : BPkt := { came with pkt := q }
      let w := v.mirrorPort 1 port x
      let h := { q.hdr with hops := q.hdr.hops - 1 }
      let on : BPkt := { x with pkt := { q with hdr := h } }
      let ups := ((w.mapPorts .BS_MCG_MAP q.hdr.dst).filter (· ≠ port)).filter w.linkUp
      let room : Prop := came.lossless = true ∨ w.fits port q.hdr.tc q.cells = true
      let mine : Prop := q.hdr.mc = false ∧ w.isOwn q.hdr.dst = true
      let away : Prop := q.hdr.mc = false ∧ w.isOwn q.hdr.dst = false
      (mine → q.hdr.kind = 1 → w.wintering = false → w.get F.MO_CTX_STATE_STATE [extMoor q] = 1 → bits (word64At q.body 0) 0 4 = 0 →
        (room → ∃ t, exec (.packetArrival port pkt) s = .next t ∧ t.basin.steered = s.basin.steered ++ [(port, q)]) ∧
        (¬room → exec (.packetArrival port pkt) s = .next ((w.bump F.BS_DROP_BUF_COUNT).countDrop port q.hdr.tc).grantAll)) ∧
      (mine → q.hdr.kind = 2 → w.wintering = false →
        ∃ t, exec (.packetArrival port pkt) s = .next t ∧ t.basin.toBoathouse = s.basin.toBoathouse ++ [(port, q)]) ∧
      (mine → q.hdr.kind ≠ 1 → q.hdr.kind ≠ 2 → (s.basin.localQ.foldl (fun n p => n + p.size) 0) + q.size ≤ 4194304 →
        ∃ t, exec (.packetArrival port pkt) s = .next t ∧ t.basin.localQ = s.basin.localQ ++ [q]) ∧
      (away → q.hdr.hops = 0 → exec (.packetArrival port pkt) s = .next ((w.bump F.BS_DROP_HOPS_COUNT).countDrop port q.hdr.tc).grantAll) ∧
      (away → q.hdr.hops ≠ 0 → w.pinning = true → room →
        ∃ t, exec (.packetArrival port pkt) s = .next t ∧ t.basin.lookups = s.basin.lookups ++ [on]) ∧
      (away → q.hdr.hops ≠ 0 → w.pinning = false → ∀ e, w.Wf → ((w.tally 0x10).destTarget (dieOf port) port h).1 = .port e →
        came.lossless = true → w.linkUp e = true → w.blockedAt e q.hdr.tc = none →
        ∃ t y z, exec (.packetArrival port pkt) s = .next t ∧ y ∈ t.basin.voqs ∧ z ∈ y.pkts ∧
          y.quay = (if came.orig = true then e else port) / 8 ∧ y.egress = e ∧ y.cls = q.hdr.tc ∧
          z.pkt.pkt.hdr.hops = q.hdr.hops - 1 ∧ z.pkt.pkt.body = q.body ∧ z.pkt.bundle = none) ∧
      (q.hdr.mc = true → q.hdr.hops ≠ 0 → ups ≠ [] → w.Wf → came.lossless = true →
        ∃ t f m, exec (.packetArrival port pkt) s = .next t ∧ f ∈ t.basin.mc ∧ m ∈ f.pkts ∧ f.ingress = port ∧ f.cls = q.hdr.tc ∧
          m.ports = ups ∧ m.residue = ups ∧ m.pkt = on))) ∧
  (∀ (s : State) (p e c : Nat), c < 16 → s.isPort p = true → s.portOf e = e → 0 < s.portWidth p → 0 < s.portWidth e →
    (∀ q : Queued, s.basin.mc = [] → s.basin.voqs = [⟨p / 8, e, c, [q]⟩] → q.crossed + 1 = q.cells →
      ∃ t y, exec .matching s = .next t ∧ t.basin.voqs = [] ∧ t.basin.reasm = s.basin.reasm ++ [(e, y)] ∧
        (q.pkt.orig = false ∨ q.crossed ≠ 0 → y = q.pkt) ∧
        (q.pkt.orig = true → q.crossed = 0 →
          y = { q.pkt with pkt := { q.pkt.pkt with hdr := { q.pkt.pkt.hdr with tstamp := s.ts32 } } })) ∧
    (∀ h : McPkt, s.basin.voqs = [] → s.basin.mc = [⟨p, c, [h]⟩] → h.left = 1 → h.residue = [e] →
      ∃ t, exec .matching s = .next t ∧ t.basin.mc = [] ∧ t.basin.reasm = s.basin.reasm ++ [(e, h.pkt)])) ∧
  (∀ (s : State) (port : Nat) (bad : Bool), (s.basin.reasm.find? (fun x => x.1 = port) = none → exec (.egressReassembly port bad) s = .next s) ∧
    ∀ x, s.basin.reasm.find? (fun x => x.1 = port) = some x →
      let c := x.2.pkt.hdr.tc
      let u : State := { s with basin := { s.basin with reasm := s.basin.reasm.erase x } }
      let ours : Prop := x.2.orig = true ∧ x.2.pkt.hdr.kind = 1
      (bad = true → ¬ours → exec (.egressReassembly port bad) s = .next ((u.tally 0x15).countDrop x.2.port c)) ∧
      (bad = true → ours → exec (.egressReassembly port bad) s = .next (((u.tally 0x15).countDrop x.2.port c).queueTo x.2 port)) ∧
      (bad = false → ∃ t, exec (.egressReassembly port bad) s = .next t ∧ t.basin.reasm = u.basin.reasm ∧
        (t.classQ port c).pkts = (s.classQ port c).pkts ++ [x.2])) ∧
  (∀ (s : State) (port : Nat),
    let u := s.fillPrio port
    (s.isPort port = false ∨ s.linkUp port = false → exec (.egressSelect port) s = .next s) ∧
    (s.isPort port = true → s.linkUp port = true → u.selectClass port = none → exec (.egressSelect port) s = .next u) ∧
    (s.isPort port = true → s.linkUp port = true → ∀ c b, u.selectClass port = some (c, b) →
      ∃ x rest, (u.classQ port c).pkts = x :: rest ∧ c < 16 ∧ (u.gateMask port).testBit c = true ∧ u.guardFits port c x.pkt.size = true ∧
        u.lineTakes port x.pkt = true ∧ (b = true → u.isEth port = false ∧ u.collCredit port c = true) ∧
        let barred : Prop := u.isEth port = false ∧ u.feature port 2 = false ∧ (x.pkt.hdr.kind = 1 ∨ x.pkt.hdr.kind = 2)
        (barred → exec (.egressSelect port) s = .next ((u.dequeue port c).bump F.QY_LINK_CNT_KIND (pidx port))) ∧
        (¬barred → exec (.egressSelect port) s = .next ((u.dequeue port c).sendOut port b x)) ∧
        (u.isEth port = false → ((u.dequeue port c).sendOut port b x).sent =
          s.sent ++ [.frame port (s.link port).txNext ((u.dequeue port c).residence port x).fill]))) ∧
  (∀ (s : State) (port : Nat), s.Wf → (s.usable port = true → exec (.memberUnusable port) s = .next s) ∧
    (s.usable port = false → ∃ t, exec (.memberUnusable port) s = .next t ∧
      ∀ v ∈ t.basin.voqs, v.egress = port → ∀ q ∈ v.pkts, q.pkt.bundle = none ∧ q.pkt.lossless = true)) ∧
  (∀ (s : State) (port : Nat), s.linkUp port = false →
    (spGet none s.basin.downAt port = none → exec (.downHoldExpiry port) s = .next s) ∧
    (∀ t0, spGet none s.basin.downAt port = some t0 →
      (s.now < t0 + 500 * s.get F.BS_CTRL_DOWN_HOLD_US → exec (.downHoldExpiry port) s = .next s) ∧
      (t0 + 500 * s.get F.BS_CTRL_DOWN_HOLD_US ≤ s.now → ∃ t, exec (.downHoldExpiry port) s = .next t ∧
        (∀ v ∈ t.basin.voqs, v.egress = port → v.pkts = []) ∧ (∀ x ∈ t.basin.reasm, x.1 ≠ port) ∧
          ∀ c < 16, (t.classQ port c).pkts = []))) ∧
  (∀ (s : State) (port : Nat), s.linkUp port = true →
    ∃ t, exec (.downHoldExpiry port) s = .next t ∧ spGet none t.basin.downAt port = none)

/-- R251 to R257 and R264 to R273: the Harbour, the meters and the gates. -/
def Obligations.HarbourMetersGates : Prop :=
  (∀ (s : State) (req : Requester) (pipe key : Nat), s.Writes req .HB_OP [pipe] →
    let k := key % 2 ^ 40
    let u := s.put F.HB_OP_KEY [pipe] key
    let d := u.rd .HB_OP_DATA [pipe]
    let w := putBits (putBits (putBits (BitVec.ofNat 64 (bits d 0 16)) 16 1 0) 32 16 (u.get F.HB_AGE_NOW [pipe])) 63 1 1
    let cs := u.candidates pipe k
    let hit := (cs.filter fun c => c.2.key = k).head?
    let done (t : State) (result index : Nat) : Out := (t.opDone pipe result index).written req .HB_OP [pipe]
    (u.pinning = true → ∀ row ∈ [((.insert req pipe key : Instr), 1), (.delete req pipe key, 2), (.lookup req pipe key, 3)],
      exec row.1 s = (({ u with harbour := { u.harbour with waiting := u.harbour.waiting ++ [(pipe, key, row.2)] } } : State).put
        F.HB_OP_STATUS_BUSY [pipe] 1).written req .HB_OP [pipe]) ∧
    (u.pinning = false → (∀ c ∈ cs, c.2.badParity = false) →
    (bits d 0 2 = 1 ∧ 255 < bits d 2 9 → exec (.insert req pipe key) s = done u 2 0) ∧
    (¬(bits d 0 2 = 1 ∧ 255 < bits d 2 9) →
      (∀ i e, hit = some (i, e) → e.data.getLsbD 16 = true → exec (.insert req pipe key) s = done u 2 i) ∧
      (∀ i e, hit = some (i, e) → e.data.getLsbD 16 = false →
        exec (.insert req pipe key) s = done (u.hSet pipe i (some ⟨k, w, false⟩)) 0 i) ∧
      (hit = none → ∀ i, u.freePlace pipe k = some i → exec (.insert req pipe key) s = done (u.hSet pipe i (some ⟨k, w, false⟩)) 0 i) ∧
      (hit = none → u.freePlace pipe k = none → exec (.insert req pipe key) s = done u 10 0)) ∧
    (∀ i e, hit = some (i, e) → e.data.getLsbD 16 = true → exec (.delete req pipe key) s = done u 2 i) ∧
    (∀ i e, hit = some (i, e) → e.data.getLsbD 16 = false → exec (.delete req pipe key) s = done (u.hSet pipe i none) 0 i) ∧
    (hit = none → exec (.delete req pipe key) s = done u 0 0) ∧
    (∀ i e, hit = some (i, e) → exec (.lookup req pipe key) s = done (u.wr .HB_OP_DATA [pipe] (putBits e.data 63 1 1)) 0 i) ∧
    (hit = none → exec (.lookup req pipe key) s = done (u.wr .HB_OP_DATA [pipe] 0) 0 0))) ∧
  (∀ (s : State) (pipe : Nat), (s.get F.HB_AGE_ENABLE [pipe] = 0 ∨ s.wintering = true ∨ s.pinning = true → exec (.agerVisit pipe) s = .next s) ∧
    (s.get F.HB_AGE_ENABLE [pipe] = 1 → s.wintering = false → s.pinning = false → ∀ i e, s.harbour.tables[pipe]? = some [(i, some e)] →
      let at_ := (s.harbour.ager[pipe]?).getD 0
      let met : Prop := if i < ovfBase then at_ = i / 4 ∧ at_ < 262144 else at_ = 262144 + (i - ovfBase)
      let old : Prop := e.data.getLsbD 16 = false ∧ s.get F.HB_AGE_LIMIT [pipe] ≤ (s.get F.HB_AGE_NOW [pipe] + 65536 - bits e.data 32 16) % 65536
      ∃ t, exec (.agerVisit pipe) s = .next t ∧ t.harbour.ager = s.harbour.ager.set pipe ((at_ + 1) % 270336) ∧
        (met → old ∨ e.badParity = true → t.harbour.tables[pipe]? = some []) ∧
        (¬(met ∧ (old ∨ e.badParity = true)) → t.harbour.tables = s.harbour.tables))) ∧
  (∀ (s : State) (pipe : Nat),
    let last := (s.harbour.ageMs[pipe]?).getD 0
    let unit := s.get F.HB_AGE_UNIT_MS [pipe]
    let due : Prop := unit ≠ 0 ∧ s.wintering = false ∧ last + unit ≤ s.ctNs / 1000000
    (¬due → exec (.ageingTick pipe) s = .next s) ∧
    (due → ∃ t, exec (.ageingTick pipe) s = .next t ∧ t.harbour.ageMs = s.harbour.ageMs.set pipe (last + unit) ∧
      (s.Wf → t.get F.HB_AGE_NOW [pipe] = (s.get F.HB_AGE_NOW [pipe] + 1) % 65536))) ∧
  (∀ (s : State) (req : Requester) (index : Nat), s.Wf → s.Writes req .SC_METER_SEL [] →
    let i := index % 65536
    let m := s.meter i
    let cir := s.get F.SC_METER_RATE_CIR
    let pir := s.get F.SC_METER_RATE_PIR
    let cbs := s.get F.SC_METER_BURST_CBS
    let pbs := s.get F.SC_METER_BURST_PBS
    (pir < cir → ∃ t : State, exec (.meterWrite req index) s = t.written req .SC_METER_SEL [] ∧ t.get F.SC_METER_STATUS_RESULT = 2 ∧
      t.sched = s.sched) ∧
    (cir ≤ pir → ∃ t : State, exec (.meterWrite req index) s = t.written req .SC_METER_SEL [] ∧ t.get F.SC_METER_STATUS_RESULT = 0 ∧
      t.meter i = ⟨cir, pir, cbs, pbs, s.get F.SC_METER_ACT_YELLOW, s.get F.SC_METER_ACT_RED, cbs * 256000, pbs * 256000, s.now,
        m.green, m.yellow, m.red⟩) ∧
    (∃ t : State, exec (.clearCounts req index) s = t.written req .SC_METER_SEL [] ∧ t.get F.SC_METER_STATUS_RESULT = 0 ∧
      t.meter i = { m with green := 0, yellow := 0, red := 0 }) ∧
    (∃ t : State, exec (.meterRead req index) s = t.written req .SC_METER_SEL [] ∧ t.sched = s.sched ∧ t.get F.SC_METER_STATUS_RESULT = 0 ∧
      t.get F.SC_METER_RATE_CIR = m.cir % 2 ^ F.SC_METER_RATE_CIR.width ∧ t.get F.SC_METER_RATE_PIR = m.pir % 2 ^ F.SC_METER_RATE_PIR.width ∧
      t.get F.SC_METER_BURST_CBS = m.cbs % 2 ^ F.SC_METER_BURST_CBS.width ∧ t.get F.SC_METER_BURST_PBS = m.pbs % 2 ^ F.SC_METER_BURST_PBS.width ∧
      t.get F.SC_METER_CNT_GREEN = m.green % 2 ^ F.SC_METER_CNT_GREEN.width ∧
      t.get F.SC_METER_CNT_YELLOW = m.yellow % 2 ^ F.SC_METER_CNT_YELLOW.width ∧ t.get F.SC_METER_RED_RED = m.red % 2 ^ F.SC_METER_RED_RED.width)) ∧
  (∀ (s : State) (p : Nat) (pkt : Packet), (s.police p true pkt).1 ≠ none ∧
    (s.get F.SC_CTRL_METER_EN = 1 → s.get F.SC_METER_MAP_EN [16 * p + pkt.hdr.tc] = 1 → ∀ lossless : Bool,
      let i := (s.get F.SC_METER_MAP_BASE [16 * p + pkt.hdr.tc] +
        pkt.hdr.job % 2 ^ (min 12 (s.get F.SC_METER_MAP_JOBBITS [16 * p + pkt.hdr.tc]))) % 65536
      let m := s.meter i
      let tc := min (m.cbs * 256000) (m.tc + m.cir * (s.now - m.upTo))
      let tp := min (m.pbs * 256000) (m.tp + m.pir * (s.now - m.upTo))
      let b := (32 + pkt.hdr.len) * 4000
      let up (n : Nat) : Nat := min (n + 1) (2 ^ 32 - 1)
      let marked : Packet := { pkt with hdr := { pkt.hdr with cm := true } }
      let acts (a : Nat) (other : Bool) (r : Option Packet) : Prop :=
        (a = 0 → r = some pkt) ∧ (a = 1 → r = some marked) ∧ (a = 2 → r = if lossless = true then some marked else none) ∧
        (a = 3 → r = if other = true then some pkt else if lossless = true then some marked else none)
      (tp < b → acts m.redAct false (s.police p lossless pkt).1 ∧
        (s.police p lossless pkt).2.meter i = { m with tc := tc, tp := tp, upTo := s.now, red := up m.red }) ∧
      (b ≤ tp → tc < b → acts m.yellowAct true (s.police p lossless pkt).1 ∧
        (s.police p lossless pkt).2.meter i = { m with tc := tc, tp := tp - b, upTo := s.now, yellow := up m.yellow }) ∧
      (b ≤ tp → b ≤ tc → (s.police p lossless pkt).1 = some pkt ∧
        (s.police p lossless pkt).2.meter i = { m with tc := tc - b, tp := tp - b, upTo := s.now, green := up m.green }))) ∧
  (∀ (l : List Word64) (ph : Nat), ph < cycleOf l → (entryAt l ph).1 < l.length ∧ cycleOf (l.take (entryAt l ph).1) ≤ ph ∧
    ph + (entryAt l ph).2 = cycleOf (l.take ((entryAt l ph).1 + 1))) ∧
  (∀ (s : State) (port : Nat),
    let es := s.gateEntries port
    let i := spGet 0 s.sched.gateAt port
    let j := (entryAt es (s.gatePhase port (cycleOf es))).1
    let started := (s.gateCycleNow port - spGet 0 s.sched.gateCycle port).toNat
    (es = [] → exec (.gateEntry port) s = .next s) ∧
    (es ≠ [] →
      let sc : Sched := { s.sched with
        gateAt := spPut 0 s.sched.gateAt port j
        gateCycle := spPut 0 s.sched.gateCycle port (s.gateCycleNow port) }
      let u : State := ({ s with sched := sc } : State).put F.SC_GATE_STATUS_ENTRY [port] j
      let v := u.advance F.SC_GATE_STATUS_CYCLES [port] started
      (i = j ∨ s.lhPort port = false → exec (.gateEntry port) s = .next v) ∧
      (i ≠ j → s.lhPort port = true → exec (.gateEntry port) s = .next (v.lhEntry port i j))))

/-- R275 to R284: network time. That the model's tick is a mgc cycle, and that the pulse rises after the tick of the carry, are the
model's choice (log entries 1 and 84). -/
def Obligations.ClocktowerRows : Prop :=
  (∀ (s : State) (req : Requester) (v : Word64), s.Wf → s.Writes req .CT_RATE [] →
    let inc := v.toNat % 2 ^ 48
    let far : Prop := 500 * 2 ^ 39 < ((inc : Int) - 2 ^ 39).natAbs * 1000000
    (far → exec (.rate req v) s = (s.put F.CT_STATUS_RATE_REFUSED [] 1).written req .CT_RATE []) ∧
    (¬far → ∃ t : State, exec (.rate req v) s = t.written req .CT_RATE [] ∧ t.get F.CT_RATE_INC = inc ∧ t.get F.CT_STATUS_FREERUN = 0 ∧
      t.clock = { s.clock with wroteAt := s.now })) ∧
  (∀ (s : State) (req : Requester) (v : Word64), s.Wf → s.Writes req .CT_STEP [] →
    ∃ t : State, exec (.step req v) s = t.written req .CT_STEP [] ∧ t.clock.ns < 1000000000 ∧ t.clock.frac = s.clock.frac ∧ t.clock.carried = false ∧
      t.ctNs = (((s.ctNs : Nat) : Int) + v.toInt).toNat % (2 ^ 48 * 1000000000) ∧ t.get F.CT_STATUS_FREERUN = 0 ∧
      t.get F.CT_STATUS_VALID = 1 ∧ t.get F.CT_STATUS_STEPS = (s.get F.CT_STATUS_STEPS + 1) % 2 ^ F.CT_STATUS_STEPS.width) ∧
  (∀ (s : State) (req : Requester), s.Wf → s.clock.sec < 2 ^ 48 → s.clock.ns < 2 ^ 30 → s.Writes req .CT_SNAP_CMD [] →
    ∃ t : State, exec (.capture req) s = t.written req .CT_SNAP_CMD [] ∧ t.get F.CT_SNAP_S_SECONDS = s.clock.sec ∧
      t.get F.CT_SNAP_NS_NS = s.clock.ns ∧ t.clock = s.clock) ∧
  (∀ s : State, (s.get F.CT_CTRL_PPS_IN_EN = 0 → exec .ppsInEdge s = .next s) ∧
    (s.get F.CT_CTRL_PPS_IN_EN = 1 → s.Wf → s.clock.sec < 2 ^ 48 → s.clock.ns < 2 ^ 30 → ∃ t, exec .ppsInEdge s = .next t ∧
      t.get F.CT_PPS_IN_S_SECONDS = s.clock.sec ∧ t.get F.CT_PPS_IN_NS_NS = s.clock.ns ∧ t.get F.CT_STATUS_PPS_IN_SEEN = 1)) ∧
  (∀ s : State,
    let width := s.get F.CT_CTRL_PPS_WIDTH_US
    let up : Prop := s.get F.CT_CTRL_PPS_OUT_EN = 1 ∧ width ≠ 0 ∧ s.clock.carried = true ∧ s.clock.ppsHigh = false
    let down : Prop := s.clock.ppsHigh = true ∧ s.clock.ppsAt + 500 * width ≤ s.now
    let limit := s.get F.CT_CTRL_SERVO_TIMEOUT_MS
    let alone : Prop := limit ≠ 0 ∧ s.clock.wroteAt + 500000 * limit ≤ s.now
    (up → exec .ppsOutRise s = .next { s with clock := { s.clock with ppsHigh := true, ppsAt := s.now } }) ∧ (¬up → exec .ppsOutRise s = .next s) ∧
    (down → exec .ppsOutFall s = .next { s with clock := { s.clock with ppsHigh := false } }) ∧ (¬down → exec .ppsOutFall s = .next s) ∧
    (alone → exec .freerun s = .next (s.put F.CT_STATUS_FREERUN [] 1)) ∧ (¬alone → exec .freerun s = .next s)) ∧
  (∀ (c : Clock) (inc : Nat), c.frac < 2 ^ 40 → c.ns < 1000000000 →
    let all (c : Clock) : Nat := (c.sec * 1000000000 + c.ns) * 2 ^ 40 + c.frac
    all (c.tick inc) = (all c + 4 * inc) % (2 ^ 48 * 1000000000 * 2 ^ 40) ∧ (c.tick inc).ns < 1000000000 ∧ (c.tick inc).frac < 2 ^ 40 ∧
      ((c.tick inc).carried = true ↔ 1000000000 * 2 ^ 40 ≤ c.ns * 2 ^ 40 + c.frac + 4 * inc))

/-- A circuit withdrawn with a CAUSE: from `s` to `u`. -/
def withdrawnFor (s u : State) (q k cause : Nat) : Prop :=
  u.lhState q k = 3 ∧ u.get F.LH_CIRCUIT_CAUSE [q, k] = cause ∧ (u.channel q).lit ≠ some k ∧
    u.get F.LH_WITHDRAW_CNT_COUNT = min (s.get F.LH_WITHDRAW_CNT_COUNT + 1) (2 ^ F.LH_WITHDRAW_CNT_COUNT.width - 1)

/-- R318 to R327: the Lighthouse. That a channel waits in the queue once is the model's choice (log entry 95). -/
def Obligations.LighthouseCircuits : Prop :=
  (∀ (s : State) (q : Nat),
    ((s.channel q).tuning = none → exec (.lock q) s = .next s) ∧
    (∀ k t, (s.channel q).tuning = some (k, t) → (s.now < t → exec (.lock q) s = .next s) ∧
      (t ≤ s.now → s.Wf → q < 64 → k < 64 → ∃ u, exec (.lock q) s = .next u ∧ (u.channel q).lit = some k ∧ (u.channel q).tuning = none ∧
        (u.channel q).heard = false ∧ u.get F.LH_PORT_STATUS_CUR [q] = k ∧ u.lhState q k = (if s.lhState q k = 0 then 1 else s.lhState q k) ∧
        (s.lhState q k = 0 → ((u.channel q).circuit k).firstLock = s.now) ∧ (s.stage (8 * q) ≠ 6 → u.sent = s.sent) ∧
        (s.stage (8 * q) = 6 → (s.port (8 * q)).suppress = 0 → s.isEth (8 * q) = false → ∃ credits,
          u.sent = s.sent ++ [.control (8 * q) 0x55 (s.ownHash (8 * q) + (s.port (8 * q)).beaconCount * 2 ^ 32)] ++ credits ∧
          (∀ x ∈ credits, ∃ content, x = .control (8 * q) 0x2D content) ∧
          (s.lhPort (8 * q) = true → s.lhState q k ≠ 2 → credits = []))))) ∧
  (∀ (s : State) (q heard : Nat), s.Wf → q < 64 → ((s.channel q).lit = none → exec (.echo q heard) s = .next s) ∧
    (∀ k, k < 64 → (s.channel q).lit = some k → ∃ u, exec (.echo q heard) s = .next u ∧
      let x := (s.channel q).circuit k
      (heard = s.ownHash (8 * q) → ((u.channel q).circuit k).gotEcho = true ∧ u.lhState q k =
        if s.lhState q k = 1 ∧ x.gotBeacon = true ∧ s.now ≤ x.firstLock + 10000 then 2 else s.lhState q k) ∧
      (heard ≠ s.ownHash (8 * q) → s.lhState q k = 1 ∨ s.lhState q k = 2 → withdrawnFor s u q k 2) ∧
      (heard ≠ s.ownHash (8 * q) → ¬(s.lhState q k = 1 ∨ s.lhState q k = 2) → u = s))) ∧
  (∀ (s : State) (q k : Nat), s.Wf → q < 64 → k < 64 →
    let x := (s.channel q).circuit k
    let late : Prop := s.lhState q k = 1 ∧ x.firstLock + 10000 ≤ s.now
    let silent : Prop := s.lhState q k = 2 ∧ max 1 (s.get F.LH_CTRL_MISS_MAX) ≤ x.misses
    (late → ∃ u, exec (.confirmTimeout q k) s = .next u ∧ withdrawnFor s u q k 3) ∧ (¬late → exec (.confirmTimeout q k) s = .next s) ∧
    (silent → ∃ u, exec (.miss q k) s = .next u ∧ withdrawnFor s u q k 4) ∧ (¬silent → exec (.miss q k) s = .next s) ∧
    ((s.channel q).lit = some k → s.lhState q k = 2 → ∃ u, exec (.lockLost q) s = .next u ∧ withdrawnFor s u q k 5) ∧
    ((s.channel q).lit = some k → s.lhState q k ≠ 2 → exec (.lockLost q) s = .next s) ∧
    ((s.channel q).lit = none → exec (.lockLost q) s = .next s)) ∧
  (∀ (s : State) (req : Requester) (v : Word64), s.Wf → s.Writes req .LH_CAL [] → bits v 6 1 = 1 → ∃ t : State,
    exec (.lhCalGo req v) s = t.written req .LH_CAL [] ∧ t.get F.LH_CAL_INT_US = bits v 7 12 ∧
    (bits v 7 12 = 0 → t.get F.LH_CAL_STATUS_RESULT = 1 ∧ t.quays = s.quays) ∧
    (bits v 7 12 ≠ 0 → (∃ c, s.quays.cal = some c ∧ c.req.quay = bits v 0 6) → t.quays = s.quays) ∧
    (bits v 7 12 ≠ 0 → (∀ c, s.quays.cal = some c → c.req.quay ≠ bits v 0 6) → (∀ r ∈ s.quays.calQueue, r.quay ≠ bits v 0 6) →
      t.quays = { s.quays with calQueue := s.quays.calQueue ++ [⟨bits v 0 6, bits v 7 12, bits v 19 8, bits v 27 4⟩] })) ∧
  (∀ (s : State) (r : CalReq) (rest : List CalReq), s.Wf → r.quay < 64 → s.quays.cal = none → s.quays.calQueue = r :: rest →
    (s.wintering = true → exec .calibration s = .next s) ∧
    (s.wintering = false → s.lhPort (8 * r.quay) = false → ∃ u, exec .calibration s = .next u ∧ u.quays = { s.quays with calQueue := rest } ∧
      u.sent = s.sent ∧ u.get F.LH_CAL_STATUS_RESULT = 0) ∧
    (s.wintering = false → s.lhPort (8 * r.quay) = true → ∃ u, exec .calibration s = .next u ∧ u.quays.calQueue = rest ∧
      let ks := (List.range 64).filter fun k => (s.listColours (8 * r.quay)).contains k && s.cget F.LH_COLOUR_VALID [r.quay, k] = 1
      (ks ≠ [] → u.quays.cal = some ⟨r, ks, 0, s.now, true, false⟩ ∧ u.get F.LH_CAL_STATUS_BUSY = 1 ∧
        u.get F.LH_PORT_STATUS_CALIBRATING [r.quay] = 1 ∧ u.get F.LH_CAL_STATUS_COLOUR = ks.headD 0) ∧
      (ks = [] → u.quays.cal = none ∧ u.get F.LH_CAL_STATUS_BUSY = 0 ∧ u.get F.LH_CAL_STATUS_RESULT = 0))) ∧
  (∀ (s : State) (c : CalRun) (k : Nat) (rest : List Nat), s.Wf → c.req.quay < 64 → k < 64 → s.quays.cal = some c → c.todo = k :: rest →
    (c.confirming = false ∨ s.lhState c.req.quay k = 1 → exec .calibration s = .next s) ∧
    (c.confirming = true → s.lhState c.req.quay k ≠ 1 → rest = [] → ∃ u, exec .calibration s = .next u ∧ u.quays.cal = none ∧
      u.get F.LH_CAL_STATUS_BUSY = 0 ∧ u.get F.LH_PORT_STATUS_CALIBRATING [c.req.quay] = 0 ∧
      (u.get F.LH_CAL_STATUS_RESULT = 0 ↔ c.allGood = true ∧ s.lhState c.req.quay k = 2)) ∧
    (c.confirming = true → s.lhState c.req.quay k ≠ 1 → rest ≠ [] → ∃ u, exec .calibration s = .next u ∧
      u.quays.cal = some { c with todo := rest, iter := 0, since := s.now, allGood := c.allGood && s.lhState c.req.quay k = 2, confirming := false }) ∧
    (∀ offsets : List Int,
      let ready : Prop := c.confirming = false ∧ c.since + 500 * c.req.intUs ≤ s.now
      let within : Prop := ∀ o ∈ offsets, o.natAbs ≤ c.req.tol
      (¬ready → exec (.calMeasurement offsets) s = .next s) ∧
      (ready → within → ∃ u, exec (.calMeasurement offsets) s = .next u ∧ u.lhState c.req.quay k = 1 ∧ (u.channel c.req.quay).lit = some k ∧
        u.quays.cal = some { c with confirming := true }) ∧
      (ready → ¬within → c.req.iterMax ≤ c.iter + 1 → ∃ u, exec (.calMeasurement offsets) s = .next u ∧ u.lhState c.req.quay k = 3 ∧
        u.get F.LH_CIRCUIT_CAUSE [c.req.quay, k] = 5) ∧
      (ready → ¬within → c.iter + 1 < c.req.iterMax → ∃ u, exec (.calMeasurement offsets) s = .next u ∧
        u.quays.cal = some { c with iter := c.iter + 1, since := s.now })))

/-- R331 to R346: what a long-haul slot receives. The order ICV, then VER, and that a RESYNC outside RESYNC is only heard, are
DEDUCED (log entries 97 and 98). -/
def Obligations.BreakwaterFrames : Prop :=
  (∀ t a : Nat, t < 2 ^ 48 → a < 2 ^ 48 → (tseqPassed t a = true ↔ t ≠ a ∧ ∃ d, d < 2 ^ 47 ∧ (t + d) % 2 ^ 48 = a)) ∧
  (∀ (s : State) (port i : Nat) (f : BwIn), s.slotOf port = some i → s.stage port = 6 → s.slotState i ≠ 0 →
    let genuine : Prop := f.icv = true ∧ f.an < 4 ∧ (s.cget F.BW_SA_CFG_RX_EN [i]).testBit f.an = true ∧
      spGet 0 (s.slot i).pnTop f.an ≤ f.pn + s.cget F.BW_SA_CFG_REPLAY_WIN [i]
    let u := s.hear i f
    let live : Prop := genuine ∧ f.ver = 1 ∧ (u.slotState i = 2 ∨ u.slotState i = 3)
    let t := f.tseq % 2 ^ 48
    let again : Prop := 2 ^ 24 < tseqAbove (u.slot i).ackPoint t ∨ t ∈ (u.slot i).got
    let rows : List (Nat × Instr) := [(0, .data port f), (5, .partialSum port f), (1, .parity port f), (2, .breakwaterAck port f),
      (3, .breakwaterNak port f), (4, .keepalive port f), (7, .resync port f)]
    (∀ c ∈ rows, f.btype < 8 → f.btype ≠ c.1 → exec c.2 s = .next s) ∧
    (¬genuine → ∀ c ∈ rows, f.btype = c.1 ∨ 8 ≤ f.btype → exec c.2 s = .next (s.bump F.BW_LH_CNT2_ICV_FAIL [i])) ∧
    (genuine → ∀ c ∈ rows, (f.btype = c.1 ∧ f.ver ≠ 1) ∨ 8 ≤ f.btype → exec c.2 s = .next (u.bump F.BW_DROP_UNKNOWN)) ∧
    (genuine → f.ver = 1 → ¬(u.slotState i = 2 ∨ u.slotState i = 3) → ∀ c ∈ rows, f.btype = c.1 → c.1 ≠ 7 → exec c.2 s = .next u) ∧
    (live → again → (f.btype = 0 → exec (.data port f) s = .next (u.bump F.BW_DROP_DUP)) ∧
      (f.btype = 5 → exec (.partialSum port f) s = .next (u.bump F.BW_DROP_DUP))) ∧
    (live → ¬again → f.btype = 0 → (u.get F.BS_CTRL_LOSSLESS).testBit (packetOf f.payload).hdr.tc = false ∨ u.bwRoom (u.slotPort i) (packetOf f.payload) = true →
      ∃ v, exec (.data port f) s = .next v ∧ ∃ x ∈ v.basin.handed, x.port = u.slotPort i ∧ x.pkt = packetOf f.payload) ∧
    (live → ¬again → f.btype = 0 → (u.get F.BS_CTRL_LOSSLESS).testBit (packetOf f.payload).hdr.tc = true → u.bwRoom (u.slotPort i) (packetOf f.payload) = false →
      u.cget F.BW_LH_WIN_RX_MIB [i] * 1048576 < (u.slot i).rxBytes + f.payload.length → exec (.data port f) s = .next u) ∧
    (live → ¬again → f.btype = 5 → exec (.partialSum port f) s = .next (u.bwPacket i true f)) ∧
    (live → f.btype = 1 → let k := f.km1 % 64 + 1
      let past := tseqAbove f.tseq (u.slot i).ackPoint
      (k ≤ past ∧ past < 2 ^ 47 → exec (.parity port f) s = .next u) ∧
      (¬(k ≤ past ∧ past < 2 ^ 47) → exec (.parity port f) s =
        .next (((u.mapSlot i fun x => x.note f.block t f.idx (some (k, f.m)) (false, f.payload)).tryDecode i f.block).drainRx i))) ∧
    (live → f.btype = 2 → u.Wf → (u.slot i).queue = [] →
      let keep := (u.slot i).window.filter fun pk => !tseqPassed pk.tseq f.tseq
      ∃ v, exec (.breakwaterAck port f) s = .next v ∧ (v.slot i).window = keep ∧ v.get F.BW_LH_ACK_PEER_ACK [i] = f.tseq % 2 ^ 48 ∧
        v.slotState i = if keep.length ≠ (u.slot i).window.length then 2 else u.slotState i) ∧
    (live → f.btype = 3 → u.Wf →
      let named (n : Nat) : Bool := (List.range (f.payload.length / 8)).any fun k =>
        decide (tseqAbove (natAt f.payload (8 * k) 6) n ≤ natAt f.payload (8 * k + 6) 2)
      let again := (u.slot i).window.filter fun pk => named pk.tseq
      exec (.breakwaterNak port f) s = .next (again.foldl (fun v pk => v.resend i pk) (u.put F.BW_LH_ACK_PEER_ACK [i] f.tseq)) ∧
        ∀ v, exec (.breakwaterNak port f) s = .next v →
          v.get F.BW_LH_CNT1_RETX [i] = min (u.get F.BW_LH_CNT1_RETX [i] + again.length) (2 ^ 32 - 1)) ∧
    (live → f.btype = 4 → exec (.keepalive port f) s = .next ((u.put F.BW_LH_ACK_PEER_ACK [i] f.tseq).drainRx i)) ∧
    (genuine → f.ver = 1 → f.btype = 7 → u.slotState i ≠ 1 → exec (.resync port f) s = .next u) ∧
    (genuine → f.ver = 1 → f.btype = 7 → u.slotState i = 1 → u.Wf → (u.slot i).queue = [] → ∃ v, exec (.resync port f) s = .next v ∧ v.slotState i = 2 ∧
      (v.slot i).ackPoint = 0 ∧ (v.slot i).window = [] ∧ v.get F.BW_LH_SEQ_TX_NEXT [i] = 0 ∧ v.get F.BW_LH_ACK_PEER_ACK [i] = 0)) ∧
  (∀ (s : State) (i : Nat) (f : BwIn), s.Wf → i < 32 → s.slotState i = 4 → s.wintering = false → s.linkUp (s.slotPort i) = true →
    s.now ≤ (s.slot i).stateAt + 500000000 * s.get F.BW_TIMERS_HOLD_S → (s.slot i).keyx = none →
    (s.hear i f).slotState i = 2 ∧ ((s.hear i f).slot i).window = (s.slot i).window ∧ (s.hear i f).get F.BW_LH_CNT1_RETX [i] =
      min (s.get F.BW_LH_CNT1_RETX [i] + ((s.slot i).window.filter fun pk => !tseqPassed pk.tseq (s.get F.BW_LH_ACK_PEER_ACK [i])).length)
        (2 ^ 32 - 1)) ∧
  (∀ (s : State) (bs : List Byte), let h := partialHdr bs
    (s.spanOf h.moor = none → s.takePartial bs = some (s.bump F.BW_DROP_STALE)) ∧
    (∀ j, s.spanOf h.moor = some j → h.epoch ≠ s.cget F.BW_SPAN_CFG_SPAN_EPOCH [j] ∨ h.job ≠ s.job h.moor →
      s.takePartial bs = some (s.bump F.BW_DROP_STALE)))

/-- R331 to R347: the timers of a long-haul slot, its span verdicts and its key agreement. -/
def Obligations.BreakwaterTimers : Prop :=
  (∀ (s : State) (i : Nat),
    let x := s.slot i
    let live : Prop := (s.slotState i = 2 ∨ s.slotState i = 3) ∧ s.linkUp (s.slotPort i) = true
    let ackUs := s.get F.BW_CTRL_ACK_US
    let ack : Prop := live ∧ ackUs ≠ 0 ∧ x.ackSent + 500 * ackUs ≤ s.now
    let gaps := x.gaps.filterMap fun g => g.2.bind fun t =>
      if t + 500 * s.get F.BW_CTRL_REORDER_US ≤ s.now ∧ spGet none x.naks g.1 = none then some g.1 else none
    let blockUs := s.cget F.BW_LH_CFG_BLOCK_US [i]
    let close : Prop := live ∧ blockUs ≠ 0 ∧ x.units ≠ [] ∧ x.openAt + 500 * blockUs ≤ s.now
    let beat : Prop := s.slotValid i = true ∧ s.slotState i ≠ 0 ∧ s.linkUp (s.slotPort i) = true ∧ x.beatAt + 500000 ≤ s.now
    let stallMs := s.get F.BW_TIMERS_STALL_MS
    let stall : Prop := s.slotState i = 2 ∧ stallMs ≠ 0 ∧ x.window ≠ [] ∧ x.ackMoved + 500000 * stallMs ≤ s.now
    let outage : Prop := (s.slotState i = 2 ∨ s.slotState i = 3) ∧ (s.linkUp (s.slotPort i) = false ∨
      (x.heardAt + 500000 * s.get F.BW_TIMERS_OUTAGE_MS ≤ s.now ∧ x.stateAt + 500000 * s.get F.BW_TIMERS_OUTAGE_MS ≤ s.now))
    let hold : Prop := s.slotState i = 4 ∧ s.wintering = false ∧ x.stateAt + 500000000 * s.get F.BW_TIMERS_HOLD_S ≤ s.now
    let rto := 500000 * s.cget F.BW_LH_WIN_RTO_MS [i]
    let late := x.naks.filterMap fun g => g.2.bind fun t => if t + rto ≤ s.now then some g.1 else none
    (ack → exec (.ackTimer i) s = .next (s.sendAck i)) ∧ (¬ack → exec (.ackTimer i) s = .next s) ∧
    (live ∧ gaps ≠ [] → exec (.reorderExpiry i) s = .next (s.nakReport i gaps)) ∧ (¬(live ∧ gaps ≠ []) → exec (.reorderExpiry i) s = .next s) ∧
    (¬live → exec (.rtoExpiry i) s = .next s) ∧
    (live → (∀ pk rest, x.window = pk :: rest → s.now < max x.ackMoved x.resentAt + rto) → late = [] → exec (.rtoExpiry i) s = .next s) ∧
    (live → (∀ pk rest, x.window = pk :: rest → s.now < max x.ackMoved x.resentAt + rto) → late ≠ [] →
      exec (.rtoExpiry i) s = .next (s.nakReport i late)) ∧
    (live → ∀ pk rest, x.window = pk :: rest → max x.ackMoved x.resentAt + rto ≤ s.now → late = [] →
      exec (.rtoExpiry i) s = .next ((s.mapSlot i fun x => { x with resentAt := s.now }).resend i pk)) ∧
    (close → exec (.blockClose i) s = .next (s.closeBlock i)) ∧ (¬close → exec (.blockClose i) s = .next s) ∧
    (beat → s.Wf → i < 32 → s.slotState i ≠ 1 → exec (.keepaliveSend i) s = .next ((s.mapSlot i fun x => { x with beatAt := s.now }).sendPoint i 4 [])) ∧
    (beat → s.slotState i = 1 → ∃ v, exec (.keepaliveSend i) s = .next v ∧ (v.slot i).beatAt = s.now) ∧
    (¬beat → exec (.keepaliveSend i) s = .next s) ∧
    (stall → exec (.stallExpiry i) s = .next (s.setSlotState i 3)) ∧ (¬stall → exec (.stallExpiry i) s = .next s) ∧
    (¬outage → exec (.outageExpiry i) s = .next s) ∧
    (outage → s.Wf → i < 32 → s.get F.BW_TIMERS_HOLD_S ≠ 0 → ∃ v, exec (.outageExpiry i) s = .next v ∧ v.slotState i = 4 ∧
      (v.slot i).window = x.window ∧ (v.slot i).rx = x.rx) ∧
    (¬hold → exec (.holdExpiry i) s = .next s) ∧
    (hold → s.Wf → i < 32 → ∃ v, exec (.holdExpiry i) s = .next v ∧ v.slotState i = 1 ∧ (v.slot i).window = [] ∧ (v.slot i).rx = [] ∧
      v.get F.BW_LH_CNT2_LOST [i] = min (s.get F.BW_LH_CNT2_LOST [i] + (x.window.length + x.rx.length)) (2 ^ 32 - 1))) ∧
  (∀ (s : State) (j site : Nat),
    let ms := s.get F.BW_TIMERS_SPAN_TIMEOUT_MS
    let i := s.spanSlot j site
    let dead : Prop := s.spanValid j = true ∧ ms ≠ 0 ∧ site ≠ s.site ∧ site ∈ s.spanSites j ∧
      (s.get F.BW_SPAN_STATUS_DEAD [j]).testBit site = false ∧
      ((s.slotState i = 4 ∧ (s.slot i).stateAt + 500000 * ms ≤ s.now) ∨ s.partialLate j site ms = true)
    (¬dead → exec (.spanPeerDead j site) s = .next s) ∧
    (dead → exec (.spanPeerDead j site) s = .next ((s.mo.colls.filter fun c => c.span = some j && c.spanned).foldl
      (fun t c => t.stopColl c.ring c.seq 5 0 none) (s.put F.BW_SPAN_STATUS_DEAD [j] (s.get F.BW_SPAN_STATUS_DEAD [j] + 2 ^ site))))) ∧
  (∀ (s : State) (port : Nat) (msg : List Byte), s.keyxSlot port = none →
    ∀ c ∈ [Instr.keyxOffer port msg, .keyxAccept port msg, .keyxConfirm port msg, .keyxResend port], exec c s = .next s) ∧
  (∀ (s : State) (port i : Nat) (msg : List Byte), s.Wf → s.keyxSlot port = some i → i < 32 →
    let an := natAt msg 1 1
    let counter := natAt msg 2 8
    let epI := natAt msg 10 3
    let epR := natAt msg 13 3
    let kx := (s.slot i).keyx
    let offered : Prop := s.keyxSigned 0 epI msg = true ∧ epR = s.primary ∧ epI < s.primary
    (¬offered → exec (.keyxOffer port msg) s = .next (s.endKeyx i)) ∧
    (offered → (∀ k, kx = some k → ¬(k.initiator = false ∧ k.counter = counter ∧ k.an = an)) → ∃ t, exec (.keyxOffer port msg) s = .next t ∧
      (t.cget F.BW_SA_CFG_RX_EN [i]).testBit an = true ∧ t.cget F.BW_SA_CFG_TX_AN [i] = s.cget F.BW_SA_CFG_TX_AN [i] ∧
      ∃ k, (t.slot i).keyx = some k ∧ k.initiator = false ∧ k.an = an ∧ k.counter = counter ∧ k.epI = epI ∧ k.epR = epR) ∧
    (offered → ∀ k, kx = some k → k.initiator = false → k.counter = counter → k.an = an →
      exec (.keyxOffer port msg) s = .next (s.sendKeyx i k.msg)) ∧
    (∀ k, kx = some k → k.initiator = true → k.counter = counter → k.an = an →
      let good : Prop := s.keyxSigned 1 k.epR msg = true ∧ epI = k.epI ∧ epR = k.epR
      (¬good → exec (.keyxAccept port msg) s = .next (s.endKeyx i)) ∧
      (good → k.waiting = false → exec (.keyxAccept port msg) s = .next (s.sendKeyx i k.msg)) ∧
      (good → k.waiting = true → ∃ t, exec (.keyxAccept port msg) s = .next t ∧ (t.cget F.BW_SA_CFG_RX_EN [i]).testBit an = true ∧
        t.cget F.BW_SA_CFG_TX_AN [i] = an ∧ t.get F.BW_SA_CFG_TX_AN [i] = an ∧ ∃ k', (t.slot i).keyx = some k' ∧ k'.waiting = false)) ∧
    (∀ k, kx = some k → k.initiator = false → k.counter = counter → k.an = an → exec (.keyxConfirm port msg) s = .next (s.endKeyx i)) ∧
    ((∀ k, kx = some k → ¬(k.waiting = true ∧ k.sentAt + 500000 ≤ s.now)) → exec (.keyxResend port) s = .next s) ∧
    (∀ k, kx = some k → k.waiting = true → k.sentAt + 500000 ≤ s.now → exec (.keyxResend port) s =
      .next ((s.mapSlot i fun x => { x with keyx := some { k with sentAt := s.now } }).sendKeyx i k.msg)))

/-- R295 to R304: frames and control blocks. That a frame's bytes are those of codewords of consecutive port messages, and that an
Ethernet frame's bytes come beside its codewords, are the model's operands (log entries on RxWord and on the Ethernet PCS). -/
def Obligations.LinkLayer : Prop :=
  (∀ bs : List Byte, frameOk bs = true ↔ let l := natAt bs 2 2
    bs.length = l + 24 ∧ 32 ≤ l ∧ l ≤ 9248 ∧ natAt bs 0 1 = 0xFB ∧ natAt bs 1 1 = 0 ∧ natAt bs (l + 16) 1 = 0xFD ∧
      natAt bs (l + 17) 1 = (packetOf ((bs.drop 8).take l)).hdr.tc ∧ natAt bs (l + 18) 2 = 0 ∧
      natAt bs (l + 8) 8 = crc64 (bs.take (l + 8)) ∧ natAt bs 4 4 = natAt bs (l + 20) 4) ∧
  (∀ (s : State) (p start : Nat) (ws : List RxWord), s.stage p = 6 → s.isEth p = false → s.lhPort p = false →
    let l := s.link p
    let u := s.countWords p ws
    let got := s.frameIn p start ws
    let bs := got.getD []
    let pkt := packetOf ((bs.drop 8).take (natAt bs 2 2))
    let c := pkt.hdr.tc
    let good : Prop := got.isSome = true ∧ frameOk bs = true ∧ natAt bs 4 4 = l.rxNext
    let wrong : Prop := got.isSome = true ∧ natAt bs (natAt bs 2 2 + 8) 8 ≠ crc64 (bs.take (natAt bs 2 2 + 8))
    (p < 512 → good → ∃ t, exec (.frame p start ws) s = .next t ∧
      t.basin.handed = s.basin.handed ++ [⟨pkt, p, s.ingressStamp p, false, s.lossless p c, none⟩] ∧
      t.sent = s.sent ++ [.control p 0x33 l.rxNext] ∧ (t.link p).rxNext = (l.rxNext + 1) % 2 ^ 32 ∧ (t.link p).nakAt = none ∧
      (t.link p).replay = l.replay ∧ spGet 0 (t.link p).taken c = spGet 0 l.taken c + (32 + pkt.hdr.len + 24 + 255) / 256) ∧
    (¬good → l.nakAt = none → ∃ t, exec (.frame p start ws) s = .next t ∧ t.sent = s.sent ++ [.control p 0x4B l.rxNext] ∧
      t.basin = s.basin ∧ (t.link p).rxNext = l.rxNext ∧ (t.link p).nakAt = some s.now) ∧
    (¬good → l.nakAt ≠ none → wrong → exec (.frame p start ws) s = .next (u.bump F.QY_LINK_CNT_CRC (pidx p))) ∧
    (¬good → l.nakAt ≠ none → ¬wrong → exec (.frame p start ws) s = .next u) ∧
    (∀ w : RxWord, s.Wf → w.lane < 512 → spGet 0 l.counted w.lane ≤ w.n →
      let v := s.countWords p [w]
      (∀ blocks n, decodeWord w (s.inner p) ((s.port p).inverted.contains (w.lane - p)) = some (blocks, n) →
        v.get F.QY_FEC_CNT_CORR (pidx w.lane) = min (s.get F.QY_FEC_CNT_CORR (pidx w.lane) + n) (2 ^ F.QY_FEC_CNT_CORR.width - 1)) ∧
      (decodeWord w (s.inner p) ((s.port p).inverted.contains (w.lane - p)) = none →
        v.get F.QY_FEC_CNT_UNCORR (pidx w.lane) = min (s.get F.QY_FEC_CNT_UNCORR (pidx w.lane) + 1) (2 ^ F.QY_FEC_CNT_UNCORR.width - 1)))) ∧
  (∀ (s : State) (p n : Nat), s.stage p ≠ 6 →
    (∀ o ws, exec (.frame p o ws) s = .next s) ∧ exec (.ack p n) s = .next s ∧ exec (.nak p n) s = .next s ∧ exec (.replayTimeout p) s = .next s ∧
    exec (.nakRepeat p) s = .next s ∧ (∀ c, exec (.credit p c n) s = .next s) ∧ exec (.beacon p n) s = .next s ∧
    exec (.beaconSend p) s = .next s ∧ exec (.ethernetBeacon p) s = .next s ∧ ∀ ws bs, exec (.ethernetFrame p ws bs) s = .next s) ∧
  (∀ (s : State) (p n : Nat), s.stage p = 6 → s.lhPort p = false →
    let l := s.link p
    let keep := l.replay.filter fun x => 2 ^ 31 ≤ (n + 2 ^ 32 - x.1 % 2 ^ 32) % 2 ^ 32
    let oldest := (l.replay.map (·.1)).headD l.txNext
    let past (a b : Nat) : Nat := (b + 2 ^ 32 - a % 2 ^ 32) % 2 ^ 32
    let inside : Prop := past oldest n ≤ past oldest l.txNext
    let wait := 500 * max 1 (s.cget F.QY_PORT_CTRL_REPLAY_US (pidx p))
    let most := s.cget F.QY_PORT_CTRL_REPLAY_MAX (pidx p)
    let due : Prop := l.replay ≠ [] ∧ l.ackAt + wait ≤ s.now
    let again := l.replay.filter fun x => past n x.1 < 2 ^ 31
    (∃ t, exec (.ack p n) s = .next t ∧ (t.link p).replay = keep ∧ (t.link p).txNext = l.txNext ∧
      (keep.length ≠ l.replay.length → (t.link p).replays = 0)) ∧
    (¬inside → exec (.nak p n) s = .next (s.bump F.QY_LINK_CNT_BADNAK (pidx p))) ∧
    (inside → most ≠ 0 → most ≤ l.replays → exec (.nak p n) s = .next (s.toStage1 p)) ∧
    (inside → most = 0 ∨ l.replays < most → ∃ t, exec (.nak p n) s = .next t ∧ (t.link p).replay = l.replay ∧
      (t.link p).replays = l.replays + 1 ∧ (t.link p).ackAt = l.ackAt ∧ (t.link p).tx.opens = true ∧
      t.sent = s.sent ++ again.map (fun x => .frame p x.1 x.2) ∧
      ((s.port p).badCrc = false → (t.link p).tx.stream.map (·.2) = again.flatMap fun x => frameOf x.1 false x.2)) ∧
    (∀ c, c < 16 → ∃ t, exec (.credit p c n) s = .next t ∧ spGet 0 (t.link p).granted c = n % 2 ^ 32) ∧
    (¬due → exec (.replayTimeout p) s = .next s) ∧
    (due → most ≠ 0 → most ≤ l.replays → exec (.replayTimeout p) s = .next ((s.setLink p { l with ackAt := s.now }).toStage1 p)) ∧
    (due → most = 0 ∨ l.replays < most → ∃ t, exec (.replayTimeout p) s = .next t ∧ (t.link p).replays = l.replays + 1 ∧
      (t.link p).ackAt = s.now) ∧
    (l.nakAt = none → exec (.nakRepeat p) s = .next s) ∧
    (∀ t0, l.nakAt = some t0 → (s.now < t0 + wait → exec (.nakRepeat p) s = .next s) ∧
      (t0 + wait ≤ s.now → ∃ t, exec (.nakRepeat p) s = .next t ∧ t.sent = s.sent ++ [.control p 0x4B l.rxNext] ∧
        (t.link p).nakAt = some s.now)) ∧
    ((s.port p).partner = some (n % 2 ^ 32) → ∃ t, exec (.beacon p n) s = .next t ∧ (t.port p).heard = true ∧
      (t.port p).heardAt = s.now ∧ (t.port p).rxBeacons = n / 2 ^ 32 % 65536 ∧
      (s.Wf → p < 512 → t.get F.LG_PORT_LAST [p] = s.ts32 ∧ t.get F.LG_PORT_MISSED [p] = 0)) ∧
    ((s.port p).partner ≠ some (n % 2 ^ 32) → ∃ t, exec (.beacon p n) s = .next t ∧ (t.port p).heard = false ∧
      (t.port p).rxBeacons = n / 2 ^ 32 % 65536 ∧ (s.Wf → p < 512 → t.get F.QY_PORT_STATUS_ID_CHANGED (pidx p) = 1)) ∧
    (let go : Prop := ∀ t0, (s.port p).beaconAt = some t0 → t0 + 5000 ≤ s.now
     let at_ : Nat := (((s.port p).beaconAt.map fun t0 => t0 + (s.now - t0) / 5000 * 5000)).getD (s.port p).inService
     (s.isEth p = false → go → ∃ t, exec (.beaconSend p) s = .next t ∧ (t.port p).beaconAt = some at_ ∧
       ((s.port p).suppress = 0 → t.sent = s.sent ++ [.control p 0x55 (s.ownHash p + (s.port p).beaconCount * 2 ^ 32)]) ∧
       ((s.port p).suppress ≠ 0 → t.sent = s.sent)) ∧
     (s.isEth p = true ∨ ¬go → exec (.beaconSend p) s = .next s) ∧
     (s.isEth p = false ∨ s.slotOf p ≠ none ∨ s.cget F.QY_PORT_CTRL_BEACON_CHK (pidx p) = 0 ∨ ¬go → exec (.ethernetBeacon p) s = .next s) ∧
     (s.isEth p = true → s.slotOf p = none → s.cget F.QY_PORT_CTRL_BEACON_CHK (pidx p) = 1 → go → ∃ t, exec (.ethernetBeacon p) s = .next t ∧
       (t.port p).beaconAt = some at_ ∧ (t.port p).suppress = (s.port p).suppress - 1 ∧
       ((s.port p).suppress = 0 → ∃ bs, t.sent = s.sent ++ [.ether p (etherFrame bs)])))) ∧
  (∀ (s : State) (p : Nat) (ws : List RxWord) (bs : List Byte), s.stage p = 6 → s.isEth p = true →
    let body := bs.take (bs.length - 4)
    let be (o : Nat) : Nat := natAt body o 1 * 256 + natAt body (o + 1) 1
    let o := if be 12 = 0x8100 then 16 else 12
    let u := s.countWords p ws
    let fits : Prop := (∀ w ∈ ws, (decodeWord w false ((s.port p).inverted.contains (w.lane - p))).isSome = true) ∧
      64 ≤ bs.length ∧ bs.length ≤ 9600 ∧ natAt bs (bs.length - 4) 4 = crc32 body
    let raw := body.drop (o + 2)
    let pkt := packetOf (raw.take (32 + (packetOf raw).hdr.len))
    let beacon : Prop := pkt.hdr.kind = 3 ∧ pkt.hdr.flow = 0xBEAC ∧ s.cget F.QY_PORT_CTRL_BEACON_CHK (pidx p) = 1
    let hash := natAt pkt.body 0 4
    (∀ i, s.slotOf p = some i → exec (.ethernetFrame p ws bs) s = .next (u.bump F.BW_LH_CNT2_ICV_FAIL [i])) ∧
    (s.slotOf p = none → ¬fits → exec (.ethernetFrame p ws bs) s = .next (u.bump F.QY_LINK_CNT_CRC (pidx p))) ∧
    (s.slotOf p = none → fits → be o = 0x8808 → exec (.ethernetFrame p ws bs) s = .next (u.bump F.QY_LINK_CNT_KIND (pidx p))) ∧
    (s.slotOf p = none → fits → be o ≠ 0x8808 → be o = s.cget F.QY_ETH_CFG_ETYPE (pidx p) → ¬beacon →
      exec (.ethernetFrame p ws bs) s = .next { u with basin := { u.basin with
        handed := u.basin.handed ++ [⟨pkt, p, u.ingressStamp p, false, false, none⟩] } }) ∧
    (s.slotOf p = none → fits → be o ≠ 0x8808 → be o = s.cget F.QY_ETH_CFG_ETYPE (pidx p) → beacon →
      ∃ t, exec (.ethernetFrame p ws bs) s = .next t ∧ t.basin = s.basin ∧ (t.port p).rxBeacons = natAt pkt.body 4 4 % 65536 ∧
        ((s.port p).partner = none ∨ (s.port p).partner = some hash → (t.port p).partner = some hash ∧ (t.port p).heard = true)) ∧
    (s.slotOf p = none → fits → be o ≠ 0x8808 → be o ≠ s.cget F.QY_ETH_CFG_ETYPE (pidx p) →
      (s.basin.localQ.foldl (fun n x => n + x.size) 0) + (32 + body.length) ≤ 4194304 → ∃ t x, exec (.ethernetFrame p ws bs) s = .next t ∧
        t.basin.localQ = s.basin.localQ ++ [x] ∧ x.body = body ∧ x.hdr.kind = 3 ∧ x.hdr.flow = be o ∧
        x.hdr.dst = s.cget F.BS_SELF_ENDPOINT [0] ∧ x.hdr.hcrc = x.hdr.crc))

/-- R305 to R313: the stages of a port, patterns, the management bus. -/
def Obligations.BringUp : Prop :=
  (∀ (s : State) (p : Nat), s.Wf → p < 512 →
    let x := s.port p
    let quiet : Prop := ∀ i < s.portWidth p, s.get F.QY_PRBS_CTRL_EN (pidx (p + i)) ≠ 1
    let detect : Prop := s.isPort p = true ∧ s.portEnabled p = true ∧ s.stage p = 1 ∧ quiet
    let most := s.cget F.QY_PORT_CTRL_MAX_GEN (pidx p)
    let top := if most = 0 then 3 else most
    let gen := s.get F.QY_PORT_STATUS_GEN (pidx p)
    let limit : Nat := if s.stage p = 2 ∨ s.stage p = 4 ∨ s.stage p = 5 then 500000 else 50000000
    let long : Prop := 2 ≤ s.stage p ∧ s.stage p ≤ 5 ∧ x.since + limit < s.now
    let step : Prop := s.isEth p = false ∧ s.stage p = 1 ∧ x.failed = true ∧ s.now ≤ x.attemptAt + 100000000
    (¬detect → exec (.signalDetect p) s = .next s) ∧
    (detect → ∃ t, exec (.signalDetect p) s = .next t ∧ t.stage p = 2 ∧ (t.port p).attemptAt = s.now ∧
      t.get F.QY_PORT_STATUS_GEN (pidx p) = (if s.isEth p = true then 0 else if gen = 0 then top else gen)) ∧
    (∀ lanes inverted,
      let up : Prop := lanes = List.range lanes.length
      let down : Prop := lanes.reverse = List.range lanes.length
      let mixed : Prop := s.isEth p = true ∧ ∀ k < lanes.length, k ∈ lanes
      (s.stage p = 2 → up ∨ down ∨ mixed →
        ∃ t, exec (.training p lanes inverted) s = .next t ∧ t.stage p = 3 ∧ (t.port p).inverted = inverted ∧
          (t.port p).order = ((List.range lanes.length).map fun k => lanes.findIdx (· = k)) ∧
          (up ∨ ¬down → t.get F.QY_PORT_STATUS_REVERSED (pidx p) = 0) ∧ (¬up → down → t.get F.QY_PORT_STATUS_REVERSED (pidx p) = 1)) ∧
      (s.stage p = 2 → ¬up → ¬down → ¬mixed →
        exec (.training p lanes inverted) s = .next (s.put F.QY_PORT_STATUS_LANE_BAD (pidx p) 1)) ∧
      (s.stage p = 3 → ∃ t, exec (.training p lanes inverted) s = .next t ∧ t.stage p = 4) ∧
      (s.stage p ≠ 2 → s.stage p ≠ 3 → exec (.training p lanes inverted) s = .next s)) ∧
    (long → ∃ t, exec (.stageLimit p) s = .next t ∧ t.stage p = 1 ∧ (t.port p).failed = decide (s.stage p ≤ 4) ∧
      t.get F.QY_PORT_STATUS_DOWNS (pidx p) = (s.get F.QY_PORT_STATUS_DOWNS (pidx p) + 1) % 65536) ∧
    (¬long → exec (.stageLimit p) s = .next s) ∧
    (s.stage p = 1 → exec (.lossOfSignal p) s = .next s) ∧
    (s.stage p ≠ 1 → ∃ t, exec (.lossOfSignal p) s = .next t ∧ t.stage p = 1 ∧
      t.get F.QY_PORT_STATUS_DOWNS (pidx p) = (s.get F.QY_PORT_STATUS_DOWNS (pidx p) + 1) % 65536) ∧
    (step → ∃ t, exec (.generationStepDown p) s = .next t ∧ (t.port p).failed = false ∧
      t.get F.QY_PORT_STATUS_GEN (pidx p) = if gen ≤ 1 then top else gen - 1) ∧
    (¬step → exec (.generationStepDown p) s = .next s)) ∧
  (∀ (s : State) (lane n : Nat) (ws : List RxWord), s.Wf → lane < 512 → n < 2 ^ 40 →
    let p := s.portOf lane
    let x := s.port p
    let lanes := (List.range (s.portWidth p)).map (p + ·)
    let locks := if lane ∈ x.locked then x.locked else lane :: x.locked
    let lock : Prop := s.stage p = 4 ∧ 32 ≤ ws.length ∧ ∀ w ∈ ws, w.lane = lane ∧ s.goodWord p false w = true
    let lose : Prop := s.stage p = 6 ∧ 8 ≤ ws.length ∧ ∀ w ∈ ws, w.lane = lane ∧ s.goodWord p true w = false
    let near : Prop := ∀ l ∈ lanes, l ∈ locks ∧ ∃ a, spGet none x.aligns l = some a ∧ a.2 ≤ s.now ∧
      ∀ m ∈ lanes, ∀ b, spGet none x.aligns m = some b → a.1 = b.1 ∧ 20 * a.2 ≤ 20 * b.2 + 64 * s.codewordTime p
    (¬lock → exec (.alignmentLock ⟨lane, ws⟩) s = .next s) ∧
    (lock → s.isEth p = true → ∃ t, exec (.alignmentLock ⟨lane, ws⟩) s = .next t ∧ t.stage p = if ∀ l ∈ lanes, l ∈ locks then 6 else 4) ∧
    (lock → s.isEth p = false → ∃ t, exec (.alignmentLock ⟨lane, ws⟩) s = .next t ∧ (t.port p).locked = locks ∧
      (near → t.stage p = 5) ∧ ((∀ l ∈ lanes, ∀ a, spGet none x.aligns l = some a → a.2 ≤ s.now) → ¬near → t.stage p = 4)) ∧
    (s.stage p ≠ 4 → ∃ t, exec (.align lane n) s = .next t ∧ spGet none (t.port p).aligns lane = some (n, s.now) ∧ t.stage p = s.stage p) ∧
    (s.stage p = 4 → ∃ t, exec (.align lane n) s = .next t ∧ (s.isEth p = false → spGet none (t.port p).aligns lane = some (n, s.now))) ∧
    (lose → ∃ t, exec (.lossOfLock ⟨lane, ws⟩) s = .next t ∧ t.stage p = 1) ∧
    (¬lose → exec (.lossOfLock ⟨lane, ws⟩) s = .next s)) ∧
  (∀ (s : State) (p i content : Nat), s.Wf → p < 512 →
    let x := s.port p
    let got := spIns x.ident (i % 8) (content % 2 ^ 40)
    let rec' := got.flatMap fun b => leBytes b.2 5
    (s.stage p ≠ 5 → exec (.ident p i content) s = .next s) ∧
    (s.stage p = 5 → got.length < 8 → exec (.ident p i content) s = .next (s.setPort p { x with ident := got })) ∧
    (s.stage p = 5 → 8 ≤ got.length → x.record ≠ some rec' →
      exec (.ident p i content) s = .next (s.setPort p { x with ident := [], record := some rec' })) ∧
    (s.stage p = 5 → 8 ≤ got.length → x.record = some rec' →
      let other : Prop := s.cget F.QY_PORT_CTRL_EXPECT_EN (pidx p) = 1 ∧ natAt rec' 8 3 ≠ s.cget F.QY_PORT_CTRL_EXPECT_EP (pidx p)
      ∃ t, exec (.ident p i content) s = .next t ∧
        t.get F.QY_PORT_STATUS_FEATURES (pidx p) = (natAt rec' 5 1) &&& (if s.get F.QY_PORT_STATUS_GEN (pidx p) = 3 then 7 else 6) ∧
        (other → t.stage p = 5 ∧ t.get F.QY_PORT_STATUS_IDENT_MISMATCH (pidx p) = 1) ∧
        (¬other → t.stage p = 6 ∧ (t.port p).partner = some ((granuleDigest rec').toNat % 2 ^ 32)))) ∧
  (∀ (s : State) (req : Requester) (q : Nat) (v : Word64) (wr : Bool), s.Wf → s.Writes req .QY_CMIS_CMD [q] →
    let c : Instr := if wr = true then .cmisWrite req q v else .cmisRead req q v
    let len := bits v 18 8
    ∃ t : State, exec c s = t.written req .QY_CMIS_CMD [q] ∧
      (s.get F.QY_CMIS_STATUS_BUSY [q] = 1 → t.quays = s.quays ∧ t.sent = s.sent) ∧
      (s.get F.QY_CMIS_STATUS_BUSY [q] = 0 → 128 < len → t.get F.QY_CMIS_STATUS_RESULT [q] = 2 ∧ t.quays = s.quays) ∧
      (s.get F.QY_CMIS_STATUS_BUSY [q] = 0 → len = 0 → t.get F.QY_CMIS_STATUS_RESULT [q] = 0 ∧ t.quays = s.quays) ∧
      (s.get F.QY_CMIS_STATUS_BUSY [q] = 0 → 0 < len → len ≤ 128 → t.get F.QY_CMIS_STATUS_BUSY [q] = 1 ∧
        spGet none t.quays.cmis q = some ⟨wr, bits v 16 2, bits v 8 8, bits v 0 8, len⟩ ∧
        (∃ pre, t.sent = s.sent ++ pre ++ [.cmis q wr (bits v 16 2) (bits v 8 8) (bits v 0 8) len (if wr = true then (s.cmisData q).take len else [])] ∧
          (pre = [] ↔ spGet (256, 256) s.quays.cmisSel q = (bits v 16 2, bits v 8 8))))) ∧
  (∀ (s : State) (q : Nat) (ack : Bool) (bs : List Byte), s.Wf → q < 64 →
    (spGet none s.quays.cmis q = none → exec (.cmisComplete q ack bs) s = .next s) ∧
    (∀ c, spGet none s.quays.cmis q = some c → ∃ t, exec (.cmisComplete q ack bs) s = .next t ∧ t.get F.QY_CMIS_STATUS_BUSY [q] = 0 ∧
      (ack = false → t.get F.QY_CMIS_STATUS_NACK [q] = 1) ∧ (ack = true → t.get F.QY_CMIS_STATUS_RESULT [q] = 0) ∧
      (ack = true → c.write = false → ∀ i < 128, (t.cmisData q)[i]? = some (if i < c.len then bs.getD i 0 else (s.cmisData q).getD i 0)))) ∧
  (∀ (s : State) (q lane : Nat) (level : Bool),
    exec (.presentL q level) s = .next (s.put F.QY_CMIS_STATUS_PRESENT_L [q] level.toNat) ∧
    exec (.intL q level) s = .next (s.put F.QY_CMIS_STATUS_INT_L [q] level.toNat) ∧
    ∀ errors : List Nat,
      let seen (l : List Nat) : Out :=
        .next ((s.put F.QY_PRBS_CNT_LOCK (pidx lane) 1).bump F.QY_PRBS_CNT_ERRORS (pidx lane) (l.foldl (· + ·) 0))
      let locked : Prop := s.get F.QY_PRBS_CNT_LOCK (pidx lane) = 1
      (s.get F.QY_PRBS_CTRL_EN (pidx lane) = 0 → exec (.prbsCheckerLock ⟨lane, errors⟩) s = .next s) ∧
      (s.get F.QY_PRBS_CTRL_EN (pidx lane) ≠ 0 → locked → exec (.prbsCheckerLock ⟨lane, errors⟩) s = seen errors) ∧
      (s.get F.QY_PRBS_CTRL_EN (pidx lane) ≠ 0 → ¬locked →
        ((¬∃ a b, errors = a ++ List.replicate 64 0 ++ b) → exec (.prbsCheckerLock ⟨lane, errors⟩) s = .next s) ∧
        (∀ a b, errors = a ++ List.replicate 64 0 ++ b →
          (∀ a' b', errors = a' ++ List.replicate 64 0 ++ b' → a.length ≤ a'.length) →
          exec (.prbsCheckerLock ⟨lane, errors⟩) s = seen b)))

/-- R365, R366, R368, R372, R377: the power manager. That powers are rounded down to 20 pW and watts is the model's choice (log
entry 110). -/
def claimPowerManager : Prop :=
  (∀ (s : State) (d : Nat) (counts : List Nat), s.estimate d counts = 26 * (Config.leakage d (s.get F.PM_STATE_ROW) s.dieTemps * 2000000 +
    (((List.range 32).filter fun k => s.get F.PM_WEIGHT_DOMAIN [k] = d).map fun k => counts.getD k 0 * s.get F.PM_WEIGHT_FJ [k]).sum)) ∧
  (∀ (s : State) (counts : List Nat), s.powered = false → exec (.powerEstimate counts) s = .next s) ∧
  (∀ (s : State) (counts : List Nat), s.powered = true →
    let e (d : Nat) : Nat := s.estimate d counts
    let watt (n : Nat) : Nat := min (n / 50000000000) 65535
    let row := s.get F.PM_STATE_ROW
    let krel (r : Nat) : Nat := s.get F.PM_VTAB_KREL [r]
    let left : Int := 50000000000 * (min (s.get F.PM_CAP_CAP_W) 3500 : Nat) - (e 0 + e 1 + e 3 : Nat)
    let fits (r num den : Nat) : Prop := ((e 2 * krel r * den : Nat) : Int) ≤ left * (krel row * num : Nat)
    let excess : Prop := left < (e 2 : Int)
    let best := if fits 0 1 1 then 0 else if fits 1 1 1 then 1 else if fits 2 1 1 then 2 else if fits 3 1 1 then 3 else if fits 4 1 1 then 4 else 5
    let up : Prop := s.get F.PM_STATE_LOCAL_DROP = 0 ∧ s.ceiling < row ∧ s.pwr.ramp = none ∧ fits (row - 1) 19 20
    let held : Option Nat := if up then some (s.pwr.upSince.getD s.now) else none
    let steps : Prop := ∃ t0, held = some t0 ∧ t0 + 500 * s.get F.PM_CTRL_UP_HOLD_US ≤ s.now
    (excess → s.pwr.overs ≠ 0 → ∃ t, exec (.powerEstimate counts) s = .next t ∧
      (row < best → t.pwr.overs = 0 ∧ t.pwr.volt = best ∧ t.pwr.ramp = none ∧ t.pwr.upSince = none) ∧
      (best ≤ row → t.pwr.overs = s.pwr.overs + 1 ∧ t.pwr.volt = s.pwr.volt ∧ t.get F.PM_STATE_ROW = row ∧
        t.get F.PM_STATE_OVERCAP = if fits 5 1 1 then 0 else 1)) ∧
    (¬(excess ∧ s.pwr.overs ≠ 0) → ∃ t, exec (.powerEstimate counts) s = .next t ∧ t.pwr.overs = (if excess then 1 else 0) ∧
      t.get F.PM_EST_LINK_W = watt (e 0) ∧ t.get F.PM_EST_MEM_W = watt (e 1) ∧ t.get F.PM_EST_PAV_W = watt (e 2) ∧
      t.get F.PM_EST_TOTAL_W = watt (e 0 + e 1 + e 2 + e 3) ∧ t.get F.PM_STATE_ROW = row ∧
      (steps → t.pwr.ramp = some (row - 1, false) ∧ t.pwr.upSince = none ∧ t.get F.PM_STATE_RAMPING = 1) ∧
      (¬steps → t.pwr.ramp = s.pwr.ramp ∧ t.pwr.upSince = held ∧ t.get F.PM_STATE_RAMPING = s.get F.PM_STATE_RAMPING))) ∧
  (∀ s : State, (s.get F.PM_STATE_RAMPING = 0 → exec .voltageReached s = .next s) ∧
    (s.get F.PM_STATE_RAMPING = 1 → ∃ t, exec .voltageReached s = .next t ∧ t.get F.PM_STATE_RAMPING = 0 ∧ t.pwr.ramp = none ∧
      t.pwr.volt = (match s.pwr.ramp with | some (r, _) => r | none => s.pwr.volt) ∧
      t.get F.PM_STATE_ROW = (match s.pwr.ramp with
        | some (r, false) => if r < s.ceiling then s.get F.PM_STATE_ROW else r % 8
        | _ => s.get F.PM_STATE_ROW))) ∧
  (∀ s : State,
    let long (since : Option Nat) (n : Nat) : Prop := ∃ t0, since = some t0 ∧ t0 + 500 * n ≤ s.now
    let hold := 1000 * s.get F.LG_LIMITS_CLR_HOLD_MS
    let cause := s.get F.PM_STATE_CAUSE
    let free : Prop := s.get F.PM_STATE_LOCAL_DROP = 1 ∧ ((cause = 1 ∧ long s.lodge.clrSince hold) ∨ (cause = 2 ∧ long s.lodge.currSince hold) ∨
      (cause ≠ 1 ∧ cause ≠ 2 ∧ long s.pwr.capSince (s.get F.PM_CTRL_UP_HOLD_US)))
    let u := (((s.put F.PM_STATE_LOCAL_DROP [] 0).put F.PM_STATE_CAUSE [] 0).put F.LG_STATUS_THERM_LATCH [] 0).put F.LG_STATUS_CURR_LATCH [] 0
    let v := (u.lodgeRec 3 none none).report 0
    (free → exec .dropRelease s = .next (v.goRow u.ceiling)) ∧
    (¬free → exec .dropRelease s = .next s)) ∧
  (∀ s : State,
    let due : Prop := s.get F.PM_STATE_STATE = 2 ∧ s.pwr.emergency = true ∧ ∃ t0, s.lodge.critSince = some t0 ∧ t0 + 500000 ≤ s.now
    let u := (s.enterPower 3).put F.PM_STATE_EMERG_WINTER [] 1
    (due → exec .emergencyStandby s = .next (u.lodgeRec 5 (some (u.get F.LG_STATUS_HOT_SENSOR)) (some (u.get F.LG_STATUS_HOT_T)))) ∧
    (¬due → exec .emergencyStandby s = .next s))

/-- The power states and the power manager. -/
def Obligations.PowerStates : Prop := claimPowerStates ∧ claimPowerManager

/-- R21, R301, R380 to R382: the Lodge. -/
def Obligations.LodgeSamples : Prop :=
  (∀ a b c : Int, median [a, b, c] = max (min a b) (min (max a b) c) ∧ (median [a, b, c] = a ∨ median [a, b, c] = b ∨ median [a, b, c] = c)) ∧
  (∀ (s : State) (temps : List Int) (vin iin : Nat),
    let u := s.sampleInput vin iin
    u.lodge.vins = (vin :: s.lodge.vins).take 3 ∧ u.lodge.pins = (vin * iin / 100 :: s.lodge.pins).take 10 ∧ u.lodge.iin = iin ∧
    (s.sup.rails = .none → exec (.lodgeSample temps vin iin) s = .next s) ∧
    (s.sup.rails = .standby → exec (.lodgeSample temps vin iin) s =
      .next { u with lodge := { u.lodge with stInput := u.lodge.stInput ||| u.inputCauses } })) ∧
  (∀ (s : State) (temps : List Int) (vin iin : Nat), s.sup.rails = .main → temps.length = 96 →
    let mid (i : Nat) : Int := median ((temps.getD i 0 :: spGet [] s.lodge.raw i).take 3)
    let crit : Int := 16 * (min (s.get F.LG_LIMITS_THERM_CRIT) 120 : Nat)
    let hi : Int := 16 * (min (s.get F.LG_LIMITS_THERM_HI) 110 : Nat)
    let v := (s.sampleInput vin iin).lodge.vin
    let p := (s.sampleInput vin iin).lodge.pin
    let out : Prop := v < s.get F.LG_LIMITS2_VIN_UV ∨ s.get F.LG_LIMITS2_VIN_OV < v
    ∃ t, exec (.lodgeSample temps vin iin) s = .next t ∧ t.lodge.vins = (vin :: s.lodge.vins).take 3 ∧
      t.lodge.pins = (vin * iin / 100 :: s.lodge.pins).take 10 ∧ t.lodge.iin = iin ∧
      (∀ i < 96, spGet [] t.lodge.raw i = (temps.getD i 0 :: spGet [] s.lodge.raw i).take 3 ∧
        spGet [] t.lodge.hist i = (mid i :: spGet [] s.lodge.hist i).take 256) ∧
      t.lodge.vinBad = (if out then s.lodge.vinBad + 1 else 0) ∧
      (s.get F.PM_STATE_STATE < 2 → (∃ i < 96, crit ≤ mid i) → t.pwr.emergency = true ∧ t.pwr.entering = none) ∧
      (s.get F.PM_STATE_STATE < 2 → out → max 1 (s.get F.LG_LIMITS2_VIN_SAMPLES) ≤ s.lodge.vinBad + 1 → t.pwr.emergency = true) ∧
      (s.get F.PM_STATE_STATE < 2 → (∀ i < 96, mid i < crit) → ¬(out ∧ max 1 (s.get F.LG_LIMITS2_VIN_SAMPLES) ≤ s.lodge.vinBad + 1) →
        t.pwr.emergency = s.pwr.emergency ∧
        (s.get F.PM_STATE_ROW < 5 → (∃ i < 96, hi ≤ mid i) ∨ s.get F.PM_CAP_TRIP_W * 1000 < p → t.pwr.volt = 5 ∧ t.pwr.ramp = none))) ∧
  (∀ (s : State) (p : Nat), p < 512 →
    let x := s.port p
    let alive : Prop := x.heard = true ∨ (s.isEth p = true ∧ s.cget F.QY_PORT_CTRL_BEACON_CHK (pidx p) = 0 ∧ s.linkUp p = true)
    let slow : Prop := s.linkUp p = true ∧ s.isEth p = false ∧ s.feature p 1 = false
    let u := s.samplePort p
    (alive → u.get F.LG_PORT_MISSED [p] = 0 ∧ u.get F.LG_PORT_SUSPECT [p] = 0 ∧ (u.port p).heard = false ∧ (u.port p).quietSamples = 0) ∧
    (¬alive → (u.port p).quietSamples = x.quietSamples + 1 ∧
      (slow → (x.quietSamples + 1) % 10 ≠ 0 → u.regs = s.regs) ∧
      (¬slow ∨ (x.quietSamples + 1) % 10 = 0 →
        u.get F.LG_PORT_MISSED [p] = min (s.get F.LG_PORT_MISSED [p] + 1) (2 ^ F.LG_PORT_MISSED.width - 1) ∧
        u.get F.LG_PORT_SUSPECT [p] = if 2 ≤ s.get F.LG_PORT_MISSED [p] then 1 else s.get F.LG_PORT_SUSPECT [p]))) ∧
  (∀ (s : State) (temps : List Int),
    let awake : Prop := s.powered = true ∧ s.get F.DK_STATUS_POWER = 0
    (¬awake → exec (.dockTemperatureRead temps) s = .next s) ∧
    (awake → ∃ t, exec (.dockTemperatureRead temps) s = .next t ∧ (∀ i < temps.length, i < 24 → spGet 0 t.lodge.dockT i = temps.getD i 0) ∧
      ((∀ x ∈ temps, x < 1600) → t.regs = s.regs))) ∧
  (∀ (s : State) (lost : Bool),
    let c : Instr := if lost = true then .referenceLoss else .referenceReturn
    let u : State := { s with sup := { s.sup with refclk := !lost } }
    let n := lost.toNat
    (s.sup.refclk = !lost → exec c s = .next s) ∧
    (s.sup.refclk = lost → s.powered = true → exec c s =
      .next (((u.put F.PM_STATE_REF_LOST [] n).put F.LG_STATUS_ALT_OSC [] n).lodgeRec (if lost = true then 6 else 7) none none)) ∧
    (s.sup.refclk = lost → s.powered = false → (lost = true ∨ s.sup.armed = false ∨ s.sup.modEn = false ∨ s.sup.rails ≠ .standby) →
      exec c s = .next u) ∧
    (s.sup.refclk = lost → lost = false → s.sup.rails = .standby → s.sup.armed = true → s.sup.modEn = true → exec c s = .next u.powerUp))

/-- `s` after a cold reset with the supply left as `p`: everything as reset leaves it but the fuses, the flash, the pin PERST_L,
host memory, what has been sent, the commands that wait and the model's own counters; GEN_ID and PV_CAPS are those of the grade. -/
def coldFrom (s : State) (p : Supply) : State :=
  ({ State.reset with
    pending := s.pending, resets := s.resets + 1, freeCtr := s.freeCtr, fuses := s.fuses, hostMem := s.hostMem, whEra := s.whEra + 1,
    gate := { State.reset.gate with flash := s.gate.flash }, up := { State.reset.up with perst := s.up.perst }, sup := p, sent := s.sent } : State).gradeWords

/-- R421, R426 to R429: the module's pins and supplies. That MOD_EN's fall releases the overvoltage latch is the model's choice (log
entry 118). -/
def Obligations.ModulePower : Prop :=
  ∀ s : State,
    let off : Supply := { s.sup with rails := .standby, armed := false, pwrGood := false, whPerst := false }
    let on (p : Supply) : Supply := { p with rails := .main, armed := false, pwrGood := true, whPerst := false }
    let dark : State := coldFrom s { off with ovLatch := false }
    (s.sup.rails ≠ .none → exec .vinRise s = .next s) ∧
    (s.sup.rails = .none → s.sup.modEn = false → exec .vinRise s = .next dark) ∧
    (s.sup.rails = .none → s.sup.modEn = true → s.sup.refclk = true → exec .vinRise s = .next (coldFrom dark (on dark.sup))) ∧
    (s.sup.rails = .none → s.sup.modEn = true → s.sup.refclk = false → exec .vinRise s = .next { dark with sup := { dark.sup with armed := true } }) ∧
    (s.sup.rails = .none → exec .undervoltageLockout s = .next s ∧ exec .overvoltageLatch s = .next s ∧ exec .sysResetL s = .next s) ∧
    (s.sup.rails ≠ .none → exec .undervoltageLockout s = .next (coldFrom s { off with rails := .none, ovLatch := false })) ∧
    (s.sup.rails = .main → exec .overvoltageLatch s = .next (coldFrom s { off with ovLatch := true }) ∧
      exec .sysResetL s = .next (coldFrom s (on s.sup))) ∧
    (s.sup.rails = .standby → exec .overvoltageLatch s = .next { s with sup := { s.sup with ovLatch := true, armed := false } } ∧
      exec .sysResetL s = .next (coldFrom s s.sup)) ∧
    (s.sup.modEn = true → exec .modEnRise s = .next s) ∧
    (s.sup.modEn = false → let u : State := { s with sup := { s.sup with modEn := true } }
      let goes : Prop := s.sup.rails = .standby ∧ s.sup.ovLatch = false
      (¬goes → exec .modEnRise s = .next u) ∧
      (goes → s.sup.refclk = true → exec .modEnRise s = .next (coldFrom u (on u.sup))) ∧
      (goes → s.sup.refclk = false → exec .modEnRise s = .next { u with sup := { u.sup with armed := true } }) ∧
      exec .modEnFall s = .next s) ∧
    (s.sup.modEn = true → let u : State := { s with sup := { s.sup with modEn := false, armed := false, ovLatch := false } }
      let leaving : Prop := ∃ o, s.pwr.entering = some (4, o)
      (s.sup.rails ≠ .main ∨ leaving → exec .modEnFall s = .next u) ∧
      (s.sup.rails = .main → ¬leaving → exec .modEnFall s = .next { u.quiesce none with pwr := { (u.quiesce none).pwr with entering := some (4, none) } })) ∧
    (s.up.perst = true → exec .perstL s = .next s) ∧
    (s.up.perst = false → let u : State := { s with up := { State.reset.up with perst := true } }
      (s.powered = false → exec .perstL s = .next u) ∧
      (s.powered = true → exec .perstL s =
        .next ((List.range 256).foldl (fun t r => if t.ringOwner r = .host then t.abortRing r none else t) u.dropDoe))) ∧
    ((∀ r ∈ s.dropDoe.gate.queue, r.chan ≠ .doe) ∧ ∀ v, s.dropDoe.gate.serving = some v → v.chan ≠ .doe) ∧
    exec .perstLRelease s = .next { s with up := { s.up with perst := false } } ∧
    exec .upstreamLinkDown s = .next { s with up := { s.up with linkUp := false } } ∧
    (let goes : Prop := s.powered = true ∧ s.up.perst = false ∧ s.up.linkUp = false
     (¬goes → exec .upstreamLinkUp s = .next s) ∧
     (goes → exec .upstreamLinkUp s = .next { s with
        up := { s.up with linkUp := true, held := [] }
        hostMem := { s.hostMem with cells := s.up.held.foldl (fun m w => putCells m w.1 w.2) s.hostMem.cells } })) ∧
    (s.up.linkUp = false → exec .configurationRequest s = .next s) ∧
    (s.up.linkUp = true → exec .configurationRequest s =
      .next { s with sent := s.sent ++ [if 2 ≤ s.get F.GH_STATUS_STAGE then .configDone else .configRetry] })

/-- R430, R431: PMBus. The places of the summaries and the layout of LINEAR11 are presumed from PMBus (log entry 114). -/
def Obligations.PmbusAnswers : Prop :=
  (∀ s : State,
    let answers (c : Instr) (bs : List Byte) : Prop := (s.sup.rails = .none → exec c s = .next s) ∧
      (s.sup.rails ≠ .none → exec c s = .next { s with sent := s.sent ++ [.pmbus bs] })
    let hot (l : List Int) : Nat := linear11 (hottest l) 16
    let heat (c : Instr) (l : List Int) : Prop := (s.sup.rails = .none → exec c s = .next s) ∧
      (s.sup.rails = .standby → exec c s = .next { s with sent := s.sent ++ [.nack] }) ∧
      (s.sup.rails = .main → exec c s = .next { s with sent := s.sent ++ [.pmbus (leBytes (hot l) 2)] })
    let low := (if s.lodge.stCml = 0 then 0 else 2) + (if s.lodge.stTemp = 0 then 0 else 4)
    answers .capability [0xB0#8] ∧ answers .pmbusRevision [0x33#8] ∧
    answers .statusByte (leBytes low 1) ∧ answers .statusWord (leBytes (low + (if s.lodge.stInput = 0 then 0 else 8192)) 2) ∧
    answers .statusInput (leBytes s.lodge.stInput 1) ∧ answers .statusTemperature (leBytes s.lodge.stTemp 1) ∧
    answers .statusCml (leBytes s.lodge.stCml 1) ∧
    answers .readVin (leBytes (linear11 (s.lodge.vin : Int) 100) 2) ∧ answers .readIin (leBytes (linear11 (s.lodge.iin : Int) 1000) 2) ∧
    answers .readPin (leBytes (linear11 (s.lodge.pin : Int) 1000) 2) ∧
    heat .readTemperature1 s.dieTemps ∧ heat .readTemperature2 ((List.range 24).map fun i => spGet 0 s.lodge.dockT i) ∧
    answers .mfrId [7#8, 0x4A#8, 0x45#8, 0x58#8, 0x57#8, 0x41#8, 0x52#8, 0x44#8] ∧
    answers .mfrModel ([10#8, 0x4A#8, 0x58#8, 0x2D#8, 0x53#8, 0x50#8, 0x4C#8, 0x2D#8] ++
      (if s.fuses.grade = .g800 then [0x38#8, 0x30#8, 0x30#8] else [0x37#8, 0x30#8, 0x34#8])) ∧
    answers .mfrRevision [2#8, 0x42#8, 0x30#8] ∧ answers .mfrSerial (8#8 :: wordBytes s.fuses.serial) ∧
    (s.sup.rails = .none → exec .clearFaults s = .next s ∧ exec .unsupportedCommand s = .next s) ∧
    (s.sup.rails ≠ .none → exec .clearFaults s = .next { s with lodge := { s.lodge with
        stInput := s.lodge.stInput &&& s.inputCauses, stTemp := s.lodge.stTemp &&& s.tempCauses, stCml := 0 } } ∧
      exec .unsupportedCommand s = .next { s with lodge := { s.lodge with stCml := s.lodge.stCml ||| 128 }, sent := s.sent ++ [.nack] })) ∧
  (∀ num den : Nat, 0 < den → num < den * 2 ^ 25 → ∃ m n, m < 1024 ∧ n < 32 ∧ (n ≠ 0 → 512 ≤ m) ∧
    m * den * 2 ^ n ≤ num * 2 ^ 16 ∧ num * 2 ^ 16 < (m + 1) * den * 2 ^ n ∧ linear11 (num : Int) den = m + (n + 16) % 32 * 2048) ∧
  (∀ l : List Int, l ≠ [] → hottest l ∈ l ∧ ∀ t ∈ l, t ≤ hottest l)

/-- A message of the attestation set in answer to the request `msg`, its body padded with zero bytes to a multiple of 4. -/
def answerTo (msg : List Byte) (code : Nat) (body : List Byte) : List Byte :=
  let b := body ++ List.replicate ((4 - body.length % 4) % 4) 0
  leBytes (1 + code * 256 + (16 + b.length) * 2 ^ 32) 8 ++ leBytes (natAt msg 8 4) 4 ++ leBytes 0 4 ++ b

/-- R390, R399, R401 to R403. Message length minima, and the answers to sets in force or not installed, are the model's choice (log
entries 122 and 123). -/
def Obligations.AttestationMessages : Prop :=
  (∀ (s : State) (chan : MsgChan) (msg : List Byte) (c : MsgChan → List Byte → Instr),
    c = .getInfo ∨ c = .getCerts ∨ c = .getMeas ∨ c = .getLog ∨ c = .keyExch ∨ c = .keyGo → chan ≠ .mailbox →
    let heard : Prop := s.powered = true ∧ (chan = .doe → s.up.linkUp = true) ∧ (chan = .mctp → s.gate.i3cAddr ≠ none)
    let fault := s.get F.GH_STATUS_FAULT
    let answer (e : Nat) : Host.Outcome State Fault Refusal := .next { s with sent := s.sent ++ [.reply chan (answerTo msg 0x7F (leBytes e 4))] }
    exec (c .mailbox msg) s = .next s ∧ (¬heard → exec (c chan msg) s = .next s) ∧
    (heard → fault = 1 → exec (c chan msg) s = answer 6) ∧
    (heard → fault = 0 → 16 ≤ s.gate.queue.length → exec (c chan msg) s = answer 3) ∧
    (heard → fault = 0 → s.gate.queue.length < 16 → s.gate.serving ≠ none → ∃ r : ServiceReq, r.chan = chan ∧ r.bytes = msg ∧
      exec (c chan msg) s = .next { s with gate := { s.gate with queue := s.gate.queue ++ [r] } }) ∧
    (heard → fault = 0 → s.gate.queue = [] → s.gate.serving = none → ∃ t, exec (c chan msg) s = .next t ∧ t.regs = s.regs ∧ t.sent = s.sent ∧
      t.gate.queue = [] ∧ ∃ v, t.gate.serving = some v ∧ v.chan = chan ∧ v.reply = (s.serveMessage msg).2.1 ∧ v.keys = (s.serveMessage msg).2.2)) ∧
  (∀ (s : State) (msg : List Byte),
    let code := natAt msg 1 1
    let reply := (s.serveMessage msg).2.1
    let keys := (s.serveMessage msg).2.2
    let error (e : Nat) : Prop := reply = answerTo msg 0x7F (leBytes e 4) ∧ keys = none
    let shaped : Prop := 16 ≤ msg.length ∧ natAt msg 0 1 = 1 ∧ natAt msg 4 4 = msg.length ∧ msg.length % 4 = 0
    let fits (n : Nat) : Prop := shaped ∧ n ≤ msg.length
    let stream := natAt msg 0x10 1 % 2
    let kset := natAt msg 0x10 1 / 2 % 2
    let ide := s.ideStream stream
    (¬shaped → error 1) ∧ (shaped → code = 0 ∨ 6 < code → error 2) ∧
    (code = 1 → shaped → ∀ a b c, s.gate.running = [a, b, c] → reply = answerTo msg 0x81 (wordBytes (genIdWord s.fuses.grade) ++ wordBytes s.fuses.serial ++
      leBytes (a + b * 2 ^ 16 + c * 2 ^ 32) 8 ++ leBytes (s.get F.GEN_STATUS_BOOT_DONE + 2 * s.get F.GEN_STATUS_SEALED + 4 * s.get F.GH_STATUS_DEBUG_SEALED +
        8 * s.get F.GH_STATUS_LOG_FULL) 8)) ∧
    (code = 2 → fits 24 → 65536 < natAt msg 0x14 4 → error 4) ∧
    (code = 2 → fits 24 → natAt msg 0x14 4 ≤ 65536 → let chain := Config.certChain s.fuses.serial
      reply = answerTo msg 0x82 (leBytes chain.length 4 ++ (chain.drop (natAt msg 0x10 4)).take (natAt msg 0x14 4))) ∧
    (code = 3 → fits 52 → let mask := natAt msg 0x30 2
      let slots := ((List.range 16).filter fun k => mask.testBit k).map fun k => leBytes (spGet 0 s.gate.slots k).toNat 64
      let body := (msg.drop 0x10).take 32 ++ leBytes (s.gate.log.length + mask * 2 ^ 32) 8 ++ slots.flatten
      let len := (56 + 64 * slots.length + 4627 + 3) / 4 * 4
      let head := leBytes (1 + 0x83 * 256 + len * 2 ^ 32) 8 ++ leBytes (natAt msg 8 4) 4 ++ leBytes 0 4 ++ body
      reply = head ++ s.signature head ++ List.replicate ((4 - (head.length + 4627) % 4) % 4) 0) ∧
    (code = 4 → fits 24 → 256 < natAt msg 0x14 4 → error 4) ∧
    (code = 4 → fits 24 → natAt msg 0x14 4 ≤ 256 →
      reply = answerTo msg 0x84 (((s.gate.log.drop (natAt msg 0x10 4)).take (natAt msg 0x14 4)).flatMap fun e => e.bytes)) ∧
    (code = 5 → fits 1592 → s.get F.GEN_STATUS_BOOT_DONE = 0 → error 5) ∧
    (code = 5 → fits 1592 → s.get F.GEN_STATUS_BOOT_DONE = 1 → ¬(ide.established = true ∧ kset ∈ ide.inForce) →
      let r := Config.mlkemEncap s.freeCtr ((msg.drop 0x18).take 1568)
      let ct := fitBytes 1568 r.1
      let h := (Config.sha3 (r.2 ++ [0x4A#8, 0x58#8, 0x49#8, 0x44#8, 0x45#8] ++ leBytes stream 1 ++ leBytes kset 1 ++ wordBytes s.fuses.serial)).toNat
      reply = answerTo msg 0x85 (leBytes 0 8 ++ ct ++ s.signature (msg.drop 0x10 ++ ct)) ∧
      keys = some (stream, kset, BitVec.ofNat 256 (h % 2 ^ 256), BitVec.ofNat 256 (h / 2 ^ 256))) ∧
    (code = 6 → fits 20 → (ide.keys.getD kset none) = none → error 5) ∧
    (code = 6 → fits 20 → (ide.keys.getD kset none) ≠ none → reply = answerTo msg 0x86 [] ∧ keys = none ∧
      let go := ide.pendingGo.zipIdx.map fun g => if (natAt msg 0x10 1 / 4).testBit g.2 then some kset else g.1
      (s.serveMessage msg).1 = s.setIde stream { ide with pendingGo := go })) ∧
  (∀ (s : State) (msg : List Byte), (s.signature msg).length = 4627) ∧
  (∀ (s : State) (v : Service), s.gate.serving = some v → v.chan ≠ .mailbox → s.gate.queue = [] →
    let u : State := { s with gate := { s.gate with serving := none }, sent := s.sent ++ [.reply v.chan v.reply] }
    (v.keys = none → s.finishService = u) ∧
    (∀ st ks k, v.keys = some (st, ks, k) → s.finishService =
      u.setIde st { s.ideStream st with keys := (s.ideStream st).keys.set ks (some k) })) ∧
  (∀ s : State, let mine : Prop := ∃ v, s.gate.serving = some v ∧ v.chan = .doe
    (¬mine → exec .doeAbort s = .next s) ∧
    (mine → exec .doeAbort s = .next ({ s with gate := { s.gate with serving := none } } : State).nextService)) ∧
  (∀ (s : State) (i d : Nat), let x := s.ideStream i
    (∀ k, i < 2 → d < 2 → x.pendingGo[d]? = some (some k) → exec (.ideKeySwitch i d) s = .next (s.setIde i { x with
      established := true, inForce := x.inForce.set d k, pendingGo := x.pendingGo.set d none })) ∧
    (2 ≤ i ∨ 2 ≤ d ∨ (x.pendingGo.getD d none) = none → exec (.ideKeySwitch i d) s = .next s) ∧
    (x.established = true → exec (.ideIntegrityFail i) s = .next { s with up := { s.up with linkUp := false } }) ∧
    (x.established = false → exec (.ideIntegrityFail i) s = .next s))

/-- R391, R394, R396, R399, R400, R405. The layout of SET_PEER and COMMIT_SVN's limit of 64 are readings (log entries
122 and 124). -/
def Obligations.MailboxRequests : Prop :=
  (∀ (s : State) (req : Requester) (len code : Nat) (flashOk : Bool) (c : Instr), s.Writes req .GH_REQ [] →
    (c = .seal req len ∧ code = 1) ∨ (c = .extend req len ∧ code = 2) ∨ (c = .setPeer req len ∧ code = 3) ∨
      (c = .stageFw req len flashOk ∧ code = 4) ∨ (c = .commitSvn req len ∧ code = 5) ∨ (c = .readFuses req len ∧ code = 6) →
    let n := len % 32768
    let body := (List.range n).map fun i => spGet 0 s.gate.reqBuf i
    (s.get F.GH_RSP_BUSY = 1 → exec c s = s.written req .GH_REQ []) ∧
    (s.get F.GH_RSP_BUSY = 0 → s.get F.GH_STATUS_FAULT = 1 → ∃ t : State, exec c s = t.written req .GH_REQ [] ∧ t.get F.GH_RSP_BUSY = 0 ∧
      t.get F.GH_RSP_RESULT = 6 ∧ t.get F.GH_RSP_LEN = 0 ∧ t.fuses = s.fuses ∧ t.gate = { s.gate with rspBuf := [] }) ∧
    (s.get F.GH_RSP_BUSY = 0 → s.get F.GH_STATUS_FAULT = 0 → s.gate.queue = [] → s.gate.serving = none →
      ∃ u t : State, exec c s = t.written req .GH_REQ [] ∧ u.gate = s.gate ∧ u.fuses = s.fuses ∧ u.clock = s.clock ∧ u.get F.GH_RSP_BUSY = 1 ∧
        u.get F.GH_RSP_OWNER = (if req = .host then 2 else if req = .hm then 1 else 0) ∧
        (∀ r : ServiceReq, r = ⟨.mailbox, req, code, body, if code = 4 then flashOk else true⟩ →
          t = { (u.serveMailbox r).1 with gate := { (u.serveMailbox r).1.gate with
            serving := some ⟨.mailbox, (u.serveMailbox r).2.1, (u.serveMailbox r).2.2, none⟩ } }))) ∧
  (∀ (s : State) (r : ServiceReq),
    let b := r.bytes
    let ends (st : Nat) (reply : List Byte) (t : State) : Prop := s.serveMailbox r = (t, st, reply)
    let who : Prop := r.req = .host ∨ r.code = 2 ∨ r.code = 6 ∨ r.code = 0 ∨ 6 < r.code
    let shaped : Prop := who ∧ b.length % 8 = 0 ∧ b.length ≤ 16384 ∧ (b.length = 0 → r.code = 1)
    (¬who → ends 0x0F [] s) ∧ (who → ¬shaped → ends 2 [] s) ∧
    (shaped → r.code = 1 → let u := s.put F.GEN_STATUS_SEALED [] 1
      ends 0 [] (u.extend 6 3 0 0 (Config.sha3 s.rwlBytes)) ∧ u.isSealed = true) ∧
    (shaped → r.code = 2 → (natAt b 0 1 < 7 ∨ 15 < natAt b 0 1 ∨ b.length < 72 → ends 2 [] s) ∧
      (7 ≤ natAt b 0 1 → natAt b 0 1 ≤ 15 → 72 ≤ b.length →
        ends 0 [] (s.extend (natAt b 0 1) 4 0 0 (BitVec.ofNat 512 (leNat ((b.drop 8).take 64)))))) ∧
    (shaped → r.code = 3 → let ok : Prop := natAt b 0 1 ≤ 63 ∧ (b.length = 8 ∨ b.length = 2600)
      (¬ok → ends 2 [] s) ∧ (ok → ∃ t, ends 0 [] t ∧ spGet none t.gate.peers (natAt b 0 1) =
        if b.length = 8 then none else some (natAt b 1 3, b.drop 8))) ∧
    (shaped → r.code = 4 → ends (s.stageFw b r.flashOk).2 [] (s.stageFw b r.flashOk).1) ∧
    (shaped → r.code = 5 → let k := natAt b 0 1
      let v := s.gate.running.getD k 0
      (2 < k → ends 2 [] s) ∧ (k ≤ 2 → 64 < v → ends 0x0A [] s) ∧
      (k ≤ 2 → v ≤ 64 → ends 0 [] { s with fuses := { s.fuses with svn := s.fuses.svn.set k (max v (s.fusedSvn k)) } })) ∧
    (shaped → r.code = 6 → ends 0 (Config.fuseSummary s.fuses.serial s.fuses.svn s.fuses.revoked) s) ∧
    (shaped → r.code = 0 ∨ 6 < r.code → ends 2 [] s)) ∧
  (∀ (s : State) (slot kind index svn : Nat) (d : BitVec 512), let t := s.extend slot kind index svn d
    spGet 0 t.gate.slots slot = Config.sha3 (leBytes (spGet 0 s.gate.slots slot).toNat 64 ++ leBytes d.toNat 64) ∧
    (∀ k, k ≠ slot → spGet 0 t.gate.slots k = spGet 0 s.gate.slots k) ∧
    (s.gate.log.length < 65536 → t.gate.log = s.gate.log ++ [⟨slot, kind, index, svn, s.timeWord, d⟩] ∧ t.regs = s.regs) ∧
    (65536 ≤ s.gate.log.length → t.gate.log = s.gate.log ∧ t.get F.GH_STATUS_LOG_FULL = 1)) ∧
  (∀ (s u : State) (body bs : List Byte) (ok : Bool),
    let len := natAt body 8 8
    let kind := natAt bs 4 1
    let copy := if s.gate.bootedB.getD kind false = true then 0 else 1
    16 ≤ body.length → len ≠ 0 → ptrSpace (word64At body 0) ≠ 0 → s.ptrOk (word64At body 0) len = true → s.ptrRead 7 (word64At body 0) len = (u, .ok bs) → u.gate = s.gate →
    (2 < kind ∨ u.imageGood kind bs = false → s.stageFw body ok = (u, 2)) ∧
    (kind ≤ 2 → u.imageGood kind bs = true → ok = false → s.stageFw body ok = (u, 6)) ∧
    (kind ≤ 2 → u.imageGood kind bs = true → ok = true → s.stageFw body ok =
      ({ u with gate := { u.gate with flash := u.gate.flash.set (2 * kind + copy) bs } }, 0))) ∧
  (∀ (s : State) (kind : Nat) (bs : List Byte), s.imageGood kind bs = true ↔
    natAt bs 0 4 = 0x4D49474A ∧ natAt bs 4 1 = kind ∧ s.fuses.revoked.testBit (natAt bs 5 1 % 4) = false ∧
      Config.mldsaVerify (Config.romKey (natAt bs 5 1 % 4)) (bs.take 0x60) ((bs.drop 0x60).take 4627) = true ∧
      leBytes (Config.sha3 ((bs.drop 0x1280).take (natAt bs 0x0C 4))).toNat 64 = (bs.drop 0x20).take 64 ∧ s.fuses.svn.getD kind 0 ≤ natAt bs 8 2) ∧
  (∀ s : State, (s.powered = false → exec .gatehouseFault s = .next s) ∧
    (s.powered = true → ∃ t, exec .gatehouseFault s = .next t ∧ t.get F.GH_STATUS_FAULT = 1 ∧ t.gate.queue = [] ∧ t.gate.serving = none ∧
      t.sent = s.sent ++
        (match s.gate.serving with
         | some v => if v.chan = .mailbox then [] else [.reply v.chan (answerTo v.reply 0x7F (leBytes 6 4))]
         | none => []) ++
        ((s.gate.queue.filter fun r => r.chan ≠ .mailbox).map fun r => .reply r.chan (answerTo r.bytes 0x7F (leBytes 6 4)))))

/-- R397, R398, R404, R405. The place of the completion code in a PLDM answer is presumed (log entry 115). -/
def Obligations.HarbourmasterRows : Prop :=
  (∀ (s : State) (req : Requester) (v : Word64), s.Writes req .HM_HEARTBEAT [] → ∃ t : State, exec (.hmHeartbeat req v) s = t.written req .HM_HEARTBEAT [] ∧
    t.hm.beatAt = s.now ∧ t.get F.HM_HEARTBEAT_COUNT = v.toNat) ∧
  (∀ s : State,
    let up : Prop := s.powered = true ∧ s.hm.stopped = false ∧ s.get F.HM_STATUS_STATE = 1
    let late : Prop := s.hm.beatAt + 500000000 ≤ s.now
    (up → s.hmRestart.hm.stopped = true ∧ s.hmRestart.get F.HM_STATUS_STATE = (if s.get F.HM_CTRL_HOLD = 1 then 3 else 2) ∧
      s.hmRestart.get F.HM_STATUS_RESTARTS = min (s.get F.HM_STATUS_RESTARTS + 1) 65535 ∧
      (∀ r < 256, s.hmRestart.ringState r = if s.ringOwner r = .hm ∧ s.ringState r = 1 then 2 else s.ringState r) ∧
      s.hmRestart.rings = s.rings ∧ ∀ q < 64, spGet none s.hmRestart.quays.cmis q = none) ∧
    (¬up → s.hmRestart = s) ∧
    exec .heartbeatExpiry s = .next (if late then s.hmRestart else s) ∧
    (∀ req, s.Writes req .HM_CTRL [] → exec (.restart req) s = s.hmRestart.written req .HM_CTRL []) ∧
    (up → exec .hmMemoryFault s = .next (s.put F.HM_STATUS_MEM_FAULT [] 1).hmRestart) ∧ (¬up → exec .hmMemoryFault s = .next s) ∧
    (s.powered = true → s.get F.HM_STATUS_STATE = 2 → exec .hmRestartComplete s = .next s.hmComplete) ∧
    (s.powered = false ∨ s.get F.HM_STATUS_STATE ≠ 2 → exec .hmRestartComplete s = .next s) ∧
    (∀ req, s.Writes req .HM_CTRL [] →
      (s.get F.HM_STATUS_STATE = 3 → exec (.hold req false) s = (s.put F.HM_CTRL_HOLD [] 0).hmComplete.written req .HM_CTRL []) ∧
      (s.get F.HM_STATUS_STATE ≠ 3 → exec (.hold req false) s = (s.put F.HM_CTRL_HOLD [] 0).written req .HM_CTRL []) ∧
      exec (.hold req true) s = (s.put F.HM_CTRL_HOLD [] 1).written req .HM_CTRL []) ∧
    (s.goodCopy 2 = none → s.hmComplete = (s.put F.GH_STATUS_BOOT_FAIL [] 1).put F.GH_STATUS_FAIL_KIND [] 2) ∧
    (∀ c, s.goodCopy 2 = some c → s.hmComplete.hm = ⟨s.now, false⟩ ∧ s.hmComplete.get F.HM_STATUS_STATE = 1 ∧
      s.hmComplete.gate.slots = (s.extend 2 5 2 (natAt (s.flashCopy 2 c) 8 2) (BitVec.ofNat 512 (leNat (((s.flashCopy 2 c).drop 32).take 64)))).gate.slots ∧
      s.hmComplete.rings = s.rings)) ∧
  (∀ (s : State) (req : Requester) (k : Nat) (v : Word64), s.Writes req .HM_DOCK [k] →
    let a := bits v 0 24 * 2 ^ 20
    let n := bits v 24 24 * 2 ^ 20
    let bad : Prop := bits v 63 1 = 1 ∧ n ≠ 0 ∧ (s.rsvBase < a + n ∨ ∃ x ∈ s.bh.shards, ∃ y, x.2 = some y ∧ a < y.range.1 + y.range.2 ∧ y.range.1 < a + n)
    (bad → exec (.hmDock req k v) s = (s.put F.HM_STATUS_DOCK_REFUSED [] 1).written req .HM_DOCK [k]) ∧
    (¬bad → ∃ t : State, exec (.hmDock req k v) s = t.written req .HM_DOCK [k] ∧ t.get F.HM_DOCK_BASE_MIB [k] = bits v 0 24 ∧
      t.get F.HM_DOCK_SIZE_MIB [k] = bits v 24 24 ∧ t.get F.HM_DOCK_VALID [k] = bits v 63 1)) ∧
  (∀ (s : State) (a : Nat) (msg : List Byte) (mtu : Option Nat),
    let live : Prop := s.powered = true ∧ s.gate.i3cAddr ≠ none
    (s.powered = false → exec (.entdaa a) s = .next s) ∧
    (s.powered = true → exec (.entdaa a) s = .next { s with gate := { s.gate with i3cAddr := some (a % 128) } }) ∧
    (¬live → exec (.mctpControl msg mtu) s = .next s ∧ exec (.pldmRequest msg) s = .next s) ∧
    (live → ∃ t, exec (.mctpControl msg mtu) s = .next t ∧ t.sent = s.sent ++ [.reply .mctp (Config.mctpAnswer msg)] ∧
      t.gate = { s.gate with mtu := match mtu with | some n => if 64 ≤ n ∧ n ≤ 256 then n else s.gate.mtu | none => s.gate.mtu }) ∧
    (live → s.get F.HM_STATUS_STATE ≠ 1 → exec (.pldmRequest msg) s =
      .next { s with sent := s.sent ++ [.reply .mctp (leBytes (natAt msg 0 1 % 128) 1 ++ (msg.drop 1).take 2 ++ [4#8])] }) ∧
    (live → s.get F.HM_STATUS_STATE = 1 → ∃ t bs, exec (.pldmRequest msg) s = .next t ∧ t.sent = s.sent ++ [.reply .mctp bs] ∧ t.gate = s.gate))

/-- R406, R408 to R415, R418. That BUSY of a gather stands until its mgc cycle ends, that snapshots of one cycle are one record, and that a misaligned ring is refused as one that does not fit are the model's choice (log entries
132 and those on GATHER and on snapshots). -/
def Obligations.TallyRows : Prop :=
  (∀ s : State,
    let w := s.get F.TL_BW_CFG_WINDOW_US
    let n := (s.clock.sec * 1000000000 + s.clock.ns) / (w * 1000)
    let ends : Prop := w ≠ 0 ∧ n ≠ s.tal.lastWindow
    (¬ends → exec .windowEnd s = .next s) ∧
    (ends → ∃ t, exec .windowEnd s = .next t ∧ t.tal.lastWindow = n ∧ ∀ p < 512,
      t.get F.TL_BW_RX [p] = spGet 0 s.tal.rxBytes p / 64 % 2 ^ 32 ∧ t.get F.TL_BW_TX [p] = spGet 0 s.tal.txBytes p / 64 % 2 ^ 32 ∧
      spGet 0 t.tal.rxBytes p = spGet 0 s.tal.rxBytes p % 64 ∧ spGet 0 t.tal.txBytes p = spGet 0 s.tal.txBytes p % 64)) ∧
  (∀ (s : State) (req : Requester) (v : Word64), s.Writes req .TL_BW_CFG [] → ∃ t : State, exec (.windowUs req v) s = t.written req .TL_BW_CFG [] ∧
    t.get F.TL_BW_CFG_WINDOW_US = bits v 0 16 ∧ t.tal.rxBytes = [] ∧ t.tal.txBytes = [] ∧
    t.tal.lastWindow = (s.clock.sec * 1000000000 + s.clock.ns) / (bits v 0 16 * 1000)) ∧
  (∀ (s : State) (forced : Bool),
    let quiet : Prop := s.get F.TL_DUMP_RING_EN = 0 ∨ 2 ≤ s.get F.PM_STATE_STATE
    let n := s.get F.TL_DUMP_SEQ_SEQ + 1
    (quiet → s.tallySnapshot forced = s) ∧
    (∀ x, ¬quiet → s.tal.snap = some x → x.takenAt ≠ s.now → s.tallySnapshot forced = s.bump F.TL_DUMP_STAT_SKIPPED) ∧
    (∀ x, ¬quiet → s.tal.snap = some x → x.takenAt = s.now → (forced = false → s.tallySnapshot forced = s) ∧
      (forced = true → ∃ y, s.tallySnapshot forced = { s with tal := { s.tal with snap := some y } } ∧ y.addr = x.addr ∧ y.seq = x.seq ∧
        y.takenAt = x.takenAt ∧ y.words = x.words.map fun w => if w.1 = 0x10 then (w.1, w.2 ||| 1) else w)) ∧
    (¬quiet → s.tal.snap = none → ∃ x, (s.tallySnapshot forced).tal = { s.tal with snap := some x } ∧
      (s.tallySnapshot forced).get F.TL_DUMP_STAT_BUSY = 1 ∧ x.seq = n ∧ x.takenAt = s.now ∧
      x.addr = s.get F.TL_DUMP_RING_ADDR + 8192 * ((n - 1) % 2 ^ min 20 (s.get F.TL_DUMP_RING_SLOTS_LOG)) ∧
      (0x08, BitVec.ofNat 64 (s.clock.sec * 2 ^ 30 + s.clock.ns)) ∈ x.words ∧
      (0x10, BitVec.ofNat 64 (forced.toNat + s.get F.PM_STATE_STATE * 2 + s.get F.PM_STATE_ROW * 16)) ∈ x.words ∧
      (0x18, BitVec.ofNat 64 (s.get F.TL_BW_CFG_WINDOW_US)) ∈ x.words ∧
      (∀ e < 256, (0x40 + 8 * e, s.rd .TL_EVT [e]) ∈ x.words) ∧ (∀ k < 64, (0x840 + 8 * k, s.rd .TL_PC_VAL [k]) ∈ x.words) ∧
      ∀ p < 512, (0xA40 + 8 * p, s.rd .TL_BW [p]) ∈ x.words)) ∧
  (∀ s : State,
    let p := s.get F.TL_DUMP_CFG_PERIOD_MS
    let n := (s.clock.sec * 1000000000 + s.clock.ns) / (p * 1000000)
    (p = 0 ∨ n = s.tal.lastDump → exec .dumpSnapshot s = .next s) ∧
    (p ≠ 0 → n ≠ s.tal.lastDump → exec .dumpSnapshot s = .next (({ s with tal := { s.tal with lastDump := n } } : State).tallySnapshot false)) ∧
    (∀ req, s.Writes req .TL_CTRL [] → exec (.dumpNow req) s = (s.tallySnapshot true).written req .TL_CTRL []) ∧
    (s.tal.snap = none → exec .dumpRecordWritten s = .next s) ∧
    (∀ x, s.tal.snap = some x → s.tal.ringNext = none → ∃ t, exec .dumpRecordWritten s = .next t ∧ t.tal.snap = none ∧
      t.get F.TL_DUMP_STAT_BUSY = 0 ∧ t.get F.TL_DUMP_SEQ_SEQ = x.seq % 2 ^ 64 ∧
      t.dock = ((s.dockWrite (x.addr + 8) ((layWords 8192 x.words).drop 8)).dockWrite x.addr (leBytes x.seq 8)).dock)) ∧
  (∀ (s : State) (req : Requester) (v : Word64),
    let a := bits v 0 48
    let bad (unit most : Nat) : Prop := bits v 63 1 = 1 ∧ (a % (if unit = 32 then 64 else unit) ≠ 0 ∨ s.rsvBase < a + unit * 2 ^ min most (bits v 48 5) ∨
      s.onShard Sh.empty (a, unit * 2 ^ min most (bits v 48 5)) = true)
    (s.Writes req .TL_DUMP_RING [] →
      (bad 8192 20 → exec (.dumpRingWrite req v) s = (s.put F.TL_STATUS_DUMP_REFUSED [] 1).written req .TL_DUMP_RING []) ∧
      (¬bad 8192 20 → s.tal.snap ≠ none → exec (.dumpRingWrite req v) s =
        ({ s with tal := { s.tal with ringNext := some v } } : State).written req .TL_DUMP_RING []) ∧
      (¬bad 8192 20 → s.tal.snap = none → ∃ t : State, exec (.dumpRingWrite req v) s = t.written req .TL_DUMP_RING [] ∧
        t.get F.TL_DUMP_RING_ADDR = a ∧ t.get F.TL_DUMP_RING_SLOTS_LOG = bits v 48 5 ∧ t.get F.TL_DUMP_RING_EN = bits v 63 1 ∧
        t.get F.TL_DUMP_SEQ_SEQ = 0)) ∧
    (s.Writes req .TL_SAMPLE_RING [] →
      (bad 32 24 → exec (.sampleRingWrite req v) s = (s.put F.TL_STATUS_SAMPLE_REFUSED [] 1).written req .TL_SAMPLE_RING []) ∧
      (¬bad 32 24 → ∃ t : State, exec (.sampleRingWrite req v) s = t.written req .TL_SAMPLE_RING [] ∧
        t.get F.TL_SAMPLE_RING_ADDR = a ∧ t.get F.TL_SAMPLE_RING_SLOTS_LOG = bits v 48 5 ∧ t.get F.TL_SAMPLE_RING_EN = bits v 63 1)) ∧
    (s.Writes req .TL_SAMPLE_CTL [] → ∃ t : State, exec (.sampleSeed req v) s = t.written req .TL_SAMPLE_CTL [] ∧
      t.get F.TL_SAMPLE_CTL_EN = bits v 0 1 ∧ t.get F.TL_SAMPLE_CTL_EXP = bits v 1 5 ∧ t.get F.TL_SAMPLE_CTL_SEED = bits v 32 32 ∧
      ∀ n < s.pavCount, let x := (mix (BitVec.ofNat 64 (bits v 32 32 * 1024 + n))).toNat % 2 ^ 32
        let e := min 24 (max 4 (bits v 1 5))
        let g := drawGap e 4096 (if x = 0 then 1 else x)
        (t.pav n).gap = g.1 ∧ (t.pav n).gen = g.2)) ∧
  (∀ (s : State) (req : Requester), s.Writes req .TL_CTRL [] → ∃ t : State, exec (.clearAll req) s = t.written req .TL_CTRL [] ∧
    (∀ e < 256, t.get F.TL_EVT_COUNT [e] = 0) ∧ (∀ k < 64, t.get F.TL_PC_VAL_COUNT [k] = 0) ∧ { t with regs := s.regs } = s ∧
    ∀ r idx, (∀ e < 256, regAddr .TL_EVT [e] ≠ regAddr r idx) → (∀ k < 64, regAddr .TL_PC_VAL [k] ≠ regAddr r idx) → t.rd r idx = s.rd r idx) ∧
  (∀ (s : State) (req : Requester) (count : Nat), s.Writes req .TL_GATHER [] → ∃ t : State, exec (.gatherGo req count) s = t.written req .TL_GATHER [] ∧
    (s.get F.TL_GATHER_BUSY = 1 → ∀ i < 256, t.rd .TL_GDATA [i] = s.rd .TL_GDATA [i]) ∧
    (s.get F.TL_GATHER_BUSY = 0 → t.get F.TL_GATHER_BUSY = 1 ∧ ∀ i < 256, t.rd .TL_GDATA [i] = if i < count then s.busRead req (s.get F.TL_GLIST_OFFSET [i]) 8 else s.rd .TL_GDATA [i]) ∧
    { t with regs := s.regs } = s) ∧
  (∀ (s : State) (req : Requester) (off : Nat), (off % 8 ≠ 0 → s.busRead req off 8 = 0) ∧
    (off % 8 = 0 → findReg off = none → (off < 0x02008000 ∨ 0x03000000 ≤ off) → s.busRead req off 8 = 0)) ∧
  (∀ (s : State) (req : Requester) (k : Nat) (v : Word64),
    let on : Prop := s.get F.TL_PC_CFG_EN [k] = 1
    let same : Prop := bits v 0 26 = bits (s.rd .TL_PC_CFG [k]) 0 26
    let none' : Prop := 4 < bits v 0 3 ∨ s.get F.TL_PC_HI_HI [k] < s.get F.TL_PC_LO_LO [k] ∨ (bits v 0 3 = 1 ∧ bits v 5 1 = 0)
    (s.Writes req .TL_PC_CFG [k] →
      (on → ¬same → exec (.pcEnable req k v) s = s.written req .TL_PC_CFG [k]) ∧
      (on → same → exec (.pcEnable req k v) s = (s.put F.TL_PC_CFG_EN [k] (bits v 63 1)).written req .TL_PC_CFG [k]) ∧
      (¬on → bits v 63 1 = 1 → none' → exec (.pcEnable req k v) s = (s.put F.TL_STATUS_PC_REFUSED [] 1).written req .TL_PC_CFG [k]) ∧
      (¬on → bits v 63 1 = 0 ∨ ¬none' → ∃ t : State, exec (.pcEnable req k v) s = t.written req .TL_PC_CFG [k] ∧
        bits (t.rd .TL_PC_CFG [k]) 0 26 = bits v 0 26 ∧ t.get F.TL_PC_CFG_EN [k] = bits v 63 1 ∧ { t with regs := s.regs } = s)) ∧
    (s.Writes req .TL_PC_VAL [k] → exec (.pcValueWrite req k v) s = (s.wr .TL_PC_VAL [k] v).written req .TL_PC_VAL [k]))

/-- A command that clears counters of the register `r`: the fields `fs` become zero and nothing else changes but that register. -/
def clears (s : State) (c : Instr) (req : Requester) (r : Reg) (idx : List Nat) (fs : List Fld) : Prop :=
  s.Writes req r idx → ∃ t : State, exec c s = t.written req r idx ∧ (∀ f ∈ fs, t.get f idx = 0) ∧ { t with regs := s.regs } = s ∧
    ∀ q jdx, regAddr q jdx ≠ regAddr r idx → t.rd q jdx = s.rd q jdx

/-- A command whose mask names registers to clear, one for each bit. -/
def clearsMasked (s : State) (c : Instr) (req : Requester) (r : Reg) (mask : Nat) (rs : List Reg) : Prop :=
  s.Writes req r [] → ∃ t : State, exec c s = t.written req r [] ∧ { t with regs := s.regs } = s ∧
    (∀ i q, rs[i]? = some q → t.rd q [] = if mask.testBit i then 0 else s.rd q []) ∧
    ∀ q jdx, (∀ p ∈ rs, regAddr p [] ≠ regAddr q jdx) → t.rd q jdx = s.rd q jdx

/-- The CLEAR fields of the blocks' counters. -/
def Obligations.CountersCleared : Prop :=
  ∀ (s : State) (req : Requester) (n mask : Nat),
    clears s (.pvTileErrClear req) req .PV_TILE_ERR [] [F.PV_TILE_ERR_CORRECTED, F.PV_TILE_ERR_UNCORRECTED] ∧
    clears s (.pvXrangeClear req) req .PV_XRANGE [] [F.PV_XRANGE_COUNT] ∧
    clears s (.moNondetCountClear req) req .MO_NONDET_COUNT [] [F.MO_NONDET_COUNT_COUNT] ∧
    clears s (.dkErrCntClear req) req .DK_ERR_CNT [] [F.DK_ERR_CNT_CORRECTED, F.DK_ERR_CNT_UNCORRECTED] ∧
    clears s (.whErrCntClear req) req .WH_ERR_CNT [] [F.WH_ERR_CNT_POISON, F.WH_ERR_CNT_LINK_DOWN] ∧
    clears s (.hbParErrClear req n) req .HB_PAR_ERR [n] [F.HB_PAR_ERR_COUNT] ∧
    clears s (.lhWithdrawCntClear req) req .LH_WITHDRAW_CNT [] [F.LH_WITHDRAW_CNT_COUNT] ∧
    clears s (.bwDropClear req) req .BW_DROP [] [F.BW_DROP_UNKNOWN, F.BW_DROP_DUP, F.BW_DROP_STALE] ∧
    clears s (.pmDropsClear req) req .PM_DROPS [] [F.PM_DROPS_THERMAL, F.PM_DROPS_CURRENT, F.PM_DROPS_CAP] ∧
    clears s (.ghDenyCntClear req) req .GH_DENY_CNT [] [F.GH_DENY_CNT_HOST, F.GH_DENY_CNT_HM] ∧
    clearsMasked s (.moCntClear req mask) req .MO_CNT_CLEAR mask
      [.MO_DROP_STALE, .MO_DROP_FENCED, .MO_DROP_UNGRANTED, .MO_DUP, .MO_REREQ_SENT, .MO_DROP_BAD] ∧
    clearsMasked s (.bhCntClear req mask) req .BH_CNT_CLEAR mask [.BH_DROP, .BH_BAD_CHUNK, .BH_REPARENT] ∧
    clearsMasked s (.bsCntClear req mask) req .BS_CNT_CLEAR mask
      [.BS_DROP_HDR, .BS_DROP_HOPS, .BS_DROP_BUF, .BS_DROP_MISS, .BS_DROP_MCDOWN, .BS_DROP_MIRROR, .BS_DROP_DOWN, .BS_DROP_UNKMOOR] ∧
    (s.Writes req .BS_BUF_USED [n] → ∃ t : State, exec (.peakClr req n) s = t.written req .BS_BUF_USED [n] ∧
      t.get F.BS_BUF_USED_PEAK [n] = s.get F.BS_BUF_USED_USED [n] ∧ t.get F.BS_BUF_USED_USED [n] = s.get F.BS_BUF_USED_USED [n] ∧
      { t with regs := s.regs } = s) ∧
    (s.Writes req .QY_PRBS_CTRL (pidx n) → exec (.prbsClear req n) s = (s.wr .QY_PRBS_CNT (pidx n) 0).written req .QY_PRBS_CTRL (pidx n))

/-- The block's step. The queue, and that a step on an empty one is a tick of 2 ns, are the model's own (log entries 1 and 2). -/
def Obligations.StepRunsFront : Prop :=
  (∀ (s : State) (c : Instr) (rest : List Instr), step { s with pending := c :: rest } = exec c { s with pending := rest }) ∧
  (∀ s : State, s.pending = [] → s.powered = false → step s = .next s) ∧
  (∀ s : State, s.pending = [] → s.powered = true → ∃ t, step s = .next t ∧ t.now = s.now + 1 ∧ t.clock = s.clock.tick (s.get F.CT_RATE_INC) ∧
    t.pending = [])

/-- R2, R392. Reset values that the specification does not give, and that a boot step takes one idle cycle, are the model's choice (log entries 9
to 12, 19 and 3). -/
def Obligations.ResetAndBoot : Prop :=
  (let z := State.reset
   z.Wf ∧ z.pending = [] ∧ z.sent = [] ∧ z.dock.cells = [] ∧ z.hostMem.cells = [] ∧ z.wh = [] ∧ z.now = 0 ∧ z.rings.cmds = [] ∧ z.mo.colls = [] ∧
   z.bh.shards = [] ∧ z.gate.log = [] ∧ z.gate.queue = [] ∧ z.basin.handed = [] ∧ z.basin.steered = [] ∧ z.lodge.vins = [] ∧ z.bw.slots = [] ∧
   ∀ r idx, z.rd r idx = regReset r idx ∧ z.crd r idx = regReset r idx) ∧
  (∀ s : State,
    let stage := s.get F.GH_STATUS_STAGE
    let goes : Prop := s.powered = true ∧ s.get F.GEN_STATUS_BOOT_DONE = 0 ∧ s.get F.GH_STATUS_BOOT_FAIL = 0
    let t := s.bootStep
    let image (kind slot : Nat) : Prop :=
      (s.goodCopy kind = none → t = (s.put F.GH_STATUS_BOOT_FAIL [] 1).put F.GH_STATUS_FAIL_KIND [] kind) ∧
      ∀ c, s.goodCopy kind = some c → t.get F.GH_STATUS_STAGE = stage + 1 ∧ (c = 1 → t.get F.GH_STATUS_COPY_B = 1) ∧
        spGet 0 t.gate.slots slot = Config.sha3 (leBytes (spGet 0 s.gate.slots slot).toNat 64 ++
          leBytes (BitVec.ofNat 512 (leNat (((s.flashCopy kind c).drop 32).take 64))).toNat 64) ∧
        t.gate.running = s.gate.running.set kind (natAt (s.flashCopy kind c) 8 2)
    (¬goes → t = s) ∧
    (goes → stage = 0 → t.get F.GH_STATUS_STAGE = 1 ∧
      (s.fuses.site.length ≤ 800 → s.fuses.vtab.length ≤ 6 → s.fuses.weights.length ≤ 32 →
        t.get F.GH_STATUS_DEBUG_SEALED = s.fuses.debugSeal.toNat ∧ (∀ i w, s.fuses.vtab[i]? = some w → t.rd .PM_VTAB [i] = w) ∧
          ∀ i w, s.fuses.weights[i]? = some w → t.get F.PM_WEIGHT_FJ [i] = bits w 0 32 ∧ t.get F.PM_WEIGHT_DOMAIN [i] = bits w 32 2) ∧
      t.rd .GEN_ID = (match s.fuses.grade with | .g800 => 0x4A580800B0320000#64 | .g704 => 0x4A580704B02C0000#64) ∧
      t.get F.PV_CAPS_PAV_COUNT = s.pavCount ∧ t.get F.PV_CAPS_PAV_PER_DIE = s.pavCount / 4 ∧
      spGet 0 t.gate.slots 1 = Config.sha3 (leBytes (spGet 0 s.gate.slots 1).toNat 64 ++
        leBytes (Config.sha3 (Config.fuseSummary s.fuses.serial s.fuses.svn s.fuses.revoked)).toNat 64)) ∧
    (goes → stage = 1 → image 0 0) ∧ (goes → stage = 2 → image 1 3) ∧ (goes → stage = 3 → image 2 2) ∧
    (goes → stage = 3 → s.goodCopy 2 ≠ none → t.get F.HM_STATUS_STATE = 1 ∧ t.hm = ⟨s.now, false⟩) ∧
    (goes → stage = 4 → t = (s.put F.DK_STATUS_POWER [] 0).put F.GH_STATUS_STAGE [] 5) ∧
    (goes → stage = 5 → t.get F.GH_STATUS_STAGE = 6 ∧ t.get F.GEN_STATUS_BOOT_DONE = 1 ∧ t.sup.whPerst = true)) ∧
  (∀ (s : State) (kind : Nat), (s.imageGood kind (s.flashCopy kind 0) = true → s.goodCopy kind = some 0) ∧
    (s.imageGood kind (s.flashCopy kind 0) = false → s.imageGood kind (s.flashCopy kind 1) = true → s.goodCopy kind = some 1) ∧
    (s.imageGood kind (s.flashCopy kind 0) = false → s.imageGood kind (s.flashCopy kind 1) = false → s.goodCopy kind = none))

/-- No command stops the block. R393, R400: the SVN rows are monotonic. -/
def Obligations.EveryCommandKeeps : Prop :=
  ∀ (i : Instr) (s : State), ∃ t, exec i s = .next t ∧ Keeps s t

/-- The invariant of every step. -/
def Obligations.StepKeepsWf : Prop :=
  ∀ s : State, ∃ t, step s = .next t ∧ t.pending = s.pending.tail ∧ (s.Wf → t.Wf) ∧ s.sent <+: t.sent ∧ t.fuses.grade = s.fuses.grade ∧
    t.fuses.serial = s.fuses.serial ∧ ∀ k, s.fusedSvn k ≤ t.fusedSvn k

/-- Where the engine's own rows run to their effect (R101 to R111). -/
def Obligations.EngineRowsComplete : Prop :=
  (∀ (s : State) (req : Requester) (v : Word64), s.Writes req .GEN_CTRL [] → (∀ c ∈ s.mo.colls, c.live = []) →
    ∃ t, exec (.strictOrder req v) s = .next t ∧ t.get F.GEN_CTRL_STRICT_ORDER = bits v 0 1 ∧ t.mo = s.mo) ∧
  (∀ (s : State) (r : Nat) (bs : List Byte), r < 256 → s.headReady r = true → (∀ x, x < 256 → x ≠ r → s.headReady x = false) →
    (s.memRead 2 (s.cget F.WK_RING_BASE_SPACE [r]) (s.headAddr r) 64).2 = .ok bs →
    let taken (t : State) : Prop := ∃ c ∈ t.rings.cmds, c.ring = r ∧ c.seq = s.get F.WK_RING_SEQ_SEQ [r] ∧
      c.slot = s.get F.WK_RING_HEAD_HEAD [r] ∧ c.desc = (List.range 8).map fun i => word64At bs (8 * i)
    (∃ t, exec .commandAcceptance s = .next t ∧ t.rings.last = r ∧ t.rings.cmds.length = s.rings.cmds.length + 1 ∧ taken t) ∧
    (s.get F.WK_POLL_INTERVAL ≠ 0 → ∃ t, exec .backstopPoll s = .next t ∧ taken t)) ∧
  (∀ (s : State) (r q : Nat) (c : Cmd), s.cmd? r q = some c → c.stage = .waiting → c.wait0 = .pending → c.wait1 = .met →
    (s.evFail (c.fld 1 0 16) = false → (c.word 2).toNat ≤ s.evVal (c.fld 1 0 16) →
      ∃ t, exec (.waitResolve r q) s = .next t ∧ t.cmd? r q = some { c with wait0 := .met }) ∧
    (s.evFail (c.fld 1 0 16) = true → c.type ≠ 5 → ∃ t d, exec (.waitResolve r q) s = .next t ∧ t.cmd? r q = some d ∧
      d.stage = .ended ∧ d.status = 0x03)) ∧
  (∀ (s : State) (r q : Nat) (c : Cmd), s.cmd? r q = some c → c.stage = .waiting → c.wait0 = .met → c.wait1 = .met →
    (c.serial = true → s.serialReady r q = true) →
    (c.type = 1 → c.word 4 = 0 → c.word 5 = 0 → c.word 6 = 0 → c.word 7 = 0 → ∃ t d, exec (.commandStart r q) s = .next t ∧
      exec (.nop r q) s = .next t ∧ t.cmd? r q = some d ∧ d.stage = .ended ∧ d.status = 0) ∧
    (c.type = 10 → c.fld 4 0 16 = 0 → c.fld 4 32 32 = 1 → c.word 6 = 0 → c.word 7 = 0 → ∃ t d, exec (.commandStart r q) s = .next t ∧
      exec (.eventSet r q) s = .next t ∧ t.evVal (c.fld 4 16 16) = (c.word 5).toNat ∧ t.evFail (c.fld 4 16 16) = false ∧
      t.cmd? r q = some d ∧ d.stage = .ended ∧ d.status = 0)) ∧
  (∀ (s : State) (r q : Nat) (c : Cmd), s.cmd? r q = some c → c.type = 11 → c.stage = .running → c.fld 0 48 16 ≠ 0 →
    c.startedAt + 50000 * c.fld 0 48 16 ≤ s.now → ∃ t d, exec (.timeout r q) s = .next t ∧ t.cmd? r q = some d ∧
      d.stage = .ended ∧ d.status = 0x0B) ∧
  (∀ (s : State) (r : Nat) (c : Cmd), s.rings.cmds.find? (fun c => c.ring = r) = some c → c.stage = .ended → s.cqAwake r = true →
    s.cqFull r = false → c.sigEn = false → c.irq = false → c.type ≠ 6 → r < 256 →
    let q := s.cget F.WK_RING_CFG_CQ [r]
    ∃ t, exec (.completionRecord r) s = .next t ∧ t.rings.cmds = s.rings.cmds.filter (fun x => !(x.ring = r && x.seq = c.seq)) ∧
      t.get F.WK_CQ_PROD_PROD [q] = (s.get F.WK_CQ_PROD_PROD [q] + 1) % 2 ^ 32) ∧
  (∀ (s : State) (line : Nat) (bytes : List Byte), (∀ r, r < 256 → s.cget F.WK_RING_BASE_SPACE [r] ≠ 4) →
    (∃ t, exec (.hostSnoop line false bytes) s = .next t ∧ ∀ i, i < 64 → i < bytes.length → cellAt t.hostMem.cells (64 * line + i) = bytes[i]?) ∧
    (∃ t, exec (.hostSnoop line true bytes) s = .next t ∧ line ∈ t.hostMem.bad))

/-- Where the rows of Pavilions and of the collective engine run to their effect. -/
def Obligations.ParcelRowsComplete : Prop :=
  (∀ (s : State) (n : Nat), n < 800 →
    (s.pvState n = 1 → s.get F.PM_STATE_STATE ≤ 1 → ∃ t, exec (.pavilionWake n) s = .next t ∧ t.pvState n = 2) ∧
    (s.pvState n = 2 → s.readyFor n = [] → s.get F.PM_STATE_STATE = 1 → ∃ t, exec (.pavilionGating n) s = .next t ∧ t.pvState n = 0) ∧
    (∀ k, (s.pav n).kern = some k → k.bound = false → k.kid ≠ 0 → s.wdog k = 0 → s.pvState n = 3 ∨ s.pvState n = 4 →
      s.get F.PV_FAULT_VALID [n] = 0 →
      ∃ t, exec (.watchdog n) s = .next t ∧ t.pvState n = 5 ∧ t.get F.PV_FAULT_VALID [n] = 1) ∧
    (∀ (req : Requester) (v : Word64), s.Writes req .PV_FAULT [n] → s.pvState n = 5 → v.getLsbD 0 = true →
      ∃ t, exec (.faultRelease req n v) s = .next t ∧ t.pvState n = 2 ∧ (t.pav n).kern = none) ∧
    (∀ array : Bool, let l := s.get (levelFld array.toNat) [n]
      let moved := spGet 0 (s.pav n).ramp array.toNat
      (l < 4 → s.presented n array.toNat = true → l = 0 ∨ moved + 8 ≤ s.pvc →
        ∃ t, exec (.arrayRampUp n array) s = .next t ∧ t.get (levelFld array.toNat) [n] = l + 1) ∧
      (0 < l → s.presented n array.toNat = false → spGet 0 (s.pav n).shown array.toNat + 8 ≤ s.pvc → moved + 8 ≤ s.pvc →
        ∃ t, exec (.arrayRampDown n array) s = .next t ∧ t.get (levelFld array.toNat) [n] = l - 1)) ∧
    (∀ ev th k, (s.pav n).wait = some (.event ev th) → (s.pav n).kern = some k → s.pvState n = 4 → th ≤ s.evVal ev →
      ∃ t, exec (.conditionMet n) s = .next t ∧ (t.pav n).wait = none ∧ t.pvState n = 3)) ∧
  (∀ (s : State) (m cls : Nat) (c : Coll), s.candidate = some (m, cls) → s.waitingParcel m = some c →
    ∃ t, exec .parcelAdmission s = .next t ∧ ∃ d ∈ t.mo.colls, d.ring = c.ring ∧ d.seq = c.seq ∧ d.moor = m ∧
      d.nextAdmit = c.nextAdmit + 1 ∧ ∃ x ∈ d.live, x.k = c.nextAdmit ∧ x.grantedAt = s.now) ∧
  (∀ (s : State) (m pseq e i : Nat) (c : Coll) (x : Parcel), s.findParcel m pseq = some (c, x) → e < (s.granLens c x.k).length →
    i ∈ s.contributors c → s.due c x e i = true → ∃ t, exec (.rereq m pseq e i) s = .next t ∧
      ∃ d y, t.findParcel m pseq = some (d, y) ∧ spGet 0 y.asked (4096 * e + i) = s.now) ∧
  (∀ (s : State) (req : Requester) (v : Word64), s.Writes req .MO_REREQ [] → s.mo.colls = [] →
    ∃ t, exec (.rereqInterval req v) s = .next t ∧ t.get F.MO_REREQ_INTERVAL = bits v 0 16) ∧
  (∀ (s : State) (req : Requester) (v : Word64), s.Writes req .MO_SLIP_CFG [] → bits v 0 16 ≤ 32768 → s.ctxsIn Cs.active = [] →
    s.engineBusy = false → ∃ t, exec (.floorBerths req v) s = .next t ∧ t.get F.MO_SLIP_CFG_FLOOR_BERTHS = bits v 0 16) ∧
  (∀ (s : State) (m : Nat) (c : Coll) (x : Parcel), s.findParcel m (s.gateNext m) = some (c, x) → s.passable c x = true →
    c.applied + 1 ≠ c.parcels → c.kid ≠ none ∨ c.op ≠ 8 → ∃ t, exec (.gatePassage m none) s = .next t ∧
      ∀ d ∈ t.mo.colls, d.ring = c.ring → d.seq = c.seq → ∀ y ∈ d.live, y.k ≠ x.k) ∧
  (∀ (s : State) (m i : Nat), s.ctxState m = Cs.active → (s.ctx m).bitmap.testBit i = true →
    s.beaconAt ((s.ctx m).portOf i) + 500000 * (s.ctx m).leaseMs ≤ s.now → (s.ctx m).since + 500000 * (s.ctx m).leaseMs ≤ s.now →
    (∀ c ∈ s.mo.colls, c.moor ≠ m) → (∀ r ∈ s.bh.restores, r.moor ≠ m) →
    ∃ t, exec (.memberDead m i) s = .next t ∧ (t.ctx m).fenced i = true) ∧
  (∀ (s : State) (req : Requester) (v : Word64), s.Writes req .BH_CTRL [] → s.bh.shards = [] →
    ∃ t, exec (.bgHold req v) s = .next t ∧ t.get F.BH_CTRL_BG_HOLD = bits v 28 1)

/-- Where the timed rows of ports, circuits and slots run to their effect. -/
def Obligations.LinkRowsComplete : Prop :=
  (∀ (s : State) (p : Nat) (x : Nat × BPkt), s.basin.reasm.find? (fun x => x.1 = p) = some x →
    ∃ t, exec (.egressReassembly p false) s = .next t ∧
      (t.classQ p x.2.pkt.hdr.tc).pkts = (s.classQ p x.2.pkt.hdr.tc).pkts ++ [x.2]) ∧
  (∀ (s : State) (p : Nat), s.linkUp p = true → ∃ t, exec (.downHoldExpiry p) s = .next t ∧ spGet none t.basin.downAt p = none) ∧
  (∀ (s : State) (p : Nat), s.stage p = 6 → (s.port p).beaconAt = none →
    (s.isEth p = false → s.lhPort p = false → ∃ t, exec (.beaconSend p) s = .next t ∧ (t.port p).beaconAt = some (s.port p).inService ∧
      (t.port p).beaconCount = ((s.port p).beaconCount + 1) % 2 ^ 16) ∧
    (s.isEth p = true → s.slotOf p = none → s.cget F.QY_PORT_CTRL_BEACON_CHK (pidx p) ≠ 0 →
      ∃ t, exec (.ethernetBeacon p) s = .next t ∧ (t.port p).beaconAt = some (s.port p).inService ∧
        (t.port p).beaconCount = ((s.port p).beaconCount + 1) % 2 ^ 16)) ∧
  (∀ (s : State) (p : Nat), p < 512 →
    (s.isPort p = true → s.portEnabled p = true → s.stage p = 1 → (∀ i, i < s.portWidth p → s.get F.QY_PRBS_CTRL_EN (pidx (p + i)) ≠ 1) →
      ∃ t, exec (.signalDetect p) s = .next t ∧ t.stage p = 2 ∧ (t.port p).attemptAt = s.now) ∧
    (∀ l, stageLimit (s.stage p) = some l → (s.port p).since + 500 * l < s.now → ∃ t, exec (.stageLimit p) s = .next t ∧ t.stage p = 1) ∧
    (s.stage p ≠ 1 → s.stage p ≠ 6 → ∃ t, exec (.lossOfSignal p) s = .next t ∧ t.stage p = 1)) ∧
  (∀ (s : State) (p n : Nat), s.stage p = 6 → s.lhPort p = false → s.cget F.QY_PORT_CTRL_REPLAY_MAX (pidx p) = 0 →
    (∀ x rest, (s.link p).replay = x :: rest → seqBehind x.1 n ≤ seqBehind x.1 (s.link p).txNext →
      ∃ t, exec (.nak p n) s = .next t ∧ (t.link p).replays = (s.link p).replays + 1) ∧
    ((s.link p).replay ≠ [] → (s.link p).ackAt + 500 * max 1 (s.cget F.QY_PORT_CTRL_REPLAY_US (pidx p)) ≤ s.now →
      ∃ t, exec (.replayTimeout p) s = .next t ∧ (t.link p).replays = (s.link p).replays + 1) ∧
    (∀ at_, (s.link p).nakAt = some at_ → at_ + 500 * max 1 (s.cget F.QY_PORT_CTRL_REPLAY_US (pidx p)) ≤ s.now →
      ∃ t, exec (.nakRepeat p) s = .next t ∧ (t.link p).nakAt = some s.now)) ∧
  (∀ (s : State) (q k at_ : Nat), (s.channel q).tuning = some (k, at_) → at_ ≤ s.now →
    ∃ t, exec (.lock q) s = .next t ∧ (t.channel q).lit = some k ∧ (t.channel q).tuning = none) ∧
  (∀ (s : State) (i : Nat), s.slotOpen i = true →
    (s.get F.BW_CTRL_ACK_US ≠ 0 → (s.slot i).ackSent + 500 * s.get F.BW_CTRL_ACK_US ≤ s.now →
      ∃ t, exec (.ackTimer i) s = .next t ∧ (t.slot i).ackSent = s.now ∧ (t.slot i).sinceAck = 0) ∧
    (∀ g at_, (g, some at_) ∈ (s.slot i).gaps → at_ + 500 * s.get F.BW_CTRL_REORDER_US ≤ s.now → spGet none (s.slot i).naks g = none →
      ∃ t, exec (.reorderExpiry i) s = .next t ∧ spGet none (t.slot i).naks g = some (some s.now)) ∧
    (∀ pk rest, (s.slot i).window = pk :: rest →
      max (s.slot i).ackMoved (s.slot i).resentAt + 500000 * s.cget F.BW_LH_WIN_RTO_MS [i] ≤ s.now →
      ∃ t, exec (.rtoExpiry i) s = .next t ∧ (t.slot i).resentAt = s.now) ∧
    (s.cget F.BW_LH_CFG_BLOCK_US [i] ≠ 0 → (s.slot i).units ≠ [] →
      (s.slot i).openAt + 500 * s.cget F.BW_LH_CFG_BLOCK_US [i] ≤ s.now →
      ∃ t, exec (.blockClose i) s = .next t ∧ (t.slot i).units = [] ∧ (t.slot i).block = ((s.slot i).block + 1) % 2 ^ 32)) ∧
  (∀ (s : State) (i : Nat), i < 32 →
    (s.slotValid i = true → s.slotState i ≠ 0 → s.linkUp (s.slotPort i) = true → (s.slot i).beatAt + 500000 ≤ s.now →
      ∃ t, exec (.keepaliveSend i) s = .next t ∧ (t.slot i).beatAt = s.now) ∧
    (s.slotState i = 2 → s.get F.BW_TIMERS_STALL_MS ≠ 0 → (s.slot i).window ≠ [] →
      (s.slot i).ackMoved + 500000 * s.get F.BW_TIMERS_STALL_MS ≤ s.now →
      ∃ t, exec (.stallExpiry i) s = .next t ∧ t.slotState i = 3 ∧ (t.slot i).stateAt = s.now) ∧
    (s.slotState i = 2 ∨ s.slotState i = 3 → s.linkUp (s.slotPort i) = false → s.get F.BW_TIMERS_HOLD_S ≠ 0 →
      ∃ t, exec (.outageExpiry i) s = .next t ∧ t.slotState i = 4 ∧ (t.slot i).stateAt = s.now) ∧
    (s.slotState i = 4 → s.wintering = false → (s.slot i).stateAt + 500000000 * s.get F.BW_TIMERS_HOLD_S ≤ s.now →
      ∃ t, exec (.holdExpiry i) s = .next t ∧ (t.slot i).window = [] ∧ (t.slot i).rx = []))

/-- Where the rows of the power manager, the Gatehouse's neighbours and the Tally run to their effect. -/
def Obligations.SupervisionRowsComplete : Prop :=
  (∀ s : State, s.releasable = true → ∃ t, exec .dropRelease s = .next t ∧ t.get F.PM_STATE_LOCAL_DROP = 0) ∧
  (∀ (s : State) (r : Nat), r < 8 → s.get F.PM_STATE_RAMPING ≠ 0 → s.pwr.ramp = some (r, false) → s.ceiling ≤ r →
    ∃ t, exec .voltageReached s = .next t ∧ t.get F.PM_STATE_ROW = r ∧ t.get F.PM_STATE_RAMPING = 0 ∧ t.pwr.ramp = none) ∧
  (∀ s : State, s.powered = true →
    (s.sup.refclk = true → ∃ t, exec .referenceLoss s = .next t ∧ t.sup.refclk = false ∧ t.get F.PM_STATE_REF_LOST = 1) ∧
    (s.sup.refclk = false → ∃ t, exec .referenceReturn s = .next t ∧ t.sup.refclk = true ∧ t.get F.PM_STATE_REF_LOST = 0) ∧
    (s.get F.HM_STATUS_STATE = 1 → s.hm.stopped = false → s.get F.HM_CTRL_HOLD = 0 →
      (s.hm.beatAt + 500000000 ≤ s.now → ∃ t, exec .heartbeatExpiry s = .next t ∧ t.get F.HM_STATUS_STATE = 2 ∧ t.hm.stopped = true) ∧
      (∀ req, s.Writes req .HM_CTRL [] → ∃ t, exec (.restart req) s = .next t ∧ t.get F.HM_STATUS_STATE = 2 ∧ t.hm.stopped = true) ∧
      (∃ t, exec .hmMemoryFault s = .next t ∧ t.get F.HM_STATUS_STATE = 2 ∧ t.get F.HM_STATUS_MEM_FAULT = 1)) ∧
    (s.get F.HM_STATUS_STATE = 2 → s.goodCopy 2 ≠ none → ∃ t, exec .hmRestartComplete s = .next t ∧ t.get F.HM_STATUS_STATE = 1 ∧
      t.hm = ⟨s.now, false⟩) ∧
    (∀ req, s.Writes req .HM_CTRL [] → ∃ t, exec (.hold req true) s = .next t ∧ t.get F.HM_CTRL_HOLD = 1) ∧
    (s.gate.queue = [] → s.gate.serving = none → ∃ t, exec .gatehouseFault s = .next t ∧ t.get F.GH_STATUS_FAULT = 1)) ∧
  (∀ s : State, s.get F.TL_DUMP_RING_EN ≠ 0 → s.get F.PM_STATE_STATE < 2 → s.tal.snap = none →
    let shot (t : State) : Prop := ∃ x, t.tal.snap = some x ∧ x.seq = s.get F.TL_DUMP_SEQ_SEQ + 1 ∧ x.takenAt = s.now ∧
      t.get F.TL_DUMP_STAT_BUSY = 1
    (∀ req, s.Writes req .TL_CTRL [] → ∃ t, exec (.dumpNow req) s = .next t ∧ shot t) ∧
    (s.get F.TL_DUMP_CFG_PERIOD_MS ≠ 0 → s.periodNo (s.get F.TL_DUMP_CFG_PERIOD_MS) 1000000 ≠ s.tal.lastDump →
      ∃ t, exec .dumpSnapshot s = .next t ∧ shot t)) ∧
  (∀ (s : State) (j site : Nat), j < 32 → s.mo.colls = [] → s.spanValid j = true → s.get F.BW_TIMERS_SPAN_TIMEOUT_MS ≠ 0 → site ≠ s.site →
    site < 16 → site ∈ s.spanSites j → (s.get F.BW_SPAN_STATUS_DEAD [j]).testBit site = false → s.slotState (s.spanSlot j site) = 4 →
    (s.slot (s.spanSlot j site)).stateAt + 500000 * s.get F.BW_TIMERS_SPAN_TIMEOUT_MS ≤ s.now →
    ∃ t, exec (.spanPeerDead j site) s = .next t ∧ (t.get F.BW_SPAN_STATUS_DEAD [j]).testBit site = true)

/-- R290 to R294: decode of encode. The order of bits within a symbol and a byte is the model's (log entry on bit order). -/
def Obligations.CodewordRoundTrip : Prop :=
  ∀ (st lane n : Nat) (bs : List Block) (marks : List Nat) (inner inverted : Bool), st < 2 ^ 58 → bs.length = 20 →
    (∀ b ∈ bs, b.body.length = 32 ∧ (b.isData = true ∨ b.isControl = true)) →
    decodeWord ⟨lane, n, st, levelsOf inner inverted (rsEncode (messageOf st bs).1), marks⟩ inner inverted = some (bs, 0) ∧
    (blocksOf st (messageOf st bs).1).2 = (messageOf st bs).2
end

