-- ==== Sys2Proof/Laws/Beloc.lean ====
section
/-! SUPPORT. What the wrapper of every Beloc instruction answers, by what the instruction itself does. -/

set_option Elab.async false

namespace Sys2Proof.Machine

variable {s : State} {n : Nat} {g : Guard} {k : Kern} {op len : Nat} {f : Pav → Kern → Res}

/-- An instruction that executes does what its own function says. -/
theorem State.beloc_issues (h : s.Issues n g k) (h8 : len = 8 → (s.pav n).pc % 8 = 0) :
    s.beloc n g op len f =
      match f (s.pav n) k with
      | .done t tag addr => t.retire n op len tag addr k (s.pav n).pc none
      | .jump t pc => t.retire n op len 0 0 k (s.pav n).pc (some pc)
      | .stall => s
      | .fault t cls addr => (t.sampleOne n (s.pav n).pc op 0 k true addr).raiseFault n cls 0 (s.pav n).pc addr
      | .tagged t tag cls addr =>
        ((t.mapPav n fun p => { p with pc := (p.pc + len) % 2 ^ 48 }).sampleOne n (s.pav n).pc op tag k true addr).raiseFault
          n cls tag (s.pav n).pc addr
      | .wait w => (s.mapPav n fun p => { p with wait := some w, issueAt := s.pvc }).setPvState n Ps.waiting := by
  have hl : (g.pred = 0 && g.inv) = false := by
    have := h.legal
    cases hb : g.inv <;> simp_all
  have h8' : (decide (len = 8) && decide ((s.pav n).pc % 8 ≠ 0)) = false := by
    by_cases e : len = 8
    · simp [h8 e]
    · simp [e]
  simp only [State.beloc, h.kern, h.running, h.fetched, h.guard, ne_eq, not_true_eq_false, if_false, hl, Bool.not_true,
    Bool.false_eq_true]
  simp only [ne_eq] at h8'
  simp only [h8', Bool.false_eq_true, if_false]
  all_goals (cases f (s.pav n) k <;> rfl)

/-- An instruction of 32 bits that executes. -/
theorem State.beloc_issues4 (h : s.Issues n g k) :
    s.beloc n g op 4 f =
      match f (s.pav n) k with
      | .done t tag addr => t.retire n op 4 tag addr k (s.pav n).pc none
      | .jump t pc => t.retire n op 4 0 0 k (s.pav n).pc (some pc)
      | .stall => s
      | .fault t cls addr => (t.sampleOne n (s.pav n).pc op 0 k true addr).raiseFault n cls 0 (s.pav n).pc addr
      | .tagged t tag cls addr =>
        ((t.mapPav n fun p => { p with pc := (p.pc + 4) % 2 ^ 48 }).sampleOne n (s.pav n).pc op tag k true addr).raiseFault
          n cls tag (s.pav n).pc addr
      | .wait w => (s.mapPav n fun p => { p with wait := some w, issueAt := s.pvc }).setPvState n Ps.waiting :=
  State.beloc_issues h (fun h => absurd h (by decide))

set_option maxRecDepth 4000 in
/-- Every Beloc instruction goes through the wrapper. -/
theorem exec_beloc {i : Instr} (h : belocOf i = some (n, g, op, len)) :
    ∃ f : State → Pav → Kern → Res, ∀ s, exec i s = .next (s.beloc n g op len (f s)) := by
  cases i <;> simp only [belocOf, Option.some.injEq, Prod.mk.injEq, reduceCtorEq] at h
  all_goals
    obtain ⟨rfl, rfl, rfl, rfl⟩ := h
    apply Exists.intro
    intro s
    simp only [
      exec, execAdd, execSub, execAnd, execOr, execXor, execSll, execSrl, execSra, execMul, execMulhu, execMin,
      execMax, execMinu, execMaxu, execMix, execAddi, execAndi, execOri, execXori, execShi, execShin, execCmpCc,
      execPand, execPor, execPxor, execPnot, execCmpiCc, execLdb, execLdh, execLdw, execLdd, execStb, execSth,
      execStw, execStd, execBr, execJal, execJr, execCrr, execCrw, execVadd, execVsub, execVmul, execVmax, execVmin,
      execVand, execVor, execVxor, execVsll, execVsrl, execVsra, execVsqrt, execVdiv, execVfma, execVfnma, execVfms,
      execVaddS, execVsubS, execVmulS, execVmaxS, execVminS, execVandS, execVorS, execVxorS, execVsllS, execVsrlS,
      execVsraS, execVcvt, execVld, execVst, execVbc, execVred, execVget, execVset, execVdg, execTrd, execTwr,
      execTclr, execXacc, execXrnd, execXclr, execXacct, execXrndt, execXlda, execXsta, execXclrt, execMma, execTpf,
      execTst, execTld, execXld, execXst, execPmc, execWaite, execSige, execFence, execWaitx, execWaitm, execArrv,
      execEndK, State.aluOp, State.scalarOp, State.immOp, State.predOp, State.loadOp, State.storeOp, State.vv,
      State.vs, State.vecOp, State.vfmaOp]
    rfl

/-- A checked access that passes its checks. -/
theorem State.tileAccess_ok {p : Pav} {a w al : Nat} {r : Unit → Res} (h : a % al = 0) (hs : p.serves a w) :
    s.tileAccess p a w al r = r () := by
  unfold State.tileAccess
  have h1 : ¬ (a + w > tileSize) := Nat.not_lt.mpr hs.1
  simp [h, h1, hs.2]

/-- A checked read that passes its checks and meets no uncorrectable word. -/
theorem State.tileRead_ok {p : Pav} {a w al : Nat} {r : State → List Byte → Res} (h : a % al = 0) (hs : p.serves a w)
    (hb : p.badWord a w = none) : s.tileRead n p a w al r = r (s.countTile n a w) (p.bytes a w) := by
  unfold State.tileRead
  rw [State.tileAccess_ok h hs]
  simp [hb]

/-- A checked write that passes its checks. -/
theorem State.tileWrite_ok {p : Pav} {a al : Nat} {bs : List Byte} (h : a % al = 0) (hs : p.serves a bs.length) :
    s.tileWrite n p a al bs = .done (s.tileStore n a bs) 0 a := by
  unfold State.tileWrite
  rw [State.tileAccess_ok h hs]

@[simp] theorem leBytes_length (v n : Nat) : (leBytes v n).length = n := by
  induction n generalizing v with
  | zero => rfl
  | succ n ih => simp [leBytes, ih]

end Sys2Proof.Machine
end

