-- ==== Sys2Proof/Laws/Sparse.lean ====
section
/-! SUPPORT. The laws of sparse data: a read after a write, and the canonical form, which every operation keeps. -/

set_option Elab.async false

namespace Sys2Proof.Machine

variable {α : Type}

theorem spSortedAbove_weaken {b c : Nat} {m : Sp α} (hbc : b ≤ c) (h : spSortedAbove c m) : spSortedAbove b m := by
  cases m with
  | nil => trivial
  | cons p rest => exact ⟨Nat.lt_of_le_of_lt hbc h.1, h.2⟩

theorem spSorted_of_above {b : Nat} {m : Sp α} (h : spSortedAbove b m) : spSorted m := by
  cases m with
  | nil => trivial
  | cons p rest => exact h.2

theorem spSorted_nil : spSorted ([] : Sp α) := trivial

/-! ### Canonical form -/

theorem spDel_above {b : Nat} {m : Sp α} (k : Nat) (h : spSortedAbove b m) : spSortedAbove b (spDel m k) := by
  induction m generalizing b with
  | nil => exact h
  | cons p rest ih =>
    obtain ⟨j, w⟩ := p
    simp only [spDel]
    split
    · exact spSortedAbove_weaken (Nat.le_of_lt h.1) (ih h.2)
    · exact ⟨h.1, ih h.2⟩

theorem spIns_above {b : Nat} {m : Sp α} (k : Nat) (v : α) (hk : b < k) (h : spSortedAbove b m) :
    spSortedAbove b (spIns m k v) := by
  induction m generalizing b with
  | nil => exact ⟨hk, trivial⟩
  | cons p rest ih =>
    obtain ⟨j, w⟩ := p
    simp only [spIns]
    split
    · subst_vars; exact ⟨hk, h.2⟩
    · split
      · exact ⟨hk, ‹k < j›, h.2⟩
      · exact ⟨h.1, ih (by omega) h.2⟩

theorem spDel_sorted {m : Sp α} (k : Nat) (h : spSorted m) : spSorted (spDel m k) := by
  cases m with
  | nil => trivial
  | cons p rest =>
    obtain ⟨j, w⟩ := p
    simp only [spDel]
    split
    · exact spSorted_of_above (spDel_above k h)
    · exact spDel_above k h

theorem spIns_sorted {m : Sp α} (k : Nat) (v : α) (h : spSorted m) : spSorted (spIns m k v) := by
  cases m with
  | nil => trivial
  | cons p rest =>
    obtain ⟨j, w⟩ := p
    simp only [spIns]
    split
    · subst_vars; exact h
    · split
      · exact ⟨‹k < j›, h⟩
      · exact spIns_above k v (by omega) h

/-- A write keeps keys strictly rising. -/
theorem spPut_sorted [DecidableEq α] (d : α) {m : Sp α} (k : Nat) (v : α) (h : spSorted m) : spSorted (spPut d m k v) := by
  unfold spPut
  split
  · exact spDel_sorted k h
  · exact spIns_sorted k v h

theorem spDel_mem {m : Sp α} {k : Nat} {p : Nat × α} (h : p ∈ spDel m k) : p ∈ m := by
  induction m with
  | nil => exact h
  | cons q rest ih =>
    obtain ⟨j, w⟩ := q
    simp only [spDel] at h
    split at h
    · exact List.mem_cons_of_mem _ (ih h)
    · rcases List.mem_cons.1 h with h | h
      · exact h ▸ List.mem_cons_self
      · exact List.mem_cons_of_mem _ (ih h)

theorem spIns_mem {m : Sp α} {k : Nat} {v : α} {p : Nat × α} (h : p ∈ spIns m k v) : p = (k, v) ∨ p ∈ m := by
  induction m with
  | nil => exact .inl (List.mem_singleton.1 h)
  | cons q rest ih =>
    obtain ⟨j, w⟩ := q
    simp only [spIns] at h
    split at h
    · exact (List.mem_cons.1 h).imp id (List.mem_cons_of_mem _)
    · split at h
      · exact List.mem_cons.1 h
      · rcases List.mem_cons.1 h with h | h
        · exact .inr (h ▸ List.mem_cons_self)
        · exact (ih h).imp id (List.mem_cons_of_mem _)

/-- A write keeps the canonical form: keys rise, and no entry equals the default. -/
theorem spPut_wf [DecidableEq α] (d : α) {m : Sp α} (k : Nat) (v : α) (h : spWf d m) : spWf d (spPut d m k v) := by
  refine ⟨spPut_sorted d k v h.1, fun p hp => ?_⟩
  unfold spPut at hp
  split at hp
  · exact h.2 p (spDel_mem hp)
  · rcases spIns_mem hp with rfl | hp
    · assumption
    · exact h.2 p hp

theorem spFilter_above {b : Nat} {m : Sp α} (f : Nat × α → Bool) (h : spSortedAbove b m) : spSortedAbove b (m.filter f) := by
  induction m generalizing b with
  | nil => exact h
  | cons p rest ih =>
    obtain ⟨j, w⟩ := p
    simp only [List.filter]
    split
    · exact ⟨h.1, ih h.2⟩
    · exact ih (spSortedAbove_weaken (Nat.le_of_lt h.1) h.2)

/-- Entries left out keep keys rising. -/
theorem spFilter_sorted {m : Sp α} (f : Nat × α → Bool) (h : spSorted m) : spSorted (m.filter f) := by
  cases m with
  | nil => trivial
  | cons p rest =>
    obtain ⟨j, w⟩ := p
    simp only [List.filter]
    split
    · exact spFilter_above f h
    · exact spSorted_of_above (spFilter_above f h)

/-- Entries put in one after the other keep keys rising. -/
theorem spInsAll_sorted {β : Type} {m : Sp α} (l : List β) (k : β → Nat) (v : β → α) (h : spSorted m) :
    spSorted (l.foldl (fun m p => spIns m (k p) (v p)) m) := by
  induction l generalizing m with
  | nil => exact h
  | cons p rest ih => exact ih (spIns_sorted _ _ h)

/-! ### Reads after writes -/

@[simp] theorem spGet_spIns_self (d : α) (m : Sp α) (k : Nat) (v : α) : spGet d (spIns m k v) k = v := by
  induction m with
  | nil => simp [spIns, spGet]
  | cons p rest ih =>
    obtain ⟨j, w⟩ := p
    simp only [spIns]
    split
    · simp [spGet]
    · split <;> simp [spGet, *]

theorem spGet_spIns_ne (d : α) (m : Sp α) {k i : Nat} (v : α) (h : k ≠ i) : spGet d (spIns m k v) i = spGet d m i := by
  induction m with
  | nil => simp [spIns, spGet, h]
  | cons p rest ih =>
    obtain ⟨j, w⟩ := p
    simp only [spIns]
    split
    · subst_vars; simp [spGet, h]
    · split <;> simp [spGet, h, ih]

theorem spGet_spDel_self (d : α) (m : Sp α) (k : Nat) : spGet d (spDel m k) k = d := by
  induction m with
  | nil => rfl
  | cons p rest ih =>
    obtain ⟨j, w⟩ := p
    simp only [spDel]
    split
    · exact ih
    · simp [spGet, *]

theorem spGet_spDel_ne (d : α) (m : Sp α) {k i : Nat} (hne : k ≠ i) : spGet d (spDel m k) i = spGet d m i := by
  induction m with
  | nil => rfl
  | cons p rest ih =>
    obtain ⟨j, w⟩ := p
    simp only [spDel]
    split
    · subst_vars; simp [spGet, hne, ih]
    · simp [spGet, ih]

/-- A read after a write to the same key gives the value written, whatever the table's form. -/
@[simp] theorem spGet_spPut_self [DecidableEq α] (d : α) (m : Sp α) (k : Nat) (v : α) : spGet d (spPut d m k v) k = v := by
  unfold spPut
  split
  · subst_vars; exact spGet_spDel_self _ m k
  · exact spGet_spIns_self d m k v

/-- A write leaves every other key alone. -/
theorem spGet_spPut_ne [DecidableEq α] (d e : α) (m : Sp α) {k i : Nat} (v : α) (hne : k ≠ i) :
    spGet e (spPut d m k v) i = spGet e m i := by
  unfold spPut
  split
  · exact spGet_spDel_ne e m hne
  · exact spGet_spIns_ne e m v hne

end Sys2Proof.Machine
end

