-- ==== Sys2Proof/Laws/Keeps.lean ====
section
/-! SUPPORT. What no operation of a command undoes: the relation `Keeps` between the state before and after, its rules, and
the lemmas of the operations of Machine/Ops.lean. -/

set_option Elab.async false

namespace Sys2Proof.Machine

theorem Keeps.refl (s : State) : Keeps s s :=
  ⟨rfl, List.prefix_refl _, Nat.le_refl _, Nat.le_refl _, rfl, rfl, fun _ => Nat.le_refl _, id⟩

theorem Keeps.trans {s t u : State} (h : Keeps s t) (k : Keeps t u) : Keeps s u :=
  ⟨k.pending.trans h.pending, h.sent.trans k.sent, Nat.le_trans h.freeCtr k.freeCtr, Nat.le_trans h.resets k.resets,
   k.grade.trans h.grade, k.serial.trans h.serial, fun i => Nat.le_trans (h.svn i) (k.svn i), fun w => k.wf (h.wf w)⟩

/-- A state that agrees with one that is kept in everything `Keeps` speaks of is kept. -/
theorem Keeps.same {s0 s t : State} (h : Keeps s0 s)
    (hp : t.pending = s.pending := by rfl) (hs : t.sent = s.sent := by rfl) (hc : t.freeCtr = s.freeCtr := by rfl)
    (hr : t.resets = s.resets := by rfl) (hf : t.fuses = s.fuses := by rfl) (hregs : t.regs = s.regs := by rfl)
    (hcregs : t.cregs = s.cregs := by rfl) (hd : t.dock.cells = s.dock.cells := by rfl)
    (hh : t.hostMem.cells = s.hostMem.cells := by rfl) (hw : t.wh = s.wh := by rfl) : Keeps s0 t := by
  refine h.trans ⟨hp, hs ▸ List.prefix_refl _, Nat.le_of_eq hc.symm, Nat.le_of_eq hr.symm, by rw [hf], by rw [hf],
    fun _ => by unfold State.fusedSvn; rw [hf], fun w => ⟨?_, ?_, ?_, ?_, ?_⟩⟩
  · rw [hregs]; exact w.regs
  · rw [hcregs]; exact w.cregs
  · rw [hd]; exact w.dock
  · rw [hh]; exact w.host
  · rw [hw]; exact w.wh

/-- Changes of the fields `Keeps` does not speak of. -/
theorem Keeps.update {s0 s : State} (h : Keeps s0 s)
    (now' : Nat) (commits' : List Commit) (dock' : DockMem) (dockAt' : Nat) (hostMem' : HostMem) (whEra' : Nat)
    (rings' : Rings) (clock' : Clock) (gate' : Gatehouse) (up' : Upstream) (hm' : Harbourmaster) (tal' :
    Tally) (mo' : Moorings) (bh' : Boathouse) (basin' : Basin) (harbour' : Harbour) (sched' : Sched) (quays' :
    Quays) (pv' : Pavilions) (bw' : Breakwater) (pwr' : Power) (lodge' : Lodge) (sup' : Supply)
    (hd : dock'.cells = s.dock.cells) (hh : hostMem'.cells = s.hostMem.cells) :
    Keeps s0 { s with
      now := now', commits := commits', dock := dock', dockAt := dockAt', hostMem := hostMem', whEra :=
      whEra', rings := rings', clock := clock', gate := gate', up := up', hm := hm', tal := tal', mo := mo',
      bh := bh', basin := basin', harbour := harbour', sched := sched', quays := quays', pv := pv', bw := bw',
      pwr := pwr', lodge := lodge', sup := sup' } :=
  h.same (hd := hd) (hh := hh)

theorem Keeps.ite {s0 a b : State} {c : Prop} [Decidable c] (ha : Keeps s0 a) (hb : Keeps s0 b) :
    Keeps s0 (if c then a else b) := by
  split <;> assumption

theorem Keeps.foldl {β : Type} {s0 s : State} (l : List β) (f : State → β → State) (h : Keeps s0 s)
    (hf : ∀ s x, Keeps s0 s → Keeps s0 (f s x)) : Keeps s0 (l.foldl f s) := by
  induction l generalizing s with
  | nil => exact h
  | cons x rest ih => exact ih (hf s x h)

/-- A fold that carries the state with other data. -/
theorem Keeps.foldlFst {β γ : Type} {s0 : State} (l : List β) (f : State × γ → β → State × γ) (a : State × γ)
    (h : Keeps s0 a.1) (hf : ∀ a x, Keeps s0 a.1 → Keeps s0 (f a x).1) : Keeps s0 (l.foldl f a).1 := by
  induction l generalizing a with
  | nil => exact h
  | cons x rest ih => exact ih (f a x) (hf a x h)

/-- A write of bytes keeps a memory's canonical form. -/
theorem putCells_sorted {m : List Host.Cell} (a : Nat) (bs : List Byte) (h : Memory.wf m) : Memory.wf (putCells m a bs) := by
  induction bs generalizing m a with
  | nil => exact h
  | cons b rest ih => exact ih (a + 1) (spIns_sorted a b h)

/-- What an instruction's result keeps. -/
def ResKeeps (s0 : State) (r : Res) : Prop :=
  match r with
  | .done s _ _ => Keeps s0 s
  | .jump s _ => Keeps s0 s
  | .stall => True
  | .fault s _ _ => Keeps s0 s
  | .tagged s _ _ _ => Keeps s0 s
  | .wait _ => True

theorem ResKeeps.ofDone {s0 s : State} (h : Keeps s0 s) (t a : Nat) : ResKeeps s0 (.done s t a) := h
theorem ResKeeps.ofJump {s0 s : State} (h : Keeps s0 s) (p : Nat) : ResKeeps s0 (.jump s p) := h
theorem ResKeeps.ofStall {s0 : State} : ResKeeps s0 .stall := trivial
theorem ResKeeps.ofWait {s0 : State} (w : PvWait) : ResKeeps s0 (.wait w) := trivial
theorem ResKeeps.ofFault {s0 s : State} (h : Keeps s0 s) (c a : Nat) : ResKeeps s0 (.fault s c a) := h
theorem ResKeeps.ofTagged {s0 s : State} (h : Keeps s0 s) (t c a : Nat) : ResKeeps s0 (.tagged s t c a) := h

end Sys2Proof.Machine
end

