-- ==== Sys2Proof/Laws/KeepsOps.lean ====
section
/-! SUPPORT. What the operations of Machine/Ops.lean keep (Laws/Keeps.lean). -/

set_option Elab.async false

namespace Sys2Proof.Machine

variable {s0 s : State}

theorem keeps_wr (h : Keeps s0 s) (r : Reg) (idx : List Nat) (v : Word64) : Keeps s0 (State.wr s r idx v) :=
  h.trans ⟨rfl, List.prefix_refl _, Nat.le_refl _, Nat.le_refl _, rfl, rfl, fun _ => Nat.le_refl _,
    fun w => ⟨spPut_sorted _ _ _ w.regs, w.cregs, w.dock, w.host, w.wh⟩⟩

theorem keeps_cwr (h : Keeps s0 s) (r : Reg) (idx : List Nat) (v : Word64) : Keeps s0 (State.cwr s r idx v) :=
  h.trans ⟨rfl, List.prefix_refl _, Nat.le_refl _, Nat.le_refl _, rfl, rfl, fun _ => Nat.le_refl _,
    fun w => ⟨w.regs, spPut_sorted _ _ _ w.cregs, w.dock, w.host, w.wh⟩⟩

theorem keeps_put (hk : Keeps s0 s) (f : Fld) (idx : List Nat) (v : Nat) : Keeps s0 (State.put s f idx v) := by
  unfold State.put
  grind (gen := 40) (ematch := 40) (splits := 40) -lia -ring -linarith [keeps_wr, Keeps.update]

theorem keeps_cput (hk : Keeps s0 s) (f : Fld) (idx : List Nat) (v : Nat) : Keeps s0 (State.cput s f idx v) := by
  unfold State.cput
  grind (gen := 40) (ematch := 40) (splits := 40) -lia -ring -linarith [keeps_cwr, Keeps.update]

theorem keeps_bump (hk : Keeps s0 s) (f : Fld) (idx : List Nat) (n : Nat) : Keeps s0 (State.bump s f idx n) := by
  unfold State.bump
  grind (gen := 40) (ematch := 40) (splits := 40) -lia -ring -linarith [keeps_put, Keeps.update]

theorem keeps_advance (hk : Keeps s0 s) (f : Fld) (idx : List Nat) (n : Nat) : Keeps s0 (State.advance s f idx n) := by
  unfold State.advance
  grind (gen := 40) (ematch := 40) (splits := 40) -lia -ring -linarith [keeps_put, Keeps.update]

theorem keeps_tally (hk : Keeps s0 s) (e : Nat) (n : Nat) : Keeps s0 (State.tally s e n) := by
  unfold State.tally
  grind (gen := 40) (ematch := 40) (splits := 40) -lia -ring -linarith [keeps_advance, Keeps.update]

theorem keeps_gradeWords (hk : Keeps s0 s)  : Keeps s0 (State.gradeWords s) := by
  unfold State.gradeWords
  grind (gen := 40) (ematch := 40) (splits := 40) -lia -ring -linarith [keeps_put, keeps_wr, Keeps.update]

theorem Keeps.bumpFree (h : Keeps s0 s) : Keeps s0 { s with freeCtr := s.freeCtr + 1 } :=
  h.trans ⟨rfl, List.prefix_refl _, Nat.le_succ _, Nat.le_refl _, rfl, rfl, fun _ => Nat.le_refl _,
    fun w => ⟨w.regs, w.cregs, w.dock, w.host, w.wh⟩⟩

theorem keeps_fresh (h : Keeps s0 s) : Keeps s0 (State.fresh s).2 := h.bumpFree

theorem keeps_deny (hk : Keeps s0 s) (req : Requester) (space addr : Nat) : Keeps s0 (State.deny s req space addr) := by
  unfold State.deny
  grind (gen := 40) (ematch := 40) (splits := 40) -lia -ring -linarith [keeps_bump, keeps_tally, keeps_wr, Keeps.update]

theorem keeps_send (h : Keeps s0 s) (o : Sent) : Keeps s0 (State.send s o) :=
  h.trans ⟨rfl, List.prefix_append _ _, Nat.le_refl _, Nat.le_refl _, rfl, rfl, fun _ => Nat.le_refl _,
    fun w => ⟨w.regs, w.cregs, w.dock, w.host, w.wh⟩⟩

theorem keeps_writeOut (hk : Keeps s0 s) (device group : Nat) : Keeps s0 (State.writeOut s device group) := by
  unfold State.writeOut
  grind (gen := 40) (ematch := 40) (splits := 40) -lia -ring -linarith [Keeps.update]

theorem keeps_useCheck (hk : Keeps s0 s) (line : Nat) (write : Bool) : Keeps s0 (State.useCheck s line write) := by
  unfold State.useCheck
  grind (gen := 40) (ematch := 40) (splits := 40) -lia -ring -linarith [keeps_writeOut, Keeps.update]

theorem keeps_flushChecks (hk : Keeps s0 s)  : Keeps s0 (State.flushChecks s) := by
  unfold State.flushChecks
  grind (gen := 40) (ematch := 40) (splits := 40) -lia -ring -linarith [keeps_writeOut, Keeps.update, Keeps.foldl]

theorem keeps_dockErr (hk : Keeps s0 s) (line source : Nat) (uncorr : Bool) : Keeps s0 (State.dockErr s line source uncorr) := by
  unfold State.dockErr
  grind (gen := 40) (ematch := 40) (splits := 40) -lia -ring -linarith [keeps_wr, Keeps.update]

theorem keeps_wakeDock (hk : Keeps s0 s)  : Keeps s0 (State.wakeDock s) := by
  unfold State.wakeDock
  grind (gen := 40) (ematch := 40) (splits := 40) -lia -ring -linarith [keeps_put, Keeps.update]

theorem keeps_touchLine (hk : Keeps s0 s) (source line : Nat) : Keeps s0 (State.touchLine s source line) := by
  unfold State.touchLine
  grind (gen := 40) (ematch := 40) (splits := 40) -lia -ring -linarith [keeps_bump, keeps_dockErr, keeps_tally, keeps_useCheck, keeps_wakeDock, Keeps.update]

theorem keeps_dockRead (hk : Keeps s0 s) (source a n : Nat) : Keeps s0 (State.dockRead s source a n).1 := by
  unfold State.dockRead
  repeat' split
  all_goals grind (gen := 40) (ematch := 40) (splits := 40) -lia -ring -linarith [keeps_touchLine, Keeps.update, Keeps.foldl, Keeps.foldlFst]

theorem keeps_injectLine (hk : Keeps s0 s) (line : Nat) : Keeps s0 (State.injectLine s line) := by
  unfold State.injectLine
  grind (gen := 40) (ematch := 40) (splits := 40) -lia -ring -linarith [keeps_fresh, keeps_put, Keeps.update]

/-- New bytes of Dock, host memory and the Warehouse, each in canonical form where the old were. -/
theorem Keeps.cells {s0 s t : State} (h : Keeps s0 s)
    (hd : Memory.wf s.dock.cells → Memory.wf t.dock.cells) (hh : Memory.wf s.hostMem.cells → Memory.wf t.hostMem.cells)
    (hw : Memory.wf s.wh → Memory.wf t.wh)
    (hp : t.pending = s.pending := by rfl) (hs : t.sent = s.sent := by rfl) (hc : t.freeCtr = s.freeCtr := by rfl)
    (hr : t.resets = s.resets := by rfl) (hf : t.fuses = s.fuses := by rfl) (hregs : t.regs = s.regs := by rfl)
    (hcregs : t.cregs = s.cregs := by rfl) : Keeps s0 t := by
  refine h.trans ⟨hp, hs ▸ List.prefix_refl _, Nat.le_of_eq hc.symm, Nat.le_of_eq hr.symm, by rw [hf], by rw [hf],
    fun _ => by unfold State.fusedSvn; rw [hf], fun w => ⟨?_, ?_, hd w.dock, hh w.host, hw w.wh⟩⟩
  · rw [hregs]; exact w.regs
  · rw [hcregs]; exact w.cregs

/-- A new Dock whose bytes are canonical where the old were. -/
theorem Keeps.setDock {s0 s : State} (h : Keeps s0 s) (d : DockMem) (hd : Memory.wf s.dock.cells → Memory.wf d.cells) :
    Keeps s0 { s with dock := d } := h.cells hd id id

theorem keeps_repairLine (h : Keeps s0 s) (line : Nat) : Keeps s0 (State.repairLine s line) := by
  unfold State.repairLine
  refine h.setDock _ fun w => ?_
  dsimp only
  generalize (List.range 64).map _ = l
  split
  · exact w
  · exact putCells_sorted (line * 64) l w

theorem keeps_backInvalidate (hk : Keeps s0 s) (line : Nat) : Keeps s0 (State.backInvalidate s line) := by
  unfold State.backInvalidate
  grind (gen := 40) (ematch := 40) (splits := 40) -lia -ring -linarith [keeps_send, Keeps.update]

theorem keeps_writeLine (h : Keeps s0 s) (line a : Nat) (bs : List Byte) : Keeps s0 (State.writeLine s line a bs) := by
  unfold State.writeLine
  have h1 := keeps_backInvalidate (keeps_wakeDock h) line
  generalize s.wakeDock.backInvalidate line = u at h1 ⊢
  dsimp only
  split
  · exact keeps_dockErr h1 ..
  · have h2 : Keeps s0 (if bs.length < 64 then u.repairLine line else u) := Keeps.ite (keeps_repairLine h1 line) h1
    generalize (if bs.length < 64 then u.repairLine line else u) = v at h2 ⊢
    refine keeps_tally (keeps_injectLine (keeps_useCheck (h2.setDock _ fun w => ?_) ..) ..) ..
    dsimp only
    generalize (List.range 64).map _ = l
    split
    · exact putCells_sorted a bs (putCells_sorted (line * 64) l w)
    · exact putCells_sorted a bs w

theorem keeps_dockWrite (hk : Keeps s0 s) (a : Nat) (bs : List Byte) : Keeps s0 (State.dockWrite s a bs) := by
  unfold State.dockWrite
  grind (gen := 40) (ematch := 40) (splits := 40) -lia -ring -linarith [keeps_writeLine, Keeps.update, Keeps.foldl]

theorem keeps_storeWrite (hk : Keeps s0 s) (a n : Nat) : Keeps s0 (State.storeWrite s a n) := by
  unfold State.storeWrite
  grind (gen := 40) (ematch := 40) (splits := 40) -lia -ring -linarith [keeps_injectLine, keeps_tally, keeps_useCheck, keeps_wakeDock, Keeps.update, Keeps.foldl]

theorem keeps_storeRead (hk : Keeps s0 s) (source a n : Nat) : Keeps s0 (State.storeRead s source a n).1 := by
  unfold State.storeRead
  repeat' split
  all_goals grind (gen := 40) (ematch := 40) (splits := 40) -lia -ring -linarith [keeps_touchLine, Keeps.update, Keeps.foldl, Keeps.foldlFst]

theorem keeps_whRead (h : Keeps s0 s) (a n : Nat) : Keeps s0 (State.whRead s a n).1 := by
  have h1 := (keeps_bump h F.WH_ERR_CNT_POISON [] 1).bumpFree
  have h2 := h.bumpFree
  unfold State.whRead
  split
  · exact h
  · split
    · exact h1
    · exact h2

theorem foldl_spIns_sorted {α : Type} (l : List α) (k : α → Nat) (v : α → Byte) {m : List Host.Cell} (w : Memory.wf m) :
    Memory.wf (l.foldl (fun m x => spIns m (k x) (v x)) m) := by
  induction l generalizing m with
  | nil => exact w
  | cons x rest ih => exact ih (spIns_sorted _ _ w)

theorem keeps_whWrite (h : Keeps s0 s) (a : Nat) (bs : List Byte) : Keeps s0 (State.whWrite s a bs) := by
  unfold State.whWrite
  split
  · exact h.cells id id (foldl_spIns_sorted bs.zipIdx _ _)
  · exact h

theorem keeps_hostRead (hk : Keeps s0 s) (a n : Nat) : Keeps s0 (State.hostRead s a n).1 := by
  unfold State.hostRead
  repeat' split
  all_goals grind (gen := 40) (ematch := 40) (splits := 40) -lia -ring -linarith [Keeps.update]

theorem keeps_hostWrite (h : Keeps s0 s) (a : Nat) (bs : List Byte) : Keeps s0 (State.hostWrite s a bs) := by
  unfold State.hostWrite
  split
  · exact h
  · split
    · exact h.cells id (putCells_sorted a bs) id
    · exact h.same

theorem keeps_memRead (hk : Keeps s0 s) (source space a n : Nat) : Keeps s0 (State.memRead s source space a n).1 := by
  unfold State.memRead
  repeat' split
  all_goals grind (gen := 40) (ematch := 40) (splits := 40) -lia -ring -linarith [keeps_dockRead, keeps_hostRead, keeps_whRead, Keeps.update]

theorem keeps_memWrite (hk : Keeps s0 s) (space a : Nat) (bs : List Byte) : Keeps s0 (State.memWrite s space a bs) := by
  unfold State.memWrite
  grind (gen := 40) (ematch := 40) (splits := 40) -lia -ring -linarith [keeps_dockWrite, keeps_hostWrite, keeps_whWrite, Keeps.update]

theorem keeps_ptrRead (hk : Keeps s0 s) (source : Nat) (p : Word64) (len : Nat) : Keeps s0 (State.ptrRead s source p len).1 := by
  unfold State.ptrRead
  repeat' split
  all_goals grind (gen := 40) (ematch := 40) (splits := 40) -lia -ring -linarith [keeps_memRead, Keeps.update]

end Sys2Proof.Machine
end

