-- ==== Sys2Proof/Laws/KeepsAccess.lean ====
section
/-! SUPPORT. What the operations of Machine/Access.lean keep (Laws/Keeps.lean). -/

set_option Elab.async false

namespace Sys2Proof.Machine

variable {s0 s : State}

theorem keeps_applyWrite (hk : Keeps s0 s) (req : Requester) (r : Reg) (idx : List Nat) (v : Word64) : Keeps s0 (State.applyWrite s req r idx v) := by
  unfold State.applyWrite
  grind (gen := 40) (ematch := 40) (splits := 40) -lia -ring -linarith [keeps_deny, keeps_wr, Keeps.update]

theorem keeps_pcCount1 (hk : Keeps s0 s) (kind : Nat) (pass : Nat → Bool) (pos n : Nat) (k : Nat) : Keeps s0 (State.pcCount1 s kind pass pos n k) := by
  unfold State.pcCount1
  grind (gen := 40) (ematch := 40) (splits := 40) -lia -ring -linarith [keeps_advance, Keeps.update]

theorem keeps_pcCount (hk : Keeps s0 s) (kind : Nat) (pass : State → Nat → Bool) (pos : Nat) (n : Nat) : Keeps s0 (State.pcCount s kind pass pos n) := by
  unfold State.pcCount
  grind (gen := 40) (ematch := 40) (splits := 40) -lia -ring -linarith [keeps_pcCount1, Keeps.update, Keeps.foldl]

theorem keeps_countBar0 (hk : Keeps s0 s) (req : Requester) (acc off : Nat) : Keeps s0 (State.countBar0 s req acc off) := by
  unfold State.countBar0
  grind (gen := 40) (ematch := 40) (splits := 40) -lia -ring -linarith [keeps_pcCount, Keeps.update]

theorem keeps_rowWrite (hk : Keeps s0 s) (req : Requester) (r : Reg) (idx : List Nat) (eff : State → State) (heff : ∀ x0, Keeps s0 x0 → Keeps s0 (eff x0)) : Keeps s0 (State.rowWrite s req r idx eff) := by
  unfold State.rowWrite
  grind (gen := 40) (ematch := 40) (splits := 40) -lia -ring -linarith [keeps_countBar0, keeps_deny, Keeps.update]

end Sys2Proof.Machine
end

