-- ==== Sys2Proof/Laws/KeepsPorts.lean ====
section
/-! SUPPORT. What the operations of Machine/Ports.lean keep (Laws/Keeps.lean). -/

set_option Elab.async false

namespace Sys2Proof.Machine

variable {s0 s : State}

theorem keeps_setPort (hk : Keeps s0 s) (p : Nat) (x : PortState) : Keeps s0 (State.setPort s p x) := by
  unfold State.setPort
  grind (gen := 40) (ematch := 40) (splits := 40) -lia -ring -linarith [Keeps.update]

theorem keeps_mapPort (hk : Keeps s0 s) (p : Nat) (f : PortState → PortState) : Keeps s0 (State.mapPort s p f) := by
  unfold State.mapPort
  grind (gen := 40) (ematch := 40) (splits := 40) -lia -ring -linarith [keeps_setPort, Keeps.update]

theorem keeps_setChannel (hk : Keeps s0 s) (q : Nat) (c : Channel) : Keeps s0 (State.setChannel s q c) := by
  unfold State.setChannel
  grind (gen := 40) (ematch := 40) (splits := 40) -lia -ring -linarith [Keeps.update]

theorem keeps_setLink (hk : Keeps s0 s) (p : Nat) (l : Link) : Keeps s0 (State.setLink s p l) := by
  unfold State.setLink
  grind (gen := 40) (ematch := 40) (splits := 40) -lia -ring -linarith [keeps_mapPort, keeps_setChannel, Keeps.update]

theorem keeps_mapLink (hk : Keeps s0 s) (p : Nat) (f : Link → Link) : Keeps s0 (State.mapLink s p f) := by
  unfold State.mapLink
  grind (gen := 40) (ematch := 40) (splits := 40) -lia -ring -linarith [keeps_setLink, Keeps.update]

theorem keeps_sendCtl (hk : Keeps s0 s) (p type content : Nat) : Keeps s0 (State.sendCtl s p type content) := by
  unfold State.sendCtl
  grind (gen := 40) (ematch := 40) (splits := 40) -lia -ring -linarith [keeps_mapLink, keeps_send, Keeps.update]

theorem keeps_noteFrame (hk : Keeps s0 s) (p : Nat) (egress : Bool) (bs : List Byte) (place : Option PtpPlace) (stamp : Int) : Keeps s0 (State.noteFrame s p egress bs place stamp) := by
  unfold State.noteFrame
  grind (gen := 40) (ematch := 40) (splits := 40) -lia -ring -linarith [Keeps.update]

theorem keeps_noteEvent (hk : Keeps s0 s) (p : Nat) (egress : Bool) (pkt : Packet) (stamp : Int) : Keeps s0 (State.noteEvent s p egress pkt stamp) := by
  unfold State.noteEvent
  grind (gen := 40) (ematch := 40) (splits := 40) -lia -ring -linarith [keeps_noteFrame, Keeps.update]

end Sys2Proof.Machine
end

