-- ==== Sys2Proof/Laws/KeepsBasinCore.lean ====
section
/-! SUPPORT. What the operations of Machine/BasinCore.lean keep (Laws/Keeps.lean). -/

set_option Elab.async false

namespace Sys2Proof.Machine

variable {s0 s : State}

theorem keeps_setClassQ (hk : Keeps s0 s) (p c : Nat) (q : ClassQueue) : Keeps s0 (State.setClassQ s p c q) := by
  unfold State.setClassQ
  grind (gen := 40) (ematch := 40) (splits := 40) -lia -ring -linarith [Keeps.update]

theorem keeps_toClassQ (hk : Keeps s0 s) (p : Nat) (x : BPkt) : Keeps s0 (State.toClassQ s p x) := by
  unfold State.toClassQ
  grind (gen := 40) (ematch := 40) (splits := 40) -lia -ring -linarith [keeps_setClassQ, Keeps.update]

theorem keeps_grantBack (hk : Keeps s0 s) (p c : Nat) : Keeps s0 (State.grantBack s p c) := by
  unfold State.grantBack
  grind (gen := 40) (ematch := 40) (splits := 40) -lia -ring -linarith [keeps_sendCtl, keeps_setLink, Keeps.update]

theorem keeps_grantAll (hk : Keeps s0 s)  : Keeps s0 (State.grantAll s) := by
  unfold State.grantAll
  grind (gen := 40) (ematch := 40) (splits := 40) -lia -ring -linarith [keeps_grantBack, Keeps.update, Keeps.foldl]

theorem keeps_useCells (hk : Keeps s0 s) (die n : Nat) : Keeps s0 (State.useCells s die n) := by
  unfold State.useCells
  grind (gen := 40) (ematch := 40) (splits := 40) -lia -ring -linarith [keeps_put, Keeps.update]

theorem keeps_freeCells (hk : Keeps s0 s) (die n : Nat) : Keeps s0 (State.freeCells s die n) := by
  unfold State.freeCells
  grind (gen := 40) (ematch := 40) (splits := 40) -lia -ring -linarith [keeps_put, Keeps.update]

theorem keeps_countDrop (hk : Keeps s0 s) (p cls : Nat) : Keeps s0 (State.countDrop s p cls) := by
  unfold State.countDrop
  grind (gen := 40) (ematch := 40) (splits := 40) -lia -ring -linarith [keeps_pcCount, Keeps.update]

theorem keeps_countEnqueue (hk : Keeps s0 s) (ingress egress : Nat) (pkt : Packet) : Keeps s0 (State.countEnqueue s ingress egress pkt) := by
  unfold State.countEnqueue
  grind (gen := 40) (ematch := 40) (splits := 40) -lia -ring -linarith [keeps_pcCount, Keeps.update]

theorem keeps_pairHead (hk : Keeps s0 s) (quay e c : Nat) (empty : Bool) : Keeps s0 (State.pairHead s quay e c empty) := by
  unfold State.pairHead
  grind (gen := 40) (ematch := 40) (splits := 40) -lia -ring -linarith [Keeps.update]

theorem keeps_toVoq (hk : Keeps s0 s) (x : BPkt) (egress : Nat) : Keeps s0 (State.toVoq s x egress) := by
  unfold State.toVoq
  grind (gen := 40) (ematch := 40) (splits := 40) -lia -ring -linarith [keeps_countEnqueue, keeps_pairHead, keeps_useCells, Keeps.update, Keeps.foldl]

theorem keeps_dropDown (hk : Keeps s0 s) (p cls : Nat) : Keeps s0 (State.dropDown s p cls) := by
  unfold State.dropDown
  grind (gen := 40) (ematch := 40) (splits := 40) -lia -ring -linarith [keeps_bump, keeps_countDrop, Keeps.update]

theorem keeps_queueTo (hk : Keeps s0 s) (x : BPkt) (egress : Nat) : Keeps s0 (State.queueTo s x egress) := by
  unfold State.queueTo
  grind (gen := 40) (ematch := 40) (splits := 40) -lia -ring -linarith [keeps_bump, keeps_countDrop, keeps_dropDown, keeps_toVoq, Keeps.update]

theorem keeps_build (hk : Keeps s0 s) (kind tc dst job flow : Nat) (body : List Byte) : Keeps s0 (State.build s kind tc dst job flow body).2 := by
  unfold State.build
  repeat' split
  all_goals grind (gen := 40) (ematch := 40) (splits := 40) -lia -ring -linarith [Keeps.update]

theorem keeps_sendPort (hk : Keeps s0 s) (p : Nat) (pkt : Packet) : Keeps s0 (State.sendPort s p pkt) := by
  unfold State.sendPort
  grind (gen := 40) (ematch := 40) (splits := 40) -lia -ring -linarith [keeps_queueTo, Keeps.update]

theorem keeps_hShow (hk : Keeps s0 s) (pipe : Nat) : Keeps s0 (State.hShow s pipe) := by
  unfold State.hShow
  grind (gen := 40) (ematch := 40) (splits := 40) -lia -ring -linarith [keeps_put, Keeps.update]

theorem keeps_hSet (hk : Keeps s0 s) (pipe i : Nat) (e : Option HEntry) : Keeps s0 (State.hSet s pipe i e) := by
  unfold State.hSet
  grind (gen := 40) (ematch := 40) (splits := 40) -lia -ring -linarith [keeps_hShow, Keeps.update]

theorem keeps_notify (hk : Keeps s0 s) (pipe key port reason index : Nat) :
    Keeps s0 (State.notify s pipe key port reason index) := by
  unfold State.notify
  dsimp only
  split
  · exact hk
  · split
    · exact keeps_bump hk ..
    · exact keeps_put (keeps_dockWrite hk ..) ..

theorem keeps_parityError (hk : Keeps s0 s) (pipe i key : Nat) : Keeps s0 (State.parityError s pipe i key) := by
  unfold State.parityError
  grind (gen := 40) (ematch := 40) (splits := 40) -lia -ring -linarith [keeps_bump, keeps_hSet, keeps_notify, keeps_put, Keeps.update]

theorem keeps_hFind (hk : Keeps s0 s) (pipe key : Nat) : Keeps s0 (State.hFind s pipe key).2 := by
  unfold State.hFind
  repeat' split
  all_goals grind (gen := 40) (ematch := 40) (splits := 40) -lia -ring -linarith [keeps_parityError, Keeps.update, Keeps.foldl, Keeps.foldlFst]

theorem keeps_hLookup (hk : Keeps s0 s) (pipe key : Nat) : Keeps s0 (State.hLookup s pipe key).2 := by
  unfold State.hLookup
  repeat' split
  all_goals grind (gen := 40) (ematch := 40) (splits := 40) -lia -ring -linarith [keeps_hFind, keeps_hSet, keeps_tally, Keeps.update]

theorem keeps_pickMember (hk : Keeps s0 s) (b : Nat) (h : Header) : Keeps s0 (State.pickMember s b h).2 := by
  unfold State.pickMember
  repeat' split
  all_goals grind (gen := 40) (ematch := 40) (splits := 40) -lia -ring -linarith [keeps_fresh, keeps_tally, Keeps.update]

theorem keeps_destTarget (hk : Keeps s0 s) (pipe inPort : Nat) (h : Header) : Keeps s0 (State.destTarget s pipe inPort h).2.2 := by
  unfold State.destTarget
  repeat' split
  all_goals grind (gen := 40) (ematch := 40) (splits := 40) -lia -ring -linarith [keeps_hLookup, keeps_notify, Keeps.update]

theorem keeps_toLocal (hk : Keeps s0 s) (inPort : Nat) (pkt : Packet) : Keeps s0 (State.toLocal s inPort pkt) := by
  unfold State.toLocal
  grind (gen := 40) (ematch := 40) (splits := 40) -lia -ring -linarith [keeps_bump, keeps_countDrop, Keeps.update, Keeps.foldl]

theorem keeps_deliver (hk : Keeps s0 s) (x : BPkt) (t : Target) : Keeps s0 (State.deliver s x t) := by
  unfold State.deliver
  grind (gen := 40) (ematch := 40) (splits := 40) -lia -ring -linarith [keeps_bump, keeps_countDrop, keeps_dropDown, keeps_pickMember, keeps_queueTo, keeps_toLocal, Keeps.update]

theorem keeps_sendTo (hk : Keeps s0 s) (pkt : Packet) : Keeps s0 (State.sendTo s pkt) := by
  unfold State.sendTo
  grind (gen := 40) (ematch := 40) (splits := 40) -lia -ring -linarith [keeps_deliver, keeps_destTarget, Keeps.update]

end Sys2Proof.Machine
end

