-- ==== Sys2Proof/Laws/KeepsRingOps.lean ====
section
/-! SUPPORT. What the operations of Machine/RingOps.lean keep (Laws/Keeps.lean). -/

set_option Elab.async false

namespace Sys2Proof.Machine

variable {s0 s : State}

theorem keeps_evSet (hk : Keeps s0 s) (e v : Nat) : Keeps s0 (State.evSet s e v) := by
  unfold State.evSet
  grind (gen := 40) (ematch := 40) (splits := 40) -lia -ring -linarith [keeps_put, Keeps.update]

theorem keeps_evAdd (hk : Keeps s0 s) (e inc : Nat) : Keeps s0 (State.evAdd s e inc) := by
  unfold State.evAdd
  grind (gen := 40) (ematch := 40) (splits := 40) -lia -ring -linarith [keeps_advance, Keeps.update]

theorem keeps_evFailTo (hk : Keeps s0 s) (e : Nat) (b : Bool) : Keeps s0 (State.evFailTo s e b) := by
  unfold State.evFailTo
  grind (gen := 40) (ematch := 40) (splits := 40) -lia -ring -linarith [keeps_put, Keeps.update]

theorem keeps_mapCmd (hk : Keeps s0 s) (ring seq : Nat) (f : Cmd → Cmd) : Keeps s0 (State.mapCmd s ring seq f) := by
  unfold State.mapCmd
  grind (gen := 40) (ematch := 40) (splits := 40) -lia -ring -linarith [Keeps.update]

theorem keeps_endCmd (hk : Keeps s0 s) (ring seq status detail result result2 : Nat) : Keeps s0 (State.endCmd s ring seq status detail result result2) := by
  unfold State.endCmd
  grind (gen := 40) (ematch := 40) (splits := 40) -lia -ring -linarith [keeps_mapCmd, Keeps.update]

theorem keeps_showInflight (hk : Keeps s0 s) (ring : Nat) : Keeps s0 (State.showInflight s ring) := by
  unfold State.showInflight
  grind (gen := 40) (ematch := 40) (splits := 40) -lia -ring -linarith [keeps_put, Keeps.update]

end Sys2Proof.Machine
end

