-- ==== Sys2Proof/Laws/KeepsBasin.lean ====
section
/-! SUPPORT. What the operations of Machine/Basin.lean keep (Laws/Keeps.lean). -/

set_option Elab.async false

namespace Sys2Proof.Machine

variable {s0 s : State}

theorem keeps_setMeter (hk : Keeps s0 s) (i : Nat) (m : Meter) : Keeps s0 (State.setMeter s i m) := by
  unfold State.setMeter
  grind (gen := 40) (ematch := 40) (splits := 40) -lia -ring -linarith [Keeps.update]

theorem keeps_police (hk : Keeps s0 s) (p : Nat) (lossless : Bool) (pkt : Packet) : Keeps s0 (State.police s p lossless pkt).2 := by
  unfold State.police
  repeat' split
  all_goals grind (gen := 40) (ematch := 40) (splits := 40) -lia -ring -linarith [keeps_setMeter, Keeps.update]

theorem keeps_mirrorTo (hk : Keeps s0 s) (k p : Nat) (x : BPkt) : Keeps s0 (State.mirrorTo s k p x) := by
  unfold State.mirrorTo
  grind (gen := 40) (ematch := 40) (splits := 40) -lia -ring -linarith [keeps_bump, keeps_toVoq, Keeps.update]

theorem keeps_mirrorPort (hk : Keeps s0 s) (source p : Nat) (x : BPkt) : Keeps s0 (State.mirrorPort s source p x) := by
  unfold State.mirrorPort
  grind (gen := 40) (ematch := 40) (splits := 40) -lia -ring -linarith [keeps_mirrorTo, Keeps.update, Keeps.foldl]

theorem keeps_learnSource (hk : Keeps s0 s) (pipe : Nat) (x : BPkt) : Keeps s0 (State.learnSource s pipe x).2 := by
  unfold State.learnSource
  repeat' split
  all_goals grind (gen := 40) (ematch := 40) (splits := 40) -lia -ring -linarith [keeps_hLookup, keeps_notify, Keeps.update]

theorem keeps_lookedUp (hk : Keeps s0 s) (x : BPkt) : Keeps s0 (State.lookedUp s x) := by
  unfold State.lookedUp
  grind (gen := 40) (ematch := 40) (splits := 40) -lia -ring -linarith [keeps_deliver, keeps_destTarget, keeps_learnSource, keeps_mirrorTo, keeps_tally, Keeps.update, Keeps.foldl]

theorem keeps_forward (hk : Keeps s0 s) (x : BPkt) : Keeps s0 (State.forward s x) := by
  unfold State.forward
  grind (gen := 40) (ematch := 40) (splits := 40) -lia -ring -linarith [keeps_bump, keeps_countDrop, keeps_lookedUp, keeps_useCells, Keeps.update]

theorem keeps_resumeLookups (hk : Keeps s0 s)  : Keeps s0 (State.resumeLookups s) := by
  unfold State.resumeLookups
  grind (gen := 40) (ematch := 40) (splits := 40) -lia -ring -linarith [keeps_freeCells, keeps_lookedUp, Keeps.update, Keeps.foldl]

theorem keeps_replicate (hk : Keeps s0 s) (x : BPkt) : Keeps s0 (State.replicate s x) := by
  unfold State.replicate
  grind (gen := 40) (ematch := 40) (splits := 40) -lia -ring -linarith [keeps_bump, keeps_countDrop, keeps_pcCount, keeps_useCells, Keeps.update, Keeps.foldl]

theorem keeps_unknownMooring (hk : Keeps s0 s) (p cls : Nat) : Keeps s0 (State.unknownMooring s p cls) := by
  unfold State.unknownMooring
  grind (gen := 40) (ematch := 40) (splits := 40) -lia -ring -linarith [keeps_bump, keeps_countDrop, keeps_tally, Keeps.update]

theorem keeps_steer (hk : Keeps s0 s) (p : Nat) (lossless : Bool) (pkt : Packet) : Keeps s0 (State.steer s p lossless pkt) := by
  unfold State.steer
  grind (gen := 40) (ematch := 40) (splits := 40) -lia -ring -linarith [keeps_bump, keeps_countDrop, keeps_unknownMooring, keeps_useCells, Keeps.update]

theorem keeps_dispose (hk : Keeps s0 s) (x : BPkt) : Keeps s0 (State.dispose s x) := by
  unfold State.dispose
  grind (gen := 40) (ematch := 40) (splits := 40) -lia -ring -linarith [keeps_bump, keeps_forward, keeps_replicate, keeps_steer, keeps_toLocal, Keeps.update]

theorem keeps_arrive (hk : Keeps s0 s) (x : BPkt) : Keeps s0 (State.arrive s x) := by
  unfold State.arrive
  grind (gen := 40) (ematch := 40) (splits := 40) -lia -ring -linarith [keeps_bump, keeps_countDrop, keeps_dispose, keeps_mirrorPort, keeps_noteEvent, keeps_police, Keeps.update]

theorem keeps_fillPrio (hk : Keeps s0 s) (p : Nat) : Keeps s0 (State.fillPrio s p) := by
  unfold State.fillPrio
  grind (gen := 40) (ematch := 40) (splits := 40) -lia -ring -linarith [Keeps.update]

theorem keeps_matchRound {st : State × List Match} (first : Bool) (hk : Keeps s0 st.1) : Keeps s0 (State.matchRound first st).1 := by
  unfold State.matchRound
  dsimp only
  split
  · exact Keeps.foldl _ _ hk fun _ _ h => h.same
  · exact hk

theorem keeps_crossUnicast (hk : Keeps s0 s) (quay e : Nat) (gateOpen : Nat → Bool) : Keeps s0 (State.crossUnicast s quay e gateOpen) := by
  unfold State.crossUnicast
  grind (gen := 40) (ematch := 40) (splits := 40) -lia -ring -linarith [keeps_freeCells, keeps_pairHead, keeps_tally, Keeps.update]

theorem keeps_crossMulticast (hk : Keeps s0 s) (p cls e : Nat) : Keeps s0 (State.crossMulticast s p cls e) := by
  unfold State.crossMulticast
  grind (gen := 40) (ematch := 40) (splits := 40) -lia -ring -linarith [keeps_freeCells, keeps_tally, Keeps.update]

theorem keeps_dropBad (hk : Keeps s0 s) (port : Nat) (x : BPkt) : Keeps s0 (State.dropBad s port x) := by
  unfold State.dropBad
  grind (gen := 40) (ematch := 40) (splits := 40) -lia -ring -linarith [keeps_countDrop, keeps_queueTo, keeps_tally, Keeps.update]

/-- A fold that carries other data with the state. -/
theorem Keeps.foldlSnd {β γ : Type} (l : List β) (f : γ × State → β → γ × State) (a : γ × State)
    (h : Keeps s0 a.2) (hf : ∀ a x, Keeps s0 a.2 → Keeps s0 (f a x).2) : Keeps s0 (l.foldl f a).2 := by
  induction l generalizing a with
  | nil => exact h
  | cons x rest ih => exact ih (f a x) (hf a x h)

theorem keeps_takeQueued (hk : Keeps s0 s) (p : Nat) (gone : BPkt → Bool) : Keeps s0 (State.takeQueued s p gone).2 := by
  unfold State.takeQueued
  refine Keeps.foldlSnd _ _ _ hk fun a v h => ?_
  refine Keeps.foldl _ _ ?_ fun u q hu => keeps_freeCells hu ..
  refine Keeps.ite ?_ (keeps_pairHead ?_ ..) <;> exact h.same

theorem keeps_takeEgress (hk : Keeps s0 s) (p : Nat) (gone : BPkt → Bool) : Keeps s0 (State.takeEgress s p gone).2 := by
  unfold State.takeEgress
  refine Keeps.foldlSnd _ _ _ (hk.same) fun a c h => ?_
  dsimp only
  split
  · exact h
  · exact keeps_setClassQ h ..

theorem keeps_takeAll (hk : Keeps s0 s) (p : Nat) (gone : BPkt → Bool) : Keeps s0 (State.takeAll s p gone).2 := by
  unfold State.takeAll
  repeat' split
  all_goals grind (gen := 40) (ematch := 40) (splits := 40) -lia -ring -linarith [keeps_takeEgress, keeps_takeQueued, Keeps.update]

theorem keeps_dropQueued (hk : Keeps s0 s) (p : Nat) (gone : BPkt → Bool) : Keeps s0 (State.dropQueued s p gone) := by
  unfold State.dropQueued
  grind (gen := 40) (ematch := 40) (splits := 40) -lia -ring -linarith [keeps_dropDown, keeps_takeAll, Keeps.update, Keeps.foldl]

theorem keeps_mcDown (hk : Keeps s0 s) (p : Nat) : Keeps s0 (State.mcDown s p) := by
  unfold State.mcDown
  grind (gen := 40) (ematch := 40) (splits := 40) -lia -ring -linarith [keeps_bump, keeps_freeCells, Keeps.update, Keeps.foldl]

theorem keeps_portDown (hk : Keeps s0 s) (p : Nat) : Keeps s0 (State.portDown s p) := by
  unfold State.portDown
  grind (gen := 40) (ematch := 40) (splits := 40) -lia -ring -linarith [keeps_deliver, keeps_dropQueued, keeps_mcDown, keeps_takeAll, Keeps.update, Keeps.foldl]

theorem keeps_opDone (hk : Keeps s0 s) (pipe result index : Nat) : Keeps s0 (State.opDone s pipe result index) := by
  unfold State.opDone
  grind (gen := 40) (ematch := 40) (splits := 40) -lia -ring -linarith [keeps_put, Keeps.update]

theorem keeps_hInsert (hk : Keeps s0 s) (pipe key : Nat) : Keeps s0 (State.hInsert s pipe key) := by
  unfold State.hInsert
  grind (gen := 40) (ematch := 40) (splits := 40) -lia -ring -linarith [keeps_hFind, keeps_hSet, keeps_opDone, Keeps.update]

theorem keeps_hDelete (hk : Keeps s0 s) (pipe key : Nat) : Keeps s0 (State.hDelete s pipe key) := by
  unfold State.hDelete
  grind (gen := 40) (ematch := 40) (splits := 40) -lia -ring -linarith [keeps_hFind, keeps_hSet, keeps_opDone, Keeps.update]

theorem keeps_hRead (hk : Keeps s0 s) (pipe key : Nat) : Keeps s0 (State.hRead s pipe key) := by
  unfold State.hRead
  grind (gen := 40) (ematch := 40) (splits := 40) -lia -ring -linarith [keeps_hFind, keeps_opDone, keeps_wr, Keeps.update]

theorem keeps_hRun (hk : Keeps s0 s) (pipe key cmd : Nat) : Keeps s0 (State.hRun s pipe key cmd) := by
  unfold State.hRun
  grind (gen := 40) (ematch := 40) (splits := 40) -lia -ring -linarith [keeps_hDelete, keeps_hInsert, keeps_hRead, keeps_opDone, Keeps.update]

theorem keeps_hOp (hk : Keeps s0 s) (pipe key cmd : Nat) : Keeps s0 (State.hOp s pipe key cmd) := by
  unfold State.hOp
  grind (gen := 40) (ematch := 40) (splits := 40) -lia -ring -linarith [keeps_hRun, keeps_put, Keeps.update]

theorem keeps_pinsEnd (hk : Keeps s0 s)  : Keeps s0 (State.pinsEnd s) := by
  unfold State.pinsEnd
  grind (gen := 40) (ematch := 40) (splits := 40) -lia -ring -linarith [keeps_hRun, keeps_put, keeps_resumeLookups, Keeps.update, Keeps.foldl]

end Sys2Proof.Machine
end

