-- ==== Sys2Proof/Laws/KeepsClocktower.lean ====
section
/-! SUPPORT. What the operations of Machine/Clocktower.lean keep (Laws/Keeps.lean). -/

set_option Elab.async false

namespace Sys2Proof.Machine

variable {s0 s : State}

theorem keeps_meterOp (hk : Keeps s0 s) (index op : Nat) : Keeps s0 (State.meterOp s index op) := by
  unfold State.meterOp
  grind (gen := 40) (ematch := 40) (splits := 40) -lia -ring -linarith [keeps_put, keeps_setMeter, Keeps.update]

theorem keeps_timeWrite (hk : Keeps s0 s)  : Keeps s0 (State.timeWrite s) := by
  unfold State.timeWrite
  grind (gen := 40) (ematch := 40) (splits := 40) -lia -ring -linarith [keeps_put, Keeps.update]

theorem keeps_timeStepped (hk : Keeps s0 s)  : Keeps s0 (State.timeStepped s) := by
  unfold State.timeStepped
  grind (gen := 40) (ematch := 40) (splits := 40) -lia -ring -linarith [keeps_advance, keeps_put, Keeps.update]

theorem keeps_setRate (hk : Keeps s0 s) (v : Word64) : Keeps s0 (State.setRate s v) := by
  unfold State.setRate
  grind (gen := 40) (ematch := 40) (splits := 40) -lia -ring -linarith [keeps_put, keeps_timeWrite, Keeps.update]

theorem keeps_setNs (hk : Keeps s0 s) (t : Nat) : Keeps s0 (State.setNs s t) := by
  unfold State.setNs
  grind (gen := 40) (ematch := 40) (splits := 40) -lia -ring -linarith [Keeps.update]

theorem keeps_captureTo (hk : Keeps s0 s) (fs fn : Fld) : Keeps s0 (State.captureTo s fs fn) := by
  unfold State.captureTo
  grind (gen := 40) (ematch := 40) (splits := 40) -lia -ring -linarith [keeps_put, Keeps.update]

end Sys2Proof.Machine
end

