-- ==== Sys2Proof/Laws/KeepsLighthouse.lean ====
section
/-! SUPPORT. What the operations of Machine/Lighthouse.lean keep (Laws/Keeps.lean). -/

set_option Elab.async false

namespace Sys2Proof.Machine

variable {s0 s : State}

theorem keeps_putFrame (hk : Keeps s0 s) (p lseq : Nat) (pkt : Packet) : Keeps s0 (State.putFrame s p lseq pkt) := by
  unfold State.putFrame
  grind (gen := 40) (ematch := 40) (splits := 40) -lia -ring -linarith [keeps_mapLink, keeps_mapPort, keeps_send, Keeps.update]

theorem keeps_sendFrame (hk : Keeps s0 s) (p : Nat) (pkt : Packet) : Keeps s0 (State.sendFrame s p pkt) := by
  unfold State.sendFrame
  grind (gen := 40) (ematch := 40) (splits := 40) -lia -ring -linarith [keeps_putFrame, keeps_setLink, Keeps.update]

theorem keeps_transmit (hk : Keeps s0 s) (p : Nat) (pkt : Packet) : Keeps s0 (State.transmit s p pkt) := by
  unfold State.transmit
  grind (gen := 40) (ematch := 40) (splits := 40) -lia -ring -linarith [keeps_send, keeps_sendFrame, Keeps.update]

theorem keeps_sendBeacon (hk : Keeps s0 s) (p at_ : Nat) : Keeps s0 (State.sendBeacon s p at_) := by
  unfold State.sendBeacon
  grind (gen := 40) (ematch := 40) (splits := 40) -lia -ring -linarith [keeps_build, keeps_sendCtl, keeps_setPort, keeps_transmit, Keeps.update]

theorem keeps_firstCredits (hk : Keeps s0 s) (p : Nat) : Keeps s0 (State.firstCredits s p) := by
  unfold State.firstCredits
  grind (gen := 40) (ematch := 40) (splits := 40) -lia -ring -linarith [keeps_mapLink, keeps_sendCtl, Keeps.update, Keeps.foldl]

theorem keeps_unlight (hk : Keeps s0 s) (q : Nat) : Keeps s0 (State.unlight s q) := by
  unfold State.unlight
  grind (gen := 40) (ematch := 40) (splits := 40) -lia -ring -linarith [keeps_setChannel, Keeps.update]

theorem keeps_goDark (hk : Keeps s0 s) (q : Nat) : Keeps s0 (State.goDark s q) := by
  unfold State.goDark
  grind (gen := 40) (ematch := 40) (splits := 40) -lia -ring -linarith [keeps_send, keeps_setChannel, keeps_unlight, Keeps.update]

theorem keeps_retune (hk : Keeps s0 s) (q k : Nat) : Keeps s0 (State.retune s q k) := by
  unfold State.retune
  grind (gen := 40) (ematch := 40) (splits := 40) -lia -ring -linarith [keeps_goDark, keeps_send, keeps_setChannel, keeps_unlight, Keeps.update]

theorem keeps_showCal (hk : Keeps s0 s)  : Keeps s0 (State.showCal s) := by
  unfold State.showCal
  grind (gen := 40) (ematch := 40) (splits := 40) -lia -ring -linarith [keeps_put, Keeps.update]

theorem keeps_queueCal (hk : Keeps s0 s) (r : CalReq) : Keeps s0 (State.queueCal s r) := by
  unfold State.queueCal
  grind (gen := 40) (ematch := 40) (splits := 40) -lia -ring -linarith [keeps_showCal, Keeps.update]

theorem keeps_withdraw (hk : Keeps s0 s) (q k cause : Nat) : Keeps s0 (State.withdraw s q k cause) := by
  unfold State.withdraw
  grind (gen := 40) (ematch := 40) (splits := 40) -lia -ring -linarith [keeps_bump, keeps_dropQueued, keeps_goDark, keeps_put, keeps_queueCal, keeps_setChannel, Keeps.update]

theorem keeps_confirm (hk : Keeps s0 s) (q k : Nat) : Keeps s0 (State.confirm s q k) := by
  unfold State.confirm
  grind (gen := 40) (ematch := 40) (splits := 40) -lia -ring -linarith [keeps_firstCredits, keeps_put, Keeps.update]

theorem keeps_lockOn (hk : Keeps s0 s) (q k : Nat) : Keeps s0 (State.lockOn s q k) := by
  unfold State.lockOn
  grind (gen := 40) (ematch := 40) (splits := 40) -lia -ring -linarith [keeps_firstCredits, keeps_put, keeps_sendBeacon, keeps_setChannel, keeps_setLink, Keeps.update]

theorem keeps_lhBeacon (hk : Keeps s0 s) (q hash : Nat) : Keeps s0 (State.lhBeacon s q hash) := by
  unfold State.lhBeacon
  grind (gen := 40) (ematch := 40) (splits := 40) -lia -ring -linarith [keeps_build, keeps_confirm, keeps_put, keeps_setChannel, keeps_transmit, keeps_withdraw, Keeps.update]

theorem keeps_takeEcho (hk : Keeps s0 s) (q heard : Nat) : Keeps s0 (State.takeEcho s q heard) := by
  unfold State.takeEcho
  grind (gen := 40) (ematch := 40) (splits := 40) -lia -ring -linarith [keeps_confirm, keeps_setChannel, keeps_withdraw, Keeps.update]

theorem keeps_steerLight (hk : Keeps s0 s) (p j : Nat) : Keeps s0 (State.steerLight s p j) := by
  unfold State.steerLight
  grind (gen := 40) (ematch := 40) (splits := 40) -lia -ring -linarith [keeps_retune, Keeps.update]

theorem keeps_lhEntry (hk : Keeps s0 s) (p i j : Nat) : Keeps s0 (State.lhEntry s p i j) := by
  unfold State.lhEntry
  grind (gen := 40) (ematch := 40) (splits := 40) -lia -ring -linarith [keeps_steerLight, Keeps.update]

theorem keeps_noteGate (hk : Keeps s0 s) (p : Nat) : Keeps s0 (State.noteGate s p) := by
  unfold State.noteGate
  grind (gen := 40) (ematch := 40) (splits := 40) -lia -ring -linarith [keeps_put, Keeps.update]

theorem keeps_enterGate (hk : Keeps s0 s) (p : Nat) (stepped : Bool) : Keeps s0 (State.enterGate s p stepped) := by
  unfold State.enterGate
  grind (gen := 40) (ematch := 40) (splits := 40) -lia -ring -linarith [keeps_advance, keeps_lhEntry, keeps_noteGate, Keeps.update]

theorem keeps_moveTime (hk : Keeps s0 s) (t : Nat) : Keeps s0 (State.moveTime s t) := by
  unfold State.moveTime
  grind (gen := 40) (ematch := 40) (splits := 40) -lia -ring -linarith [keeps_enterGate, keeps_setNs, keeps_timeStepped, keeps_timeWrite, Keeps.update, Keeps.foldl]

theorem keeps_stepTime (hk : Keeps s0 s) (v : Word64) : Keeps s0 (State.stepTime s v) := by
  unfold State.stepTime
  grind (gen := 40) (ematch := 40) (splits := 40) -lia -ring -linarith [keeps_moveTime, Keeps.update]

theorem keeps_lhCal (hk : Keeps s0 s) (v : Word64) : Keeps s0 (State.lhCal s v) := by
  unfold State.lhCal
  grind (gen := 40) (ematch := 40) (splits := 40) -lia -ring -linarith [keeps_put, keeps_queueCal, keeps_wr, Keeps.update]

theorem keeps_setCal (hk : Keeps s0 s) (c : Option CalRun) : Keeps s0 (State.setCal s c) := by
  unfold State.setCal
  grind (gen := 40) (ematch := 40) (splits := 40) -lia -ring -linarith [Keeps.update]

theorem keeps_endCal (hk : Keeps s0 s) (c : CalRun) : Keeps s0 (State.endCal s c) := by
  unfold State.endCal
  grind (gen := 40) (ematch := 40) (splits := 40) -lia -ring -linarith [keeps_put, keeps_setCal, keeps_steerLight, Keeps.update]

theorem keeps_measure (hk : Keeps s0 s) (r : CalReq) : Keeps s0 (State.measure s r) := by
  unfold State.measure
  grind (gen := 40) (ematch := 40) (splits := 40) -lia -ring -linarith [keeps_send, Keeps.update]

theorem keeps_nextColour (hk : Keeps s0 s) (c : CalRun) : Keeps s0 (State.nextColour s c) := by
  unfold State.nextColour
  grind (gen := 40) (ematch := 40) (splits := 40) -lia -ring -linarith [keeps_endCal, keeps_measure, keeps_put, keeps_send, keeps_setCal, Keeps.update]

end Sys2Proof.Machine
end

