-- ==== Sys2Proof/Laws/KeepsPavCore.lean ====
section
/-! SUPPORT. What the operations of Machine/PavCore.lean keep (Laws/Keeps.lean). -/

set_option Elab.async false

namespace Sys2Proof.Machine

variable {s0 s : State}

theorem keeps_setPav (hk : Keeps s0 s) (n : Nat) (p : Pav) : Keeps s0 (State.setPav s n p) := by
  unfold State.setPav
  grind (gen := 40) (ematch := 40) (splits := 40) -lia -ring -linarith [Keeps.update]

theorem keeps_mapPav (hk : Keeps s0 s) (n : Nat) (f : Pav → Pav) : Keeps s0 (State.mapPav s n f) := by
  unfold State.mapPav
  grind (gen := 40) (ematch := 40) (splits := 40) -lia -ring -linarith [keeps_setPav, Keeps.update]

theorem keeps_showPv (hk : Keeps s0 s)  : Keeps s0 (State.showPv s) := by
  unfold State.showPv
  grind (gen := 40) (ematch := 40) (splits := 40) -lia -ring -linarith [keeps_put, Keeps.update]

theorem keeps_setPvState (hk : Keeps s0 s) (n st : Nat) : Keeps s0 (State.setPvState s n st) := by
  unfold State.setPvState
  grind (gen := 40) (ematch := 40) (splits := 40) -lia -ring -linarith [keeps_mapPav, keeps_put, keeps_showPv, Keeps.update]

theorem keeps_clearKern (hk : Keeps s0 s) (n : Nat) : Keeps s0 (State.clearKern s n) := by
  unfold State.clearKern
  grind (gen := 40) (ematch := 40) (splits := 40) -lia -ring -linarith [keeps_mapPav, keeps_put, Keeps.update]

theorem keeps_stopKern (hk : Keeps s0 s) (n : Nat) : Keeps s0 (State.stopKern s n) := by
  unfold State.stopKern
  grind (gen := 40) (ematch := 40) (splits := 40) -lia -ring -linarith [keeps_clearKern, keeps_setPvState, Keeps.update]

theorem keeps_countTile (hk : Keeps s0 s) (n a len : Nat) : Keeps s0 (State.countTile s n a len) := by
  unfold State.countTile
  grind (gen := 40) (ematch := 40) (splits := 40) -lia -ring -linarith [keeps_bump, Keeps.update]

theorem keeps_injectTile (hk : Keeps s0 s) (n a len : Nat) : Keeps s0 (State.injectTile s n a len) := by
  unfold State.injectTile
  grind (gen := 40) (ematch := 40) (splits := 40) -lia -ring -linarith [keeps_fresh, keeps_mapPav, keeps_put, Keeps.update]

theorem keeps_tileStore (hk : Keeps s0 s) (n a : Nat) (bs : List Byte) : Keeps s0 (State.tileStore s n a bs) := by
  unfold State.tileStore
  grind (gen := 40) (ematch := 40) (splits := 40) -lia -ring -linarith [keeps_injectTile, keeps_mapPav, Keeps.update]

theorem keeps_recordFault (hk : Keeps s0 s) (n cls itag pc addr : Nat) : Keeps s0 (State.recordFault s n cls itag pc addr) := by
  unfold State.recordFault
  grind (gen := 40) (ematch := 40) (splits := 40) -lia -ring -linarith [keeps_put, keeps_wr, Keeps.update]

end Sys2Proof.Machine
end

