-- ==== Sys2Proof/Laws/KeepsMooringOps.lean ====
section
/-! SUPPORT. What the operations of Machine/MooringOps.lean keep (Laws/Keeps.lean). -/

set_option Elab.async false

namespace Sys2Proof.Machine

variable {s0 s : State}

theorem keeps_setCtx (hk : Keeps s0 s) (m : Nat) (c : Option Ctx) : Keeps s0 (State.setCtx s m c) := by
  unfold State.setCtx
  grind (gen := 40) (ematch := 40) (splits := 40) -lia -ring -linarith [Keeps.update]

theorem keeps_storeCtx (hk : Keeps s0 s) (pages : List Nat) : Keeps s0 (State.storeCtx s pages) := by
  unfold State.storeCtx
  grind (gen := 40) (ematch := 40) (splits := 40) -lia -ring -linarith [keeps_storeWrite, Keeps.update, Keeps.foldl]

theorem keeps_readCtxLine (hk : Keeps s0 s) (line : Nat) : Keeps s0 (State.readCtxLine s line).1 := by
  unfold State.readCtxLine
  repeat' split
  all_goals grind (gen := 40) (ematch := 40) (splits := 40) -lia -ring -linarith [keeps_storeWrite, keeps_touchLine, Keeps.update]

theorem keeps_readCtx (hk : Keeps s0 s) (m : Nat) : Keeps s0 (State.readCtx s m) := by
  unfold State.readCtx
  grind (gen := 40) (ematch := 40) (splits := 40) -lia -ring -linarith [keeps_readCtxLine, keeps_setCtx, Keeps.update, Keeps.foldl, Keeps.foldlFst]

theorem keeps_mapColl (hk : Keeps s0 s) (ring seq : Nat) (f : Coll → Coll) : Keeps s0 (State.mapColl s ring seq f) := by
  unfold State.mapColl
  grind (gen := 40) (ematch := 40) (splits := 40) -lia -ring -linarith [Keeps.update]

theorem keeps_mapParcel (hk : Keeps s0 s) (ring seq k : Nat) (f : Parcel → Parcel) : Keeps s0 (State.mapParcel s ring seq k f) := by
  unfold State.mapParcel
  grind (gen := 40) (ematch := 40) (splits := 40) -lia -ring -linarith [keeps_mapColl, Keeps.update]

theorem keeps_showMoor (hk : Keeps s0 s) (m : Nat) : Keeps s0 (State.showMoor s m) := by
  unfold State.showMoor
  grind (gen := 40) (ematch := 40) (splits := 40) -lia -ring -linarith [keeps_put, Keeps.update, Keeps.foldl]

theorem keeps_showCtxs (hk : Keeps s0 s)  : Keeps s0 (State.showCtxs s) := by
  unfold State.showCtxs
  grind (gen := 40) (ematch := 40) (splits := 40) -lia -ring -linarith [keeps_put, Keeps.update]

theorem keeps_showFences (hk : Keeps s0 s) (m : Nat) : Keeps s0 (State.showFences s m) :=
  Keeps.foldl _ _ (keeps_put (keeps_put hk ..) ..) fun _ _ h => keeps_put h ..

theorem keeps_sendMember (hk : Keeps s0 s) (m i ctype pseq gidx len gran aux : Nat) (payload : List Byte) : Keeps s0 (State.sendMember s m i ctype pseq gidx len gran aux payload) := by
  unfold State.sendMember
  grind (gen := 40) (ematch := 40) (splits := 40) -lia -ring -linarith [keeps_build, keeps_sendPort, Keeps.update]

theorem keeps_sendGrant (hk : Keeps s0 s) (m i pseq : Nat) : Keeps s0 (State.sendGrant s m i pseq) := by
  unfold State.sendGrant
  grind (gen := 40) (ematch := 40) (splits := 40) -lia -ring -linarith [keeps_sendMember, Keeps.update]

theorem keeps_sendRereq (hk : Keeps s0 s) (c : Coll) (k e i : Nat) : Keeps s0 (State.sendRereq s c k e i) := by
  unfold State.sendRereq
  grind (gen := 40) (ematch := 40) (splits := 40) -lia -ring -linarith [keeps_bump, keeps_sendMember, Keeps.update]

theorem keeps_sendResult (hk : Keeps s0 s) (m i pseq e gran aux : Nat) (f : Fmt) (elems scales : List Byte) : Keeps s0 (State.sendResult s m i pseq e gran aux f elems scales) := by
  unfold State.sendResult
  grind (gen := 40) (ematch := 40) (splits := 40) -lia -ring -linarith [keeps_sendMember, Keeps.update, Keeps.foldl]

theorem keeps_showSpan (hk : Keeps s0 s) (j : Nat) : Keeps s0 (State.showSpan s j) := by
  unfold State.showSpan
  grind (gen := 40) (ematch := 40) (splits := 40) -lia -ring -linarith [keeps_put, Keeps.update, Keeps.foldl]

theorem keeps_showSpanOf (hk : Keeps s0 s) (m : Nat) : Keeps s0 (State.showSpanOf s m) := by
  unfold State.showSpanOf
  grind (gen := 40) (ematch := 40) (splits := 40) -lia -ring -linarith [keeps_showSpan, Keeps.update]

theorem keeps_dropColl (hk : Keeps s0 s) (c : Coll) : Keeps s0 (State.dropColl s c) := by
  unfold State.dropColl
  grind (gen := 40) (ematch := 40) (splits := 40) -lia -ring -linarith [keeps_showMoor, keeps_showSpanOf, keeps_stopKern, Keeps.update, Keeps.foldl]

theorem keeps_stopColl (hk : Keeps s0 s) (ring seq status detail : Nat) (member : Option Nat) : Keeps s0 (State.stopColl s ring seq status detail member) := by
  unfold State.stopColl
  grind (gen := 40) (ematch := 40) (splits := 40) -lia -ring -linarith [keeps_dropColl, keeps_endCmd, Keeps.update]

theorem keeps_stopMoor (hk : Keeps s0 s) (m status : Nat) (member : Option Nat) : Keeps s0 (State.stopMoor s m status member) := by
  unfold State.stopMoor
  grind (gen := 40) (ematch := 40) (splits := 40) -lia -ring -linarith [keeps_stopColl, Keeps.update, Keeps.foldl]

theorem keeps_fenceByVerdict (hk : Keeps s0 s) (m : Nat) : Keeps s0 (State.fenceByVerdict s m) := by
  unfold State.fenceByVerdict
  grind (gen := 40) (ematch := 40) (splits := 40) -lia -ring -linarith [keeps_put, Keeps.update]

theorem keeps_fence (hk : Keeps s0 s) (m i : Nat) (verdict : Bool) : Keeps s0 (State.fence s m i verdict) := by
  unfold State.fence
  grind (gen := 40) (ematch := 40) (splits := 40) -lia -ring -linarith [keeps_fenceByVerdict, keeps_put, keeps_setCtx, keeps_showFences, keeps_stopMoor, Keeps.update]

end Sys2Proof.Machine
end

