-- ==== Sys2Proof/Laws/KeepsBwOps.lean ====
section
/-! SUPPORT. What the operations of Machine/BwOps.lean keep (Laws/Keeps.lean). -/

set_option Elab.async false

namespace Sys2Proof.Machine

variable {s0 s : State}

theorem keeps_setSlot (hk : Keeps s0 s) (i : Nat) (x : BwSlot) : Keeps s0 (State.setSlot s i x) := by
  unfold State.setSlot
  grind (gen := 40) (ematch := 40) (splits := 40) -lia -ring -linarith [Keeps.update]

theorem keeps_mapSlot (hk : Keeps s0 s) (i : Nat) (f : BwSlot → BwSlot) : Keeps s0 (State.mapSlot s i f) := by
  unfold State.mapSlot
  grind (gen := 40) (ematch := 40) (splits := 40) -lia -ring -linarith [keeps_setSlot, Keeps.update]

theorem keeps_setSlotState (hk : Keeps s0 s) (i st : Nat) : Keeps s0 (State.setSlotState s i st) := by
  unfold State.setSlotState
  grind (gen := 40) (ematch := 40) (splits := 40) -lia -ring -linarith [keeps_mapSlot, keeps_put, Keeps.update]

theorem keeps_showSlot (hk : Keeps s0 s) (i : Nat) : Keeps s0 (State.showSlot s i) := by
  unfold State.showSlot
  grind (gen := 40) (ematch := 40) (splits := 40) -lia -ring -linarith [keeps_put, Keeps.update]

theorem keeps_sendKeyx (hk : Keeps s0 s) (i : Nat) (msg : List Byte) : Keeps s0 (State.sendKeyx s i msg) := by
  unfold State.sendKeyx
  grind (gen := 40) (ematch := 40) (splits := 40) -lia -ring -linarith [keeps_send, Keeps.update]

theorem keeps_askRekey (hk : Keeps s0 s) (i : Nat) : Keeps s0 (State.askRekey s i) := by
  unfold State.askRekey
  grind (gen := 40) (ematch := 40) (splits := 40) -lia -ring -linarith [keeps_fresh, keeps_sendKeyx, keeps_setSlot, Keeps.update, Keeps.bumpFree]

theorem keeps_sendBw (hk : Keeps s0 s) (i : Nat) (h : BwHdr) (payload : List Byte) : Keeps s0 (State.sendBw s i h payload) := by
  unfold State.sendBw
  grind (gen := 40) (ematch := 40) (splits := 40) -lia -ring -linarith [keeps_askRekey, keeps_put, keeps_send, Keeps.update]

theorem keeps_enterResync (hk : Keeps s0 s) (i : Nat) : Keeps s0 (State.enterResync s i) := by
  unfold State.enterResync
  grind (gen := 40) (ematch := 40) (splits := 40) -lia -ring -linarith [keeps_askRekey, keeps_sendBw, keeps_setSlotState, Keeps.update]

theorem keeps_dropHeld (hk : Keeps s0 s) (i : Nat) : Keeps s0 (State.dropHeld s i) := by
  unfold State.dropHeld
  grind (gen := 40) (ematch := 40) (splits := 40) -lia -ring -linarith [keeps_bump, keeps_enterResync, keeps_setSlot, keeps_showSlot, Keeps.update]

theorem keeps_enterOutage (hk : Keeps s0 s) (i : Nat) : Keeps s0 (State.enterOutage s i) := by
  unfold State.enterOutage
  grind (gen := 40) (ematch := 40) (splits := 40) -lia -ring -linarith [keeps_dropHeld, keeps_setSlotState, Keeps.update]

theorem keeps_slotLinkDown (hk : Keeps s0 s) (p : Nat) : Keeps s0 (State.slotLinkDown s p) := by
  unfold State.slotLinkDown
  grind (gen := 40) (ematch := 40) (splits := 40) -lia -ring -linarith [keeps_enterOutage, Keeps.update]

theorem keeps_slotLinkUp (hk : Keeps s0 s) (p : Nat) : Keeps s0 (State.slotLinkUp s p) := by
  unfold State.slotLinkUp
  grind (gen := 40) (ematch := 40) (splits := 40) -lia -ring -linarith [keeps_enterResync, Keeps.update]

theorem keeps_closeBlock (hk : Keeps s0 s) (i : Nat) : Keeps s0 (State.closeBlock s i) := by
  unfold State.closeBlock
  grind (gen := 40) (ematch := 40) (splits := 40) -lia -ring -linarith [keeps_mapSlot, keeps_sendBw, Keeps.update, Keeps.foldl]

theorem keeps_bwSend (hk : Keeps s0 s) (i : Nat) (isPartial : Bool) (payload : List Byte) : Keeps s0 (State.bwSend s i isPartial payload) := by
  unfold State.bwSend
  grind (gen := 40) (ematch := 40) (splits := 40) -lia -ring -linarith [keeps_closeBlock, keeps_put, keeps_sendBw, keeps_setSlot, keeps_showSlot, Keeps.update]

theorem keeps_drainPartials (hk : Keeps s0 s) (i n : Nat) : Keeps s0 (State.drainPartials s i n) := by
  induction n generalizing s with
  | zero => exact hk
  | succ n ih =>
    unfold State.drainPartials
    grind (gen := 40) (ematch := 40) -lia -ring -linarith [keeps_bwSend, keeps_setSlot]

theorem keeps_sendPartial (hk : Keeps s0 s) (i : Nat) (payload : List Byte) : Keeps s0 (State.sendPartial s i payload) := by
  unfold State.sendPartial
  grind (gen := 40) (ematch := 40) (splits := 40) -lia -ring -linarith [keeps_drainPartials, keeps_mapSlot, Keeps.update]

theorem keeps_sendForm (hk : Keeps s0 s) (c : Coll) (j k e form : Nat) (stow : Bool) (bytes : List Byte) : Keeps s0 (State.sendForm s c j k e form stow bytes) := by
  unfold State.sendForm
  grind (gen := 40) (ematch := 40) (splits := 40) -lia -ring -linarith [keeps_sendPartial, Keeps.update, Keeps.foldl]

end Sys2Proof.Machine
end

