-- ==== Sys2Proof/Laws/KeepsKernels.lean ====
section
/-! SUPPORT. What the operations of Machine/Kernels.lean keep (Laws/Keeps.lean). -/

set_option Elab.async false

namespace Sys2Proof.Machine

variable {s0 s : State}

theorem keeps_mapLaunch (hk : Keeps s0 s) (ring seq : Nat) (f : Launch → Launch) : Keeps s0 (State.mapLaunch s ring seq f) := by
  unfold State.mapLaunch
  grind (gen := 40) (ematch := 40) (splits := 40) -lia -ring -linarith [Keeps.update]

theorem keeps_launchDone (hk : Keeps s0 s) (ring seq : Nat) : Keeps s0 (State.launchDone s ring seq) := by
  unfold State.launchDone
  grind (gen := 40) (ematch := 40) (splits := 40) -lia -ring -linarith [keeps_endCmd, Keeps.update]

theorem keeps_launchLeft (hk : Keeps s0 s) (ring seq n : Nat) (fail : Option (Nat × Nat)) : Keeps s0 (State.launchLeft s ring seq n fail) := by
  unfold State.launchLeft
  grind (gen := 40) (ematch := 40) (splits := 40) -lia -ring -linarith [keeps_launchDone, keeps_mapLaunch, Keeps.update]

theorem keeps_dropLaunch (hk : Keeps s0 s) (ring seq : Nat) : Keeps s0 (State.dropLaunch s ring seq) := by
  unfold State.dropLaunch
  grind (gen := 40) (ematch := 40) (splits := 40) -lia -ring -linarith [keeps_stopKern, Keeps.update, Keeps.foldl]

theorem keeps_raiseFault (hk : Keeps s0 s) (n cls itag pc addr : Nat) : Keeps s0 (State.raiseFault s n cls itag pc addr) := by
  unfold State.raiseFault
  grind (gen := 40) (ematch := 40) (splits := 40) -lia -ring -linarith [keeps_clearKern, keeps_launchLeft, keeps_mapPav, keeps_recordFault, keeps_setPvState, keeps_stopColl, Keeps.update]

theorem keeps_seedAll (hk : Keeps s0 s)  : Keeps s0 (State.seedAll s) := by
  unfold State.seedAll
  grind (gen := 40) (ematch := 40) (splits := 40) -lia -ring -linarith [keeps_mapPav, Keeps.update, Keeps.foldl]

theorem keeps_sampleWrite (hk : Keeps s0 s) (bytes : List Byte) : Keeps s0 (State.sampleWrite s bytes) := by
  unfold State.sampleWrite
  split
  · exact hk
  · dsimp only
    split
    · exact keeps_bump hk ..
    · exact keeps_tally (keeps_put (keeps_dockWrite hk ..) ..) ..

theorem keeps_sampleOne (hk : Keeps s0 s) (n pc opcode tag : Nat) (k : Kern) (fault : Bool) (addr : Nat) (issue : Option Nat) : Keeps s0 (State.sampleOne s n pc opcode tag k fault addr issue) := by
  unfold State.sampleOne
  grind (gen := 40) (ematch := 40) (splits := 40) -lia -ring -linarith [keeps_fresh, keeps_mapPav, keeps_sampleWrite, keeps_setPav, Keeps.update]

theorem keeps_sampleOut (hk : Keeps s0 s) (o : Outst) (fault : Bool) : Keeps s0 (State.sampleOut s o fault) := by
  unfold State.sampleOut
  grind (gen := 40) (ematch := 40) (splits := 40) -lia -ring -linarith [keeps_sampleWrite, Keeps.update]

theorem keeps_retire (hk : Keeps s0 s) (n opcode bytes tag addr : Nat) (k : Kern) (pc : Nat) (dest : Option Nat) (issue : Option Nat) : Keeps s0 (State.retire s n opcode bytes tag addr k pc dest issue) := by
  unfold State.retire
  grind (gen := 40) (ematch := 40) (splits := 40) -lia -ring -linarith [keeps_mapPav, keeps_sampleOne, Keeps.update]

theorem keeps_beloc (hk : Keeps s0 s) (n : Nat) (g : Guard) (opcode bytes : Nat) (f : Pav → Kern → Res)
    (hf : ∀ p k, ResKeeps s0 (f p k)) : Keeps s0 (State.beloc s n g opcode bytes f) := by
  unfold State.beloc
  dsimp only
  split
  · exact hk
  · rename_i k hkern
    split
    · exact hk
    · split
      · exact keeps_raiseFault (keeps_touchLine hk ..) ..
      · split
        · exact keeps_raiseFault (keeps_sampleOne hk ..) ..
        · split
          · exact keeps_setPav hk ..
          · split
            · exact keeps_raiseFault (keeps_sampleOne hk ..) ..
            · have hr := hf (s.pav n) k
              revert hr
              cases f (s.pav n) k <;> intro hr
              · exact keeps_retire hr ..
              · exact keeps_retire hr ..
              · exact hk
              · exact keeps_raiseFault (keeps_sampleOne hr ..) ..
              · exact keeps_raiseFault (keeps_sampleOne (keeps_mapPav hr ..) ..) ..
              · exact keeps_setPvState (keeps_mapPav hk ..) ..

theorem keeps_doneWith (hk : Keeps s0 s) (n : Nat) (p : Pav) : ResKeeps s0 (State.doneWith s n p) := by
  unfold State.doneWith
  grind (gen := 40) (ematch := 40) (splits := 40) -lia -ring -linarith [keeps_setPav, Keeps.update, ResKeeps.ofDone, ResKeeps.ofJump, ResKeeps.ofStall, ResKeeps.ofWait, ResKeeps.ofFault, ResKeeps.ofTagged]

theorem keeps_tileAccess (hk : Keeps s0 s) (p : Pav) (a len al : Nat) (f : Unit → Res) (hf : ∀ x0, ResKeeps s0 (f x0)) : ResKeeps s0 (State.tileAccess s p a len al f) := by
  unfold State.tileAccess
  grind (gen := 40) (ematch := 40) (splits := 40) -lia -ring -linarith [Keeps.update, ResKeeps.ofDone, ResKeeps.ofJump, ResKeeps.ofStall, ResKeeps.ofWait, ResKeeps.ofFault, ResKeeps.ofTagged]

theorem keeps_tileRead (hk : Keeps s0 s) (n : Nat) (p : Pav) (a len al : Nat) (f : State → List Byte → Res) (hf : ∀ x0 x1, Keeps s0 x0 → ResKeeps s0 (f x0 x1)) : ResKeeps s0 (State.tileRead s n p a len al f) := by
  unfold State.tileRead
  grind (gen := 40) (ematch := 40) (splits := 40) -lia -ring -linarith [keeps_countTile, keeps_tileAccess, Keeps.update, ResKeeps.ofDone, ResKeeps.ofJump, ResKeeps.ofStall, ResKeeps.ofWait, ResKeeps.ofFault, ResKeeps.ofTagged]

theorem keeps_tileWrite (hk : Keeps s0 s) (n : Nat) (p : Pav) (a al : Nat) (bs : List Byte) : ResKeeps s0 (State.tileWrite s n p a al bs) := by
  unfold State.tileWrite
  grind (gen := 40) (ematch := 40) (splits := 40) -lia -ring -linarith [keeps_tileAccess, keeps_tileStore, Keeps.update, ResKeeps.ofDone, ResKeeps.ofJump, ResKeeps.ofStall, ResKeeps.ofWait, ResKeeps.ofFault, ResKeeps.ofTagged]

theorem keeps_codecDone (hk : Keeps s0 s) (p : Pav) (k : Kern) (w : Codec) : Keeps s0 (State.codecDone s p k w) := by
  unfold State.codecDone
  grind (gen := 40) (ematch := 40) (splits := 40) -lia -ring -linarith [keeps_mapParcel, keeps_sendForm, Keeps.update]

theorem keeps_endKernel (hk : Keeps s0 s) (n code : Nat) : Keeps s0 (State.endKernel s n code) := by
  unfold State.endKernel
  grind (gen := 40) (ematch := 40) (splits := 40) -lia -ring -linarith [keeps_clearKern, keeps_codecDone, keeps_countTile, keeps_launchLeft, keeps_mapParcel, keeps_raiseFault, keeps_setPvState, keeps_stopColl, Keeps.update, Keeps.foldl]

end Sys2Proof.Machine
end

