-- ==== Sys2Proof/Laws/KeepsScalar.lean ====
section
/-! SUPPORT. What the operations of Machine/Scalar.lean keep (Laws/Keeps.lean). -/

set_option Elab.async false

namespace Sys2Proof.Machine

variable {s0 s : State}

theorem keeps_scalarOp (hk : Keeps s0 s) (n : Nat) (g : Guard) (opcode : Nat) (rd : BitVec 5) (v : Pav → Word64) : Keeps s0 (State.scalarOp s n g opcode rd v) := by
  unfold State.scalarOp
  grind (gen := 40) (ematch := 40) (splits := 40) -lia -ring -linarith [keeps_beloc, keeps_doneWith, Keeps.update]

theorem keeps_aluOp (hk : Keeps s0 s) (n : Nat) (g : Guard) (rd rs1 rs2 : BitVec 5) (f : Word64 → Word64 → Word64) : Keeps s0 (State.aluOp s n g rd rs1 rs2 f) := by
  unfold State.aluOp
  grind (gen := 40) (ematch := 40) (splits := 40) -lia -ring -linarith [keeps_scalarOp, Keeps.update]

theorem keeps_immOp (hk : Keeps s0 s) (n : Nat) (g : Guard) (opcode : Nat) (rd rs1 : BitVec 5) (imm : BitVec 11) (f : Word64 → Word64 → Word64) : Keeps s0 (State.immOp s n g opcode rd rs1 imm f) := by
  unfold State.immOp
  grind (gen := 40) (ematch := 40) (splits := 40) -lia -ring -linarith [keeps_scalarOp, Keeps.update]

theorem keeps_predOp (hk : Keeps s0 s) (n : Nat) (g : Guard) (opcode : Nat) (pd : BitVec 3) (v : Pav → Bool) : Keeps s0 (State.predOp s n g opcode pd v) := by
  unfold State.predOp
  grind (gen := 40) (ematch := 40) (splits := 40) -lia -ring -linarith [keeps_beloc, keeps_doneWith, Keeps.update]

theorem keeps_loadOp (hk : Keeps s0 s) (n : Nat) (g : Guard) (opcode w : Nat) (rd rs1 : BitVec 5) (imm : BitVec 11) : Keeps s0 (State.loadOp s n g opcode w rd rs1 imm) := by
  unfold State.loadOp
  grind (gen := 40) (ematch := 40) (splits := 40) -lia -ring -linarith [keeps_beloc, keeps_setPav, keeps_tileRead, Keeps.update, ResKeeps.ofDone, ResKeeps.ofJump, ResKeeps.ofStall, ResKeeps.ofWait, ResKeeps.ofFault, ResKeeps.ofTagged]

theorem keeps_storeOp (hk : Keeps s0 s) (n : Nat) (g : Guard) (opcode w : Nat) (rs2 rs1 : BitVec 5) (imm : BitVec 11) : Keeps s0 (State.storeOp s n g opcode w rs2 rs1 imm) := by
  unfold State.storeOp
  grind (gen := 40) (ematch := 40) (splits := 40) -lia -ring -linarith [keeps_beloc, keeps_tileWrite, Keeps.update]

theorem keeps_branchTo (hk : Keeps s0 s) (n : Nat) (k : Kern) (p' : Pav) (t : Nat) : ResKeeps s0 (State.branchTo s n k p' t) := by
  unfold State.branchTo
  grind (gen := 40) (ematch := 40) (splits := 40) -lia -ring -linarith [keeps_setPav, Keeps.update, ResKeeps.ofDone, ResKeeps.ofJump, ResKeeps.ofStall, ResKeeps.ofWait, ResKeeps.ofFault, ResKeeps.ofTagged]

end Sys2Proof.Machine
end

