-- ==== Sys2Proof/Laws/KeepsVector.lean ====
section
/-! SUPPORT. What the operations of Machine/Vector.lean keep (Laws/Keeps.lean). -/

set_option Elab.async false

namespace Sys2Proof.Machine

variable {s0 s : State}

theorem keeps_vdone (hk : Keeps s0 s) (n : Nat) (p : Pav) : ResKeeps s0 (State.vdone s n p) := by
  unfold State.vdone
  grind (gen := 40) (ematch := 40) (splits := 40) -lia -ring -linarith [keeps_advance, keeps_setPav, Keeps.update, ResKeeps.ofDone, ResKeeps.ofJump, ResKeeps.ofStall, ResKeeps.ofWait, ResKeeps.ofFault, ResKeeps.ofTagged]

theorem keeps_vecOp (hk : Keeps s0 s) (n : Nat) (g : Guard) (opcode : Nat) (legal : Bool) (ty : BitVec 2) (vd : BitVec 5) (srcs : Pav → Nat → List Word32) (f : List Nat → Nat × Nat) : Keeps s0 (State.vecOp s n g opcode legal ty vd srcs f) := by
  unfold State.vecOp
  grind (gen := 40) (ematch := 40) (splits := 40) -lia -ring -linarith [keeps_beloc, keeps_vdone, Keeps.update, ResKeeps.ofDone, ResKeeps.ofJump, ResKeeps.ofStall, ResKeeps.ofWait, ResKeeps.ofFault, ResKeeps.ofTagged]

theorem keeps_vv (hk : Keeps s0 s) (o : VOp) (n : Nat) (g : Guard) (ty : BitVec 2) (vd vs1 vs2 : BitVec 5) : Keeps s0 (State.vv s o n g ty vd vs1 vs2) := by
  unfold State.vv
  grind (gen := 40) (ematch := 40) (splits := 40) -lia -ring -linarith [keeps_vecOp, Keeps.update]

theorem keeps_vs (hk : Keeps s0 s) (o : VOp) (n : Nat) (g : Guard) (ty : BitVec 2) (vd vs1 rs2 : BitVec 5) : Keeps s0 (State.vs s o n g ty vd vs1 rs2) := by
  unfold State.vs
  grind (gen := 40) (ematch := 40) (splits := 40) -lia -ring -linarith [keeps_vecOp, Keeps.update]

theorem keeps_vfmaOp (hk : Keeps s0 s) (n : Nat) (g : Guard) (ty : BitVec 2) (vd vs1 vs2 : BitVec 5) (negP negC : Bool) : Keeps s0 (State.vfmaOp s n g ty vd vs1 vs2 negP negC) := by
  unfold State.vfmaOp
  grind (gen := 40) (ematch := 40) (splits := 40) -lia -ring -linarith [keeps_vecOp, Keeps.update]

end Sys2Proof.Machine
end

