-- ==== Sys2Proof/Laws/KeepsExactIns.lean ====
section
/-! SUPPORT. What the operations of Machine/ExactIns.lean keep (Laws/Keeps.lean). -/

set_option Elab.async false

namespace Sys2Proof.Machine

variable {s0 s : State}

theorem keeps_roundOut (hk : Keeps s0 s) (n : Nat) (p : Pav) (f : Fmt) (vd : BitVec 5) (lane : Nat → Exact) : Keeps s0 (State.roundOut s n p f vd lane) := by
  unfold State.roundOut
  grind (gen := 40) (ematch := 40) (splits := 40) -lia -ring -linarith [keeps_fresh, keeps_setPav, Keeps.update]

theorem keeps_blockRead (hk : Keeps s0 s) (n : Nat) (p : Pav) (rs1 : BitVec 5) (f : State → Nat → List Byte → Res) (hf : ∀ x0 x1 x2, Keeps s0 x0 → ResKeeps s0 (f x0 x1 x2)) : ResKeeps s0 (State.blockRead s n p rs1 f) := by
  unfold State.blockRead
  grind (gen := 40) (ematch := 40) (splits := 40) -lia -ring -linarith [keeps_tileRead, Keeps.update, ResKeeps.ofDone, ResKeeps.ofJump, ResKeeps.ofStall, ResKeeps.ofWait, ResKeeps.ofFault, ResKeeps.ofTagged]

end Sys2Proof.Machine
end

