-- ==== Sys2Proof/Laws/KeepsTensor.lean ====
section
/-! SUPPORT. What the operations of Machine/Tensor.lean keep (Laws/Keeps.lean). -/

set_option Elab.async false

namespace Sys2Proof.Machine

variable {s0 s : State}

theorem keeps_setLevel (hk : Keeps s0 s) (n array l : Nat) : Keeps s0 (State.setLevel s n array l) := by
  unfold State.setLevel
  grind (gen := 40) (ematch := 40) (splits := 40) -lia -ring -linarith [keeps_mapPav, keeps_put, Keeps.update]

theorem keeps_present (hk : Keeps s0 s) (n array till : Nat) : Keeps s0 (State.present s n array till) := by
  unfold State.present
  grind (gen := 40) (ematch := 40) (splits := 40) -lia -ring -linarith [keeps_mapPav, keeps_setLevel, Keeps.update]

theorem keeps_dropOut (hk : Keeps s0 s) (n tag : Nat) : Keeps s0 (State.dropOut s n tag) := by
  unfold State.dropOut
  grind (gen := 40) (ematch := 40) (splits := 40) -lia -ring -linarith [keeps_mapPav, Keeps.update]

theorem keeps_faultOut (hk : Keeps s0 s) (n : Nat) (o : Outst) (cls addr : Nat) : Keeps s0 (State.faultOut s n o cls addr) := by
  unfold State.faultOut
  grind (gen := 40) (ematch := 40) (splits := 40) -lia -ring -linarith [keeps_dropOut, keeps_raiseFault, keeps_sampleOut, Keeps.update]

end Sys2Proof.Machine
end

