-- ==== Sys2Proof/Laws/KeepsBhOps.lean ====
section
/-! SUPPORT. What the operations of Machine/BhOps.lean keep (Laws/Keeps.lean). -/

set_option Elab.async false

namespace Sys2Proof.Machine

variable {s0 s : State}

theorem keeps_setShard (hk : Keeps s0 s) (n : Nat) (x : Option Shard) : Keeps s0 (State.setShard s n x) := by
  unfold State.setShard
  grind (gen := 40) (ematch := 40) (splits := 40) -lia -ring -linarith [Keeps.update]

theorem keeps_mapShard (hk : Keeps s0 s) (n : Nat) (f : Shard → Shard) : Keeps s0 (State.mapShard s n f) := by
  unfold State.mapShard
  grind (gen := 40) (ematch := 40) (splits := 40) -lia -ring -linarith [keeps_setShard, Keeps.update]

theorem keeps_showShard (hk : Keeps s0 s) (n : Nat) : Keeps s0 (State.showShard s n) := by
  unfold State.showShard
  grind (gen := 40) (ematch := 40) (splits := 40) -lia -ring -linarith [keeps_put, keeps_wr, Keeps.update]

theorem keeps_showShards (hk : Keeps s0 s)  : Keeps s0 (State.showShards s) := by
  unfold State.showShards
  grind (gen := 40) (ematch := 40) (splits := 40) -lia -ring -linarith [keeps_put, Keeps.update]

theorem keeps_setShardState (hk : Keeps s0 s) (n st : Nat) : Keeps s0 (State.setShardState s n st) := by
  unfold State.setShardState
  grind (gen := 40) (ematch := 40) (splits := 40) -lia -ring -linarith [keeps_put, keeps_showShard, keeps_showShards, Keeps.update]

theorem keeps_readBlock (hk : Keeps s0 s) (x : Shard) (b : Nat) : Keeps s0 (State.readBlock s x b).1 := by
  unfold State.readBlock
  repeat' split
  all_goals grind (gen := 40) (ematch := 40) (splits := 40) -lia -ring -linarith [keeps_dockRead, Keeps.update]

theorem keeps_writeBlock (hk : Keeps s0 s) (x : Shard) (b : Nat) (bs : List Byte) : Keeps s0 (State.writeBlock s x b bs) := by
  unfold State.writeBlock
  grind (gen := 40) (ematch := 40) (splits := 40) -lia -ring -linarith [keeps_dockWrite, Keeps.update]

theorem keeps_stowAt (hk : Keeps s0 s) (a b : Nat) : Keeps s0 (State.stowAt s a b).1 := by
  unfold State.stowAt
  repeat' split
  all_goals grind (gen := 40) (ematch := 40) (splits := 40) -lia -ring -linarith [keeps_whRead, Keeps.update]

theorem keeps_dockBlock (hk : Keeps s0 s) (x : Shard) (want : Word64) (b : Nat) : Keeps s0 (State.dockBlock s x want b).1 := by
  unfold State.dockBlock
  repeat' split
  all_goals grind (gen := 40) (ematch := 40) (splits := 40) -lia -ring -linarith [keeps_readBlock, Keeps.update]

theorem keeps_copyBlockOf (hk : Keeps s0 s) (x : Shard) (epoch : Nat) (want : Word64) (b : Nat) : Keeps s0 (State.copyBlockOf s x epoch want b).1 := by
  unfold State.copyBlockOf
  repeat' split
  all_goals grind (gen := 40) (ematch := 40) (splits := 40) -lia -ring -linarith [keeps_stowAt, Keeps.update]

theorem keeps_epochBlock (hk : Keeps s0 s) (x : Shard) (epoch : Nat) (want : Word64) (b : Nat) : Keeps s0 (State.epochBlock s x epoch want b).1 := by
  unfold State.epochBlock
  repeat' split
  all_goals grind (gen := 40) (ematch := 40) (splits := 40) -lia -ring -linarith [keeps_copyBlockOf, keeps_dockBlock, Keeps.update]

theorem keeps_durableFail (hk : Keeps s0 s) (f : Freeze) : Keeps s0 (State.durableFail s f) := by
  unfold State.durableFail
  grind (gen := 40) (ematch := 40) (splits := 40) -lia -ring -linarith [keeps_evFailTo, Keeps.update]

theorem keeps_failDurability (hk : Keeps s0 s) (n : Nat) : Keeps s0 (State.failDurability s n) := by
  unfold State.failDurability
  grind (gen := 40) (ematch := 40) (splits := 40) -lia -ring -linarith [keeps_durableFail, keeps_mapShard, keeps_showShard, keeps_showShards, Keeps.update]

theorem keeps_copyFail (hk : Keeps s0 s) (n : Nat) : Keeps s0 (State.copyFail s n) := by
  unfold State.copyFail
  grind (gen := 40) (ematch := 40) (splits := 40) -lia -ring -linarith [keeps_failDurability, keeps_put, Keeps.update]

theorem keeps_copyBlock (hk : Keeps s0 s) (n b : Nat) : Keeps s0 (State.copyBlock s n b) := by
  unfold State.copyBlock
  grind (gen := 40) (ematch := 40) (splits := 40) -lia -ring -linarith [keeps_copyFail, keeps_mapShard, keeps_readBlock, keeps_showShard, keeps_tally, keeps_whWrite, Keeps.update]

theorem keeps_copyAhead (hk : Keeps s0 s) (n b : Nat) : Keeps s0 (State.copyAhead s n b) := by
  unfold State.copyAhead
  grind (gen := 40) (ematch := 40) (splits := 40) -lia -ring -linarith [keeps_copyBlock, Keeps.update]

theorem keeps_sendBh (hk : Keeps s0 s) (ep : Nat) (x : BhExt) (payload : List Byte) : Keeps s0 (State.sendBh s ep x payload) := by
  unfold State.sendBh
  grind (gen := 40) (ematch := 40) (splits := 40) -lia -ring -linarith [keeps_build, keeps_fresh, keeps_sendTo, Keeps.update]

theorem keeps_askBh (hk : Keeps s0 s) (ep : Nat) (x : BhExt) (payload : List Byte) : Keeps s0 (State.askBh s ep x payload) := by
  unfold State.askBh
  grind (gen := 40) (ematch := 40) (splits := 40) -lia -ring -linarith [keeps_sendBh, Keeps.update]

theorem keeps_answered (hk : Keeps s0 s) (src : Nat) (x : BhExt) : Keeps s0 (State.answered s src x) := by
  unfold State.answered
  grind (gen := 40) (ematch := 40) (splits := 40) -lia -ring -linarith [Keeps.update]

end Sys2Proof.Machine
end

