-- ==== Sys2Proof/Laws/KeepsTransfer.lean ====
section
/-! SUPPORT. What the operations of Machine/Transfer.lean keep (Laws/Keeps.lean). -/

set_option Elab.async false

namespace Sys2Proof.Machine

variable {s0 s : State}

theorem keeps_slipWrite (hk : Keeps s0 s) (a : Nat) (bs : List Byte) : Keeps s0 (State.slipWrite s a bs) := by
  unfold State.slipWrite
  grind (gen := 40) (ematch := 40) (splits := 40) -lia -ring -linarith [Keeps.update, Keeps.foldl]

theorem keeps_fetch (hk : Keeps s0 s) (k : Kern) (a : Word64) (n : Nat) (bad : Bool) : Keeps s0 (State.fetch s k a n bad).1 := by
  unfold State.fetch
  repeat' split
  all_goals grind (gen := 40) (ematch := 40) (splits := 40) -lia -ring -linarith [keeps_memRead, Keeps.update]

theorem keeps_transfer (hk : Keeps s0 s) (n : Nat) (p : Pav) (rt rl rm ra : BitVec 5) (f : Nat → Nat → Word64 → Res) (hf : ∀ x0 x1 x2, ResKeeps s0 (f x0 x1 x2)) : ResKeeps s0 (State.transfer s n p rt rl rm ra f) := by
  unfold State.transfer
  grind (gen := 40) (ematch := 40) (splits := 40) -lia -ring -linarith [keeps_setPav, Keeps.update, ResKeeps.ofDone, ResKeeps.ofJump, ResKeeps.ofStall, ResKeeps.ofWait, ResKeeps.ofFault, ResKeeps.ofTagged]

theorem keeps_granuleReset (hk : Keeps s0 s) (ring seq k e : Nat) : Keeps s0 (State.granuleReset s ring seq k e) := by
  unfold State.granuleReset
  grind (gen := 40) (ematch := 40) (splits := 40) -lia -ring -linarith [keeps_mapColl, keeps_mapParcel, keeps_sendRereq, keeps_stopColl, keeps_stopKern, keeps_tally, Keeps.update, Keeps.foldl]

end Sys2Proof.Machine
end

