-- ==== Sys2Proof/Laws/KeepsSync.lean ====
section
/-! SUPPORT. What the operations of Machine/Sync.lean keep (Laws/Keeps.lean). -/

set_option Elab.async false

namespace Sys2Proof.Machine

variable {s0 s : State}

theorem keeps_waitOver (hk : Keeps s0 s) (n : Nat) (w : PvWait) (t : State) (e : (State.waitOver s n w) = some t) : Keeps s0 t := by
  unfold State.waitOver at e
  grind (gen := 40) (ematch := 40) (splits := 40) -lia -ring -linarith [keeps_endKernel, keeps_evAdd, keeps_fence, keeps_setPav, Keeps.update, Option.bind_eq_some_iff, Option.map_eq_some_iff]

theorem keeps_syncOp (hk : Keeps s0 s) (n : Nat) (w : PvWait) : ResKeeps s0 (State.syncOp s n w) := by
  unfold State.syncOp
  grind (gen := 40) (ematch := 40) (splits := 40) -lia -ring -linarith [keeps_waitOver, Keeps.update, ResKeeps.ofDone, ResKeeps.ofJump, ResKeeps.ofStall, ResKeeps.ofWait, ResKeeps.ofFault, ResKeeps.ofTagged]

theorem keeps_withEvent (hk : Keeps s0 s) (p : Pav) (k : Kern) (rs1 : BitVec 5) (f : Nat → Res) (hf : ∀ x0, ResKeeps s0 (f x0)) : ResKeeps s0 (State.withEvent s p k rs1 f) := by
  unfold State.withEvent
  grind (gen := 40) (ematch := 40) (splits := 40) -lia -ring -linarith [Keeps.update, ResKeeps.ofDone, ResKeeps.ofJump, ResKeeps.ofStall, ResKeeps.ofWait, ResKeeps.ofFault, ResKeeps.ofTagged]

end Sys2Proof.Machine
end

