-- ==== Sys2Proof/Laws/KeepsGate.lean ====
section
/-! SUPPORT. What the operations of Machine/Gate.lean keep (Laws/Keeps.lean). -/

set_option Elab.async false

namespace Sys2Proof.Machine

variable {s0 s : State}

theorem keeps_formPartial (hk : Keeps s0 s) (c : Coll) (x : Parcel) (e : Nat) : Keeps s0 (State.formPartial s c x e) := by
  unfold State.formPartial
  grind (gen := 40) (ematch := 40) (splits := 40) -lia -ring -linarith [keeps_bump, keeps_mapParcel, keeps_sendForm, keeps_tally, Keeps.update, Keeps.foldl]

theorem keeps_formReady (hk : Keeps s0 s) (ring seq k : Nat) : Keeps s0 (State.formReady s ring seq k) := by
  unfold State.formReady
  grind (gen := 40) (ematch := 40) (splits := 40) -lia -ring -linarith [keeps_formPartial, Keeps.update, Keeps.foldl]

theorem keeps_unsteer (hk : Keeps s0 s) (p : Nat) (pkt : Packet) : Keeps s0 (State.unsteer s p pkt) := by
  unfold State.unsteer
  grind (gen := 40) (ematch := 40) (splits := 40) -lia -ring -linarith [keeps_freeCells, keeps_grantAll, Keeps.update]

theorem keeps_land (hk : Keeps s0 s) (p : Nat) (pkt : Packet) (c : Coll) (x : Parcel) (w0 w1 w2 : Word64) : Keeps s0 (State.land s p pkt c x w0 w1 w2) := by
  unfold State.land
  grind (gen := 40) (ematch := 40) (splits := 40) -lia -ring -linarith [keeps_bump, keeps_formReady, keeps_mapParcel, keeps_unsteer, Keeps.update]

theorem keeps_takeIn (hk : Keeps s0 s) (m cls : Nat) : Keeps s0 (State.takeIn s m cls) := by
  unfold State.takeIn
  grind (gen := 40) (ematch := 40) (splits := 40) -lia -ring -linarith [keeps_mapColl, keeps_sendGrant, keeps_showMoor, keeps_showSpanOf, keeps_tally, Keeps.update, Keeps.foldl]

theorem keeps_joinOverflow (hk : Keeps s0 s)  : Keeps s0 (State.joinOverflow s) := by
  unfold State.joinOverflow
  grind (gen := 40) (ematch := 40) (splits := 40) -lia -ring -linarith [keeps_showMoor, Keeps.update, Keeps.foldl]

theorem keeps_askAgain (hk : Keeps s0 s) (c : Coll) (x : Parcel) (e i : Nat) : Keeps s0 (State.askAgain s c x e i) := by
  unfold State.askAgain
  grind (gen := 40) (ematch := 40) (splits := 40) -lia -ring -linarith [keeps_mapParcel, keeps_sendRereq, Keeps.update]

theorem keeps_askDue (hk : Keeps s0 s)  : Keeps s0 (State.askDue s) := by
  unfold State.askDue
  grind (gen := 40) (ematch := 40) (splits := 40) -lia -ring -linarith [keeps_askAgain, Keeps.update, Keeps.foldl]

theorem keeps_floorBerths (hk : Keeps s0 s) (fb : Nat) : Keeps s0 (State.floorBerths s fb) := by
  unfold State.floorBerths
  grind (gen := 40) (ematch := 40) (splits := 40) -lia -ring -linarith [keeps_put, Keeps.update]

theorem keeps_updateEntry (hk : Keeps s0 s) (c : Coll) (x : Parcel) (sh : Shard) (e : Nat) :
    Keeps s0 (State.updateEntry s c x sh e).1 := by
  unfold State.updateEntry
  dsimp only
  generalize hr : List.foldl _ _ _ = r
  have h1 : Keeps s0 r.1 := by
    rw [← hr]
    refine Keeps.foldlFst _ _ _ hk fun a j ha => ?_
    grind -lia -ring -linarith [keeps_dockRead]
  grind -lia -ring -linarith

theorem keeps_logParcel (hk : Keeps s0 s) (c : Coll) (k : Nat) (nondet : Bool) (d : Word64) : Keeps s0 (State.logParcel s c k nondet d) := by
  unfold State.logParcel
  grind (gen := 40) (ematch := 40) (splits := 40) -lia -ring -linarith [keeps_advance, keeps_dockWrite, Keeps.update]

theorem keeps_release (hk : Keeps s0 s) (c : Coll) (k : Nat) (l : List OutGran) : Keeps s0 (State.release s c k l) := by
  unfold State.release
  grind (gen := 40) (ematch := 40) (splits := 40) -lia -ring -linarith [keeps_sendMember, keeps_sendResult, Keeps.update, Keeps.foldl]

theorem keeps_applyBlocks (hk : Keeps s0 s) (n : Nat) (sh : Shard) (st : Staged) : Keeps s0 (State.applyBlocks s n sh st) := by
  unfold State.applyBlocks
  grind (gen := 40) (ematch := 40) (splits := 40) -lia -ring -linarith [keeps_copyAhead, keeps_tally, keeps_writeBlock, Keeps.update, Keeps.foldl]

theorem keeps_applyWrites (hk : Keeps s0 s) (n : Nat) (sh : Shard) (ws : List (Nat × List Byte)) : Keeps s0 (State.applyWrites s n sh ws) := by
  unfold State.applyWrites
  grind (gen := 40) (ematch := 40) (splits := 40) -lia -ring -linarith [keeps_copyAhead, keeps_dockWrite, keeps_readBlock, keeps_tally, Keeps.update, Keeps.foldl]

theorem keeps_passGate (hk : Keeps s0 s) (c : Coll) (x : Parcel) (l : List OutGran) (st : Staged) : Keeps s0 (State.passGate s c x l st) := by
  unfold State.passGate
  grind (gen := 40) (ematch := 40) (splits := 40) -lia -ring -linarith [keeps_advance, keeps_applyBlocks, keeps_applyWrites, keeps_logParcel, keeps_mapColl, keeps_put, keeps_release, keeps_showMoor, keeps_stopColl, keeps_stopKern, keeps_tally, Keeps.update, Keeps.foldl]

theorem keeps_updateAll (hk : Keeps s0 s) (c : Coll) (x : Parcel) (sh : Shard) : Keeps s0 (State.updateAll s c x sh).1 := by
  unfold State.updateAll
  repeat' split
  all_goals grind (gen := 40) (ematch := 40) (splits := 40) -lia -ring -linarith [keeps_updateEntry, Keeps.update, Keeps.foldl, Keeps.foldlFst]

theorem keeps_countXrange (hk : Keeps s0 s) (c : Coll) (x : Parcel) : Keeps s0 (State.countXrange s c x) := by
  unfold State.countXrange
  grind (gen := 40) (ematch := 40) (splits := 40) -lia -ring -linarith [keeps_bump, Keeps.update, Keeps.foldl]

end Sys2Proof.Machine
end

