-- ==== Sys2Proof/Laws/KeepsPavRows.lean ====
section
/-! SUPPORT. What the operations of Machine/PavRows.lean keep (Laws/Keeps.lean). -/

set_option Elab.async false

namespace Sys2Proof.Machine

variable {s0 s : State}

theorem keeps_wakeNext (hk : Keeps s0 s)  : Keeps s0 (State.wakeNext s) := by
  unfold State.wakeNext
  grind (gen := 40) (ematch := 40) (splits := 40) -lia -ring -linarith [keeps_setPvState, Keeps.update, Keeps.foldl]

theorem keeps_enter (hk : Keeps s0 s) (n : Nat) (k : Kern) (entry : Nat) (regs : List (Nat × Nat)) (rmode job moor pseq eidx : Nat) (writes : List (Nat × List Byte)) : Keeps s0 (State.enter s n k entry regs rmode job moor pseq eidx writes) := by
  unfold State.enter
  grind (gen := 40) (ematch := 40) (splits := 40) -lia -ring -linarith [keeps_fresh, keeps_put, keeps_setPav, keeps_setPvState, keeps_tally, Keeps.update, Keeps.foldl]

theorem keeps_startBound (hk : Keeps s0 s) (n : Nat) (c : Coll) (x : Parcel) (w : Option Codec) : Keeps s0 (State.startBound s n c x w) := by
  unfold State.startBound
  grind (gen := 40) (ematch := 40) (splits := 40) -lia -ring -linarith [keeps_enter, keeps_formReady, keeps_replicate, Keeps.update]

theorem keeps_startLaunched (hk : Keeps s0 s) (n : Nat) (l : Launch) : Keeps s0 (State.startLaunched s n l) := by
  unfold State.startLaunched
  grind (gen := 40) (ematch := 40) (splits := 40) -lia -ring -linarith [keeps_enter, keeps_mapLaunch, Keeps.update]

theorem keeps_dispatch (hk : Keeps s0 s) (n : Nat) (f : State → State) (hf : ∀ x0, Keeps s0 x0 → Keeps s0 (f x0)) : Keeps s0 (State.dispatch s n f) := by
  unfold State.dispatch
  grind (gen := 40) (ematch := 40) (splits := 40) -lia -ring -linarith [keeps_wakeNext, Keeps.update]

theorem keeps_discard (hk : Keeps s0 s) (c : Coll) (x : Parcel) (a : Arrival) : Keeps s0 (State.discard s c x a) := by
  unfold State.discard
  grind (gen := 40) (ematch := 40) (splits := 40) -lia -ring -linarith [keeps_askAgain, keeps_mapColl, keeps_mapParcel, keeps_stopColl, keeps_tally, Keeps.update]

theorem keeps_faultRelease (hk : Keeps s0 s) (req : Requester) (pav : Nat) (value : Word64) : Keeps s0 (State.faultRelease s req pav value) := by
  unfold State.faultRelease
  grind (gen := 40) (ematch := 40) (splits := 40) -lia -ring -linarith [keeps_applyWrite, keeps_clearKern, keeps_setPvState, Keeps.update]

end Sys2Proof.Machine
end

