-- ==== Sys2Proof/Laws/KeepsMooringCmds.lean ====
section
/-! SUPPORT. What the operations of Machine/MooringCmds.lean keep (Laws/Keeps.lean). -/

set_option Elab.async false

namespace Sys2Proof.Machine

variable {s0 s : State}

theorem keeps_activate (hk : Keeps s0 s) (m : Nat) (x : Ctx) (bs : List Byte) (epoch job : Nat) : Keeps s0 (State.activate s m x bs epoch job) := by
  unfold State.activate
  grind (gen := 40) (ematch := 40) (splits := 40) -lia -ring -linarith [keeps_put, keeps_setCtx, keeps_showCtxs, keeps_showFences, keeps_showMoor, keeps_showShard, keeps_storeCtx, keeps_wr, Keeps.update]

theorem keeps_retireCtx (hk : Keeps s0 s) (m : Nat) : Keeps s0 (State.retireCtx s m) := by
  unfold State.retireCtx
  grind (gen := 40) (ematch := 40) (splits := 40) -lia -ring -linarith [keeps_put, keeps_setCtx, keeps_showCtxs, keeps_showFences, keeps_showMoor, keeps_showShard, keeps_wr, Keeps.update, Keeps.foldl]

theorem keeps_changeCtx (hk : Keeps s0 s) (c : Cmd) : Keeps s0 (State.changeCtx s c).1 := by
  unfold State.changeCtx
  repeat' split
  all_goals grind (gen := 40) (ematch := 40) (splits := 40) -lia -ring -linarith [keeps_activate, keeps_fence, keeps_retireCtx, keeps_stopMoor, Keeps.update, Keeps.foldl, Keeps.foldlFst]

theorem keeps_unstage (hk : Keeps s0 s) (ring seq : Nat) : Keeps s0 (State.unstage s ring seq) := by
  unfold State.unstage
  grind (gen := 40) (ematch := 40) (splits := 40) -lia -ring -linarith [Keeps.update]

theorem keeps_endMooring (hk : Keeps s0 s) (c : Cmd) (status detail result result2 : Nat) : Keeps s0 (State.endMooring s c status detail result result2) := by
  unfold State.endMooring
  grind (gen := 40) (ematch := 40) (splits := 40) -lia -ring -linarith [keeps_endCmd, keeps_unstage, Keeps.update]

theorem keeps_mooringFail (hk : Keeps s0 s) (c : Cmd) (f : CheckFail) : Keeps s0 (State.mooringFail s c f) := by
  unfold State.mooringFail
  grind (gen := 40) (ematch := 40) (splits := 40) -lia -ring -linarith [keeps_endMooring, Keeps.update]

theorem keeps_useCtx (hk : Keeps s0 s) (m : Nat) : Keeps s0 (State.useCtx s m) := by
  unfold State.useCtx
  grind (gen := 40) (ematch := 40) (splits := 40) -lia -ring -linarith [keeps_readCtx, keeps_stopMoor, Keeps.update]

theorem keeps_takeUp (n : Nat) (hk : Keeps s0 s) : Keeps s0 (State.takeUp n s) := by
  induction n generalizing s with
  | zero => exact hk
  | succ n ih =>
    unfold State.takeUp
    grind (gen := 40) (ematch := 40) (splits := 40) -lia -ring -linarith [keeps_mooringFail, keeps_useCtx, keeps_readCtx, keeps_changeCtx, keeps_endMooring, keeps_mapCmd, Keeps.update]

theorem keeps_startMooring (hk : Keeps s0 s) (c : Cmd) : Keeps s0 (State.startMooring s c) := by
  unfold State.startMooring
  grind (gen := 40) (ematch := 40) (splits := 40) -lia -ring -linarith [keeps_takeUp, Keeps.update]

theorem keeps_stopMooring (hk : Keeps s0 s) (c : Cmd) (status : Nat) : Keeps s0 (State.stopMooring s c status) := by
  unfold State.stopMooring
  grind (gen := 40) (ematch := 40) (splits := 40) -lia -ring -linarith [keeps_endMooring, keeps_takeUp, Keeps.update]

theorem keeps_enterColl (hk : Keeps s0 s) (c : Cmd) (hyper : List Byte) : Keeps s0 (State.enterColl s c hyper) := by
  unfold State.enterColl
  grind (gen := 40) (ematch := 40) (splits := 40) -lia -ring -linarith [keeps_put, Keeps.update]

theorem keeps_startColl (hk : Keeps s0 s) (c : Cmd) : Keeps s0 (State.startColl s c) := by
  unfold State.startColl
  grind (gen := 40) (ematch := 40) (splits := 40) -lia -ring -linarith [keeps_dockRead, keeps_endCmd, keeps_enterColl, keeps_mapCmd, keeps_stopColl, keeps_useCtx, Keeps.update]

theorem keeps_stopCollective (hk : Keeps s0 s) (c : Cmd) (status : Nat) : Keeps s0 (State.stopCollective s c status) := by
  unfold State.stopCollective
  grind (gen := 40) (ematch := 40) (splits := 40) -lia -ring -linarith [keeps_stopColl, Keeps.update]

end Sys2Proof.Machine
end

