-- ==== Sys2Proof/Laws/KeepsBoathouse.lean ====
section
/-! SUPPORT. What the operations of Machine/Boathouse.lean keep (Laws/Keeps.lean). -/

set_option Elab.async false

namespace Sys2Proof.Machine

variable {s0 s : State}

theorem keeps_shardItem (hk : Keeps s0 s) (c : Cmd) (len : Nat → Bool) (stateBad : Bool) : Keeps s0 (State.shardItem s c len stateBad).1 := by
  unfold State.shardItem
  repeat' split
  all_goals grind (gen := 40) (ematch := 40) (splits := 40) -lia -ring -linarith [keeps_ptrRead, Keeps.update]

theorem keeps_failCheck (hk : Keeps s0 s) (c : Cmd) (f : CheckFail) : Keeps s0 (State.failCheck s c f) := by
  unfold State.failCheck
  grind (gen := 40) (ematch := 40) (splits := 40) -lia -ring -linarith [keeps_endCmd, Keeps.update]

theorem keeps_running (hk : Keeps s0 s) (c : Cmd) : Keeps s0 (State.running s c) := by
  unfold State.running
  grind (gen := 40) (ematch := 40) (splits := 40) -lia -ring -linarith [keeps_mapCmd, Keeps.update]

theorem keeps_startShardCreate (hk : Keeps s0 s) (c : Cmd) : Keeps s0 (State.startShardCreate s c) := by
  unfold State.startShardCreate
  grind (gen := 40) (ematch := 40) (splits := 40) -lia -ring -linarith [keeps_endCmd, keeps_failCheck, keeps_put, keeps_running, keeps_setShard, keeps_setShardState, keeps_shardItem, keeps_wr, Keeps.update]

theorem keeps_dropLoad (hk : Keeps s0 s) (n : Nat) : Keeps s0 (State.dropLoad s n) := by
  unfold State.dropLoad
  grind (gen := 40) (ematch := 40) (splits := 40) -lia -ring -linarith [Keeps.update]

theorem keeps_startShardDelete (hk : Keeps s0 s) (c : Cmd) : Keeps s0 (State.startShardDelete s c) := by
  unfold State.startShardDelete
  grind (gen := 40) (ematch := 40) (splits := 40) -lia -ring -linarith [keeps_endCmd, keeps_failCheck, keeps_running, keeps_setShard, keeps_showShard, keeps_showShards, keeps_wr, Keeps.update]

theorem keeps_sendFragment (hk : Keeps s0 s) (n : Nat) (epoch : Nat) (sdigest : Word64) (ep i : Nat) (bs : List Byte) : Keeps s0 (State.sendFragment s n epoch sdigest ep i bs) := by
  unfold State.sendFragment
  grind (gen := 40) (ematch := 40) (splits := 40) -lia -ring -linarith [keeps_askBh, keeps_sendBh, Keeps.update, Keeps.foldl]

theorem keeps_revive (hk : Keeps s0 s) (st : Stripe) : Keeps s0 (State.revive s st) := by
  unfold State.revive
  grind (gen := 40) (ematch := 40) (splits := 40) -lia -ring -linarith [Keeps.update]

theorem keeps_keepManifest (hk : Keeps s0 s) (n epoch : Nat) (m : List Byte) : Keeps s0 (State.keepManifest s n epoch m) := by
  unfold State.keepManifest
  grind (gen := 40) (ematch := 40) (splits := 40) -lia -ring -linarith [keeps_setShard, keeps_whWrite, Keeps.update]

theorem keeps_keptManifest (hk : Keeps s0 s) (x : Shard) (epoch : Nat) : Keeps s0 (State.keptManifest s x epoch).1 := by
  unfold State.keptManifest
  repeat' split
  all_goals grind (gen := 40) (ematch := 40) (splits := 40) -lia -ring -linarith [keeps_whRead, Keeps.update]

theorem keeps_epochImage (hk : Keeps s0 s) (x : Shard) (e : ManShard) : Keeps s0 (State.epochImage s x e).1 := by
  unfold State.epochImage
  repeat' split
  all_goals grind (gen := 40) (ematch := 40) (splits := 40) -lia -ring -linarith [keeps_epochBlock, Keeps.update, Keeps.foldl, Keeps.foldlFst]

theorem keeps_resendEpoch (hk : Keeps s0 s) (n : Nat) (x : Shard) (st : Stripe) : Keeps s0 (State.resendEpoch s n x st) := by
  unfold State.resendEpoch
  grind (gen := 40) (ematch := 40) (splits := 40) -lia -ring -linarith [keeps_askBh, keeps_epochImage, keeps_keptManifest, Keeps.update, Keeps.foldl]

theorem keeps_sendResends (hk : Keeps s0 s) (n : Nat) : Keeps s0 (State.sendResends s n) := by
  unfold State.sendResends
  grind (gen := 40) (ematch := 40) (splits := 40) -lia -ring -linarith [keeps_sendFragment, Keeps.update, Keeps.foldl]

theorem keeps_resendAnswer (hk : Keeps s0 s) (src : Nat) (x : BhExt) (stage : Nat) (good : Resend → Bool) : Keeps s0 (State.resendAnswer s src x stage good) := by
  unfold State.resendAnswer
  grind (gen := 40) (ematch := 40) (splits := 40) -lia -ring -linarith [keeps_put, keeps_sendResends, Keeps.update]

theorem keeps_startStripe (hk : Keeps s0 s) (c : Cmd) : Keeps s0 (State.startStripe s c) := by
  unfold State.startStripe
  grind (gen := 40) (ematch := 40) (splits := 40) -lia -ring -linarith [keeps_endCmd, keeps_failCheck, keeps_mapShard, keeps_put, keeps_resendEpoch, keeps_revive, keeps_running, keeps_shardItem, keeps_showShard, Keeps.update]

theorem keeps_discardFreeze (hk : Keeps s0 s) (ring seq : Nat) : Keeps s0 (State.discardFreeze s ring seq) := by
  unfold State.discardFreeze
  grind (gen := 40) (ematch := 40) (splits := 40) -lia -ring -linarith [keeps_mapShard, Keeps.update, Keeps.foldl]

theorem keeps_endCommitCmd (hk : Keeps s0 s) (ring seq status : Nat) : Keeps s0 (State.endCommitCmd s ring seq status) := by
  unfold State.endCommitCmd
  grind (gen := 40) (ematch := 40) (splits := 40) -lia -ring -linarith [keeps_discardFreeze, keeps_endCmd, Keeps.update]

theorem keeps_makeDurable (hk : Keeps s0 s) (n : Nat) : Keeps s0 (State.makeDurable s n) := by
  unfold State.makeDurable
  grind (gen := 40) (ematch := 40) (splits := 40) -lia -ring -linarith [keeps_evAdd, keeps_mapShard, keeps_showShard, keeps_showShards, Keeps.update]

theorem keeps_checkDurable (hk : Keeps s0 s) (n : Nat) : Keeps s0 (State.checkDurable s n) := by
  unfold State.checkDurable
  grind (gen := 40) (ematch := 40) (splits := 40) -lia -ring -linarith [keeps_makeDurable, Keeps.update]

theorem keeps_stampFreeze (hk : Keeps s0 s) (n : Nat) : Keeps s0 (State.stampFreeze s n) := by
  unfold State.stampFreeze
  grind (gen := 40) (ematch := 40) (splits := 40) -lia -ring -linarith [keeps_mapShard, Keeps.update]

theorem keeps_keepFrozen (hk : Keeps s0 s) (n : Nat) : Keeps s0 (State.keepFrozen s n) := by
  unfold State.keepFrozen
  grind (gen := 40) (ematch := 40) (splits := 40) -lia -ring -linarith [keeps_keepManifest, Keeps.update]

theorem keeps_dropRefused (hk : Keeps s0 s) (n : Nat) : Keeps s0 (State.dropRefused s n) := by
  unfold State.dropRefused
  grind (gen := 40) (ematch := 40) (splits := 40) -lia -ring -linarith [keeps_durableFail, keeps_mapShard, Keeps.update]

theorem keeps_commitShard (hk : Keeps s0 s) (epoch n : Nat) : Keeps s0 (State.commitShard s epoch n) := by
  unfold State.commitShard
  grind (gen := 40) (ematch := 40) (splits := 40) -lia -ring -linarith [keeps_dropRefused, keeps_keepFrozen, keeps_put, keeps_showShard, keeps_stampFreeze, Keeps.update]

theorem keeps_commitDone (hk : Keeps s0 s) (ring seq : Nat) : Keeps s0 (State.commitDone s ring seq) := by
  unfold State.commitDone
  extract_lets mine ns ptr epoch
  split
  · exact hk
  · exact keeps_endCmd (keeps_showShards (Keeps.foldl _ _ (keeps_memWrite hk ..) fun t n ht => keeps_commitShard ht ..)) ..

theorem keeps_freezeAll (hk : Keeps s0 s) (c : Cmd) : Keeps s0 (State.freezeAll s c) := by
  unfold State.freezeAll
  grind (gen := 40) (ematch := 40) (splits := 40) -lia -ring -linarith [keeps_askBh, keeps_commitDone, keeps_dockRead, keeps_endCommitCmd, keeps_mapShard, keeps_memWrite, keeps_showShard, Keeps.update, Keeps.foldl, Keeps.foldlFst]

theorem keeps_startCommit (hk : Keeps s0 s) (c : Cmd) : Keeps s0 (State.startCommit s c) := by
  unfold State.startCommit
  grind (gen := 40) (ematch := 40) (splits := 40) -lia -ring -linarith [keeps_discardFreeze, keeps_endCmd, keeps_endCommitCmd, keeps_failCheck, keeps_freezeAll, keeps_mapShard, keeps_running, Keeps.update, Keeps.foldl]

theorem keeps_bgHold (hk : Keeps s0 s) (req : Requester) (value : Word64) : Keeps s0 (State.bgHold s req value) := by
  unfold State.bgHold
  grind (gen := 40) (ematch := 40) (splits := 40) -lia -ring -linarith [keeps_applyWrite, keeps_endCommitCmd, Keeps.update, Keeps.foldl]

theorem keeps_sendFragments (hk : Keeps s0 s) (n : Nat) : Keeps s0 (State.sendFragments s n) := by
  unfold State.sendFragments
  grind (gen := 40) (ematch := 40) (splits := 40) -lia -ring -linarith [keeps_mapShard, keeps_sendFragment, Keeps.update, Keeps.foldl]

theorem keeps_finishCopy (hk : Keeps s0 s) (n : Nat) (x : Shard) (f : Freeze) : Keeps s0 (State.finishCopy s n x f) := by
  unfold State.finishCopy
  grind (gen := 40) (ematch := 40) (splits := 40) -lia -ring -linarith [keeps_mapShard, keeps_showShard, keeps_whWrite, Keeps.update]

theorem keeps_takeBh (hk : Keeps s0 s) (p : Nat) (pkt : Packet) : Keeps s0 (State.takeBh s p pkt) := by
  unfold State.takeBh
  grind (gen := 40) (ematch := 40) (splits := 40) -lia -ring -linarith [Keeps.update]

theorem keeps_boathouse (hk : Keeps s0 s) (btype p : Nat) (pkt : Packet) (f : State → BhExt → List Byte → State) (hf : ∀ x0 x1 x2, Keeps s0 x0 → Keeps s0 (f x0 x1 x2)) : Keeps s0 (State.boathouse s btype p pkt f) := by
  unfold State.boathouse
  grind (gen := 40) (ematch := 40) (splits := 40) -lia -ring -linarith [keeps_answered, keeps_bump, keeps_takeBh, Keeps.update]

theorem keeps_holderLost (hk : Keeps s0 s) (n fidx : Nat) : Keeps s0 (State.holderLost s n fidx) := by
  unfold State.holderLost
  grind (gen := 40) (ematch := 40) (splits := 40) -lia -ring -linarith [keeps_failDurability, keeps_put, Keeps.update]

theorem keeps_fragmentAck (hk : Keeps s0 s) (pkt : Packet) (x : BhExt) : Keeps s0 (State.fragmentAck s pkt x) := by
  unfold State.fragmentAck
  grind (gen := 40) (ematch := 40) (splits := 40) -lia -ring -linarith [keeps_bump, keeps_checkDurable, keeps_holderLost, keeps_mapShard, keeps_resendAnswer, Keeps.update]

theorem keeps_showStore (hk : Keeps s0 s)  : Keeps s0 (State.showStore s) := by
  unfold State.showStore
  grind (gen := 40) (ematch := 40) (splits := 40) -lia -ring -linarith [keeps_put, Keeps.update, Keeps.foldl]

theorem keeps_setFrags (hk : Keeps s0 s) (l : List Fragment) : Keeps s0 (State.setFrags s l) := by
  unfold State.setFrags
  grind (gen := 40) (ematch := 40) (splits := 40) -lia -ring -linarith [keeps_showStore, Keeps.update]

theorem keeps_sendFack (hk : Keeps s0 s) (owner : Nat) (x : BhExt) (code rows : Nat) (digest : Word64) : Keeps s0 (State.sendFack s owner x code rows digest) := by
  unfold State.sendFack
  grind (gen := 40) (ematch := 40) (splits := 40) -lia -ring -linarith [keeps_sendBh, Keeps.update]

theorem keeps_holdRow (hk : Keeps s0 s) (owner : Nat) (x : BhExt) (payload : List Byte) : Keeps s0 (State.holdRow s owner x payload) := by
  unfold State.holdRow
  grind (gen := 40) (ematch := 40) (splits := 40) -lia -ring -linarith [keeps_bump, keeps_replicate, keeps_sendFack, keeps_setFrags, keeps_whWrite, Keeps.update]

end Sys2Proof.Machine
end

