-- ==== Sys2Proof/Laws/KeepsQuay.lean ====
section
/-! SUPPORT. What the operations of Machine/Quay.lean keep (Laws/Keeps.lean). -/

set_option Elab.async false

namespace Sys2Proof.Machine

variable {s0 s : State}

theorem keeps_setStage (hk : Keeps s0 s) (p st : Nat) : Keeps s0 (State.setStage s p st) := by
  unfold State.setStage
  grind (gen := 40) (ematch := 40) (splits := 40) -lia -ring -linarith [keeps_fresh, keeps_mapLink, keeps_mapPort, keeps_put, Keeps.update]

theorem keeps_dropLink (hk : Keeps s0 s) (p : Nat) : Keeps s0 (State.dropLink s p) := by
  unfold State.dropLink
  grind (gen := 40) (ematch := 40) (splits := 40) -lia -ring -linarith [keeps_bump, keeps_fresh, keeps_mapPort, keeps_setChannel, Keeps.update, Keeps.foldl]

theorem keeps_toStage1 (hk : Keeps s0 s) (p : Nat) : Keeps s0 (State.toStage1 s p) := by
  unfold State.toStage1
  grind (gen := 40) (ematch := 40) (splits := 40) -lia -ring -linarith [keeps_advance, keeps_dropLink, keeps_fresh, keeps_mapPort, keeps_portDown, keeps_setStage, keeps_slotLinkDown, Keeps.update]

theorem keeps_leaveService (hk : Keeps s0 s) (p : Nat) : Keeps s0 (State.leaveService s p) := by
  unfold State.leaveService
  grind (gen := 40) (ematch := 40) (splits := 40) -lia -ring -linarith [keeps_put, keeps_toStage1, Keeps.update]

theorem keeps_enterService (hk : Keeps s0 s) (p : Nat) : Keeps s0 (State.enterService s p) := by
  unfold State.enterService
  grind (gen := 40) (ematch := 40) (splits := 40) -lia -ring -linarith [keeps_firstCredits, keeps_fresh, keeps_mapPort, keeps_setStage, keeps_slotLinkUp, Keeps.update]

theorem keeps_countWord (hk : Keeps s0 s) (p : Nat) (w : RxWord) : Keeps s0 (State.countWord s p w) := by
  unfold State.countWord
  grind (gen := 40) (ematch := 40) (splits := 40) -lia -ring -linarith [keeps_bump, Keeps.update]

theorem keeps_countWords (hk : Keeps s0 s) (p : Nat) (ws : List RxWord) : Keeps s0 (State.countWords s p ws) := by
  unfold State.countWords
  grind (gen := 40) (ematch := 40) (splits := 40) -lia -ring -linarith [keeps_countWord, keeps_mapLink, Keeps.update, Keeps.foldl]

theorem keeps_tryDeskew (hk : Keeps s0 s) (p : Nat) : Keeps s0 (State.tryDeskew s p) := by
  unfold State.tryDeskew
  grind (gen := 40) (ematch := 40) (splits := 40) -lia -ring -linarith [keeps_enterService, keeps_setStage, Keeps.update]

theorem keeps_takeRecord (hk : Keeps s0 s) (p : Nat) (r : List Byte) : Keeps s0 (State.takeRecord s p r) := by
  unfold State.takeRecord
  grind (gen := 40) (ematch := 40) (splits := 40) -lia -ring -linarith [keeps_enterService, keeps_mapPort, keeps_put, keeps_wr, Keeps.update, Keeps.foldl]

theorem keeps_sendNak (hk : Keeps s0 s) (p : Nat) : Keeps s0 (State.sendNak s p) := by
  unfold State.sendNak
  grind (gen := 40) (ematch := 40) (splits := 40) -lia -ring -linarith [keeps_sendCtl, keeps_setLink, Keeps.update]

theorem keeps_handOver (hk : Keeps s0 s) (p : Nat) (pkt : Packet) : Keeps s0 (State.handOver s p pkt) := by
  unfold State.handOver
  grind (gen := 40) (ematch := 40) (splits := 40) -lia -ring -linarith [Keeps.update]

theorem keeps_replayFrom (hk : Keeps s0 s) (p lseq : Nat) : Keeps s0 (State.replayFrom s p lseq) := by
  unfold State.replayFrom
  grind (gen := 40) (ematch := 40) (splits := 40) -lia -ring -linarith [keeps_bump, keeps_putFrame, keeps_setLink, keeps_toStage1, Keeps.update, Keeps.foldl]

theorem keeps_beaconHeard (hk : Keeps s0 s) (p : Nat) : Keeps s0 (State.beaconHeard s p) := by
  unfold State.beaconHeard
  grind (gen := 40) (ematch := 40) (splits := 40) -lia -ring -linarith [keeps_mapPort, keeps_put, Keeps.update]

theorem keeps_beaconIn (hk : Keeps s0 s) (p hash : Nat) : Keeps s0 (State.beaconIn s p hash) := by
  unfold State.beaconIn
  grind (gen := 40) (ematch := 40) (splits := 40) -lia -ring -linarith [keeps_beaconHeard, keeps_mapPort, keeps_put, Keeps.update]

theorem keeps_beaconDue (hk : Keeps s0 s) (p : Nat) : Keeps s0 (State.beaconDue s p) := by
  unfold State.beaconDue
  grind (gen := 40) (ematch := 40) (splits := 40) -lia -ring -linarith [keeps_sendBeacon, Keeps.update]

theorem keeps_cmisGo (hk : Keeps s0 s) (q : Nat) (v : Word64) : Keeps s0 (State.cmisGo s q v) := by
  unfold State.cmisGo
  grind (gen := 40) (ematch := 40) (splits := 40) -lia -ring -linarith [keeps_put, keeps_send, keeps_wr, Keeps.update]

theorem keeps_cmisNack (hk : Keeps s0 s) (q : Nat) : Keeps s0 (State.cmisNack s q) := by
  unfold State.cmisNack
  grind (gen := 40) (ematch := 40) (splits := 40) -lia -ring -linarith [keeps_fresh, keeps_put, Keeps.update]

theorem keeps_inject (hk : Keeps s0 s) (req : Requester) (p : Nat) (v : Word64) : Keeps s0 (State.inject s req p v) := by
  unfold State.inject
  grind (gen := 40) (ematch := 40) (splits := 40) -lia -ring -linarith [keeps_applyWrite, keeps_mapPort, keeps_put, Keeps.update]

end Sys2Proof.Machine
end

