-- ==== Sys2Proof/Laws/KeepsBreakwater.lean ====
section
/-! SUPPORT. What the operations of Machine/Breakwater.lean keep (Laws/Keeps.lean). -/

set_option Elab.async false

namespace Sys2Proof.Machine

variable {s0 s : State}

theorem keeps_resend (hk : Keeps s0 s) (i : Nat) (pk : BwPkt) : Keeps s0 (State.resend s i pk) := by
  unfold State.resend
  grind (gen := 40) (ematch := 40) (splits := 40) -lia -ring -linarith [keeps_bump, keeps_sendBw, Keeps.update]

theorem keeps_sendPoint (hk : Keeps s0 s) (i btype : Nat) (payload : List Byte) : Keeps s0 (State.sendPoint s i btype payload) := by
  unfold State.sendPoint
  grind (gen := 40) (ematch := 40) (splits := 40) -lia -ring -linarith [keeps_sendBw, Keeps.update]

theorem keeps_sendAck (hk : Keeps s0 s) (i : Nat) : Keeps s0 (State.sendAck s i) := by
  unfold State.sendAck
  grind (gen := 40) (ematch := 40) (splits := 40) -lia -ring -linarith [keeps_mapSlot, keeps_sendPoint, Keeps.update]

theorem keeps_hear (hk : Keeps s0 s) (i : Nat) (f : BwIn) : Keeps s0 (State.hear s i f) := by
  unfold State.hear
  grind (gen := 40) (ematch := 40) (splits := 40) -lia -ring -linarith [keeps_cput, keeps_mapSlot, keeps_put, keeps_resend, keeps_setSlot, keeps_setSlotState, Keeps.update, Keeps.foldl]

theorem keeps_bwFrame_ok {row port : Nat} {f : BwIn} {i : Nat} {t : State} (hk : Keeps s0 s)
    (e : State.bwFrame s row port f = .ok (i, t)) : Keeps s0 t := by
  unfold State.bwFrame at e
  grind -lia -ring -linarith [keeps_hear]

theorem keeps_bwFrame {row port : Nat} {f : BwIn} {t : State} (hk : Keeps s0 s)
    (e : State.bwFrame s row port f = .error t) : Keeps s0 t := by
  unfold State.bwFrame at e
  grind -lia -ring -linarith [keeps_hear, keeps_bump]

theorem keeps_peerAck (hk : Keeps s0 s) (i t : Nat) : Keeps s0 (State.peerAck s i t) := by
  unfold State.peerAck
  grind (gen := 40) (ematch := 40) (splits := 40) -lia -ring -linarith [keeps_put, Keeps.update]

theorem keeps_siteForm (hk : Keeps s0 s) (c : Coll) (k : Nat) (h : PartialHdr) (bytes : List Byte) : Keeps s0 (State.siteForm s c k h bytes) := by
  unfold State.siteForm
  grind (gen := 40) (ematch := 40) (splits := 40) -lia -ring -linarith [keeps_mapParcel, keeps_stopColl, Keeps.update]

theorem keeps_takePartial (hk : Keeps s0 s) (payload : List Byte) (t : State) (e : (State.takePartial s payload) = some t) : Keeps s0 t := by
  have hstale := keeps_bump hk F.BW_DROP_STALE [] 1
  unfold State.takePartial at e
  dsimp only at e
  split at e
  · exact Option.some.inj e ▸ hstale
  · split at e
    · exact Option.some.inj e ▸ hstale
    · split at e
      · split at e
        · cases e
        · exact Option.some.inj e ▸ hk
      · split at e
        · exact Option.some.inj e ▸ hk
        · split at e
          · exact Option.some.inj e ▸ keeps_mapParcel hk ..
          · exact Option.some.inj e ▸ keeps_showSpan (keeps_siteForm (keeps_mapParcel hk ..) ..) ..

theorem keeps_bwTake (hk : Keeps s0 s) (i : Nat) (isPartial : Bool) (payload : List Byte) (t : State) (e : (State.bwTake s i isPartial payload) = some t) : Keeps s0 t := by
  unfold State.bwTake at e
  grind (gen := 40) (ematch := 40) (splits := 40) -lia -ring -linarith [keeps_handOver, keeps_takePartial, Keeps.update, Option.bind_eq_some_iff, Option.map_eq_some_iff]

theorem keeps_bwDeliver (hk : Keeps s0 s) (i : Nat) (isPartial : Bool) (payload : List Byte) (t : State) (e : (State.bwDeliver s i isPartial payload) = some t) : Keeps s0 t := by
  unfold State.bwDeliver at e
  grind (gen := 40) (ematch := 40) (splits := 40) -lia -ring -linarith [keeps_bwTake, keeps_setSlot, keeps_showSlot, Keeps.update, Option.bind_eq_some_iff, Option.map_eq_some_iff]

theorem keeps_drainRx (hk : Keeps s0 s) (i : Nat) : Keeps s0 (State.drainRx s i) := by
  unfold State.drainRx
  grind (gen := 40) (ematch := 40) (splits := 40) -lia -ring -linarith [keeps_bwTake, keeps_mapSlot, keeps_showSlot, Keeps.update, Keeps.foldl]

theorem keeps_received (hk : Keeps s0 s) (i t : Nat) : Keeps s0 (State.received s i t) := by
  unfold State.received
  grind (gen := 40) (ematch := 40) (splits := 40) -lia -ring -linarith [keeps_mapSlot, keeps_sendAck, Keeps.update]

theorem keeps_recovered (hk : Keeps s0 s) (i t : Nat) (unit : List Byte) : Keeps s0 (State.recovered s i t unit) := by
  have hf := keeps_fresh hk
  unfold State.recovered
  split
  · exact hk
  · dsimp only
    split
    · exact hf
    · rename_i u hu
      exact keeps_received (keeps_bump (keeps_bwDeliver hf _ _ _ _ hu) ..) ..

theorem keeps_tryDecode (hk : Keeps s0 s) (i no : Nat) : Keeps s0 (State.tryDecode s i no) := by
  unfold State.tryDecode
  grind (gen := 40) (ematch := 40) (splits := 40) -lia -ring -linarith [keeps_mapSlot, keeps_recovered, Keeps.update, Keeps.foldl]

theorem keeps_bwPacket (hk : Keeps s0 s) (i : Nat) (isPartial : Bool) (f : BwIn) : Keeps s0 (State.bwPacket s i isPartial f) := by
  unfold State.bwPacket
  dsimp only
  split
  · exact keeps_bump hk ..
  · split
    · exact hk
    · rename_i u hu
      exact keeps_drainRx (keeps_tryDecode (keeps_received (keeps_mapSlot (keeps_bwDeliver hk _ _ _ _ hu) ..) ..) ..) ..

theorem keeps_nakReport (hk : Keeps s0 s) (i : Nat) (ts : List Nat) : Keeps s0 (State.nakReport s i ts) := by
  unfold State.nakReport
  grind (gen := 40) (ematch := 40) (splits := 40) -lia -ring -linarith [keeps_mapSlot, keeps_sendPoint, Keeps.update, Keeps.foldl]

theorem keeps_installSa (hk : Keeps s0 s) (i an ssci : Nat) (h : List Byte) : Keeps s0 (State.installSa s i an ssci h) := by
  unfold State.installSa
  grind (gen := 40) (ematch := 40) (splits := 40) -lia -ring -linarith [keeps_cput, keeps_mapSlot, keeps_put, Keeps.update, Keeps.foldl]

theorem keeps_turnTx (hk : Keeps s0 s) (i an : Nat) : Keeps s0 (State.turnTx s i an) := by
  unfold State.turnTx
  grind (gen := 40) (ematch := 40) (splits := 40) -lia -ring -linarith [keeps_cput, keeps_put, Keeps.update]

theorem keeps_endKeyx (hk : Keeps s0 s) (i : Nat) : Keeps s0 (State.endKeyx s i) := by
  unfold State.endKeyx
  grind (gen := 40) (ematch := 40) (splits := 40) -lia -ring -linarith [keeps_mapSlot, Keeps.update]

end Sys2Proof.Machine
end

