-- ==== Sys2Proof/Laws/KeepsKernelCmds.lean ====
section
/-! SUPPORT. What the operations of Machine/KernelCmds.lean keep (Laws/Keeps.lean). -/

set_option Elab.async false

namespace Sys2Proof.Machine

variable {s0 s : State}

theorem keeps_extend (hk : Keeps s0 s) (slot kind index svn : Nat) (d : BitVec 512) : Keeps s0 (State.extend s slot kind index svn d) := by
  unfold State.extend
  grind (gen := 40) (ematch := 40) (splits := 40) -lia -ring -linarith [keeps_put, Keeps.update]

theorem keeps_setImage (hk : Keeps s0 s) (k : Nat) (i : Option KImage) : Keeps s0 (State.setImage s k i) := by
  unfold State.setImage
  grind (gen := 40) (ematch := 40) (splits := 40) -lia -ring -linarith [Keeps.update]

theorem keeps_setBind (hk : Keeps s0 s) (m : Nat) (b : Option Binding) : Keeps s0 (State.setBind s m b) := by
  unfold State.setBind
  grind (gen := 40) (ematch := 40) (splits := 40) -lia -ring -linarith [Keeps.update]

theorem keeps_loadImage (hk : Keeps s0 s) (c : Cmd) : Keeps s0 (State.loadImage s c) := by
  have h1 := keeps_ptrRead hk 0 (c.word 5) c.imLen
  unfold State.loadImage
  revert h1
  rcases s.ptrRead 0 (c.word 5) c.imLen with ⟨t, e | bs⟩ <;> intro h1
  · exact keeps_endCmd h1 ..
  · dsimp only
    split
    · exact keeps_failCheck h1 ..
    · split
      · exact keeps_failCheck h1 ..
      · split
        · exact keeps_failCheck h1 ..
        · split
          · exact keeps_endCmd (keeps_extend (keeps_setImage (keeps_storeWrite h1 ..) ..) ..) ..
          · exact keeps_failCheck h1 ..

theorem keeps_startImage (hk : Keeps s0 s) (c : Cmd) : Keeps s0 (State.startImage s c) := by
  unfold State.startImage
  grind (gen := 40) (ematch := 40) (splits := 40) -lia -ring -linarith [keeps_endCmd, keeps_failCheck, keeps_loadImage, keeps_ptrRead, keeps_running, keeps_setBind, keeps_setImage, Keeps.update]

theorem keeps_launchFail (hk : Keeps s0 s) (c : Cmd) (detail result2 : Nat) : Keeps s0 (State.launchFail s c detail result2) := by
  unfold State.launchFail
  grind (gen := 40) (ematch := 40) (splits := 40) -lia -ring -linarith [keeps_endCmd, Keeps.update]

theorem keeps_startLaunch (hk : Keeps s0 s) (c : Cmd) : Keeps s0 (State.startLaunch s c) := by
  unfold State.startLaunch
  grind (gen := 40) (ematch := 40) (splits := 40) -lia -ring -linarith [keeps_endCmd, keeps_launchFail, keeps_ptrRead, keeps_running, keeps_wakeNext, Keeps.update]

theorem keeps_stopLaunch (hk : Keeps s0 s) (c : Cmd) (status : Nat) : Keeps s0 (State.stopLaunch s c status) := by
  unfold State.stopLaunch
  grind (gen := 40) (ematch := 40) (splits := 40) -lia -ring -linarith [keeps_dropLaunch, keeps_endCmd, Keeps.update]

theorem keeps_startEvent (hk : Keeps s0 s) (c : Cmd) : Keeps s0 (State.startEvent s c) := by
  unfold State.startEvent
  grind (gen := 40) (ematch := 40) (splits := 40) -lia -ring -linarith [keeps_endCmd, keeps_evAdd, keeps_evFailTo, keeps_evSet, keeps_failCheck, keeps_running, Keeps.update, Keeps.foldl]

end Sys2Proof.Machine
end

