-- ==== Sys2Proof/Laws/KeepsRestore.lean ====
section
/-! SUPPORT. What the operations of Machine/Restore.lean keep (Laws/Keeps.lean). -/

set_option Elab.async false

namespace Sys2Proof.Machine

variable {s0 s : State}

theorem keeps_readManifest (hk : Keeps s0 s) (p : Word64) (n : Nat) (x : Option Shard) : Keeps s0 (State.readManifest s p n x).1 := by
  unfold State.readManifest
  repeat' split
  all_goals grind (gen := 40) (ematch := 40) (splits := 40) -lia -ring -linarith [keeps_ptrRead, Keeps.update]

theorem keeps_loadFails (hk : Keeps s0 s) (n : Nat) : Keeps s0 (State.loadFails s n) := by
  unfold State.loadFails
  grind (gen := 40) (ematch := 40) (splits := 40) -lia -ring -linarith [keeps_setShardState, Keeps.update]

theorem keeps_presentShard (hk : Keeps s0 s) (n : Nat) (x : Shard) (m : List Byte) : Keeps s0 (State.presentShard s n x m) := by
  unfold State.presentShard
  grind (gen := 40) (ematch := 40) (splits := 40) -lia -ring -linarith [keeps_dockWrite, keeps_keepManifest, keeps_put, keeps_setShardState, Keeps.update]

theorem keeps_sendChunk (hk : Keeps s0 s) (r : Restore) (n c : Nat) (payload : List Byte) : Keeps s0 (State.sendChunk s r n c payload) := by
  unfold State.sendChunk
  grind (gen := 40) (ematch := 40) (splits := 40) -lia -ring -linarith [keeps_askBh, keeps_sendResult, Keeps.update]

theorem keeps_mapRestore (hk : Keeps s0 s) (ring seq : Nat) (f : Restore → Restore) : Keeps s0 (State.mapRestore s ring seq f) := by
  unfold State.mapRestore
  grind (gen := 40) (ematch := 40) (splits := 40) -lia -ring -linarith [Keeps.update]

theorem keeps_endRestore (hk : Keeps s0 s) (r : Restore) (status : Nat) : Keeps s0 (State.endRestore s r status) := by
  unfold State.endRestore
  grind (gen := 40) (ematch := 40) (splits := 40) -lia -ring -linarith [keeps_endCmd, keeps_fresh, Keeps.update]

theorem keeps_restoreDone (hk : Keeps s0 s) (ring seq : Nat) : Keeps s0 (State.restoreDone s ring seq) := by
  unfold State.restoreDone
  grind (gen := 40) (ematch := 40) (splits := 40) -lia -ring -linarith [keeps_endRestore, Keeps.update]

theorem keeps_sendDoneTo (hk : Keeps s0 s) (r : Restore) (node seq : Nat) : Keeps s0 (State.sendDoneTo s r node seq) := by
  unfold State.sendDoneTo
  grind (gen := 40) (ematch := 40) (splits := 40) -lia -ring -linarith [keeps_sendBh, Keeps.update, ResKeeps.ofDone, ResKeeps.ofJump, ResKeeps.ofStall, ResKeeps.ofWait, ResKeeps.ofFault, ResKeeps.ofTagged]

theorem keeps_sendDone (hk : Keeps s0 s) (r : Restore) : Keeps s0 (State.sendDone s r) := by
  unfold State.sendDone
  grind (gen := 40) (ematch := 40) (splits := 40) -lia -ring -linarith [keeps_sendDoneTo, Keeps.update]

theorem keeps_broadcast (hk : Keeps s0 s) (r : Restore) : Keeps s0 (State.broadcast s r) := by
  unfold State.broadcast
  grind (gen := 40) (ematch := 40) (splits := 40) -lia -ring -linarith [keeps_mapRestore, keeps_presentShard, keeps_readBlock, keeps_restoreDone, keeps_sendChunk, Keeps.update, Keeps.foldl]

theorem keeps_mapRebuild (hk : Keeps s0 s) (ring seq : Nat) (f : Rebuild → Rebuild) : Keeps s0 (State.mapRebuild s ring seq f) := by
  unfold State.mapRebuild
  grind (gen := 40) (ematch := 40) (splits := 40) -lia -ring -linarith [Keeps.update]

theorem keeps_endRebuild (hk : Keeps s0 s) (r : Rebuild) (status : Nat) : Keeps s0 (State.endRebuild s r status) := by
  unfold State.endRebuild
  grind (gen := 40) (ematch := 40) (splits := 40) -lia -ring -linarith [keeps_broadcast, keeps_endCmd, keeps_endRestore, keeps_loadFails, keeps_mapShard, keeps_presentShard, keeps_showShard, Keeps.update]

theorem keeps_askRow (hk : Keeps s0 s) (r : Rebuild) (key : Nat) : Keeps s0 (State.askRow s r key).1 := by
  unfold State.askRow
  repeat' split
  all_goals grind (gen := 40) (ematch := 40) (splits := 40) -lia -ring -linarith [keeps_askBh, Keeps.update]

theorem keeps_askRows (hk : Keeps s0 s) (r : Rebuild) (keys : List Nat) : Keeps s0 (State.askRows s r keys).1 := by
  unfold State.askRows
  repeat' split
  all_goals grind (gen := 40) (ematch := 40) (splits := 40) -lia -ring -linarith [keeps_askRow, Keeps.update, Keeps.foldl, Keeps.foldlFst]

theorem keeps_writeRow (hk : Keeps s0 s) (x : Shard) (r : Rebuild) (row : Nat) : Keeps s0 (State.writeRow s x r row) := by
  unfold State.writeRow
  grind (gen := 40) (ematch := 40) (splits := 40) -lia -ring -linarith [keeps_dockWrite, Keeps.update, Keeps.foldl]

theorem keeps_badBlocks (hk : Keeps s0 s) (x : Shard) (bdt : List Word64) (bs : List Nat) : Keeps s0 (State.badBlocks s x bdt bs).1 := by
  unfold State.badBlocks
  repeat' split
  all_goals grind (gen := 40) (ematch := 40) (splits := 40) -lia -ring -linarith [keeps_dockBlock, Keeps.update, Keeps.foldl, Keeps.foldlFst]

theorem keeps_decodeRows (hk : Keeps s0 s) (x : Shard) (n : Nat) (r : Rebuild) : Keeps s0 (State.decodeRows s x n r).1 := by
  induction n generalizing s r with
  | zero => exact hk
  | succ n ih =>
    unfold State.decodeRows
    extract_lets rows row
    split
    · exact ih (keeps_badBlocks (keeps_writeRow hk ..) ..) _
    · exact hk

theorem keeps_recoverBlocks (hk : Keeps s0 s) (x : Shard) (r : Rebuild) : Keeps s0 (State.recoverBlocks s x r).1 := by
  unfold State.recoverBlocks
  repeat' split
  all_goals grind (gen := 40) (ematch := 40) (splits := 40) -lia -ring -linarith [keeps_askRows, keeps_put, keeps_writeBlock, Keeps.update, Keeps.foldl, Keeps.foldlFst]

theorem keeps_advanceRebuild (hk : Keeps s0 s) (ring seq : Nat) : Keeps s0 (State.advanceRebuild s ring seq) := by
  unfold State.advanceRebuild
  grind (gen := 40) (ematch := 40) (splits := 40) -lia -ring -linarith [keeps_askRows, keeps_decodeRows, keeps_endRebuild, keeps_mapRebuild, keeps_mapRestore, keeps_put, keeps_recoverBlocks, Keeps.update]

theorem keeps_beginRebuild (hk : Keeps s0 s) (c : Cmd) (n : Nat) (st : Stripe) (m : List Byte) (only : Option (List Nat)) : Keeps s0 (State.beginRebuild s c n st m only) := by
  unfold State.beginRebuild
  grind (gen := 40) (ematch := 40) (splits := 40) -lia -ring -linarith [keeps_advanceRebuild, keeps_endRebuild, keeps_put, keeps_setShardState, Keeps.update]

theorem keeps_holderGone (hk : Keeps s0 s) (r : Rebuild) (f : Nat) (lost : Bool) : Keeps s0 (State.holderGone s r f lost) := by
  unfold State.holderGone
  grind (gen := 40) (ematch := 40) (splits := 40) -lia -ring -linarith [keeps_advanceRebuild, keeps_endRebuild, keeps_mapRebuild, Keeps.update]

theorem keeps_startRebuild (hk : Keeps s0 s) (c : Cmd) : Keeps s0 (State.startRebuild s c) := by
  unfold State.startRebuild
  grind (gen := 40) (ematch := 40) (splits := 40) -lia -ring -linarith [keeps_beginRebuild, keeps_failCheck, keeps_put, keeps_readManifest, keeps_revive, keeps_running, keeps_shardItem, Keeps.update]

theorem keeps_slotIntact (hk : Keeps s0 s) (x : Shard) (slot : Nat) : Keeps s0 (State.slotIntact s x slot).1 := by
  unfold State.slotIntact
  repeat' split
  all_goals grind (gen := 40) (ematch := 40) (splits := 40) -lia -ring -linarith [keeps_stowAt, keeps_whRead, Keeps.update, Keeps.foldl, Keeps.foldlFst]

theorem keeps_divergent (hk : Keeps s0 s) (x : Shard) (e : ManShard) (n : Nat) : Keeps s0 (State.divergent s x e n).1 := by
  unfold State.divergent
  repeat' split
  all_goals grind (gen := 40) (ematch := 40) (splits := 40) -lia -ring -linarith [keeps_keptManifest, keeps_slotIntact, Keeps.update]

theorem keeps_restoreBlock (hk : Keeps s0 s) (x : Shard) (e : ManShard) (source b : Nat) : Keeps s0 (State.restoreBlock s x e source b).1 := by
  unfold State.restoreBlock
  repeat' split
  all_goals grind (gen := 40) (ematch := 40) (splits := 40) -lia -ring -linarith [keeps_copyBlockOf, keeps_dockBlock, keeps_writeBlock, Keeps.update]

theorem keeps_loadRoot (hk : Keeps s0 s) (c : Cmd) (r : Restore) (x : Shard) : Keeps s0 (State.loadRoot s c r x) := by
  unfold State.loadRoot
  grind (gen := 40) (ematch := 40) (splits := 40) -lia -ring -linarith [keeps_beginRebuild, keeps_broadcast, keeps_divergent, keeps_endRestore, keeps_loadFails, keeps_mapRestore, keeps_mapShard, keeps_put, keeps_restoreBlock, keeps_setShardState, keeps_showShards, Keeps.update, Keeps.foldl, Keeps.foldlFst]

theorem keeps_startRestore (hk : Keeps s0 s) (c : Cmd) : Keeps s0 (State.startRestore s c) := by
  unfold State.startRestore
  grind (gen := 40) (ematch := 40) (splits := 40) -lia -ring -linarith [keeps_failCheck, keeps_loadRoot, keeps_ptrRead, keeps_readManifest, keeps_running, Keeps.update]

theorem keeps_serveGap (hk : Keeps s0 s) (r : Restore) (n from_ : Nat) : Keeps s0 (State.serveGap s r n from_) := by
  unfold State.serveGap
  grind (gen := 40) (ematch := 40) (splits := 40) -lia -ring -linarith [keeps_epochBlock, keeps_sendChunk, Keeps.update, Keeps.foldl]

theorem keeps_resendBh (hk : Keeps s0 s) (endpoint : Nat) : Keeps s0 (State.resendBh s endpoint) := by
  unfold State.resendBh
  grind (gen := 40) (ematch := 40) (splits := 40) -lia -ring -linarith [keeps_sendBh, Keeps.update, Keeps.foldl]

theorem keeps_shardPeerDead (hk : Keeps s0 s) (endpoint n : Nat) : Keeps s0 (State.shardPeerDead s endpoint n) := by
  unfold State.shardPeerDead
  grind (gen := 40) (ematch := 40) (splits := 40) -lia -ring -linarith [keeps_endCommitCmd, keeps_holderLost, keeps_put, Keeps.update, Keeps.foldl]

theorem keeps_othersPeerDead (hk : Keeps s0 s) (endpoint : Nat) : Keeps s0 (State.othersPeerDead s endpoint) := by
  unfold State.othersPeerDead
  grind (gen := 40) (ematch := 40) (splits := 40) -lia -ring -linarith [keeps_holderGone, keeps_mapRestore, keeps_restoreDone, Keeps.update, Keeps.foldl]

theorem keeps_memberGone (hk : Keeps s0 s) (moor endpoint : Nat) : Keeps s0 (State.memberGone s moor endpoint) := by
  unfold State.memberGone
  grind (gen := 40) (ematch := 40) (splits := 40) -lia -ring -linarith [keeps_mapRestore, keeps_restoreDone, Keeps.update, Keeps.foldl]

theorem keeps_stopBoathouse (hk : Keeps s0 s) (c : Cmd) (status : Nat) : Keeps s0 (State.stopBoathouse s c status) := by
  unfold State.stopBoathouse
  grind (gen := 40) (ematch := 40) (splits := 40) -lia -ring -linarith [keeps_dropLoad, keeps_endCmd, keeps_endCommitCmd, keeps_endRebuild, keeps_endRestore, keeps_loadFails, Keeps.update]

end Sys2Proof.Machine
end

