-- ==== Sys2Proof/Laws/KeepsRows.lean ====
section
/-! SUPPORT. What the operations of Machine/Rows.lean keep (Laws/Keeps.lean). -/

set_option Elab.async false

namespace Sys2Proof.Machine

variable {s0 s : State}

theorem keeps_lodgeRec (hk : Keeps s0 s) (kind : Nat) (source value : Option Nat) : Keeps s0 (State.lodgeRec s kind source value) := by
  unfold State.lodgeRec
  grind (gen := 40) (ematch := 40) (splits := 40) -lia -ring -linarith [keeps_advance, keeps_bump, keeps_fresh, keeps_tally, keeps_wr, Keeps.update]

theorem keeps_toRow (hk : Keeps s0 s) (r : Nat) : Keeps s0 (State.toRow s r) := by
  unfold State.toRow
  grind (gen := 40) (ematch := 40) (splits := 40) -lia -ring -linarith [keeps_put, keeps_setLevel, keeps_tally, Keeps.update, Keeps.foldl]

theorem keeps_slower (hk : Keeps s0 s) (r : Nat) : Keeps s0 (State.slower s r) := by
  unfold State.slower
  grind (gen := 40) (ematch := 40) (splits := 40) -lia -ring -linarith [keeps_put, keeps_toRow, Keeps.update]

theorem keeps_holdCeiling (hk : Keeps s0 s)  : Keeps s0 (State.holdCeiling s) := by
  unfold State.holdCeiling
  grind (gen := 40) (ematch := 40) (splits := 40) -lia -ring -linarith [keeps_slower, Keeps.update]

theorem keeps_rise (hk : Keeps s0 s) (r : Nat) (forCommit : Bool) : Keeps s0 (State.rise s r forCommit) := by
  unfold State.rise
  grind (gen := 40) (ematch := 40) (splits := 40) -lia -ring -linarith [keeps_put, Keeps.update]

theorem keeps_goRow (hk : Keeps s0 s) (r : Nat) : Keeps s0 (State.goRow s r) := by
  unfold State.goRow
  grind (gen := 40) (ematch := 40) (splits := 40) -lia -ring -linarith [keeps_rise, keeps_slower, Keeps.update]

theorem keeps_paceReport (hk : Keeps s0 s) (cause : Nat) : Keeps s0 (State.paceReport s cause) := by
  unfold State.paceReport
  grind (gen := 40) (ematch := 40) (splits := 40) -lia -ring -linarith [keeps_build, keeps_fresh, keeps_sendTo, Keeps.update]

theorem keeps_report (hk : Keeps s0 s) (cause : Nat) : Keeps s0 (State.report s cause) := by
  unfold State.report
  grind (gen := 40) (ematch := 40) (splits := 40) -lia -ring -linarith [keeps_evAdd, keeps_paceReport, Keeps.update]

theorem keeps_countTrip (hk : Keeps s0 s) (cause : Nat) : Keeps s0 (State.countTrip s cause) := by
  unfold State.countTrip
  grind (gen := 40) (ematch := 40) (splits := 40) -lia -ring -linarith [keeps_bump, Keeps.update]

theorem keeps_trip (hk : Keeps s0 s) (cause r : Nat) (source value : Option Nat) : Keeps s0 (State.trip s cause r source value) := by
  unfold State.trip
  grind (gen := 40) (ematch := 40) (splits := 40) -lia -ring -linarith [keeps_countTrip, keeps_lodgeRec, keeps_put, keeps_report, keeps_slower, Keeps.update]

end Sys2Proof.Machine
end

