-- ==== Sys2Proof/Laws/KeepsSets.lean ====
section
/-! SUPPORT. What the operations of Machine/Sets.lean keep (Laws/Keeps.lean). -/

set_option Elab.async false

namespace Sys2Proof.Machine

variable {s0 s : State}

theorem keeps_install (hk : Keeps s0 s) (set inst : Nat) (snap : List (Nat × Word64)) : Keeps s0 (State.install s set inst snap) :=
  hk.trans ⟨rfl, List.prefix_refl _, Nat.le_refl _, Nat.le_refl _, rfl, rfl, fun _ => Nat.le_refl _,
    fun w => ⟨w.regs, spInsAll_sorted _ _ _ (spFilter_sorted _ w.cregs), w.dock, w.host, w.wh⟩⟩

theorem keeps_shadowWrite (hk : Keeps s0 s) (req : Requester) (r : Reg) (idx : List Nat) (v : Word64) : Keeps s0 (State.shadowWrite s req r idx v) := by
  unfold State.shadowWrite
  grind (gen := 40) (ematch := 40) (splits := 40) -lia -ring -linarith [keeps_applyWrite, keeps_put, Keeps.update]

theorem keeps_applyPin (hk : Keeps s0 s) (pipe : Nat) (x : Pin) (t : State) (e : (State.applyPin s pipe x) = some t) : Keeps s0 t := by
  unfold State.applyPin at e
  grind (gen := 40) (ematch := 40) (splits := 40) -lia -ring -linarith [keeps_hSet, keeps_notify, Keeps.update, Option.bind_eq_some_iff, Option.map_eq_some_iff]

/-- A fold over states that may be refused. -/
theorem Keeps.foldlOpt {β : Type} (l : List β) (f : Option State → β → Option State)
    (hf : ∀ o x, (∀ t, o = some t → Keeps s0 t) → ∀ t, f o x = some t → Keeps s0 t) (o : Option State)
    (ho : ∀ t, o = some t → Keeps s0 t) (t : State) (e : l.foldl f o = some t) : Keeps s0 t := by
  induction l generalizing o with
  | nil => exact ho t e
  | cons x rest ih => exact ih (f o x) (hf o x ho) e

theorem keeps_applyPins (hk : Keeps s0 s) (l : List Pin) (t : State) (e : (State.applyPins s l) = some t) : Keeps s0 t := by
  unfold State.applyPins at e
  split at e
  · cases e
  · refine Keeps.foldlOpt _ _ (fun o pipe ho => ?_) _ (fun t h => Option.some.inj h ▸ hk) t e
    refine Keeps.foldlOpt _ _ (fun o x ho t h => ?_) o ho
    obtain ⟨u, rfl, hu⟩ := Option.bind_eq_some_iff.1 h
    exact keeps_applyPin (ho u rfl) pipe x t hu

end Sys2Proof.Machine
end

