-- ==== Sys2Proof/Laws/KeepsCommit.lean ====
section
/-! SUPPORT. What the operations of Machine/Commit.lean keep (Laws/Keeps.lean). -/

set_option Elab.async false

namespace Sys2Proof.Machine

variable {s0 s : State}

theorem keeps_dropCommit (hk : Keeps s0 s) (set inst : Nat) : Keeps s0 (State.dropCommit s set inst) := by
  unfold State.dropCommit
  grind (gen := 40) (ematch := 40) (splits := 40) -lia -ring -linarith [Keeps.update]

theorem keeps_showCommit (hk : Keeps s0 s)  : Keeps s0 (State.showCommit s) := by
  unfold State.showCommit
  grind (gen := 40) (ematch := 40) (splits := 40) -lia -ring -linarith [keeps_put, Keeps.update]

theorem keeps_commitResult (hk : Keeps s0 s) (set status : Nat) : Keeps s0 (State.commitResult s set status) := by
  unfold State.commitResult
  grind (gen := 40) (ematch := 40) (splits := 40) -lia -ring -linarith [keeps_put, keeps_showCommit, Keeps.update]

theorem keeps_endCommit (hk : Keeps s0 s) (c : Commit) (status : Nat) (at_ : Nat) : Keeps s0 (State.endCommit s c status at_) := by
  unfold State.endCommit
  grind (gen := 40) (ematch := 40) (splits := 40) -lia -ring -linarith [keeps_commitResult, keeps_dropCommit, keeps_endCmd, Keeps.update]

theorem keeps_swapQuay (hk : Keeps s0 s) (q : Nat) (snap : List (Nat × Word64)) : Keeps s0 (State.swapQuay s q snap) := by
  unfold State.swapQuay
  grind (gen := 40) (ematch := 40) (splits := 40) -lia -ring -linarith [keeps_install, keeps_put, keeps_toStage1, Keeps.update, Keeps.foldl]

theorem keeps_renewSlot (hk : Keeps s0 s) (i : Nat) : Keeps s0 (State.renewSlot s i) := by
  unfold State.renewSlot
  grind (gen := 40) (ematch := 40) (splits := 40) -lia -ring -linarith [keeps_fresh, keeps_put, keeps_setSlot, keeps_showSlot, Keeps.update]

theorem keeps_swapSlots (hk : Keeps s0 s) (snap : List (Nat × Word64)) : Keeps s0 (State.swapSlots s snap) := by
  unfold State.swapSlots
  grind (gen := 40) (ematch := 40) (splits := 40) -lia -ring -linarith [keeps_enterResync, keeps_install, keeps_renewSlot, keeps_setSlotState, Keeps.update, Keeps.foldl]

theorem keeps_swapSa (hk : Keeps s0 s) (i : Nat) (snap : List (Nat × Word64)) : Keeps s0 (State.swapSa s i snap) := by
  unfold State.swapSa
  grind (gen := 40) (ematch := 40) (splits := 40) -lia -ring -linarith [keeps_install, keeps_mapSlot, keeps_put, Keeps.update, Keeps.foldl]

theorem keeps_discardWh (hk : Keeps s0 s) : Keeps s0 (State.discardWh s) :=
  have h1 : Keeps s0 { s with wh := [], whEra := s.whEra + 1 } := hk.cells id id fun _ => spSorted_nil
  Keeps.foldl _ _ (keeps_setFrags h1 _) fun _ _ h => keeps_showShard (keeps_mapShard h ..) ..

theorem keeps_forgetManifests (hk : Keeps s0 s)  : Keeps s0 (State.forgetManifests s) := by
  unfold State.forgetManifests
  grind (gen := 40) (ematch := 40) (splits := 40) -lia -ring -linarith [keeps_mapShard, Keeps.update, Keeps.foldl]

theorem keeps_swapWh (hk : Keeps s0 s) (snap : List (Nat × Word64)) : Keeps s0 (State.swapWh s snap) := by
  unfold State.swapWh
  grind (gen := 40) (ematch := 40) (splits := 40) -lia -ring -linarith [keeps_discardWh, keeps_forgetManifests, keeps_install, keeps_put, Keeps.update, Keeps.foldl]

theorem keeps_swap (hk : Keeps s0 s) (set inst : Nat) (snap : List (Nat × Word64)) : Keeps s0 (State.swap s set inst snap) := by
  unfold State.swap
  grind (gen := 40) (ematch := 40) (splits := 40) -lia -ring -linarith [keeps_install, keeps_put, keeps_swapQuay, keeps_swapSa, keeps_swapSlots, keeps_swapWh, keeps_wr, Keeps.update]

theorem keeps_swapColours (hk : Keeps s0 s) (old : State) (q : Nat) : Keeps s0 (State.swapColours s old q) := by
  unfold State.swapColours
  grind (gen := 40) (ematch := 40) (splits := 40) -lia -ring -linarith [keeps_fresh, keeps_put, keeps_setChannel, Keeps.update, Keeps.foldl]

theorem keeps_takeUpList (hk : Keeps s0 s) (p : Nat) : Keeps s0 (State.takeUpList s p) := by
  unfold State.takeUpList
  grind (gen := 40) (ematch := 40) (splits := 40) -lia -ring -linarith [keeps_goDark, keeps_noteGate, keeps_put, keeps_steerLight, Keeps.update]

theorem keeps_commitRamp (hk : Keeps s0 s)  : Keeps s0 (State.commitRamp s) := by
  unfold State.commitRamp
  grind (gen := 40) (ematch := 40) (splits := 40) -lia -ring -linarith [keeps_rise, Keeps.update]

theorem keeps_pend (hk : Keeps s0 s) (set inst : Nat) (atTime : Option (Nat × Nat)) (late : Bool) (owner : Option (Nat × Nat)) : Keeps s0 (State.pend s set inst atTime late owner) := by
  unfold State.pend
  grind (gen := 40) (ematch := 40) (splits := 40) -lia -ring -linarith [keeps_commitRamp, keeps_showCommit, Keeps.update]

theorem keeps_startConfig (hk : Keeps s0 s) (c : Cmd) : Keeps s0 (State.startConfig s c) := by
  have h1 := keeps_ptrRead hk 7 (c.word 5) (16 * c.cfCount)
  unfold State.startConfig
  split
  · exact keeps_failCheck hk ..
  · revert h1
    rcases s.ptrRead 7 (c.word 5) (16 * c.cfCount) with ⟨t, e | bs⟩ <;> intro h1
    · exact keeps_failCheck h1 ..
    · dsimp only
      split
      · exact keeps_failCheck h1 ..
      · exact keeps_failCheck h1 ..
      · exact keeps_failCheck h1 ..
      · have h2 : Keeps s0 ((writeList bs).foldl (fun s e => match findReg e.1 with
            | some (r, idx) => s.shadowWrite (t.ringOwner c.ring) r idx e.2
            | none => s) t) :=
          Keeps.foldl _ _ h1 fun u x hu => by
            split
            · exact keeps_shadowWrite hu ..
            · exact hu
        revert h2
        generalize List.foldl _ _ _ = u
        intro h2
        split
        · exact keeps_failCheck h2 ..
        · exact keeps_pend (keeps_running h2 ..) ..

theorem keeps_stopConfig (hk : Keeps s0 s) (c : Cmd) (status : Nat) : Keeps s0 (State.stopConfig s c status) := by
  unfold State.stopConfig
  grind (gen := 40) (ematch := 40) (splits := 40) -lia -ring -linarith [keeps_dropCommit, keeps_endCmd, keeps_pinsEnd, Keeps.update]

theorem keeps_commitGo (hk : Keeps s0 s) (req : Requester) (set inst : Nat) : Keeps s0 (State.commitGo s req set inst) := by
  unfold State.commitGo
  grind (gen := 40) (ematch := 40) (splits := 40) -lia -ring -linarith [keeps_commitResult, keeps_deny, keeps_pend, keeps_put, Keeps.update]

theorem keeps_wkCommit (hk : Keeps s0 s) (req : Requester) (v : Word64) : Keeps s0 (State.wkCommit s req v) := by
  unfold State.wkCommit
  grind (gen := 40) (ematch := 40) (splits := 40) -lia -ring -linarith [keeps_commitGo, keeps_put, Keeps.update]

end Sys2Proof.Machine
end

