-- ==== Sys2Proof/Laws/KeepsPowerState.lean ====
section
/-! SUPPORT. What the operations of Machine/PowerState.lean keep (Laws/Keeps.lean). -/

set_option Elab.async false

namespace Sys2Proof.Machine

variable {s0 s : State}

theorem keeps_stopPower (hk : Keeps s0 s) (c : Cmd) (status : Nat) : Keeps s0 (State.stopPower s c status) := by
  unfold State.stopPower
  grind (gen := 40) (ematch := 40) (splits := 40) -lia -ring -linarith [keeps_endCmd, Keeps.update]

theorem keeps_stopCmd (hk : Keeps s0 s) (c : Cmd) (status : Nat) : Keeps s0 (State.stopCmd s c status) := by
  unfold State.stopCmd
  grind (gen := 40) (ematch := 40) (splits := 40) -lia -ring -linarith [keeps_endCmd, keeps_running, keeps_stopBoathouse, keeps_stopCollective, keeps_stopConfig, keeps_stopLaunch, keeps_stopMooring, keeps_stopPower, Keeps.update]

theorem keeps_stopAll (hk : Keeps s0 s) (l : List Cmd) (status : Nat) : Keeps s0 (State.stopAll s l status) := by
  unfold State.stopAll
  grind (gen := 40) (ematch := 40) (splits := 40) -lia -ring -linarith [keeps_stopCmd, Keeps.update, Keeps.foldl]

theorem keeps_setRing (hk : Keeps s0 s) (r st : Nat) : Keeps s0 (State.setRing s r st) := by
  unfold State.setRing
  grind (gen := 40) (ematch := 40) (splits := 40) -lia -ring -linarith [keeps_put, Keeps.update]

theorem keeps_settleRing (hk : Keeps s0 s) (r : Nat) : Keeps s0 (State.settleRing s r) := by
  unfold State.settleRing
  grind (gen := 40) (ematch := 40) (splits := 40) -lia -ring -linarith [keeps_setRing, Keeps.update]

theorem keeps_abortRing (hk : Keeps s0 s) (r : Nat) (except : Option (Nat × Nat)) : Keeps s0 (State.abortRing s r except) := by
  unfold State.abortRing
  grind (gen := 40) (ematch := 40) (splits := 40) -lia -ring -linarith [keeps_setRing, keeps_settleRing, keeps_stopAll, Keeps.update]

theorem keeps_dropLoads (hk : Keeps s0 s)  : Keeps s0 (State.dropLoads s) := by
  unfold State.dropLoads
  grind (gen := 40) (ematch := 40) (splits := 40) -lia -ring -linarith [keeps_setShardState, Keeps.update, Keeps.foldl]

theorem keeps_quiesce (hk : Keeps s0 s) (except : Option (Nat × Nat)) : Keeps s0 (State.quiesce s except) := by
  unfold State.quiesce
  grind (gen := 40) (ematch := 40) (splits := 40) -lia -ring -linarith [keeps_abortRing, keeps_dropLoads, keeps_failDurability, Keeps.update, Keeps.foldl]

theorem keeps_holdSlots (hk : Keeps s0 s)  : Keeps s0 (State.holdSlots s) := by
  unfold State.holdSlots
  grind (gen := 40) (ematch := 40) (splits := 40) -lia -ring -linarith [keeps_setSlotState, Keeps.update, Keeps.foldl]

theorem keeps_gatePavs (hk : Keeps s0 s) (which : Nat → Bool) : Keeps s0 (State.gatePavs s which) := by
  unfold State.gatePavs
  grind (gen := 40) (ematch := 40) (splits := 40) -lia -ring -linarith [keeps_clearKern, keeps_setPvState, Keeps.update, Keeps.foldl]

theorem keeps_hmPower (hk : Keeps s0 s) (on : Bool) : Keeps s0 (State.hmPower s on) := by
  unfold State.hmPower
  grind (gen := 40) (ematch := 40) (splits := 40) -lia -ring -linarith [keeps_put, Keeps.update]

theorem keeps_lanesDown (hk : Keeps s0 s)  : Keeps s0 (State.lanesDown s) := by
  unfold State.lanesDown
  grind (gen := 40) (ematch := 40) (splits := 40) -lia -ring -linarith [keeps_leaveService, keeps_put, Keeps.update, Keeps.foldl]

theorem keeps_enterPower (hk : Keeps s0 s) (st : Nat) : Keeps s0 (State.enterPower s st) := by
  unfold State.enterPower
  grind (gen := 40) (ematch := 40) (splits := 40) -lia -ring -linarith [keeps_gatePavs, keeps_hmPower, keeps_holdSlots, keeps_lanesDown, keeps_put, Keeps.update]

theorem keeps_startPower (hk : Keeps s0 s) (c : Cmd) : Keeps s0 (State.startPower s c) := by
  unfold State.startPower
  grind (gen := 40) (ematch := 40) (splits := 40) -lia -ring -linarith [keeps_endCmd, keeps_quiesce, keeps_running, Keeps.update]

theorem keeps_cleared (hk : Keeps s0 s) : Keeps s0 (State.cleared s) :=
  hk.trans ⟨rfl, List.prefix_refl _, Nat.le_refl _, Nat.le_succ _, rfl, rfl, fun _ => Nat.le_refl _,
    fun w => ⟨spSorted_nil, spSorted_nil, spSorted_nil, w.host, spSorted_nil⟩⟩

theorem keeps_coldReset (hk : Keeps s0 s)  : Keeps s0 (State.coldReset s) := by
  unfold State.coldReset
  grind (gen := 40) (ematch := 40) (splits := 40) -lia -ring -linarith [keeps_cleared, keeps_gradeWords, Keeps.update]

theorem keeps_powerOff (hk : Keeps s0 s)  : Keeps s0 (State.powerOff s) := by
  unfold State.powerOff
  grind (gen := 40) (ematch := 40) (splits := 40) -lia -ring -linarith [keeps_coldReset, Keeps.update]

theorem keeps_emergencyWinter (hk : Keeps s0 s) (source value : Option Nat) : Keeps s0 (State.emergencyWinter s source value) := by
  unfold State.emergencyWinter
  grind (gen := 40) (ematch := 40) (splits := 40) -lia -ring -linarith [keeps_enterPower, keeps_lodgeRec, keeps_put, keeps_quiesce, Keeps.update]

end Sys2Proof.Machine
end

