-- ==== Sys2Proof/Laws/KeepsRings.lean ====
section
/-! SUPPORT. What the operations of Machine/Rings.lean keep (Laws/Keeps.lean). -/

set_option Elab.async false

namespace Sys2Proof.Machine

variable {s0 s : State}

theorem keeps_ctrlBad (hk : Keeps s0 s)  : Keeps s0 (State.ctrlBad s) := by
  unfold State.ctrlBad
  grind (gen := 40) (ematch := 40) (splits := 40) -lia -ring -linarith [keeps_put, Keeps.update]

theorem keeps_ringEnable (hk : Keeps s0 s) (r : Nat) : Keeps s0 (State.ringEnable s r) := by
  unfold State.ringEnable
  grind (gen := 40) (ematch := 40) (splits := 40) -lia -ring -linarith [keeps_ctrlBad, keeps_put, keeps_setRing, Keeps.update]

theorem keeps_ringPause (hk : Keeps s0 s) (r : Nat) : Keeps s0 (State.ringPause s r) := by
  unfold State.ringPause
  grind (gen := 40) (ematch := 40) (splits := 40) -lia -ring -linarith [keeps_ctrlBad, keeps_setRing, Keeps.update]

theorem keeps_ringAbort (hk : Keeps s0 s) (r : Nat) : Keeps s0 (State.ringAbort s r) := by
  unfold State.ringAbort
  grind (gen := 40) (ematch := 40) (splits := 40) -lia -ring -linarith [keeps_abortRing, keeps_ctrlBad, Keeps.update]

theorem keeps_ringDisable (hk : Keeps s0 s) (r : Nat) : Keeps s0 (State.ringDisable s r) := by
  unfold State.ringDisable
  grind (gen := 40) (ematch := 40) (splits := 40) -lia -ring -linarith [keeps_ctrlBad, keeps_put, keeps_setRing, Keeps.update]

theorem keeps_ringCtl (hk : Keeps s0 s) (r cmd : Nat) : Keeps s0 (State.ringCtl s r cmd) := by
  unfold State.ringCtl
  grind (gen := 40) (ematch := 40) (splits := 40) -lia -ring -linarith [keeps_ctrlBad, keeps_ringAbort, keeps_ringDisable, keeps_ringEnable, keeps_ringPause, Keeps.update]

theorem keeps_consWrite (hk : Keeps s0 s) (q v : Nat) : Keeps s0 (State.consWrite s q v) := by
  unfold State.consWrite
  dsimp only
  split
  · exact keeps_put hk ..
  · exact keeps_put hk ..

theorem keeps_advanceHead (hk : Keeps s0 s) (r : Nat) : Keeps s0 (State.advanceHead s r) := by
  unfold State.advanceHead
  grind (gen := 40) (ematch := 40) (splits := 40) -lia -ring -linarith [keeps_put, Keeps.update]

theorem keeps_stage1 (hk : Keeps s0 s) (c : Cmd) : Keeps s0 (State.stage1 s c) := by
  unfold State.stage1
  grind (gen := 40) (ematch := 40) (splits := 40) -lia -ring -linarith [keeps_ptrRead, Keeps.update]

theorem keeps_accept (hk : Keeps s0 s) (r : Nat) : Keeps s0 (State.accept s r) := by
  unfold State.accept
  grind (gen := 40) (ematch := 40) (splits := 40) -lia -ring -linarith [keeps_advanceHead, keeps_endCmd, keeps_memRead, keeps_put, keeps_setRing, keeps_showInflight, keeps_stage1, keeps_tally, Keeps.update]

theorem keeps_acceptNext (hk : Keeps s0 s)  : Keeps s0 (State.acceptNext s) := by
  unfold State.acceptNext
  grind (gen := 40) (ematch := 40) (splits := 40) -lia -ring -linarith [keeps_accept, Keeps.update]

theorem keeps_startNop (hk : Keeps s0 s) (c : Cmd) : Keeps s0 (State.startNop s c) := by
  unfold State.startNop
  grind (gen := 40) (ematch := 40) (splits := 40) -lia -ring -linarith [keeps_endCmd, keeps_failCheck, keeps_running, Keeps.update]

theorem keeps_startShard (hk : Keeps s0 s) (c : Cmd) : Keeps s0 (State.startShard s c) := by
  unfold State.startShard
  grind (gen := 40) (ematch := 40) (splits := 40) -lia -ring -linarith [keeps_failCheck, keeps_running, keeps_startRebuild, keeps_startShardCreate, keeps_startShardDelete, keeps_startStripe, Keeps.update]

theorem keeps_startCommand (hk : Keeps s0 s) (c : Cmd) : Keeps s0 (State.startCommand s c) := by
  unfold State.startCommand
  grind (gen := 40) (ematch := 40) (splits := 40) -lia -ring -linarith [keeps_startColl, keeps_startCommit, keeps_startConfig, keeps_startEvent, keeps_startImage, keeps_startLaunch, keeps_startMooring, keeps_startNop, keeps_startPower, keeps_startRestore, keeps_startShard, keeps_stopCmd, Keeps.update]

theorem keeps_startIf (hk : Keeps s0 s) (ring seq : Nat) (f : Cmd → Bool) : Keeps s0 (State.startIf s ring seq f) := by
  unfold State.startIf
  grind (gen := 40) (ematch := 40) (splits := 40) -lia -ring -linarith [keeps_startCommand, Keeps.update]

theorem keeps_writeRecord (hk : Keeps s0 s) (c : Cmd) : Keeps s0 (State.writeRecord s c) := by
  unfold State.writeRecord
  grind (gen := 40) (ematch := 40) (splits := 40) -lia -ring -linarith [keeps_memWrite, keeps_put, keeps_tally, Keeps.update]

theorem keeps_signal (hk : Keeps s0 s) (c : Cmd) : Keeps s0 (State.signal s c) := by
  unfold State.signal
  grind (gen := 40) (ematch := 40) (splits := 40) -lia -ring -linarith [keeps_evAdd, keeps_evFailTo, keeps_send, Keeps.update]

end Sys2Proof.Machine
end

