-- ==== Sys2Proof/Laws/KeepsLodge.lean ====
section
/-! SUPPORT. What the operations of Machine/Lodge.lean keep (Laws/Keeps.lean). -/

set_option Elab.async false

namespace Sys2Proof.Machine

variable {s0 s : State}

theorem keeps_showErr (hk : Keeps s0 s)  : Keeps s0 (State.showErr s) := by
  unfold State.showErr
  grind (gen := 40) (ematch := 40) (splits := 40) -lia -ring -linarith [keeps_put, Keeps.update]

theorem keeps_sampleInput (hk : Keeps s0 s) (vin iin : Nat) : Keeps s0 (State.sampleInput s vin iin) := by
  unfold State.sampleInput
  grind (gen := 40) (ematch := 40) (splits := 40) -lia -ring -linarith [Keeps.update]

theorem keeps_sampleDie (hk : Keeps s0 s) (i : Nat) (t : Int) : Keeps s0 (State.sampleDie s i t) := by
  unfold State.sampleDie
  grind (gen := 40) (ematch := 40) (splits := 40) -lia -ring -linarith [Keeps.update]

theorem keeps_samplePort (hk : Keeps s0 s) (p : Nat) : Keeps s0 (State.samplePort s p) := by
  unfold State.samplePort
  grind (gen := 40) (ematch := 40) (splits := 40) -lia -ring -linarith [keeps_bump, keeps_lodgeRec, keeps_mapPort, keeps_put, Keeps.update]

theorem keeps_showSuspects (hk : Keeps s0 s)  : Keeps s0 (State.showSuspects s) := by
  unfold State.showSuspects
  grind (gen := 40) (ematch := 40) (splits := 40) -lia -ring -linarith [keeps_put, Keeps.update, Keeps.foldl]

theorem keeps_lodgeActs (hk : Keeps s0 s)  : Keeps s0 (State.lodgeActs s) := by
  unfold State.lodgeActs
  grind (gen := 40) (ematch := 40) (splits := 40) -lia -ring -linarith [keeps_emergencyWinter, keeps_trip, Keeps.update]

theorem keeps_lodgeShows (hk : Keeps s0 s)  : Keeps s0 (State.lodgeShows s) := by
  unfold State.lodgeShows
  grind (gen := 40) (ematch := 40) (splits := 40) -lia -ring -linarith [keeps_put, keeps_showErr, Keeps.update, Keeps.foldl]

end Sys2Proof.Machine
end

