-- ==== Sys2Proof/Laws/KeepsDockRows.lean ====
section
/-! SUPPORT. What the operations of Machine/DockRows.lean keep (Laws/Keeps.lean). -/

set_option Elab.async false

namespace Sys2Proof.Machine

variable {s0 s : State}

theorem keeps_scrubData (hk : Keeps s0 s) (line : Nat) : Keeps s0 (State.scrubData s line) := by
  unfold State.scrubData
  grind (gen := 40) (ematch := 40) (splits := 40) -lia -ring -linarith [keeps_repairLine, keeps_touchLine, Keeps.update]

theorem keeps_scrubChecks (hk : Keeps s0 s) (device group : Nat) : Keeps s0 (State.scrubChecks s device group) := by
  unfold State.scrubChecks
  grind (gen := 40) (ematch := 40) (splits := 40) -lia -ring -linarith [keeps_scrubData, Keeps.update, Keeps.foldl]

theorem keeps_scrubAt (hk : Keeps s0 s) (p : Nat) : Keeps s0 (State.scrubAt s p) := by
  unfold State.scrubAt
  grind (gen := 40) (ematch := 40) (splits := 40) -lia -ring -linarith [keeps_scrubChecks, keeps_scrubData, Keeps.update]

theorem keeps_scrubNext (hk : Keeps s0 s)  : Keeps s0 (State.scrubNext s) := by
  unfold State.scrubNext
  grind (gen := 40) (ematch := 40) (splits := 40) -lia -ring -linarith [keeps_advance, Keeps.update]

theorem keeps_track (hk : Keeps s0 s) (line : Nat) : Keeps s0 (State.track s line) := by
  unfold State.track
  grind (gen := 40) (ematch := 40) (splits := 40) -lia -ring -linarith [keeps_send, Keeps.update]

theorem keeps_countMem (hk : Keeps s0 s) (acc a : Nat) : Keeps s0 (State.countMem s acc a) := by
  unfold State.countMem
  grind (gen := 40) (ematch := 40) (splits := 40) -lia -ring -linarith [keeps_pcCount, Keeps.update]

end Sys2Proof.Machine
end

