-- ==== Sys2Proof/Laws/KeepsEgress.lean ====
section
/-! SUPPORT. What the operations of Machine/Egress.lean keep (Laws/Keeps.lean). -/

set_option Elab.async false

namespace Sys2Proof.Machine

variable {s0 s : State}

theorem keeps_dequeue (hk : Keeps s0 s) (p c : Nat) : Keeps s0 (State.dequeue s p c) := by
  unfold State.dequeue
  grind (gen := 40) (ematch := 40) (splits := 40) -lia -ring -linarith [keeps_setClassQ, Keeps.update]

theorem keeps_sendOut (hk : Keeps s0 s) (p : Nat) (prio : Bool) (x : BPkt) : Keeps s0 (State.sendOut s p prio x) := by
  unfold State.sendOut
  grind (gen := 40) (ematch := 40) (splits := 40) -lia -ring -linarith [keeps_bwSend, keeps_mirrorPort, keeps_noteEvent, keeps_transmit, Keeps.update]

end Sys2Proof.Machine
end

