-- ==== Sys2Proof/Laws/KeepsHost.lean ====
section
/-! SUPPORT. What the operations of Machine/Host.lean keep (Laws/Keeps.lean). -/

set_option Elab.async false

namespace Sys2Proof.Machine

variable {s0 s : State}

theorem keeps_runImage (hk : Keeps s0 s) (kind copy : Nat) : Keeps s0 (State.runImage s kind copy) := by
  unfold State.runImage
  grind (gen := 40) (ematch := 40) (splits := 40) -lia -ring -linarith [keeps_running, Keeps.update]

theorem keeps_sealAll (hk : Keeps s0 s)  : Keeps s0 (State.sealAll s) := by
  unfold State.sealAll
  grind (gen := 40) (ematch := 40) (splits := 40) -lia -ring -linarith [keeps_extend, keeps_put, Keeps.update]

theorem keeps_stageFw (hk : Keeps s0 s) (body : List Byte) (flashOk : Bool) : Keeps s0 (State.stageFw s body flashOk).1 := by
  unfold State.stageFw
  repeat' split
  all_goals grind (gen := 40) (ematch := 40) (splits := 40) -lia -ring -linarith [keeps_ptrRead, Keeps.update]

/-- A fused SVN row raised (R391, R393). -/
theorem Keeps.raiseSvn (hk : Keeps s0 s) (k v : Nat) :
    Keeps s0 { s with fuses := { s.fuses with svn := s.fuses.svn.set k (max v (s.fusedSvn k)) } } := by
  refine hk.trans ⟨rfl, List.prefix_refl _, Nat.le_refl _, Nat.le_refl _, rfl, rfl, fun i => ?_,
    fun w => ⟨w.regs, w.cregs, w.dock, w.host, w.wh⟩⟩
  unfold State.fusedSvn
  simp only [List.getElem?_set]
  split
  · subst_vars
    split
    · exact Nat.le_max_right _ _
    · rename_i h
      rw [List.getElem?_eq_none (by omega)]
  · exact Nat.le_refl _

theorem keeps_serveMailbox (hk : Keeps s0 s) (r : ServiceReq) : Keeps s0 (State.serveMailbox s r).1 := by
  unfold State.serveMailbox
  dsimp only
  split
  · exact hk
  · split
    · exact hk
    · split
      · exact keeps_sealAll hk
      · split
        · exact hk
        · exact keeps_extend hk ..
      · split
        · exact hk
        · exact hk.same
      · exact keeps_stageFw hk ..
      · split
        · exact hk
        · split
          · exact hk
          · exact hk.raiseSvn ..
      · exact hk
      · exact hk

theorem keeps_setIde (hk : Keeps s0 s) (k : Nat) (x : IdeStream) : Keeps s0 (State.setIde s k x) := by
  unfold State.setIde
  grind (gen := 40) (ematch := 40) (splits := 40) -lia -ring -linarith [Keeps.update]

theorem keeps_serveMessage (hk : Keeps s0 s) (msg : List Byte) : Keeps s0 (State.serveMessage s msg).1 := by
  unfold State.serveMessage
  repeat' split
  all_goals grind (gen := 40) (ematch := 40) (splits := 40) -lia -ring -linarith [keeps_setIde, Keeps.update, Keeps.bumpFree]

theorem keeps_beginService (hk : Keeps s0 s) (r : ServiceReq) : Keeps s0 (State.beginService s r) := by
  unfold State.beginService
  grind (gen := 40) (ematch := 40) (splits := 40) -lia -ring -linarith [keeps_serveMailbox, keeps_serveMessage, Keeps.update]

theorem keeps_mailboxDone (hk : Keeps s0 s) (status : Nat) (reply : List Byte) : Keeps s0 (State.mailboxDone s status reply) := by
  unfold State.mailboxDone
  grind (gen := 40) (ematch := 40) (splits := 40) -lia -ring -linarith [keeps_put, Keeps.update]

theorem keeps_nextService (hk : Keeps s0 s)  : Keeps s0 (State.nextService s) := by
  unfold State.nextService
  grind (gen := 40) (ematch := 40) (splits := 40) -lia -ring -linarith [keeps_beginService, Keeps.update]

theorem keeps_finishService (hk : Keeps s0 s)  : Keeps s0 (State.finishService s) := by
  unfold State.finishService
  grind (gen := 40) (ematch := 40) (splits := 40) -lia -ring -linarith [keeps_mailboxDone, keeps_nextService, keeps_send, keeps_setIde, Keeps.update]

theorem keeps_arriveReq (hk : Keeps s0 s) (r : ServiceReq) : Keeps s0 (State.arriveReq s r) := by
  unfold State.arriveReq
  grind (gen := 40) (ematch := 40) (splits := 40) -lia -ring -linarith [keeps_fresh, keeps_mailboxDone, keeps_nextService, keeps_send, Keeps.update]

theorem keeps_attest (hk : Keeps s0 s) (code : Nat) (chan : MsgChan) (msg : List Byte) : Keeps s0 (State.attest s code chan msg) := by
  unfold State.attest
  grind (gen := 40) (ematch := 40) (splits := 40) -lia -ring -linarith [keeps_arriveReq, Keeps.update]

theorem keeps_mailboxGo (hk : Keeps s0 s) (req : Requester) (code len : Nat) (flashOk : Bool) : Keeps s0 (State.mailboxGo s req code len flashOk) := by
  unfold State.mailboxGo
  grind (gen := 40) (ematch := 40) (splits := 40) -lia -ring -linarith [keeps_arriveReq, keeps_put, Keeps.update]

theorem keeps_hmStop (hk : Keeps s0 s)  : Keeps s0 (State.hmStop s) := by
  unfold State.hmStop
  grind (gen := 40) (ematch := 40) (splits := 40) -lia -ring -linarith [keeps_cmisNack, keeps_put, keeps_setRing, Keeps.update, Keeps.foldl]

theorem keeps_hmRestart (hk : Keeps s0 s) : Keeps s0 (State.hmRestart s) := by
  unfold State.hmRestart
  dsimp only
  split
  · exact hk
  · exact keeps_put (keeps_bump (keeps_hmStop hk) ..) ..

theorem keeps_hmComplete (hk : Keeps s0 s)  : Keeps s0 (State.hmComplete s) := by
  unfold State.hmComplete
  grind (gen := 40) (ematch := 40) (splits := 40) -lia -ring -linarith [keeps_extend, keeps_put, keeps_runImage, keeps_running, Keeps.update]

theorem keeps_heartbeat (hk : Keeps s0 s) (req : Requester) (value : Word64) : Keeps s0 (State.heartbeat s req value) := by
  unfold State.heartbeat
  grind (gen := 40) (ematch := 40) (splits := 40) -lia -ring -linarith [keeps_applyWrite, Keeps.update]

theorem keeps_hmHold (hk : Keeps s0 s) (on : Bool) : Keeps s0 (State.hmHold s on) := by
  unfold State.hmHold
  grind (gen := 40) (ematch := 40) (splits := 40) -lia -ring -linarith [keeps_hmComplete, keeps_put, Keeps.update]

theorem keeps_hmDock (hk : Keeps s0 s) (k : Nat) (v : Word64) : Keeps s0 (State.hmDock s k v) := by
  unfold State.hmDock
  grind (gen := 40) (ematch := 40) (splits := 40) -lia -ring -linarith [keeps_applyWrite, keeps_put, Keeps.update]

end Sys2Proof.Machine
end

