-- ==== Sys2Proof/Laws/KeepsModule.lean ====
section
/-! SUPPORT. What the operations of Machine/Module.lean keep (Laws/Keeps.lean). -/

set_option Elab.async false

namespace Sys2Proof.Machine

variable {s0 s : State}

theorem keeps_loadFuses (hk : Keeps s0 s)  : Keeps s0 (State.loadFuses s) := by
  unfold State.loadFuses
  grind (gen := 40) (ematch := 40) (splits := 40) -lia -ring -linarith [keeps_extend, keeps_gradeWords, keeps_put, keeps_wr, Keeps.update, Keeps.foldl]

theorem keeps_bootImage (hk : Keeps s0 s) (kind slot stage : Nat) : Keeps s0 (State.bootImage s kind slot stage) := by
  unfold State.bootImage
  grind (gen := 40) (ematch := 40) (splits := 40) -lia -ring -linarith [keeps_extend, keeps_put, keeps_runImage, Keeps.update]

theorem keeps_bootStep (hk : Keeps s0 s)  : Keeps s0 (State.bootStep s) := by
  unfold State.bootStep
  grind (gen := 40) (ematch := 40) (splits := 40) -lia -ring -linarith [keeps_bootImage, keeps_loadFuses, keeps_put, keeps_running, Keeps.update]

theorem keeps_powerUp (hk : Keeps s0 s)  : Keeps s0 (State.powerUp s) := by
  unfold State.powerUp
  grind (gen := 40) (ematch := 40) (splits := 40) -lia -ring -linarith [keeps_coldReset, Keeps.update]

theorem keeps_tryPowerUp (hk : Keeps s0 s)  : Keeps s0 (State.tryPowerUp s) := by
  unfold State.tryPowerUp
  grind (gen := 40) (ematch := 40) (splits := 40) -lia -ring -linarith [keeps_powerUp, Keeps.update]

theorem keeps_dropDoe (hk : Keeps s0 s)  : Keeps s0 (State.dropDoe s) := by
  unfold State.dropDoe
  grind (gen := 40) (ematch := 40) (splits := 40) -lia -ring -linarith [keeps_nextService, Keeps.update]

end Sys2Proof.Machine
end

