-- ==== Sys2Proof/Laws/KeepsTallyRows.lean ====
section
/-! SUPPORT. What the operations of Machine/TallyRows.lean keep (Laws/Keeps.lean). -/

set_option Elab.async false

namespace Sys2Proof.Machine

variable {s0 s : State}

theorem keeps_windowUs (hk : Keeps s0 s) (req : Requester) (v : Word64) : Keeps s0 (State.windowUs s req v) := by
  unfold State.windowUs
  grind (gen := 40) (ematch := 40) (splits := 40) -lia -ring -linarith [keeps_applyWrite, Keeps.update]

theorem keeps_tallySnapshot (hk : Keeps s0 s) (forced : Bool) : Keeps s0 (State.tallySnapshot s forced) := by
  unfold State.tallySnapshot
  grind (gen := 40) (ematch := 40) (splits := 40) -lia -ring -linarith [keeps_bump, keeps_put, Keeps.update]

theorem keeps_placeDump (hk : Keeps s0 s) (v : Word64) : Keeps s0 (State.placeDump s v) := by
  unfold State.placeDump
  grind (gen := 40) (ematch := 40) (splits := 40) -lia -ring -linarith [keeps_put, keeps_wr, Keeps.update]

theorem keeps_dumpRing (hk : Keeps s0 s) (v : Word64) : Keeps s0 (State.dumpRing s v) := by
  unfold State.dumpRing
  grind (gen := 40) (ematch := 40) (splits := 40) -lia -ring -linarith [keeps_placeDump, keeps_put, Keeps.update]

theorem keeps_clearAll (hk : Keeps s0 s)  : Keeps s0 (State.clearAll s) := by
  unfold State.clearAll
  grind (gen := 40) (ematch := 40) (splits := 40) -lia -ring -linarith [keeps_wr, Keeps.update, Keeps.foldl]

theorem keeps_gather (hk : Keeps s0 s) (req : Requester) (count : Nat) : Keeps s0 (State.gather s req count) := by
  unfold State.gather
  grind (gen := 40) (ematch := 40) (splits := 40) -lia -ring -linarith [keeps_put, keeps_vs, keeps_wr, Keeps.update, Keeps.foldl]

theorem keeps_pcEnable (hk : Keeps s0 s) (k : Nat) (v : Word64) : Keeps s0 (State.pcEnable s k v) := by
  unfold State.pcEnable
  grind (gen := 40) (ematch := 40) (splits := 40) -lia -ring -linarith [keeps_put, keeps_wr, Keeps.update]

theorem keeps_sampleRing (hk : Keeps s0 s) (v : Word64) : Keeps s0 (State.sampleRing s v) := by
  unfold State.sampleRing
  grind (gen := 40) (ematch := 40) (splits := 40) -lia -ring -linarith [keeps_put, keeps_wr, Keeps.update]

theorem keeps_sampleCtl (hk : Keeps s0 s) (v : Word64) : Keeps s0 (State.sampleCtl s v) := by
  unfold State.sampleCtl
  grind (gen := 40) (ematch := 40) (splits := 40) -lia -ring -linarith [keeps_seedAll, keeps_wr, Keeps.update]

theorem keeps_zero (hk : Keeps s0 s) (fs : List Fld) (idx : List Nat) : Keeps s0 (State.zero s fs idx) := by
  unfold State.zero
  grind (gen := 40) (ematch := 40) (splits := 40) -lia -ring -linarith [keeps_put, Keeps.update, Keeps.foldl]

theorem keeps_clearTileErr (hk : Keeps s0 s)  : Keeps s0 (State.clearTileErr s) := by
  unfold State.clearTileErr
  grind (gen := 40) (ematch := 40) (splits := 40) -lia -ring -linarith [keeps_zero, Keeps.update]

theorem keeps_clearXrange (hk : Keeps s0 s)  : Keeps s0 (State.clearXrange s) := by
  unfold State.clearXrange
  grind (gen := 40) (ematch := 40) (splits := 40) -lia -ring -linarith [keeps_zero, Keeps.update]

theorem keeps_clearNondet (hk : Keeps s0 s)  : Keeps s0 (State.clearNondet s) := by
  unfold State.clearNondet
  grind (gen := 40) (ematch := 40) (splits := 40) -lia -ring -linarith [keeps_zero, Keeps.update]

theorem keeps_clearDkErr (hk : Keeps s0 s)  : Keeps s0 (State.clearDkErr s) := by
  unfold State.clearDkErr
  grind (gen := 40) (ematch := 40) (splits := 40) -lia -ring -linarith [keeps_zero, Keeps.update]

theorem keeps_clearWhErr (hk : Keeps s0 s)  : Keeps s0 (State.clearWhErr s) := by
  unfold State.clearWhErr
  grind (gen := 40) (ematch := 40) (splits := 40) -lia -ring -linarith [keeps_zero, Keeps.update]

theorem keeps_clearPeak (hk : Keeps s0 s) (d : Nat) : Keeps s0 (State.clearPeak s d) := by
  unfold State.clearPeak
  grind (gen := 40) (ematch := 40) (splits := 40) -lia -ring -linarith [keeps_put, Keeps.update]

theorem keeps_clearParErr (hk : Keeps s0 s) (p : Nat) : Keeps s0 (State.clearParErr s p) := by
  unfold State.clearParErr
  grind (gen := 40) (ematch := 40) (splits := 40) -lia -ring -linarith [keeps_zero, Keeps.update]

theorem keeps_clearWithdraw (hk : Keeps s0 s)  : Keeps s0 (State.clearWithdraw s) := by
  unfold State.clearWithdraw
  grind (gen := 40) (ematch := 40) (splits := 40) -lia -ring -linarith [keeps_zero, Keeps.update]

theorem keeps_clearBwDrop (hk : Keeps s0 s)  : Keeps s0 (State.clearBwDrop s) := by
  unfold State.clearBwDrop
  grind (gen := 40) (ematch := 40) (splits := 40) -lia -ring -linarith [keeps_zero, Keeps.update]

theorem keeps_clearPmDrops (hk : Keeps s0 s)  : Keeps s0 (State.clearPmDrops s) := by
  unfold State.clearPmDrops
  grind (gen := 40) (ematch := 40) (splits := 40) -lia -ring -linarith [keeps_zero, Keeps.update]

theorem keeps_clearDeny (hk : Keeps s0 s)  : Keeps s0 (State.clearDeny s) := by
  unfold State.clearDeny
  grind (gen := 40) (ematch := 40) (splits := 40) -lia -ring -linarith [keeps_zero, Keeps.update]

theorem keeps_clearPrbs (hk : Keeps s0 s) (lane : Nat) : Keeps s0 (State.clearPrbs s lane) := by
  unfold State.clearPrbs
  grind (gen := 40) (ematch := 40) (splits := 40) -lia -ring -linarith [keeps_wr, Keeps.update]

theorem keeps_clearMo (hk : Keeps s0 s) (mask : Nat) : Keeps s0 (State.clearMo s mask) := by
  unfold State.clearMo
  grind (gen := 40) (ematch := 40) (splits := 40) -lia -ring -linarith [keeps_wr, Keeps.update, Keeps.foldl]

theorem keeps_clearBh (hk : Keeps s0 s) (mask : Nat) : Keeps s0 (State.clearBh s mask) := by
  unfold State.clearBh
  grind (gen := 40) (ematch := 40) (splits := 40) -lia -ring -linarith [keeps_wr, Keeps.update, Keeps.foldl]

theorem keeps_clearBs (hk : Keeps s0 s) (mask : Nat) : Keeps s0 (State.clearBs s mask) := by
  unfold State.clearBs
  grind (gen := 40) (ematch := 40) (splits := 40) -lia -ring -linarith [keeps_wr, Keeps.update, Keeps.foldl]

end Sys2Proof.Machine
end

