-- ==== Sys2Proof/Laws/KeepsRegWrite.lean ====
section
/-! SUPPORT. What the operations of Machine/RegWrite.lean keep (Laws/Keeps.lean). -/

set_option Elab.async false

namespace Sys2Proof.Machine

variable {s0 s : State}

theorem keeps_strictWrite (hk : Keeps s0 s) (req : Requester) (v : Word64) : Keeps s0 (State.strictWrite s req v) := by
  unfold State.strictWrite
  grind (gen := 40) (ematch := 40) (splits := 40) -lia -ring -linarith [keeps_applyWrite, keeps_put, Keeps.update]

theorem keeps_armWrite (hk : Keeps s0 s) (req : Requester) (r : Reg) (kindLo armLo : Nat) (v : Word64) : Keeps s0 (State.armWrite s req r kindLo armLo v) := by
  unfold State.armWrite
  grind (gen := 40) (ematch := 40) (splits := 40) -lia -ring -linarith [keeps_applyWrite, Keeps.update]

theorem keeps_consTake (hk : Keeps s0 s) (cons prod : Fld) (idx : List Nat) (v : Nat) : Keeps s0 (State.consTake s cons prod idx v) := by
  unfold State.consTake
  grind (gen := 40) (ematch := 40) (splits := 40) -lia -ring -linarith [keeps_put, Keeps.update]

theorem keeps_pcRange (hk : Keeps s0 s) (req : Requester) (r : Reg) (k : Nat) (v : Word64) : Keeps s0 (State.pcRange s req r k v) := by
  unfold State.pcRange
  grind (gen := 40) (ematch := 40) (splits := 40) -lia -ring -linarith [keeps_applyWrite, Keeps.update]

theorem keeps_tallyCtl (hk : Keeps s0 s) (v : Word64) : Keeps s0 (State.tallyCtl s v) := by
  unfold State.tallyCtl
  grind (gen := 40) (ematch := 40) (splits := 40) -lia -ring -linarith [keeps_clearAll, keeps_tallySnapshot, Keeps.update]

theorem keeps_gatherWrite (hk : Keeps s0 s) (req : Requester) (v : Word64) : Keeps s0 (State.gatherWrite s req v) := by
  unfold State.gatherWrite
  grind (gen := 40) (ematch := 40) (splits := 40) -lia -ring -linarith [keeps_gather, keeps_put, Keeps.update]

theorem keeps_hmCtl (hk : Keeps s0 s) (v : Word64) : Keeps s0 (State.hmCtl s v) := by
  unfold State.hmCtl
  grind (gen := 40) (ematch := 40) (splits := 40) -lia -ring -linarith [keeps_hmHold, keeps_hmRestart, Keeps.update]

theorem keeps_prbsCtl (hk : Keeps s0 s) (req : Requester) (idx : List Nat) (v : Word64) : Keeps s0 (State.prbsCtl s req idx v) := by
  unfold State.prbsCtl
  grind (gen := 40) (ematch := 40) (splits := 40) -lia -ring -linarith [keeps_applyWrite, keeps_clearPrbs, keeps_leaveService, Keeps.update]

theorem keeps_clearBit (hk : Keeps s0 s) (req : Requester) (r : Reg) (idx : List Nat) (v : Word64) (f : State → State) (hf : ∀ x0, Keeps s0 x0 → Keeps s0 (f x0)) : Keeps s0 (State.clearBit s req r idx v f) := by
  unfold State.clearBit
  grind (gen := 40) (ematch := 40) (splits := 40) -lia -ring -linarith [keeps_applyWrite, Keeps.update]

theorem keeps_regEffect (hk : Keeps s0 s) (req : Requester) (r : Reg) (idx : List Nat) (v : Word64) : Keeps s0 (State.regEffect s req r idx v) := by
  unfold State.regEffect
  grind (gen := 40) (ematch := 40) (splits := 40) -lia -ring -linarith [keeps_applyWrite, keeps_armWrite, keeps_askDue, keeps_bgHold, keeps_captureTo, keeps_clearBh, keeps_clearBit, keeps_clearBs, keeps_clearBwDrop, keeps_clearDeny, keeps_clearDkErr, keeps_clearMo, keeps_clearNondet, keeps_clearParErr, keeps_clearPeak, keeps_clearPmDrops, keeps_clearTileErr, keeps_clearWhErr, keeps_clearWithdraw, keeps_clearXrange, keeps_cmisGo, keeps_consTake, keeps_consWrite, keeps_dumpRing, keeps_evSet, keeps_faultRelease, keeps_floorBerths, keeps_gatherWrite, keeps_hOp, keeps_heartbeat, keeps_hmCtl, keeps_hmDock, keeps_holdCeiling, keeps_inject, keeps_lhCal, keeps_mailboxGo, keeps_meterOp, keeps_pcEnable, keeps_pcRange, keeps_prbsCtl, keeps_ringCtl, keeps_sampleCtl, keeps_sampleRing, keeps_setRate, keeps_shadowWrite, keeps_showFences, keeps_stepTime, keeps_strictWrite, keeps_tallyCtl, keeps_windowUs, keeps_wkCommit, Keeps.update]

end Sys2Proof.Machine
end

