-- ==== Sys2Proof/Laws/KeepsLine.lean ====
section
/-! SUPPORT. What the operations of Machine/Line.lean keep (Laws/Keeps.lean). -/

set_option Elab.async false

namespace Sys2Proof.Machine

variable {s0 s : State}

theorem keeps_sendMessage (hk : Keeps s0 s) (p : Nat) : Keeps s0 (State.sendMessage s p) := by
  unfold State.sendMessage
  grind (gen := 40) (ematch := 40) (splits := 40) -lia -ring -linarith [keeps_mapLink, keeps_mapPort, keeps_send, Keeps.update, Keeps.foldl]

theorem keeps_runLine (hk : Keeps s0 s) (p : Nat) : Keeps s0 (State.runLine s p) := by
  unfold State.runLine
  grind (gen := 40) (ematch := 40) (splits := 40) -lia -ring -linarith [keeps_sendMessage, Keeps.update, Keeps.foldl]

theorem keeps_runLines (hk : Keeps s0 s)  : Keeps s0 (State.runLines s) := by
  unfold State.runLines
  grind (gen := 40) (ematch := 40) (splits := 40) -lia -ring -linarith [keeps_runLine, Keeps.update, Keeps.foldl]

end Sys2Proof.Machine
end

