-- ==== Sys2Proof/Laws/KeepsTick.lean ====
section
/-! SUPPORT. What the operations of Machine/Tick.lean keep (Laws/Keeps.lean). -/

set_option Elab.async false

namespace Sys2Proof.Machine

variable {s0 s : State}

theorem keeps_advanceTime (hk : Keeps s0 s)  : Keeps s0 (State.advanceTime s) := by
  unfold State.advanceTime
  grind (gen := 40) (ematch := 40) (splits := 40) -lia -ring -linarith [Keeps.update]

theorem keeps_drainAll (hk : Keeps s0 s)  : Keeps s0 (State.drainAll s) := by
  unfold State.drainAll
  grind (gen := 40) (ematch := 40) (splits := 40) -lia -ring -linarith [keeps_drainRx, Keeps.update, Keeps.foldl]

theorem keeps_tick (hk : Keeps s0 s)  : Keeps s0 (State.tick s) := by
  unfold State.tick
  grind (gen := 40) (ematch := 40) (splits := 40) -lia -ring -linarith [keeps_advanceTime, keeps_bootStep, keeps_commitRamp, keeps_drainAll, keeps_finishService, keeps_put, keeps_runLines, keeps_tally, Keeps.update]

end Sys2Proof.Machine
end

