-- ==== Sys2Proof/Laws/Memory.lean ====
section
/-! SUPPORT. The laws of the byte memories: a byte reads as it was last written, and no other byte changes. -/

set_option Elab.async false

namespace Sys2Proof.Machine

theorem cellAt_above {b : Nat} {m : List Host.Cell} (h : spSortedAbove b m) {a : Nat} (ha : a ≤ b) : cellAt m a = none := by
  cases m with
  | nil => rfl
  | cons p r =>
    obtain ⟨j, w⟩ := p
    have : b < j := h.1
    simp only [cellAt]
    rw [if_neg (by omega), if_pos (by omega)]

theorem cellAt_spIns {m : List Host.Cell} (k : Nat) (v : Byte) (a : Nat) :
    cellAt (spIns m k v) a = if a = k then some v else cellAt m a := by
  induction m with
  | nil => simp only [spIns, cellAt]; grind
  | cons p r ih =>
    obtain ⟨j, w⟩ := p
    simp only [spIns]
    split
    · simp only [cellAt]; grind
    · split
      · simp only [cellAt]; grind
      · simp only [cellAt, ih]; grind

theorem cellAt_putCells (m : List Host.Cell) (d : Nat) (bs : List Byte) (a : Nat) :
    cellAt (putCells m d bs) a = if d ≤ a ∧ a < d + bs.length then bs[a - d]? else cellAt m a := by
  induction bs generalizing m d with
  | nil => simp only [putCells, List.length_nil]; grind
  | cons b bs ih => simp only [putCells, ih, cellAt_spIns, List.length_cons]; grind

/-- The memories after reset are in canonical form: nothing is listed. -/
theorem reset_memories_wf : Memory.wf State.reset.dock.cells ∧ Memory.wf State.reset.hostMem.cells ∧ Memory.wf State.reset.wh :=
  ⟨trivial, trivial, trivial⟩

/-- Every table after reset is in canonical form. -/
theorem reset_wf : State.reset.Wf := ⟨trivial, trivial, trivial, trivial, trivial⟩

end Sys2Proof.Machine
end

