-- ==== Sys2Proof/Laws/State.lean ====
section
/-! SUPPORT. What each update of the state leaves alone, field by field, and reading back what was written. -/

set_option Elab.async false

namespace Sys2Proof.Machine

variable (s : State)

/-! ### Field by field -/

@[simp] theorem State.wr_pending (r : Reg) (idx : List Nat) (v : Word64) : (s.wr r idx v).pending = s.pending := rfl
@[simp] theorem State.wr_now (r : Reg) (idx : List Nat) (v : Word64) : (s.wr r idx v).now = s.now := rfl
@[simp] theorem State.wr_resets (r : Reg) (idx : List Nat) (v : Word64) : (s.wr r idx v).resets = s.resets := rfl
@[simp] theorem State.wr_freeCtr (r : Reg) (idx : List Nat) (v : Word64) : (s.wr r idx v).freeCtr = s.freeCtr := rfl
@[simp] theorem State.wr_fuses (r : Reg) (idx : List Nat) (v : Word64) : (s.wr r idx v).fuses = s.fuses := rfl
@[simp] theorem State.wr_regs (r : Reg) (idx : List Nat) (v : Word64) : (s.wr r idx v).regs = spPut (regReset r idx) s.regs (regAddr r idx) v := rfl
@[simp] theorem State.wr_cregs (r : Reg) (idx : List Nat) (v : Word64) : (s.wr r idx v).cregs = s.cregs := rfl
@[simp] theorem State.wr_commits (r : Reg) (idx : List Nat) (v : Word64) : (s.wr r idx v).commits = s.commits := rfl
@[simp] theorem State.wr_dock (r : Reg) (idx : List Nat) (v : Word64) : (s.wr r idx v).dock = s.dock := rfl
@[simp] theorem State.wr_dockAt (r : Reg) (idx : List Nat) (v : Word64) : (s.wr r idx v).dockAt = s.dockAt := rfl
@[simp] theorem State.wr_hostMem (r : Reg) (idx : List Nat) (v : Word64) : (s.wr r idx v).hostMem = s.hostMem := rfl
@[simp] theorem State.wr_wh (r : Reg) (idx : List Nat) (v : Word64) : (s.wr r idx v).wh = s.wh := rfl
@[simp] theorem State.wr_whEra (r : Reg) (idx : List Nat) (v : Word64) : (s.wr r idx v).whEra = s.whEra := rfl
@[simp] theorem State.wr_rings (r : Reg) (idx : List Nat) (v : Word64) : (s.wr r idx v).rings = s.rings := rfl
@[simp] theorem State.wr_clock (r : Reg) (idx : List Nat) (v : Word64) : (s.wr r idx v).clock = s.clock := rfl
@[simp] theorem State.wr_gate (r : Reg) (idx : List Nat) (v : Word64) : (s.wr r idx v).gate = s.gate := rfl
@[simp] theorem State.wr_up (r : Reg) (idx : List Nat) (v : Word64) : (s.wr r idx v).up = s.up := rfl
@[simp] theorem State.wr_hm (r : Reg) (idx : List Nat) (v : Word64) : (s.wr r idx v).hm = s.hm := rfl
@[simp] theorem State.wr_tal (r : Reg) (idx : List Nat) (v : Word64) : (s.wr r idx v).tal = s.tal := rfl
@[simp] theorem State.wr_mo (r : Reg) (idx : List Nat) (v : Word64) : (s.wr r idx v).mo = s.mo := rfl
@[simp] theorem State.wr_bh (r : Reg) (idx : List Nat) (v : Word64) : (s.wr r idx v).bh = s.bh := rfl
@[simp] theorem State.wr_basin (r : Reg) (idx : List Nat) (v : Word64) : (s.wr r idx v).basin = s.basin := rfl
@[simp] theorem State.wr_harbour (r : Reg) (idx : List Nat) (v : Word64) : (s.wr r idx v).harbour = s.harbour := rfl
@[simp] theorem State.wr_sched (r : Reg) (idx : List Nat) (v : Word64) : (s.wr r idx v).sched = s.sched := rfl
@[simp] theorem State.wr_quays (r : Reg) (idx : List Nat) (v : Word64) : (s.wr r idx v).quays = s.quays := rfl
@[simp] theorem State.wr_pv (r : Reg) (idx : List Nat) (v : Word64) : (s.wr r idx v).pv = s.pv := rfl
@[simp] theorem State.wr_bw (r : Reg) (idx : List Nat) (v : Word64) : (s.wr r idx v).bw = s.bw := rfl
@[simp] theorem State.wr_pwr (r : Reg) (idx : List Nat) (v : Word64) : (s.wr r idx v).pwr = s.pwr := rfl
@[simp] theorem State.wr_lodge (r : Reg) (idx : List Nat) (v : Word64) : (s.wr r idx v).lodge = s.lodge := rfl
@[simp] theorem State.wr_sup (r : Reg) (idx : List Nat) (v : Word64) : (s.wr r idx v).sup = s.sup := rfl
@[simp] theorem State.wr_sent (r : Reg) (idx : List Nat) (v : Word64) : (s.wr r idx v).sent = s.sent := rfl

@[simp] theorem State.cwr_pending (r : Reg) (idx : List Nat) (v : Word64) : (s.cwr r idx v).pending = s.pending := rfl
@[simp] theorem State.cwr_now (r : Reg) (idx : List Nat) (v : Word64) : (s.cwr r idx v).now = s.now := rfl
@[simp] theorem State.cwr_resets (r : Reg) (idx : List Nat) (v : Word64) : (s.cwr r idx v).resets = s.resets := rfl
@[simp] theorem State.cwr_freeCtr (r : Reg) (idx : List Nat) (v : Word64) : (s.cwr r idx v).freeCtr = s.freeCtr := rfl
@[simp] theorem State.cwr_fuses (r : Reg) (idx : List Nat) (v : Word64) : (s.cwr r idx v).fuses = s.fuses := rfl
@[simp] theorem State.cwr_regs (r : Reg) (idx : List Nat) (v : Word64) : (s.cwr r idx v).regs = s.regs := rfl
@[simp] theorem State.cwr_cregs (r : Reg) (idx : List Nat) (v : Word64) : (s.cwr r idx v).cregs = spPut (regReset r idx) s.cregs (regAddr r idx) v := rfl
@[simp] theorem State.cwr_commits (r : Reg) (idx : List Nat) (v : Word64) : (s.cwr r idx v).commits = s.commits := rfl
@[simp] theorem State.cwr_dock (r : Reg) (idx : List Nat) (v : Word64) : (s.cwr r idx v).dock = s.dock := rfl
@[simp] theorem State.cwr_dockAt (r : Reg) (idx : List Nat) (v : Word64) : (s.cwr r idx v).dockAt = s.dockAt := rfl
@[simp] theorem State.cwr_hostMem (r : Reg) (idx : List Nat) (v : Word64) : (s.cwr r idx v).hostMem = s.hostMem := rfl
@[simp] theorem State.cwr_wh (r : Reg) (idx : List Nat) (v : Word64) : (s.cwr r idx v).wh = s.wh := rfl
@[simp] theorem State.cwr_whEra (r : Reg) (idx : List Nat) (v : Word64) : (s.cwr r idx v).whEra = s.whEra := rfl
@[simp] theorem State.cwr_rings (r : Reg) (idx : List Nat) (v : Word64) : (s.cwr r idx v).rings = s.rings := rfl
@[simp] theorem State.cwr_clock (r : Reg) (idx : List Nat) (v : Word64) : (s.cwr r idx v).clock = s.clock := rfl
@[simp] theorem State.cwr_gate (r : Reg) (idx : List Nat) (v : Word64) : (s.cwr r idx v).gate = s.gate := rfl
@[simp] theorem State.cwr_up (r : Reg) (idx : List Nat) (v : Word64) : (s.cwr r idx v).up = s.up := rfl
@[simp] theorem State.cwr_hm (r : Reg) (idx : List Nat) (v : Word64) : (s.cwr r idx v).hm = s.hm := rfl
@[simp] theorem State.cwr_tal (r : Reg) (idx : List Nat) (v : Word64) : (s.cwr r idx v).tal = s.tal := rfl
@[simp] theorem State.cwr_mo (r : Reg) (idx : List Nat) (v : Word64) : (s.cwr r idx v).mo = s.mo := rfl
@[simp] theorem State.cwr_bh (r : Reg) (idx : List Nat) (v : Word64) : (s.cwr r idx v).bh = s.bh := rfl
@[simp] theorem State.cwr_basin (r : Reg) (idx : List Nat) (v : Word64) : (s.cwr r idx v).basin = s.basin := rfl
@[simp] theorem State.cwr_harbour (r : Reg) (idx : List Nat) (v : Word64) : (s.cwr r idx v).harbour = s.harbour := rfl
@[simp] theorem State.cwr_sched (r : Reg) (idx : List Nat) (v : Word64) : (s.cwr r idx v).sched = s.sched := rfl
@[simp] theorem State.cwr_quays (r : Reg) (idx : List Nat) (v : Word64) : (s.cwr r idx v).quays = s.quays := rfl
@[simp] theorem State.cwr_pv (r : Reg) (idx : List Nat) (v : Word64) : (s.cwr r idx v).pv = s.pv := rfl
@[simp] theorem State.cwr_bw (r : Reg) (idx : List Nat) (v : Word64) : (s.cwr r idx v).bw = s.bw := rfl
@[simp] theorem State.cwr_pwr (r : Reg) (idx : List Nat) (v : Word64) : (s.cwr r idx v).pwr = s.pwr := rfl
@[simp] theorem State.cwr_lodge (r : Reg) (idx : List Nat) (v : Word64) : (s.cwr r idx v).lodge = s.lodge := rfl
@[simp] theorem State.cwr_sup (r : Reg) (idx : List Nat) (v : Word64) : (s.cwr r idx v).sup = s.sup := rfl
@[simp] theorem State.cwr_sent (r : Reg) (idx : List Nat) (v : Word64) : (s.cwr r idx v).sent = s.sent := rfl

@[simp] theorem State.put_pending (f : Fld) (idx : List Nat) (v : Nat) : (s.put f idx v).pending = s.pending := rfl
@[simp] theorem State.put_now (f : Fld) (idx : List Nat) (v : Nat) : (s.put f idx v).now = s.now := rfl
@[simp] theorem State.put_resets (f : Fld) (idx : List Nat) (v : Nat) : (s.put f idx v).resets = s.resets := rfl
@[simp] theorem State.put_freeCtr (f : Fld) (idx : List Nat) (v : Nat) : (s.put f idx v).freeCtr = s.freeCtr := rfl
@[simp] theorem State.put_fuses (f : Fld) (idx : List Nat) (v : Nat) : (s.put f idx v).fuses = s.fuses := rfl
@[simp] theorem State.put_cregs (f : Fld) (idx : List Nat) (v : Nat) : (s.put f idx v).cregs = s.cregs := rfl
@[simp] theorem State.put_commits (f : Fld) (idx : List Nat) (v : Nat) : (s.put f idx v).commits = s.commits := rfl
@[simp] theorem State.put_dock (f : Fld) (idx : List Nat) (v : Nat) : (s.put f idx v).dock = s.dock := rfl
@[simp] theorem State.put_dockAt (f : Fld) (idx : List Nat) (v : Nat) : (s.put f idx v).dockAt = s.dockAt := rfl
@[simp] theorem State.put_hostMem (f : Fld) (idx : List Nat) (v : Nat) : (s.put f idx v).hostMem = s.hostMem := rfl
@[simp] theorem State.put_wh (f : Fld) (idx : List Nat) (v : Nat) : (s.put f idx v).wh = s.wh := rfl
@[simp] theorem State.put_whEra (f : Fld) (idx : List Nat) (v : Nat) : (s.put f idx v).whEra = s.whEra := rfl
@[simp] theorem State.put_rings (f : Fld) (idx : List Nat) (v : Nat) : (s.put f idx v).rings = s.rings := rfl
@[simp] theorem State.put_clock (f : Fld) (idx : List Nat) (v : Nat) : (s.put f idx v).clock = s.clock := rfl
@[simp] theorem State.put_gate (f : Fld) (idx : List Nat) (v : Nat) : (s.put f idx v).gate = s.gate := rfl
@[simp] theorem State.put_up (f : Fld) (idx : List Nat) (v : Nat) : (s.put f idx v).up = s.up := rfl
@[simp] theorem State.put_hm (f : Fld) (idx : List Nat) (v : Nat) : (s.put f idx v).hm = s.hm := rfl
@[simp] theorem State.put_tal (f : Fld) (idx : List Nat) (v : Nat) : (s.put f idx v).tal = s.tal := rfl
@[simp] theorem State.put_mo (f : Fld) (idx : List Nat) (v : Nat) : (s.put f idx v).mo = s.mo := rfl
@[simp] theorem State.put_bh (f : Fld) (idx : List Nat) (v : Nat) : (s.put f idx v).bh = s.bh := rfl
@[simp] theorem State.put_basin (f : Fld) (idx : List Nat) (v : Nat) : (s.put f idx v).basin = s.basin := rfl
@[simp] theorem State.put_harbour (f : Fld) (idx : List Nat) (v : Nat) : (s.put f idx v).harbour = s.harbour := rfl
@[simp] theorem State.put_sched (f : Fld) (idx : List Nat) (v : Nat) : (s.put f idx v).sched = s.sched := rfl
@[simp] theorem State.put_quays (f : Fld) (idx : List Nat) (v : Nat) : (s.put f idx v).quays = s.quays := rfl
@[simp] theorem State.put_pv (f : Fld) (idx : List Nat) (v : Nat) : (s.put f idx v).pv = s.pv := rfl
@[simp] theorem State.put_bw (f : Fld) (idx : List Nat) (v : Nat) : (s.put f idx v).bw = s.bw := rfl
@[simp] theorem State.put_pwr (f : Fld) (idx : List Nat) (v : Nat) : (s.put f idx v).pwr = s.pwr := rfl
@[simp] theorem State.put_lodge (f : Fld) (idx : List Nat) (v : Nat) : (s.put f idx v).lodge = s.lodge := rfl
@[simp] theorem State.put_sup (f : Fld) (idx : List Nat) (v : Nat) : (s.put f idx v).sup = s.sup := rfl
@[simp] theorem State.put_sent (f : Fld) (idx : List Nat) (v : Nat) : (s.put f idx v).sent = s.sent := rfl

@[simp] theorem State.cput_pending (f : Fld) (idx : List Nat) (v : Nat) : (s.cput f idx v).pending = s.pending := rfl
@[simp] theorem State.cput_now (f : Fld) (idx : List Nat) (v : Nat) : (s.cput f idx v).now = s.now := rfl
@[simp] theorem State.cput_resets (f : Fld) (idx : List Nat) (v : Nat) : (s.cput f idx v).resets = s.resets := rfl
@[simp] theorem State.cput_freeCtr (f : Fld) (idx : List Nat) (v : Nat) : (s.cput f idx v).freeCtr = s.freeCtr := rfl
@[simp] theorem State.cput_fuses (f : Fld) (idx : List Nat) (v : Nat) : (s.cput f idx v).fuses = s.fuses := rfl
@[simp] theorem State.cput_regs (f : Fld) (idx : List Nat) (v : Nat) : (s.cput f idx v).regs = s.regs := rfl
@[simp] theorem State.cput_commits (f : Fld) (idx : List Nat) (v : Nat) : (s.cput f idx v).commits = s.commits := rfl
@[simp] theorem State.cput_dock (f : Fld) (idx : List Nat) (v : Nat) : (s.cput f idx v).dock = s.dock := rfl
@[simp] theorem State.cput_dockAt (f : Fld) (idx : List Nat) (v : Nat) : (s.cput f idx v).dockAt = s.dockAt := rfl
@[simp] theorem State.cput_hostMem (f : Fld) (idx : List Nat) (v : Nat) : (s.cput f idx v).hostMem = s.hostMem := rfl
@[simp] theorem State.cput_wh (f : Fld) (idx : List Nat) (v : Nat) : (s.cput f idx v).wh = s.wh := rfl
@[simp] theorem State.cput_whEra (f : Fld) (idx : List Nat) (v : Nat) : (s.cput f idx v).whEra = s.whEra := rfl
@[simp] theorem State.cput_rings (f : Fld) (idx : List Nat) (v : Nat) : (s.cput f idx v).rings = s.rings := rfl
@[simp] theorem State.cput_clock (f : Fld) (idx : List Nat) (v : Nat) : (s.cput f idx v).clock = s.clock := rfl
@[simp] theorem State.cput_gate (f : Fld) (idx : List Nat) (v : Nat) : (s.cput f idx v).gate = s.gate := rfl
@[simp] theorem State.cput_up (f : Fld) (idx : List Nat) (v : Nat) : (s.cput f idx v).up = s.up := rfl
@[simp] theorem State.cput_hm (f : Fld) (idx : List Nat) (v : Nat) : (s.cput f idx v).hm = s.hm := rfl
@[simp] theorem State.cput_tal (f : Fld) (idx : List Nat) (v : Nat) : (s.cput f idx v).tal = s.tal := rfl
@[simp] theorem State.cput_mo (f : Fld) (idx : List Nat) (v : Nat) : (s.cput f idx v).mo = s.mo := rfl
@[simp] theorem State.cput_bh (f : Fld) (idx : List Nat) (v : Nat) : (s.cput f idx v).bh = s.bh := rfl
@[simp] theorem State.cput_basin (f : Fld) (idx : List Nat) (v : Nat) : (s.cput f idx v).basin = s.basin := rfl
@[simp] theorem State.cput_harbour (f : Fld) (idx : List Nat) (v : Nat) : (s.cput f idx v).harbour = s.harbour := rfl
@[simp] theorem State.cput_sched (f : Fld) (idx : List Nat) (v : Nat) : (s.cput f idx v).sched = s.sched := rfl
@[simp] theorem State.cput_quays (f : Fld) (idx : List Nat) (v : Nat) : (s.cput f idx v).quays = s.quays := rfl
@[simp] theorem State.cput_pv (f : Fld) (idx : List Nat) (v : Nat) : (s.cput f idx v).pv = s.pv := rfl
@[simp] theorem State.cput_bw (f : Fld) (idx : List Nat) (v : Nat) : (s.cput f idx v).bw = s.bw := rfl
@[simp] theorem State.cput_pwr (f : Fld) (idx : List Nat) (v : Nat) : (s.cput f idx v).pwr = s.pwr := rfl
@[simp] theorem State.cput_lodge (f : Fld) (idx : List Nat) (v : Nat) : (s.cput f idx v).lodge = s.lodge := rfl
@[simp] theorem State.cput_sup (f : Fld) (idx : List Nat) (v : Nat) : (s.cput f idx v).sup = s.sup := rfl
@[simp] theorem State.cput_sent (f : Fld) (idx : List Nat) (v : Nat) : (s.cput f idx v).sent = s.sent := rfl

@[simp] theorem State.bump_pending (f : Fld) (idx : List Nat) (n : Nat) : (s.bump f idx n).pending = s.pending := rfl
@[simp] theorem State.bump_now (f : Fld) (idx : List Nat) (n : Nat) : (s.bump f idx n).now = s.now := rfl
@[simp] theorem State.bump_resets (f : Fld) (idx : List Nat) (n : Nat) : (s.bump f idx n).resets = s.resets := rfl
@[simp] theorem State.bump_freeCtr (f : Fld) (idx : List Nat) (n : Nat) : (s.bump f idx n).freeCtr = s.freeCtr := rfl
@[simp] theorem State.bump_fuses (f : Fld) (idx : List Nat) (n : Nat) : (s.bump f idx n).fuses = s.fuses := rfl
@[simp] theorem State.bump_cregs (f : Fld) (idx : List Nat) (n : Nat) : (s.bump f idx n).cregs = s.cregs := rfl
@[simp] theorem State.bump_commits (f : Fld) (idx : List Nat) (n : Nat) : (s.bump f idx n).commits = s.commits := rfl
@[simp] theorem State.bump_dock (f : Fld) (idx : List Nat) (n : Nat) : (s.bump f idx n).dock = s.dock := rfl
@[simp] theorem State.bump_dockAt (f : Fld) (idx : List Nat) (n : Nat) : (s.bump f idx n).dockAt = s.dockAt := rfl
@[simp] theorem State.bump_hostMem (f : Fld) (idx : List Nat) (n : Nat) : (s.bump f idx n).hostMem = s.hostMem := rfl
@[simp] theorem State.bump_wh (f : Fld) (idx : List Nat) (n : Nat) : (s.bump f idx n).wh = s.wh := rfl
@[simp] theorem State.bump_whEra (f : Fld) (idx : List Nat) (n : Nat) : (s.bump f idx n).whEra = s.whEra := rfl
@[simp] theorem State.bump_rings (f : Fld) (idx : List Nat) (n : Nat) : (s.bump f idx n).rings = s.rings := rfl
@[simp] theorem State.bump_clock (f : Fld) (idx : List Nat) (n : Nat) : (s.bump f idx n).clock = s.clock := rfl
@[simp] theorem State.bump_gate (f : Fld) (idx : List Nat) (n : Nat) : (s.bump f idx n).gate = s.gate := rfl
@[simp] theorem State.bump_up (f : Fld) (idx : List Nat) (n : Nat) : (s.bump f idx n).up = s.up := rfl
@[simp] theorem State.bump_hm (f : Fld) (idx : List Nat) (n : Nat) : (s.bump f idx n).hm = s.hm := rfl
@[simp] theorem State.bump_tal (f : Fld) (idx : List Nat) (n : Nat) : (s.bump f idx n).tal = s.tal := rfl
@[simp] theorem State.bump_mo (f : Fld) (idx : List Nat) (n : Nat) : (s.bump f idx n).mo = s.mo := rfl
@[simp] theorem State.bump_bh (f : Fld) (idx : List Nat) (n : Nat) : (s.bump f idx n).bh = s.bh := rfl
@[simp] theorem State.bump_basin (f : Fld) (idx : List Nat) (n : Nat) : (s.bump f idx n).basin = s.basin := rfl
@[simp] theorem State.bump_harbour (f : Fld) (idx : List Nat) (n : Nat) : (s.bump f idx n).harbour = s.harbour := rfl
@[simp] theorem State.bump_sched (f : Fld) (idx : List Nat) (n : Nat) : (s.bump f idx n).sched = s.sched := rfl
@[simp] theorem State.bump_quays (f : Fld) (idx : List Nat) (n : Nat) : (s.bump f idx n).quays = s.quays := rfl
@[simp] theorem State.bump_pv (f : Fld) (idx : List Nat) (n : Nat) : (s.bump f idx n).pv = s.pv := rfl
@[simp] theorem State.bump_bw (f : Fld) (idx : List Nat) (n : Nat) : (s.bump f idx n).bw = s.bw := rfl
@[simp] theorem State.bump_pwr (f : Fld) (idx : List Nat) (n : Nat) : (s.bump f idx n).pwr = s.pwr := rfl
@[simp] theorem State.bump_lodge (f : Fld) (idx : List Nat) (n : Nat) : (s.bump f idx n).lodge = s.lodge := rfl
@[simp] theorem State.bump_sup (f : Fld) (idx : List Nat) (n : Nat) : (s.bump f idx n).sup = s.sup := rfl
@[simp] theorem State.bump_sent (f : Fld) (idx : List Nat) (n : Nat) : (s.bump f idx n).sent = s.sent := rfl

@[simp] theorem State.advance_pending (f : Fld) (idx : List Nat) (n : Nat) : (s.advance f idx n).pending = s.pending := rfl
@[simp] theorem State.advance_now (f : Fld) (idx : List Nat) (n : Nat) : (s.advance f idx n).now = s.now := rfl
@[simp] theorem State.advance_resets (f : Fld) (idx : List Nat) (n : Nat) : (s.advance f idx n).resets = s.resets := rfl
@[simp] theorem State.advance_freeCtr (f : Fld) (idx : List Nat) (n : Nat) : (s.advance f idx n).freeCtr = s.freeCtr := rfl
@[simp] theorem State.advance_fuses (f : Fld) (idx : List Nat) (n : Nat) : (s.advance f idx n).fuses = s.fuses := rfl
@[simp] theorem State.advance_cregs (f : Fld) (idx : List Nat) (n : Nat) : (s.advance f idx n).cregs = s.cregs := rfl
@[simp] theorem State.advance_commits (f : Fld) (idx : List Nat) (n : Nat) : (s.advance f idx n).commits = s.commits := rfl
@[simp] theorem State.advance_dock (f : Fld) (idx : List Nat) (n : Nat) : (s.advance f idx n).dock = s.dock := rfl
@[simp] theorem State.advance_dockAt (f : Fld) (idx : List Nat) (n : Nat) : (s.advance f idx n).dockAt = s.dockAt := rfl
@[simp] theorem State.advance_hostMem (f : Fld) (idx : List Nat) (n : Nat) : (s.advance f idx n).hostMem = s.hostMem := rfl
@[simp] theorem State.advance_wh (f : Fld) (idx : List Nat) (n : Nat) : (s.advance f idx n).wh = s.wh := rfl
@[simp] theorem State.advance_whEra (f : Fld) (idx : List Nat) (n : Nat) : (s.advance f idx n).whEra = s.whEra := rfl
@[simp] theorem State.advance_rings (f : Fld) (idx : List Nat) (n : Nat) : (s.advance f idx n).rings = s.rings := rfl
@[simp] theorem State.advance_clock (f : Fld) (idx : List Nat) (n : Nat) : (s.advance f idx n).clock = s.clock := rfl
@[simp] theorem State.advance_gate (f : Fld) (idx : List Nat) (n : Nat) : (s.advance f idx n).gate = s.gate := rfl
@[simp] theorem State.advance_up (f : Fld) (idx : List Nat) (n : Nat) : (s.advance f idx n).up = s.up := rfl
@[simp] theorem State.advance_hm (f : Fld) (idx : List Nat) (n : Nat) : (s.advance f idx n).hm = s.hm := rfl
@[simp] theorem State.advance_tal (f : Fld) (idx : List Nat) (n : Nat) : (s.advance f idx n).tal = s.tal := rfl
@[simp] theorem State.advance_mo (f : Fld) (idx : List Nat) (n : Nat) : (s.advance f idx n).mo = s.mo := rfl
@[simp] theorem State.advance_bh (f : Fld) (idx : List Nat) (n : Nat) : (s.advance f idx n).bh = s.bh := rfl
@[simp] theorem State.advance_basin (f : Fld) (idx : List Nat) (n : Nat) : (s.advance f idx n).basin = s.basin := rfl
@[simp] theorem State.advance_harbour (f : Fld) (idx : List Nat) (n : Nat) : (s.advance f idx n).harbour = s.harbour := rfl
@[simp] theorem State.advance_sched (f : Fld) (idx : List Nat) (n : Nat) : (s.advance f idx n).sched = s.sched := rfl
@[simp] theorem State.advance_quays (f : Fld) (idx : List Nat) (n : Nat) : (s.advance f idx n).quays = s.quays := rfl
@[simp] theorem State.advance_pv (f : Fld) (idx : List Nat) (n : Nat) : (s.advance f idx n).pv = s.pv := rfl
@[simp] theorem State.advance_bw (f : Fld) (idx : List Nat) (n : Nat) : (s.advance f idx n).bw = s.bw := rfl
@[simp] theorem State.advance_pwr (f : Fld) (idx : List Nat) (n : Nat) : (s.advance f idx n).pwr = s.pwr := rfl
@[simp] theorem State.advance_lodge (f : Fld) (idx : List Nat) (n : Nat) : (s.advance f idx n).lodge = s.lodge := rfl
@[simp] theorem State.advance_sup (f : Fld) (idx : List Nat) (n : Nat) : (s.advance f idx n).sup = s.sup := rfl
@[simp] theorem State.advance_sent (f : Fld) (idx : List Nat) (n : Nat) : (s.advance f idx n).sent = s.sent := rfl

@[simp] theorem State.tally_pending (e n : Nat) : (s.tally e n).pending = s.pending := rfl
@[simp] theorem State.tally_now (e n : Nat) : (s.tally e n).now = s.now := rfl
@[simp] theorem State.tally_resets (e n : Nat) : (s.tally e n).resets = s.resets := rfl
@[simp] theorem State.tally_freeCtr (e n : Nat) : (s.tally e n).freeCtr = s.freeCtr := rfl
@[simp] theorem State.tally_fuses (e n : Nat) : (s.tally e n).fuses = s.fuses := rfl
@[simp] theorem State.tally_cregs (e n : Nat) : (s.tally e n).cregs = s.cregs := rfl
@[simp] theorem State.tally_commits (e n : Nat) : (s.tally e n).commits = s.commits := rfl
@[simp] theorem State.tally_dock (e n : Nat) : (s.tally e n).dock = s.dock := rfl
@[simp] theorem State.tally_dockAt (e n : Nat) : (s.tally e n).dockAt = s.dockAt := rfl
@[simp] theorem State.tally_hostMem (e n : Nat) : (s.tally e n).hostMem = s.hostMem := rfl
@[simp] theorem State.tally_wh (e n : Nat) : (s.tally e n).wh = s.wh := rfl
@[simp] theorem State.tally_whEra (e n : Nat) : (s.tally e n).whEra = s.whEra := rfl
@[simp] theorem State.tally_rings (e n : Nat) : (s.tally e n).rings = s.rings := rfl
@[simp] theorem State.tally_clock (e n : Nat) : (s.tally e n).clock = s.clock := rfl
@[simp] theorem State.tally_gate (e n : Nat) : (s.tally e n).gate = s.gate := rfl
@[simp] theorem State.tally_up (e n : Nat) : (s.tally e n).up = s.up := rfl
@[simp] theorem State.tally_hm (e n : Nat) : (s.tally e n).hm = s.hm := rfl
@[simp] theorem State.tally_tal (e n : Nat) : (s.tally e n).tal = s.tal := rfl
@[simp] theorem State.tally_mo (e n : Nat) : (s.tally e n).mo = s.mo := rfl
@[simp] theorem State.tally_bh (e n : Nat) : (s.tally e n).bh = s.bh := rfl
@[simp] theorem State.tally_basin (e n : Nat) : (s.tally e n).basin = s.basin := rfl
@[simp] theorem State.tally_harbour (e n : Nat) : (s.tally e n).harbour = s.harbour := rfl
@[simp] theorem State.tally_sched (e n : Nat) : (s.tally e n).sched = s.sched := rfl
@[simp] theorem State.tally_quays (e n : Nat) : (s.tally e n).quays = s.quays := rfl
@[simp] theorem State.tally_pv (e n : Nat) : (s.tally e n).pv = s.pv := rfl
@[simp] theorem State.tally_bw (e n : Nat) : (s.tally e n).bw = s.bw := rfl
@[simp] theorem State.tally_pwr (e n : Nat) : (s.tally e n).pwr = s.pwr := rfl
@[simp] theorem State.tally_lodge (e n : Nat) : (s.tally e n).lodge = s.lodge := rfl
@[simp] theorem State.tally_sup (e n : Nat) : (s.tally e n).sup = s.sup := rfl
@[simp] theorem State.tally_sent (e n : Nat) : (s.tally e n).sent = s.sent := rfl

@[simp] theorem State.send_pending (o : Sent) : (s.send o).pending = s.pending := rfl
@[simp] theorem State.send_now (o : Sent) : (s.send o).now = s.now := rfl
@[simp] theorem State.send_resets (o : Sent) : (s.send o).resets = s.resets := rfl
@[simp] theorem State.send_freeCtr (o : Sent) : (s.send o).freeCtr = s.freeCtr := rfl
@[simp] theorem State.send_fuses (o : Sent) : (s.send o).fuses = s.fuses := rfl
@[simp] theorem State.send_regs (o : Sent) : (s.send o).regs = s.regs := rfl
@[simp] theorem State.send_cregs (o : Sent) : (s.send o).cregs = s.cregs := rfl
@[simp] theorem State.send_commits (o : Sent) : (s.send o).commits = s.commits := rfl
@[simp] theorem State.send_dock (o : Sent) : (s.send o).dock = s.dock := rfl
@[simp] theorem State.send_dockAt (o : Sent) : (s.send o).dockAt = s.dockAt := rfl
@[simp] theorem State.send_hostMem (o : Sent) : (s.send o).hostMem = s.hostMem := rfl
@[simp] theorem State.send_wh (o : Sent) : (s.send o).wh = s.wh := rfl
@[simp] theorem State.send_whEra (o : Sent) : (s.send o).whEra = s.whEra := rfl
@[simp] theorem State.send_rings (o : Sent) : (s.send o).rings = s.rings := rfl
@[simp] theorem State.send_clock (o : Sent) : (s.send o).clock = s.clock := rfl
@[simp] theorem State.send_gate (o : Sent) : (s.send o).gate = s.gate := rfl
@[simp] theorem State.send_up (o : Sent) : (s.send o).up = s.up := rfl
@[simp] theorem State.send_hm (o : Sent) : (s.send o).hm = s.hm := rfl
@[simp] theorem State.send_tal (o : Sent) : (s.send o).tal = s.tal := rfl
@[simp] theorem State.send_mo (o : Sent) : (s.send o).mo = s.mo := rfl
@[simp] theorem State.send_bh (o : Sent) : (s.send o).bh = s.bh := rfl
@[simp] theorem State.send_basin (o : Sent) : (s.send o).basin = s.basin := rfl
@[simp] theorem State.send_harbour (o : Sent) : (s.send o).harbour = s.harbour := rfl
@[simp] theorem State.send_sched (o : Sent) : (s.send o).sched = s.sched := rfl
@[simp] theorem State.send_quays (o : Sent) : (s.send o).quays = s.quays := rfl
@[simp] theorem State.send_pv (o : Sent) : (s.send o).pv = s.pv := rfl
@[simp] theorem State.send_bw (o : Sent) : (s.send o).bw = s.bw := rfl
@[simp] theorem State.send_pwr (o : Sent) : (s.send o).pwr = s.pwr := rfl
@[simp] theorem State.send_lodge (o : Sent) : (s.send o).lodge = s.lodge := rfl
@[simp] theorem State.send_sup (o : Sent) : (s.send o).sup = s.sup := rfl
@[simp] theorem State.send_sent (o : Sent) : (s.send o).sent = s.sent ++ [o] := rfl

@[simp] theorem State.mapCmd_pending (r q : Nat) (f : Cmd → Cmd) : (s.mapCmd r q f).pending = s.pending := rfl
@[simp] theorem State.mapCmd_now (r q : Nat) (f : Cmd → Cmd) : (s.mapCmd r q f).now = s.now := rfl
@[simp] theorem State.mapCmd_resets (r q : Nat) (f : Cmd → Cmd) : (s.mapCmd r q f).resets = s.resets := rfl
@[simp] theorem State.mapCmd_freeCtr (r q : Nat) (f : Cmd → Cmd) : (s.mapCmd r q f).freeCtr = s.freeCtr := rfl
@[simp] theorem State.mapCmd_fuses (r q : Nat) (f : Cmd → Cmd) : (s.mapCmd r q f).fuses = s.fuses := rfl
@[simp] theorem State.mapCmd_regs (r q : Nat) (f : Cmd → Cmd) : (s.mapCmd r q f).regs = s.regs := rfl
@[simp] theorem State.mapCmd_cregs (r q : Nat) (f : Cmd → Cmd) : (s.mapCmd r q f).cregs = s.cregs := rfl
@[simp] theorem State.mapCmd_commits (r q : Nat) (f : Cmd → Cmd) : (s.mapCmd r q f).commits = s.commits := rfl
@[simp] theorem State.mapCmd_dock (r q : Nat) (f : Cmd → Cmd) : (s.mapCmd r q f).dock = s.dock := rfl
@[simp] theorem State.mapCmd_dockAt (r q : Nat) (f : Cmd → Cmd) : (s.mapCmd r q f).dockAt = s.dockAt := rfl
@[simp] theorem State.mapCmd_hostMem (r q : Nat) (f : Cmd → Cmd) : (s.mapCmd r q f).hostMem = s.hostMem := rfl
@[simp] theorem State.mapCmd_wh (r q : Nat) (f : Cmd → Cmd) : (s.mapCmd r q f).wh = s.wh := rfl
@[simp] theorem State.mapCmd_whEra (r q : Nat) (f : Cmd → Cmd) : (s.mapCmd r q f).whEra = s.whEra := rfl
@[simp] theorem State.mapCmd_clock (r q : Nat) (f : Cmd → Cmd) : (s.mapCmd r q f).clock = s.clock := rfl
@[simp] theorem State.mapCmd_gate (r q : Nat) (f : Cmd → Cmd) : (s.mapCmd r q f).gate = s.gate := rfl
@[simp] theorem State.mapCmd_up (r q : Nat) (f : Cmd → Cmd) : (s.mapCmd r q f).up = s.up := rfl
@[simp] theorem State.mapCmd_hm (r q : Nat) (f : Cmd → Cmd) : (s.mapCmd r q f).hm = s.hm := rfl
@[simp] theorem State.mapCmd_tal (r q : Nat) (f : Cmd → Cmd) : (s.mapCmd r q f).tal = s.tal := rfl
@[simp] theorem State.mapCmd_mo (r q : Nat) (f : Cmd → Cmd) : (s.mapCmd r q f).mo = s.mo := rfl
@[simp] theorem State.mapCmd_bh (r q : Nat) (f : Cmd → Cmd) : (s.mapCmd r q f).bh = s.bh := rfl
@[simp] theorem State.mapCmd_basin (r q : Nat) (f : Cmd → Cmd) : (s.mapCmd r q f).basin = s.basin := rfl
@[simp] theorem State.mapCmd_harbour (r q : Nat) (f : Cmd → Cmd) : (s.mapCmd r q f).harbour = s.harbour := rfl
@[simp] theorem State.mapCmd_sched (r q : Nat) (f : Cmd → Cmd) : (s.mapCmd r q f).sched = s.sched := rfl
@[simp] theorem State.mapCmd_quays (r q : Nat) (f : Cmd → Cmd) : (s.mapCmd r q f).quays = s.quays := rfl
@[simp] theorem State.mapCmd_pv (r q : Nat) (f : Cmd → Cmd) : (s.mapCmd r q f).pv = s.pv := rfl
@[simp] theorem State.mapCmd_bw (r q : Nat) (f : Cmd → Cmd) : (s.mapCmd r q f).bw = s.bw := rfl
@[simp] theorem State.mapCmd_pwr (r q : Nat) (f : Cmd → Cmd) : (s.mapCmd r q f).pwr = s.pwr := rfl
@[simp] theorem State.mapCmd_lodge (r q : Nat) (f : Cmd → Cmd) : (s.mapCmd r q f).lodge = s.lodge := rfl
@[simp] theorem State.mapCmd_sup (r q : Nat) (f : Cmd → Cmd) : (s.mapCmd r q f).sup = s.sup := rfl
@[simp] theorem State.mapCmd_sent (r q : Nat) (f : Cmd → Cmd) : (s.mapCmd r q f).sent = s.sent := rfl

@[simp] theorem State.endCmd_pending (r q st d a b : Nat) : (s.endCmd r q st d a b).pending = s.pending := rfl
@[simp] theorem State.endCmd_now (r q st d a b : Nat) : (s.endCmd r q st d a b).now = s.now := rfl
@[simp] theorem State.endCmd_resets (r q st d a b : Nat) : (s.endCmd r q st d a b).resets = s.resets := rfl
@[simp] theorem State.endCmd_freeCtr (r q st d a b : Nat) : (s.endCmd r q st d a b).freeCtr = s.freeCtr := rfl
@[simp] theorem State.endCmd_fuses (r q st d a b : Nat) : (s.endCmd r q st d a b).fuses = s.fuses := rfl
@[simp] theorem State.endCmd_regs (r q st d a b : Nat) : (s.endCmd r q st d a b).regs = s.regs := rfl
@[simp] theorem State.endCmd_cregs (r q st d a b : Nat) : (s.endCmd r q st d a b).cregs = s.cregs := rfl
@[simp] theorem State.endCmd_commits (r q st d a b : Nat) : (s.endCmd r q st d a b).commits = s.commits := rfl
@[simp] theorem State.endCmd_dock (r q st d a b : Nat) : (s.endCmd r q st d a b).dock = s.dock := rfl
@[simp] theorem State.endCmd_dockAt (r q st d a b : Nat) : (s.endCmd r q st d a b).dockAt = s.dockAt := rfl
@[simp] theorem State.endCmd_hostMem (r q st d a b : Nat) : (s.endCmd r q st d a b).hostMem = s.hostMem := rfl
@[simp] theorem State.endCmd_wh (r q st d a b : Nat) : (s.endCmd r q st d a b).wh = s.wh := rfl
@[simp] theorem State.endCmd_whEra (r q st d a b : Nat) : (s.endCmd r q st d a b).whEra = s.whEra := rfl
@[simp] theorem State.endCmd_clock (r q st d a b : Nat) : (s.endCmd r q st d a b).clock = s.clock := rfl
@[simp] theorem State.endCmd_gate (r q st d a b : Nat) : (s.endCmd r q st d a b).gate = s.gate := rfl
@[simp] theorem State.endCmd_up (r q st d a b : Nat) : (s.endCmd r q st d a b).up = s.up := rfl
@[simp] theorem State.endCmd_hm (r q st d a b : Nat) : (s.endCmd r q st d a b).hm = s.hm := rfl
@[simp] theorem State.endCmd_tal (r q st d a b : Nat) : (s.endCmd r q st d a b).tal = s.tal := rfl
@[simp] theorem State.endCmd_mo (r q st d a b : Nat) : (s.endCmd r q st d a b).mo = s.mo := rfl
@[simp] theorem State.endCmd_bh (r q st d a b : Nat) : (s.endCmd r q st d a b).bh = s.bh := rfl
@[simp] theorem State.endCmd_basin (r q st d a b : Nat) : (s.endCmd r q st d a b).basin = s.basin := rfl
@[simp] theorem State.endCmd_harbour (r q st d a b : Nat) : (s.endCmd r q st d a b).harbour = s.harbour := rfl
@[simp] theorem State.endCmd_sched (r q st d a b : Nat) : (s.endCmd r q st d a b).sched = s.sched := rfl
@[simp] theorem State.endCmd_quays (r q st d a b : Nat) : (s.endCmd r q st d a b).quays = s.quays := rfl
@[simp] theorem State.endCmd_pv (r q st d a b : Nat) : (s.endCmd r q st d a b).pv = s.pv := rfl
@[simp] theorem State.endCmd_bw (r q st d a b : Nat) : (s.endCmd r q st d a b).bw = s.bw := rfl
@[simp] theorem State.endCmd_pwr (r q st d a b : Nat) : (s.endCmd r q st d a b).pwr = s.pwr := rfl
@[simp] theorem State.endCmd_lodge (r q st d a b : Nat) : (s.endCmd r q st d a b).lodge = s.lodge := rfl
@[simp] theorem State.endCmd_sup (r q st d a b : Nat) : (s.endCmd r q st d a b).sup = s.sup := rfl
@[simp] theorem State.endCmd_sent (r q st d a b : Nat) : (s.endCmd r q st d a b).sent = s.sent := rfl

@[simp] theorem State.setPav_pending (n : Nat) (p : Pav) : (s.setPav n p).pending = s.pending := rfl
@[simp] theorem State.setPav_now (n : Nat) (p : Pav) : (s.setPav n p).now = s.now := rfl
@[simp] theorem State.setPav_resets (n : Nat) (p : Pav) : (s.setPav n p).resets = s.resets := rfl
@[simp] theorem State.setPav_freeCtr (n : Nat) (p : Pav) : (s.setPav n p).freeCtr = s.freeCtr := rfl
@[simp] theorem State.setPav_fuses (n : Nat) (p : Pav) : (s.setPav n p).fuses = s.fuses := rfl
@[simp] theorem State.setPav_regs (n : Nat) (p : Pav) : (s.setPav n p).regs = s.regs := rfl
@[simp] theorem State.setPav_cregs (n : Nat) (p : Pav) : (s.setPav n p).cregs = s.cregs := rfl
@[simp] theorem State.setPav_commits (n : Nat) (p : Pav) : (s.setPav n p).commits = s.commits := rfl
@[simp] theorem State.setPav_dock (n : Nat) (p : Pav) : (s.setPav n p).dock = s.dock := rfl
@[simp] theorem State.setPav_dockAt (n : Nat) (p : Pav) : (s.setPav n p).dockAt = s.dockAt := rfl
@[simp] theorem State.setPav_hostMem (n : Nat) (p : Pav) : (s.setPav n p).hostMem = s.hostMem := rfl
@[simp] theorem State.setPav_wh (n : Nat) (p : Pav) : (s.setPav n p).wh = s.wh := rfl
@[simp] theorem State.setPav_whEra (n : Nat) (p : Pav) : (s.setPav n p).whEra = s.whEra := rfl
@[simp] theorem State.setPav_rings (n : Nat) (p : Pav) : (s.setPav n p).rings = s.rings := rfl
@[simp] theorem State.setPav_clock (n : Nat) (p : Pav) : (s.setPav n p).clock = s.clock := rfl
@[simp] theorem State.setPav_gate (n : Nat) (p : Pav) : (s.setPav n p).gate = s.gate := rfl
@[simp] theorem State.setPav_up (n : Nat) (p : Pav) : (s.setPav n p).up = s.up := rfl
@[simp] theorem State.setPav_hm (n : Nat) (p : Pav) : (s.setPav n p).hm = s.hm := rfl
@[simp] theorem State.setPav_tal (n : Nat) (p : Pav) : (s.setPav n p).tal = s.tal := rfl
@[simp] theorem State.setPav_mo (n : Nat) (p : Pav) : (s.setPav n p).mo = s.mo := rfl
@[simp] theorem State.setPav_bh (n : Nat) (p : Pav) : (s.setPav n p).bh = s.bh := rfl
@[simp] theorem State.setPav_basin (n : Nat) (p : Pav) : (s.setPav n p).basin = s.basin := rfl
@[simp] theorem State.setPav_harbour (n : Nat) (p : Pav) : (s.setPav n p).harbour = s.harbour := rfl
@[simp] theorem State.setPav_sched (n : Nat) (p : Pav) : (s.setPav n p).sched = s.sched := rfl
@[simp] theorem State.setPav_quays (n : Nat) (p : Pav) : (s.setPav n p).quays = s.quays := rfl
@[simp] theorem State.setPav_bw (n : Nat) (p : Pav) : (s.setPav n p).bw = s.bw := rfl
@[simp] theorem State.setPav_pwr (n : Nat) (p : Pav) : (s.setPav n p).pwr = s.pwr := rfl
@[simp] theorem State.setPav_lodge (n : Nat) (p : Pav) : (s.setPav n p).lodge = s.lodge := rfl
@[simp] theorem State.setPav_sup (n : Nat) (p : Pav) : (s.setPav n p).sup = s.sup := rfl
@[simp] theorem State.setPav_sent (n : Nat) (p : Pav) : (s.setPav n p).sent = s.sent := rfl

@[simp] theorem State.setRing_pending (r st : Nat) : (s.setRing r st).pending = s.pending := rfl
@[simp] theorem State.setRing_now (r st : Nat) : (s.setRing r st).now = s.now := rfl
@[simp] theorem State.setRing_resets (r st : Nat) : (s.setRing r st).resets = s.resets := rfl
@[simp] theorem State.setRing_freeCtr (r st : Nat) : (s.setRing r st).freeCtr = s.freeCtr := rfl
@[simp] theorem State.setRing_fuses (r st : Nat) : (s.setRing r st).fuses = s.fuses := rfl
@[simp] theorem State.setRing_cregs (r st : Nat) : (s.setRing r st).cregs = s.cregs := rfl
@[simp] theorem State.setRing_commits (r st : Nat) : (s.setRing r st).commits = s.commits := rfl
@[simp] theorem State.setRing_dock (r st : Nat) : (s.setRing r st).dock = s.dock := rfl
@[simp] theorem State.setRing_dockAt (r st : Nat) : (s.setRing r st).dockAt = s.dockAt := rfl
@[simp] theorem State.setRing_hostMem (r st : Nat) : (s.setRing r st).hostMem = s.hostMem := rfl
@[simp] theorem State.setRing_wh (r st : Nat) : (s.setRing r st).wh = s.wh := rfl
@[simp] theorem State.setRing_whEra (r st : Nat) : (s.setRing r st).whEra = s.whEra := rfl
@[simp] theorem State.setRing_rings (r st : Nat) : (s.setRing r st).rings = s.rings := rfl
@[simp] theorem State.setRing_clock (r st : Nat) : (s.setRing r st).clock = s.clock := rfl
@[simp] theorem State.setRing_gate (r st : Nat) : (s.setRing r st).gate = s.gate := rfl
@[simp] theorem State.setRing_up (r st : Nat) : (s.setRing r st).up = s.up := rfl
@[simp] theorem State.setRing_hm (r st : Nat) : (s.setRing r st).hm = s.hm := rfl
@[simp] theorem State.setRing_tal (r st : Nat) : (s.setRing r st).tal = s.tal := rfl
@[simp] theorem State.setRing_mo (r st : Nat) : (s.setRing r st).mo = s.mo := rfl
@[simp] theorem State.setRing_bh (r st : Nat) : (s.setRing r st).bh = s.bh := rfl
@[simp] theorem State.setRing_basin (r st : Nat) : (s.setRing r st).basin = s.basin := rfl
@[simp] theorem State.setRing_harbour (r st : Nat) : (s.setRing r st).harbour = s.harbour := rfl
@[simp] theorem State.setRing_sched (r st : Nat) : (s.setRing r st).sched = s.sched := rfl
@[simp] theorem State.setRing_quays (r st : Nat) : (s.setRing r st).quays = s.quays := rfl
@[simp] theorem State.setRing_pv (r st : Nat) : (s.setRing r st).pv = s.pv := rfl
@[simp] theorem State.setRing_bw (r st : Nat) : (s.setRing r st).bw = s.bw := rfl
@[simp] theorem State.setRing_pwr (r st : Nat) : (s.setRing r st).pwr = s.pwr := rfl
@[simp] theorem State.setRing_lodge (r st : Nat) : (s.setRing r st).lodge = s.lodge := rfl
@[simp] theorem State.setRing_sup (r st : Nat) : (s.setRing r st).sup = s.sup := rfl
@[simp] theorem State.setRing_sent (r st : Nat) : (s.setRing r st).sent = s.sent := rfl

@[simp] theorem State.evSet_pending (e v : Nat) : (s.evSet e v).pending = s.pending := rfl
@[simp] theorem State.evSet_now (e v : Nat) : (s.evSet e v).now = s.now := rfl
@[simp] theorem State.evSet_resets (e v : Nat) : (s.evSet e v).resets = s.resets := rfl
@[simp] theorem State.evSet_freeCtr (e v : Nat) : (s.evSet e v).freeCtr = s.freeCtr := rfl
@[simp] theorem State.evSet_fuses (e v : Nat) : (s.evSet e v).fuses = s.fuses := rfl
@[simp] theorem State.evSet_cregs (e v : Nat) : (s.evSet e v).cregs = s.cregs := rfl
@[simp] theorem State.evSet_commits (e v : Nat) : (s.evSet e v).commits = s.commits := rfl
@[simp] theorem State.evSet_dock (e v : Nat) : (s.evSet e v).dock = s.dock := rfl
@[simp] theorem State.evSet_dockAt (e v : Nat) : (s.evSet e v).dockAt = s.dockAt := rfl
@[simp] theorem State.evSet_hostMem (e v : Nat) : (s.evSet e v).hostMem = s.hostMem := rfl
@[simp] theorem State.evSet_wh (e v : Nat) : (s.evSet e v).wh = s.wh := rfl
@[simp] theorem State.evSet_whEra (e v : Nat) : (s.evSet e v).whEra = s.whEra := rfl
@[simp] theorem State.evSet_rings (e v : Nat) : (s.evSet e v).rings = s.rings := rfl
@[simp] theorem State.evSet_clock (e v : Nat) : (s.evSet e v).clock = s.clock := rfl
@[simp] theorem State.evSet_gate (e v : Nat) : (s.evSet e v).gate = s.gate := rfl
@[simp] theorem State.evSet_up (e v : Nat) : (s.evSet e v).up = s.up := rfl
@[simp] theorem State.evSet_hm (e v : Nat) : (s.evSet e v).hm = s.hm := rfl
@[simp] theorem State.evSet_tal (e v : Nat) : (s.evSet e v).tal = s.tal := rfl
@[simp] theorem State.evSet_mo (e v : Nat) : (s.evSet e v).mo = s.mo := rfl
@[simp] theorem State.evSet_bh (e v : Nat) : (s.evSet e v).bh = s.bh := rfl
@[simp] theorem State.evSet_basin (e v : Nat) : (s.evSet e v).basin = s.basin := rfl
@[simp] theorem State.evSet_harbour (e v : Nat) : (s.evSet e v).harbour = s.harbour := rfl
@[simp] theorem State.evSet_sched (e v : Nat) : (s.evSet e v).sched = s.sched := rfl
@[simp] theorem State.evSet_quays (e v : Nat) : (s.evSet e v).quays = s.quays := rfl
@[simp] theorem State.evSet_pv (e v : Nat) : (s.evSet e v).pv = s.pv := rfl
@[simp] theorem State.evSet_bw (e v : Nat) : (s.evSet e v).bw = s.bw := rfl
@[simp] theorem State.evSet_pwr (e v : Nat) : (s.evSet e v).pwr = s.pwr := rfl
@[simp] theorem State.evSet_lodge (e v : Nat) : (s.evSet e v).lodge = s.lodge := rfl
@[simp] theorem State.evSet_sup (e v : Nat) : (s.evSet e v).sup = s.sup := rfl
@[simp] theorem State.evSet_sent (e v : Nat) : (s.evSet e v).sent = s.sent := rfl

@[simp] theorem State.evAdd_pending (e inc : Nat) : (s.evAdd e inc).pending = s.pending := rfl
@[simp] theorem State.evAdd_now (e inc : Nat) : (s.evAdd e inc).now = s.now := rfl
@[simp] theorem State.evAdd_resets (e inc : Nat) : (s.evAdd e inc).resets = s.resets := rfl
@[simp] theorem State.evAdd_freeCtr (e inc : Nat) : (s.evAdd e inc).freeCtr = s.freeCtr := rfl
@[simp] theorem State.evAdd_fuses (e inc : Nat) : (s.evAdd e inc).fuses = s.fuses := rfl
@[simp] theorem State.evAdd_cregs (e inc : Nat) : (s.evAdd e inc).cregs = s.cregs := rfl
@[simp] theorem State.evAdd_commits (e inc : Nat) : (s.evAdd e inc).commits = s.commits := rfl
@[simp] theorem State.evAdd_dock (e inc : Nat) : (s.evAdd e inc).dock = s.dock := rfl
@[simp] theorem State.evAdd_dockAt (e inc : Nat) : (s.evAdd e inc).dockAt = s.dockAt := rfl
@[simp] theorem State.evAdd_hostMem (e inc : Nat) : (s.evAdd e inc).hostMem = s.hostMem := rfl
@[simp] theorem State.evAdd_wh (e inc : Nat) : (s.evAdd e inc).wh = s.wh := rfl
@[simp] theorem State.evAdd_whEra (e inc : Nat) : (s.evAdd e inc).whEra = s.whEra := rfl
@[simp] theorem State.evAdd_rings (e inc : Nat) : (s.evAdd e inc).rings = s.rings := rfl
@[simp] theorem State.evAdd_clock (e inc : Nat) : (s.evAdd e inc).clock = s.clock := rfl
@[simp] theorem State.evAdd_gate (e inc : Nat) : (s.evAdd e inc).gate = s.gate := rfl
@[simp] theorem State.evAdd_up (e inc : Nat) : (s.evAdd e inc).up = s.up := rfl
@[simp] theorem State.evAdd_hm (e inc : Nat) : (s.evAdd e inc).hm = s.hm := rfl
@[simp] theorem State.evAdd_tal (e inc : Nat) : (s.evAdd e inc).tal = s.tal := rfl
@[simp] theorem State.evAdd_mo (e inc : Nat) : (s.evAdd e inc).mo = s.mo := rfl
@[simp] theorem State.evAdd_bh (e inc : Nat) : (s.evAdd e inc).bh = s.bh := rfl
@[simp] theorem State.evAdd_basin (e inc : Nat) : (s.evAdd e inc).basin = s.basin := rfl
@[simp] theorem State.evAdd_harbour (e inc : Nat) : (s.evAdd e inc).harbour = s.harbour := rfl
@[simp] theorem State.evAdd_sched (e inc : Nat) : (s.evAdd e inc).sched = s.sched := rfl
@[simp] theorem State.evAdd_quays (e inc : Nat) : (s.evAdd e inc).quays = s.quays := rfl
@[simp] theorem State.evAdd_pv (e inc : Nat) : (s.evAdd e inc).pv = s.pv := rfl
@[simp] theorem State.evAdd_bw (e inc : Nat) : (s.evAdd e inc).bw = s.bw := rfl
@[simp] theorem State.evAdd_pwr (e inc : Nat) : (s.evAdd e inc).pwr = s.pwr := rfl
@[simp] theorem State.evAdd_lodge (e inc : Nat) : (s.evAdd e inc).lodge = s.lodge := rfl
@[simp] theorem State.evAdd_sup (e inc : Nat) : (s.evAdd e inc).sup = s.sup := rfl
@[simp] theorem State.evAdd_sent (e inc : Nat) : (s.evAdd e inc).sent = s.sent := rfl

/-! ### Committed copies and registers do not meet -/

@[simp] theorem State.wr_crd (r q : Reg) (idx jdx : List Nat) (v : Word64) : (s.wr r idx v).crd q jdx = s.crd q jdx := rfl
@[simp] theorem State.cwr_rd (r q : Reg) (idx jdx : List Nat) (v : Word64) : (s.cwr r idx v).rd q jdx = s.rd q jdx := rfl
@[simp] theorem State.put_cget (f g : Fld) (idx jdx : List Nat) (v : Nat) : (s.put f idx v).cget g jdx = s.cget g jdx := rfl
@[simp] theorem State.cput_get (f g : Fld) (idx jdx : List Nat) (v : Nat) : (s.cput f idx v).get g jdx = s.get g jdx := rfl

/-! ### Reading back a register -/

variable {s}

theorem State.rd_wr_self (r : Reg) (idx : List Nat) (v : Word64) : (s.wr r idx v).rd r idx = v :=
  spGet_spPut_self _ _ _ _

theorem State.rd_wr_ne {r q : Reg} {idx jdx : List Nat} (v : Word64) (hne : regAddr r idx ≠ regAddr q jdx) :
    (s.wr r idx v).rd q jdx = s.rd q jdx :=
  spGet_spPut_ne _ _ _ _ hne

theorem State.crd_cwr_self (r : Reg) (idx : List Nat) (v : Word64) : (s.cwr r idx v).crd r idx = v :=
  spGet_spPut_self _ _ _ _

theorem State.crd_cwr_ne {r q : Reg} {idx jdx : List Nat} (v : Word64) (hne : regAddr r idx ≠ regAddr q jdx) :
    (s.cwr r idx v).crd q jdx = s.crd q jdx :=
  spGet_spPut_ne _ _ _ _ hne

theorem State.wr_wf (h : s.Wf) (r : Reg) (idx : List Nat) (v : Word64) : (s.wr r idx v).Wf :=
  ⟨spPut_sorted _ _ _ h.regs, h.cregs, h.dock, h.host, h.wh⟩

theorem State.cwr_wf (h : s.Wf) (r : Reg) (idx : List Nat) (v : Word64) : (s.cwr r idx v).Wf :=
  ⟨h.regs, spPut_sorted _ _ _ h.cregs, h.dock, h.host, h.wh⟩

theorem State.put_wf (h : s.Wf) (f : Fld) (idx : List Nat) (v : Nat) : (s.put f idx v).Wf := State.wr_wf h _ _ _

theorem State.cput_wf (h : s.Wf) (f : Fld) (idx : List Nat) (v : Nat) : (s.cput f idx v).Wf := State.cwr_wf h _ _ _

/-! ### Fields of a word -/

theorem bits_eq_extract (w : Word64) (lo width : Nat) : bits w lo width = (w.extractLsb' lo width).toNat := by
  simp [bits, BitVec.extractLsb'_toNat]

theorem putBits_getLsbD {lo width : Nat} (hw : lo + width ≤ 64) (w : Word64) (v i : Nat) :
    (putBits w lo width v).getLsbD i = if lo ≤ i ∧ i < lo + width then v.testBit (i - lo) else w.getLsbD i := by
  by_cases hi : i < 64
  · simp only [putBits, BitVec.getLsbD_or, BitVec.getLsbD_and, BitVec.getLsbD_not, BitVec.getLsbD_ofNat, hi, decide_true,
      Bool.true_and, Nat.testBit_shiftLeft, Nat.testBit_two_pow_sub_one, Nat.testBit_mod_two_pow]
    by_cases h1 : lo ≤ i
    · by_cases h2 : i < lo + width
      · have : i - lo < width := by omega
        simp [h1, h2, this]
      · have : ¬ (i - lo < width) := by omega
        simp [h1, h2, this]
    · simp [h1]
  · have h1 : ¬(lo ≤ i ∧ i < lo + width) := by omega
    rw [if_neg h1, BitVec.getLsbD_of_ge _ _ (by omega), BitVec.getLsbD_of_ge _ _ (by omega)]

theorem bits_putBits_self {lo width : Nat} (hw : lo + width ≤ 64) (w : Word64) (v : Nat) :
    bits (putBits w lo width v) lo width = v % 2 ^ width := by
  apply Nat.eq_of_testBit_eq
  intro i
  have h := putBits_getLsbD hw w v (lo + i)
  simp only [bits, Nat.testBit_mod_two_pow, Nat.testBit_shiftRight]
  rw [← BitVec.getLsbD, h]
  by_cases hi : i < width <;> simp [hi]

theorem bits_putBits_ne {lo width lo' width' : Nat} (hw : lo + width ≤ 64) (hd : lo + width ≤ lo' ∨ lo' + width' ≤ lo) (w : Word64)
    (v : Nat) : bits (putBits w lo width v) lo' width' = bits w lo' width' := by
  apply Nat.eq_of_testBit_eq
  intro i
  simp only [bits, Nat.testBit_mod_two_pow, Nat.testBit_shiftRight]
  by_cases hi : i < width'
  · have h := putBits_getLsbD hw w v (lo' + i)
    have hne : ¬ (lo ≤ lo' + i ∧ lo' + i < lo + width) := by omega
    rw [if_neg hne] at h
    simp only [BitVec.getLsbD] at h
    simp [hi, h]
  · simp [hi]

theorem State.get_put_self (f : Fld) (hw : f.lo + f.width ≤ 64) (idx : List Nat) (v : Nat) :
    (s.put f idx v).get f idx = v % 2 ^ f.width := by
  rw [State.get, State.put, State.rd_wr_self, bits_putBits_self hw]

theorem State.get_put_reg (f g : Fld) (hw : f.lo + f.width ≤ 64) (hr : f.reg = g.reg)
    (hd : f.lo + f.width ≤ g.lo ∨ g.lo + g.width ≤ f.lo) (idx : List Nat) (v : Nat) :
    (s.put f idx v).get g idx = s.get g idx := by
  rw [State.get, State.put, ← hr, State.rd_wr_self, bits_putBits_ne hw hd, State.get, ← hr]

theorem State.get_put_ne (f g : Fld) {idx jdx : List Nat} (v : Nat) (hne : regAddr f.reg idx ≠ regAddr g.reg jdx) :
    (s.put f idx v).get g jdx = s.get g jdx := by
  rw [State.get, State.put, State.rd_wr_ne _ hne, State.get]

theorem State.get_wr_ne {r : Reg} {idx jdx : List Nat} (g : Fld) (v : Word64) (hne : regAddr r idx ≠ regAddr g.reg jdx) :
    (s.wr r idx v).get g jdx = s.get g jdx := by
  rw [State.get, State.rd_wr_ne _ hne, State.get]

theorem State.get_bump_self (f : Fld) (hw : f.lo + f.width ≤ 64) (idx : List Nat) (n : Nat) :
    (s.bump f idx n).get f idx = min (s.get f idx + n) (2 ^ f.width - 1) := by
  rw [State.bump, State.get_put_self f hw, Nat.mod_eq_of_lt]
  have : 0 < 2 ^ f.width := Nat.two_pow_pos _
  omega

theorem State.get_advance_self (f : Fld) (hw : f.lo + f.width ≤ 64) (idx : List Nat) (n : Nat) :
    (s.advance f idx n).get f idx = (s.get f idx + n) % 2 ^ f.width := by
  rw [State.advance, State.get_put_self f hw]

end Sys2Proof.Machine
end

