-- ==== Sys2Proof/Tests/Slice0.lean ====
section
/-! SUPPORT. Small tests: ill-formed commands, effects worked out by hand from the specification, and for each statement with
hypotheses a state that meets them. -/

set_option Elab.async false
set_option maxRecDepth 20000

open Sys2Proof Sys2Proof.Machine

namespace Sys2Proof.Tests

/-! ### Well-formed commands -/

/-- One command for each kind of bound, its number at the bound. -/
theorem test_ill_formed_refused : ∀ i ∈ (
  [.enable .host 256, .commandStart 0 (2 ^ 32), .consWrite .host 256 0, .eventValueWrite .host 65536 0, .failClear .host 1024 0,
   .stagedSetSwap 4096 0, .stagedSetSwap 0 (2 ^ 32), .gateListSwap 512, .watchdog 800, .tileScrub 0 65536, .productDrain 0 256,
   .multicastArrival 0 0 800, .registerWrite .host (2 ^ 26) 8 0, .registerWrite .host 0 9 0, .rereq 16384 0 0 0, .rereq 0 (2 ^ 32) 0 0,
   .rereq 0 0 16 0, .rereq 0 0 0 4096, .backgroundCopy 4096, .stripePeerDead (2 ^ 24), .hostWindowRead (2 ^ 52),
   .warehouseLinkLoss 4, .agerVisit 4, .insert .host 0 (2 ^ 40), .meterRead .host 65536, .ack 0 (2 ^ 32), .credit 0 16 0,
   .credit 0 0 (2 ^ 32), .beacon 0 (2 ^ 48), .dockScrub 24, .lossOfLock ⟨512, []⟩, .frame 0 (2 ^ 20) [], .frame 0 0 [⟨512, 0, 0, [], []⟩],
   .frame 0 0 [⟨0, 0, 2 ^ 58, [], []⟩], .frame 0 0 [⟨0, 0, 0, [4], []⟩], .frame 0 0 [⟨0, 0, 0, [], [544]⟩], .ident 0 8 0, .ident 0 0 (2 ^ 40), .align 512 0, .align 0 (2 ^ 40), .lock 64, .miss 0 64,
   .ackTimer 32, .spanPeerDead 16 0, .spanPeerDead 0 16, .lodgeSample [] 65536 0, .lodgeSample [] 0 65536, .hdmDecoderCommit 8 0 0,
   .ideKeySwitch 2 0, .ideKeySwitch 0 2, .seal .host 32768, .hmDock .host 4 0, .gatherGo .host 512, .pcEnable .host 64 0,
   .moCntClear .host 64, .bhCntClear .host 8, .bsCntClear .host 256, .peakClr .host 4, .warehouseLinkUp 0 17 0 true true 0,
   .warehouseLinkUp 0 0 65 true true 0, .warehouseLinkUp 0 0 0 true true 8192, .entdaa 128] : List Instr), i.wellFormed = false := by decide

/-- Numbers just below their bounds. -/
theorem test_well_formed_accepted : ∀ i ∈ ([.enable .host 255, .eventValueWrite .host 65535 0, .watchdog 799, .rereq 16383 (2 ^ 32 - 1) 15 4095,
    .credit 511 15 (2 ^ 32 - 1), .align 511 (2 ^ 40 - 1), .frame 511 0 [⟨511, 2 ^ 40 - 1, 2 ^ 58 - 1, [3], [543]⟩], .spanPeerDead 15 15, .warehouseLinkUp 3 16 64 true true 8191, .entdaa 127] : List Instr), i.wellFormed = true := by
  decide

/-- No row of the table has bits, so no word spells a command. -/
theorem test_no_word_spells_a_command : ∀ w ∈ [0, 1, 0xFFFFFFFF], decodeTableWord 32 w = none := by decide

/-! ### States for the tests -/

/-- A module whose main stages are up and which has booted. -/
def on : State :=
  ({ State.reset with sup := { State.reset.sup with rails := .main, modEn := true, pwrGood := true } } : State).put F.GEN_STATUS_BOOT_DONE [] 1

def always : Guard := ⟨0, false⟩
def seg0 : Seg := ⟨0, 0x1000, true, true, 1⟩

/-- A launched kernel. -/
def kern : Kern :=
  ⟨false, 0, 0, 1, 0, 0, none, List.replicate 8 seg0, 0x400, 16, 4, [0, 1], 0, 0, [], [], [], 0, 0, false, [], 1000, 0, 0⟩

/-- A kernel bound to a COLLECTIVE. -/
def bound : Kern := { kern with bound := true, arrwBase := 0x10000, arrwSlots := 2 }

/-- `on` with Pavilion 0 in this state, RUNNING. -/
def runs (p : Pav) : State := (on.setPav 0 p).put F.PV_RUN_STATE [0] 3

def regs (l : List (Nat × Word64)) : Pav := { Pav.fresh with s := l, kern := some kern, pc := 0x100, vl := 64 }

/-- What a command leaves. -/
def after (i : Instr) (s : State) : State := match exec i s with | .next t => t | _ => State.reset

def pavAfter (i : Instr) (p : Pav) : Pav := (after i (runs p)).pav 0

theorem issues (p : Pav) (k : Kern) (hk : p.kern = some k) : (runs p).Issues 0 always k := by
  have hp : (runs p).pav 0 = p := by simp [runs, State.pav, State.setPav, State.put, State.wr]
  exact ⟨by rw [hp, hk], State.get_put_self _ (by decide) _ _, by
    have : (runs p).pv.images = [] := by simp [runs, State.setPav, State.put, State.wr, on, State.reset]
    simp [State.fetchBad, this, spGet], by decide, by rw [hp]; rfl⟩

/-! ### Hypotheses of the statements on the block's other commands -/

theorem writes (req : Requester) (r : Reg) (idx : List Nat) (h : (on.powered && (idxIn r idx && on.checkReg req r idx)) = true) :
    on.Writes req r idx := by
  simp only [Bool.and_eq_true] at h
  exact ⟨h.1, h.2.1, h.2.2⟩

/-- The registers that the rows write through their own commands, each at its last index. -/
theorem witness_rows_write : ∀ x ∈ ([(.host, .GEN_CTRL, []), (.host, .WK_RING_CTRL, [255]), (.host, .WK_CQ_CONS, [255]), (.host, .WK_EVENT, [65535]),
    (.host, .WK_EVFAIL, [1023]), (.host, .WK_COMMIT, []), (.host, .PV_FAULT, [799]), (.host, .MO_REREQ, []), (.host, .MO_SLIP_CFG, []),
    (.host, .BH_CTRL, []), (.host, .HB_OP, [3]), (.host, .SC_METER_SEL, []), (.host, .CT_RATE, []), (.host, .CT_STEP, []),
    (.host, .CT_SNAP_CMD, []), (.hm, .QY_CMIS_CMD, [63]), (.host, .LH_CAL, []), (.hm, .HM_HEARTBEAT, []), (.host, .HM_CTRL, []),
    (.host, .HM_DOCK, [3]), (.host, .TL_BW_CFG, []), (.host, .TL_CTRL, []), (.host, .TL_GATHER, []), (.host, .TL_PC_CFG, [63]),
    (.host, .TL_PC_VAL, [63]), (.host, .TL_DUMP_RING, []), (.host, .TL_SAMPLE_RING, []), (.host, .TL_SAMPLE_CTL, []), (.host, .PV_TILE_ERR, []),
    (.host, .PV_XRANGE, []), (.host, .MO_NONDET_COUNT, []), (.host, .MO_CNT_CLEAR, []), (.host, .BH_CNT_CLEAR, []), (.host, .DK_ERR_CNT, []),
    (.host, .WH_ERR_CNT, []), (.host, .BS_CNT_CLEAR, []), (.host, .BS_BUF_USED, [3]), (.host, .HB_PAR_ERR, [3]), (.host, .LH_WITHDRAW_CNT, []),
    (.host, .BW_DROP, []), (.host, .PM_DROPS, []), (.host, .GH_DENY_CNT, []), (.host, .QY_PRBS_CTRL, pidx 511), (.host, .GH_REQ, [])] :
    List (Requester × Reg × List Nat)), on.Writes x.1 x.2.1 x.2.2 := by
  intro x hx
  apply writes
  revert x hx
  decide +kernel

/-! ### Beloc instructions -/

/-- ADD wraps at 2^64. -/
theorem test_add_wraps : (pavAfter (.add 0 always 3 4 5) (regs [(4, 0xFFFFFFFFFFFFFFFF), (5, 1)])).reg 3 = 0 := by decide +kernel

/-- s0 discards what is written. -/
theorem test_add_to_s0 : (pavAfter (.add 0 always 0 4 4) (regs [(4, 7)])).reg 0 = 0 := by decide +kernel

/-- The destination is also a source. -/
theorem test_sub_in_place : (pavAfter (.sub 0 always 4 4 5) (regs [(4, 5), (5, 7)])).reg 4 = 0xFFFFFFFFFFFFFFFE := by decide +kernel

/-- A shift count is taken modulo 64. -/
theorem test_sll_count : (pavAfter (.sll 0 always 3 4 5) (regs [(4, 1), (5, 0x41)])).reg 3 = 2 := by decide +kernel

theorem test_sra_sign : (pavAfter (.sra 0 always 3 4 5) (regs [(4, 0x8000000000000000), (5, 63)])).reg 3 = 0xFFFFFFFFFFFFFFFF := by decide +kernel

theorem test_mulhu_top : (pavAfter (.mulhu 0 always 3 4 4) (regs [(4, 0xFFFFFFFFFFFFFFFF)])).reg 3 = 0xFFFFFFFFFFFFFFFE := by decide +kernel

theorem test_min_signed : (pavAfter (.min 0 always 3 4 5) (regs [(4, 0xFFFFFFFFFFFFFFFF), (5, 1)])).reg 3 = 0xFFFFFFFFFFFFFFFF := by decide +kernel

theorem test_minu_unsigned : (pavAfter (.minu 0 always 3 4 5) (regs [(4, 0xFFFFFFFFFFFFFFFF), (5, 1)])).reg 3 = 1 := by decide +kernel

/-- The immediate is signed. -/
theorem test_addi_negative : (pavAfter (.addi 0 always 3 4 0x7FF) (regs [(4, 0)])).reg 3 = 0xFFFFFFFFFFFFFFFF := by decide +kernel

theorem test_shin_shifts_in : (pavAfter (.shin 0 always 3 0xABCD) (regs [(3, 0x1234)])).reg 3 = 0x1234ABCD := by decide +kernel

/-- A comparison whose operands differ in sign. -/
theorem test_cmp_lt : (pavAfter (.cmpCc 0 always .lt 2 4 5) (regs [(4, 0xFFFFFFFFFFFFFFFF), (5, 0)])).pred 2 = true := by decide +kernel

theorem test_cmp_ltu : (pavAfter (.cmpCc 0 always .ltu 2 4 5) (regs [(4, 0xFFFFFFFFFFFFFFFF), (5, 0)])).pred 2 = false := by decide +kernel

/-- p0 stays 1. -/
theorem test_p0_stays : (pavAfter (.pxor 0 always 0 0 0) (regs [])).pred 0 = true := by decide +kernel

/-- Little-endian bytes, zero-extended. -/
theorem test_ldh : (pavAfter (.ldh 0 always 3 4 2) { regs [(4, 0x20)] with tile := [(0x22, 0xCD), (0x23, 0xAB)] }).reg 3 = 0xABCD := by decide +kernel

/-- A store writes its width and nothing beyond. -/
theorem test_sth : (pavAfter (.sth 0 always 3 4 0) (regs [(3, 0x11112222), (4, 0x40)])).bytes 0x40 4 = [0x22, 0x22, 0, 0] := by decide +kernel

/-- A misaligned load faults the Pavilion. -/
theorem test_ldw_misaligned : (after (.ldw 0 always 3 4 0) (runs (regs [(4, 2)]))).pvState 0 = Ps.faulted := by decide +kernel

/-- The last aligned word of tile memory, and the first beyond it. -/
theorem test_tile_end : (after (.ldd 0 always 3 4 0) (runs (regs [(4, 0x7FFF8)]))).pvState 0 = Ps.running ∧
    (after (.ldd 0 always 3 4 0) (runs (regs [(4, 0x80000)]))).pvState 0 = Ps.faulted := by decide +kernel

/-- A branch backwards, and the link. -/
theorem test_jal : (pavAfter (.jal 0 always 0x1FFFFF) (regs [])).pc = 0xFC ∧ (pavAfter (.jal 0 always 0x1FFFFF) (regs [])).reg 31 = 0x104 := by
  decide +kernel

/-- A guard that is false only moves PC. -/
theorem test_guard_false : (pavAfter (.add 0 ⟨1, false⟩ 3 4 4) (regs [(4, 1)])).reg 3 = 0 ∧ (pavAfter (.add 0 ⟨1, false⟩ 3 4 4) (regs [(4, 1)])).pc = 0x104 := by
  decide +kernel

/-- Lanes at and above VL keep their value. -/
theorem test_vadd_int : (pavAfter (.vadd 0 always 3 2 3 4) { regs [] with vl := 1, v := [(192, 5), (256, 0xFFFFFFFE), (257, 9)] }).v =
    [(128, 3), (192, 5), (256, 0xFFFFFFFE), (257, 9)] := by decide +kernel

/-- 1.0 + 1.0 in FP32. -/
theorem test_vadd_fp32 : (pavAfter (.vadd 0 always 0 2 3 3) { regs [] with vl := 1, v := [(192, 0x3F800000)] }).lane 2 0 = 0x40000000 := by decide +kernel

/-- R73's fold of one lane: mix of the lane itself. -/
theorem test_vdg_one : (pavAfter (.vdg 0 always 3) { regs [] with vl := 1, v := [(192, 1)] }).digest = mix 1 := by decide +kernel

/-- Adding 1.0 raises bit 160 of the accumulator's word. -/
theorem test_xacc_one : ((pavAfter (.xacc 0 always 0 3 1) { regs [] with vl := 1, v := [(192, 0x3F800000)] }).acc 1 0).word = 2 ^ 160 := by decide +kernel

/-- A wait for an event that has not come, and one that has. -/
theorem test_waite : (after (.waite 0 always 4 5) (runs (regs [(4, 0), (5, 1)]))).pvState 0 = Ps.waiting ∧
    (after (.waite 0 always 4 5) (runs (regs [(4, 0), (5, 0)]))).pvState 0 = Ps.running := by decide +kernel

/-- An event beyond the kernel's window is an illegal operand. -/
theorem test_sige_outside : (after (.sige 0 always 4 5) (runs (regs [(4, 4), (5, 1)]))).pvState 0 = Ps.faulted := by decide +kernel

/-! ### Hypotheses of the statements on Beloc instructions -/

theorem witness_ScalarArithmetic : (runs (regs [])).Issues 0 always kern := issues _ _ rfl
theorem witness_PredicateInstructions : (runs (regs [(4, 1)])).Issues 0 always kern := issues _ _ rfl

theorem witness_HardWiredRegisters : spSorted (regs [(1, 2)]).s ∧ (regs [(1, 2)]).reg 0 = 0 := ⟨trivial, rfl⟩

/-- The last doubleword of tile memory. -/
theorem witness_ScalarLoads : (runs (regs [(4, 0x7FFF8)])).Issues 0 always kern ∧ (regs [(4, 0x7FFF8)]).serves 0x7FFF8 8 ∧
    (regs [(4, 0x7FFF8)]).badWord 0x7FFF8 8 = none ∧ 0x7FFF8 % 8 = 0 := by
  refine ⟨issues _ _ rfl, ⟨by decide, by decide⟩, by decide, by decide⟩

theorem witness_ScalarStores : (runs (regs [(4, 0x7FFFF)])).Issues 0 always kern ∧ (regs [(4, 0x7FFFF)]).serves 0x7FFFF 1 ∧ spSorted (regs []).tile := by
  refine ⟨issues _ _ rfl, ⟨by decide, by decide⟩, trivial⟩

theorem witness_Branches : (runs (regs [])).Issues 0 always kern := issues _ _ rfl

/-- The largest control register that exists, one that does not, and a VL and a watchdog value at their limits. -/
theorem witness_ControlRegisters : (runs (regs [(4, 64)])).Issues 0 always kern ∧ ((regs [(4, 64)]).reg 4).toNat ≤ 64 ∧
    64 ≤ (runs (regs [(4, 64)])).wdog kern ∧ 16 ≤ (16 : BitVec 5).toNat ∧ 13 ≤ (13 : BitVec 5).toNat := by
  refine ⟨issues _ _ rfl, by decide, by decide +kernel, by decide, by decide⟩

theorem witness_NotExecutedOnlyMovesPc : belocOf (.add 0 ⟨1, false⟩ 3 4 5) = some (0, ⟨1, false⟩, 0x01, 4) ∧
    ((runs (regs [])).pav 0).kern = some kern ∧ (runs (regs [])).pvState 0 = Ps.running ∧ ((runs (regs [])).pav 0).guard ⟨1, false⟩ = false ∧
    (on.pav 0).kern = none := by decide +kernel

/-- An illegal guard, a misaligned 64-bit instruction, an unassigned opcode. -/
theorem witness_SharedIssueFaults : belocOf (.endK 0 ⟨0, true⟩ 0) = some (0, ⟨0, true⟩, 0x3E, 4) ∧
    belocOf (.tpf 0 always true 1) = some (0, always, 0x61, 8) ∧ ({ regs [] with pc := 0x104 } : Pav).pc % 8 ≠ 0 ∧
    assigned (BitVec.ofNat 64 ((0x7F#64).toNat % 2 ^ 32)) = false ∧ assigned (0#64) = false := by decide +kernel

/-- A gap of one, of two, and sampling off. -/
theorem witness_RetireAndSampling :
    (on.get F.TL_SAMPLE_CTL_EN = 0) ∧ (on.put F.TL_SAMPLE_CTL_EN [] 1).get F.TL_SAMPLE_CTL_EN ≠ 0 ∧
    (on.put F.TL_SAMPLE_CTL_EN [] 1).get F.TL_SAMPLE_RING_EN = 0 ∧ ((on.setPav 0 { Pav.fresh with gap := 2 }).pav 0).gap = 2 := by decide +kernel

theorem witness_VectorArithmetic : (runs (regs [])).Issues 0 always kern := issues _ _ rfl
theorem witness_VectorLaneFrame : spSorted (regs []).v ∧ (regs []).vl ≤ 64 := ⟨trivial, by decide⟩

theorem witness_VectorMoves : (runs (regs [(4, 0x7FF00)])).Issues 0 always kern ∧ (regs [(4, 0x7FF00)]).serves 0x7FF00 256 ∧
    0 < (regs []).vl ∧ (∀ o ∈ (regs []).out, ∀ arr sp q cells, o.op ≠ .product arr 0 sp q cells) := by
  refine ⟨issues _ _ rfl, ⟨by decide, by decide⟩, by decide, by simp [regs, Pav.fresh]⟩

theorem witness_VredTree : (runs (regs [])).Issues 0 always kern ∧ ([1, 2, 3] : List Nat).length ≤ 2 ^ 2 := ⟨issues _ _ rfl, by decide⟩
theorem witness_VdgFold : (runs { regs [] with vl := 0 }).Issues 0 always kern := issues _ _ rfl

/-- A listed pair of formats, and one that is not. -/
theorem witness_VcvtConversions : (runs (regs [])).Issues 0 always kern ∧ Fmt.ofCode 0 = some .fp32 ∧ Fmt.ofCode 15 = none := by
  refine ⟨issues _ _ rfl, by decide, by decide⟩

/-- A block at the last place that holds one. -/
theorem witness_ExactInstructions : (runs (regs [(4, 0x7F5C0)])).Issues 0 always kern ∧ 0x7F5C0 % 64 = 0 ∧ (regs []).serves 0x7F5C0 2592 ∧
    (regs []).badWord 0x7F5C0 2592 = none := by
  refine ⟨issues _ _ rfl, by decide, ⟨by decide, by decide⟩, by decide +kernel⟩

theorem witness_TensorInstructions : (runs (regs [(6, 65535)])).Issues 0 always kern ∧ (regs []).pc % 8 = 0 ∧ mmaFmt 1 ≠ none ∧
    (regs []).tagBusy = false ∧ (regs []).tileBusy 0 = false ∧ 0x7F000 + 4096 ≤ tileSize := by
  refine ⟨issues _ _ rfl, by decide, by decide, by decide +kernel, by decide +kernel, by decide⟩

/-- Lengths at the limits of XLD and PMC. -/
theorem witness_TransfersIssue : (runs (regs [(5, 524288)])).Issues 0 always kern ∧ (regs []).transfers < 32 ∧ (regs []).tagBusy = false ∧
    (regs []).rangeBusy 0 524288 = false := by
  refine ⟨issues _ _ rfl, by decide, by decide +kernel, by decide⟩

/-- An XLD and a product that wait. -/
theorem witness_OutstandingCompletes :
    let o : Outst := ⟨3, 0x100, 0, .xld 0 0 64, none, none⟩
    let p : Pav := { regs [] with out := [o] }
    p.outst 3 = some o ∧ p.mustWait kern o = false ∧ kern.bound = false ∧ (runs p).get F.PV_RUN_LEVEL0 [0] < 4 := by decide +kernel

theorem witness_Synchronisation : (runs (regs [(4, 3)])).Issues 0 always kern ∧ ((regs [(4, 3)]).reg 4).toNat < kern.evCount ∧
    (regs []).fenceMet 7 = true ∧ ({ bound with queue := [⟨0, 64, 1, 0⟩] } : Kern).queue ≠ [] ∧ bound.queue = [] := by
  refine ⟨issues _ _ rfl, by decide, by decide, by decide, by decide⟩

/-! ### States for the ring commands -/

/-- A command of a type with these payload words. -/
def cmd (ty : Nat) (w4 w5 w6 w7 : Word64) : Cmd := ⟨1, 0, 0, [BitVec.ofNat 64 (256 * ty), 0, 0, 0, w4, w5, w6, w7], .met, .met, .waiting, 0, 0, 0, 0, 0, 0⟩

/-- `s` with one command on ring 1. -/
def given (s : State) (c : Cmd) : State := { s with rings := { s.rings with cmds := [c] } }

/-- `on` with the upstream link up and these bytes at the host's address 0x1000. -/
def hostHas (bs : List Byte) : State :=
  { on with hostMem := { on.hostMem with cells := bs.zipIdx.map fun x => (0x1000 + x.2, x.1) }, up := { on.up with linkUp := true } }

def hostPtr : Word64 := 0x4000000000001000#64

/-- A command that ended: its status, RESULT and RESULT2. -/
def endOf (s : State) : Option (Nat × Nat × Nat × Nat) := (s.cmd? 1 0).map fun c => (c.status, c.detail, c.result, c.result2)

/-- Context 5 ACTIVE with job 3, epoch 7 and two members, of which this module is the first. -/
def moored : State :=
  let s := ((((on.put F.MO_CTX_STATE_STATE [5] 1).put F.MO_CTX_STATE_EPOCH [5] 7)).put F.MO_CTX_STATE_JOB [5] 3)
  { s with mo := { s.mo with ctx := [(5, some { Ctx.none with members := 2, bitmap := 3, parcelGr := 1, leaseMs := 5, table := [(0, 8), (1, 8)] })] } }

/-- A shard of one block without planes. -/
def shard1 : Shard := ⟨0, 1, 0, 0, 1024, 0, 0, 0, 1, 0, 4096, none, none, none, 0, none, none, none, none, [], none, none⟩

/-- A packet with a CONTRIB's body. -/
def packet (kind : Nat) (dst : Nat) (body : List Byte) : Packet :=
  let h : Header := ⟨1, kind, false, false, false, false, 2, dst, 0x10, 3, body.length, 4, 0, 0, 0, 0⟩
  ⟨{ h with hcrc := h.crc }, body⟩

/-! ### Effects -/

/-- NOP ends OK; its reserved words end it BAD_DESCRIPTOR. -/
theorem test_nop : endOf (after (.nop 1 0) (given on (cmd 1 0 0 0 0))) = some (0, 0, 0, 0) ∧
    endOf (after (.nop 1 0) (given on (cmd 1 0 1 0 0))) = some (St.badDescriptor, 0x28, 0, 0) := by decide +kernel

/-- EVENT SET of two events writes both and clears their FAIL. -/
theorem test_event_set : let t := after (.eventSet 1 0) (given (on.evFailTo 11 true) (cmd 10 0x0000_0002_000A_0000 0x99 0 0))
    t.evVal 10 = 0x99 ∧ t.evVal 11 = 0x99 ∧ t.evFail 11 = false ∧ t.evVal 12 = 0 := by decide +kernel

/-- EVENT ADD wraps. -/
theorem test_event_add : (after (.eventAdd 1 0) (given (on.evSet 10 0xFFFFFFFFFFFFFFFF) (cmd 10 0x0000_0001_000A_0001 2 0 0))).evVal 10 = 1 := by
  decide +kernel

/-- A consumer index beyond the producer's is not taken. -/
theorem test_cons_bad : let t := after (.consWrite .host 3 5) (on.put F.WK_CQ_PROD_PROD [3] 4)
    t.get F.WK_CQ_CONS_CONS [3] = 0 ∧ t.get F.WK_STATUS_CONS_BAD = 1 := by decide +kernel

/-- PAUSE of a ring that is not ENABLED. -/
theorem test_pause_bad : (after (.pause .host 3) on).get F.WK_STATUS_CTRL_BAD = 1 := by decide +kernel

/-- EVICT of a member fences it. -/
theorem test_evict : let t := after (.evict 1 0) (given moored (cmd 5 0x0007_0010_0300_0501 0 0 0))
    endOf t = some (0, 0, 7, 0) ∧ (t.ctx 5).fenced 1 = true ∧ (t.ctx 5).fenced 0 = false := by decide +kernel

/-- A host read of a register's offset, and of an offset that is no register. -/
theorem test_bus_read : on.busRead .host 0 8 ≠ 0 ∧ on.busRead .host 4 8 = 0 := by decide +kernel

/-- The tick adds 4 ns at the nominal rate of 2^39 of a nanosecond over 2^40. -/
theorem test_tick : (({ State.reset.clock with ns := 999999999 } : Clock).tick (2 ^ 39)).ns = 1 ∧
    (({ State.reset.clock with ns := 999999999 } : Clock).tick (2 ^ 39)).sec = 1 := by decide +kernel

/-- A step on an empty queue is a tick; a step with a command runs it. -/
theorem test_step : (match step on with | .next t => t.now | _ => 0) = 1 ∧
    (match step { on with pending := [.warehouseLinkLoss 0] } with | .next t => t.now | _ => 9) = 0 := by decide +kernel

/-- MOD_EN rises in OFF: the main stages come up. -/
theorem test_mod_en : (after .modEnRise State.reset).powered = true ∧ (after .modEnRise State.reset).get F.GEN_STATUS_BOOT_DONE = 0 := by decide +kernel

/-! ### Hypotheses -/

/-- A read-only register written by the host, a register whose write boot forbids, and a row whose register exists. -/
theorem witness_DeniedWriteIsLogged : on.powered = true ∧ idxIn .CT_RATE [] = true ∧
    rowReg (.rate .hm 5) = some (.hm, .CT_RATE, []) ∧ State.reset.powered = false ∧ idxIn .WK_CQ_CONS [256] = false ∧ findReg 0x10 ≠ none ∧
    on.bootDone = true ∧ on.beyondGrade 0x10 = false := by decide +kernel

/-- One register of each way of the general rule, and the Gatehouse's buffer at both ends. -/
theorem witness_RegisterWriteReachesFields :
    (∀ r ∈ [Reg.CT_CTRL, .BW_TIMERS, .DK_CTRL], r ∉ ownText ∧ findReg (regAddr r []) = some (r, []) ∧ on.mayWrite .host r [] = true ∧
      regAddr r [] % 8 = 0 ∧ on.beyondGrade (regAddr r []) = false) ∧ on.isSealed = false ∧ on.get F.GH_RSP_BUSY = 0 := by decide +kernel

/-- Each state of a ring that a row turns on. -/
theorem witness_RingControl : on.Writes .host .WK_RING_CTRL [1] ∧ on.ringServed 1 = true ∧ on.get F.WK_RING_CTRL_STATE [1] = 0 ∧
    on.cget F.WK_RING_CFG_SLOTS [1] = 0 ∧ (on.put F.WK_RING_CTRL_STATE [1] 2).get F.WK_RING_CTRL_STATE [1] = 2 ∧ on.ringInflight 1 = 0 :=
  ⟨writes _ _ _ (by decide +kernel), by decide +kernel⟩

/-- A command that may start, one that may not, and WINTER. -/
theorem witness_CommandStarts : let s := given on (cmd 2 0 0 0 0)
    s.cmd? 1 0 = some (cmd 2 0 0 0 0) ∧ s.startable (cmd 2 0 0 0 0) = true ∧ (s.put F.PM_STATE_STATE [] 2).get F.PM_STATE_STATE = 2 ∧
    (2 : Nat) ∉ [1, 5, 10, 11] := by decide +kernel

/-- The last event, an image to unload, a LAUNCH of no Pavilion and of one. -/
theorem witness_ShortCommandsRun :
    let im : KImage := ⟨12, 0, [0], [], 0, 0, 1, 1, 0⟩
    let s := { on with pv := { on.pv with images := [(2, some im)] } }
    let h := { hostHas (List.replicate 128 0) with pv := s.pv }
    (65535 + 1 ≤ 65536 ∧ (cmd 10 0x0000_0001_FFFF_0000 0 0 0).fld 4 16 16 = 65535) ∧ s.imageDesc (cmd 4 0x0000_0000_0002_0001 0 0 0) = none ∧
    h.imageDesc (cmd 4 0x0000_0005_0002_0002 hostPtr 0 0) = none ∧
    (match h.ptrRead 0 hostPtr 96 with | (u, .ok bs) => (u.segFault bs 6).isNone | _ => false) = true ∧
    h.launchDesc (cmd 3 0x0000_0001_0000_0002 hostPtr 0 0) = none ∧ h.launchDesc (cmd 3 0x0000_0000_0000_0002 hostPtr 0 0) = none := by
  decide +kernel

/-- A ring with a head, and none; a command whose wait is met, failed and late; a record due with its CQ full and not. -/
theorem witness_RingEngineSteps : on.ringOrder.find? on.headReady = none ∧
    (let c := { cmd 1 0 0 0 0 with wait0 := .pending }
     (given on c).cmd? 1 0 = some c ∧ (on.evFailTo 0 true).evFail 0 = true ∧ on.evFail 0 = false) ∧
    (let c := { cmd 1 0 0 0 0 with stage := .running, desc := [0x0001_0000_0000_0100#64, 0, 0, 0, 0, 0, 0, 0] }
     c.fld 0 48 16 = 1 ∧ (given { on with now := 50000 } c).now = 50000) ∧
    on.cqAwake 1 = true ∧ on.cqFull 1 = true ∧ (on.cwr .WK_CQ_CFG [0] 0xFFFFFFFFFFFFFFFF).cqFull 1 = false := by decide +kernel

/-- An UPDATE-free COLLECTIVE on an ACTIVE context at its epoch, at another epoch and with length 0. -/
theorem witness_CollectiveStarts :
    let c := cmd 2 0x0000_0000_0032_0005 0x1000 0 0x0007_0000_0000
    let z := cmd 2 0x0000_0000_0032_0005 0 0 0x0008_0000_0000
    (given moored c).cmd? 1 0 = some c ∧ (given moored c).startable c = true ∧ c.fld 4 16 4 = 2 ∧ (moored.ctx 5).fences = 0 ∧
    moored.spanOf 5 = none ∧ c.fld 7 32 16 = moored.epoch 5 ∧ z.fld 7 32 16 ≠ moored.epoch 5 ∧ (given moored c).collDesc c = none ∧
    (given moored z).collDesc z = none ∧
    (given on c).collDesc c = some 0x20 := by decide +kernel

/-- EVICT and RETIRE on an idle engine, and a busy one. -/
theorem witness_MooringCommands :
    let c := cmd 5 0x0007_0010_0300_0501 0 0 0
    let d := cmd 5 0x0007_0000_0300_0504 0 0 0
    (given moored c).mo.engine = none ∧ (given moored c).mooringCheck c = none ∧ (given moored d).mooringCheck d = none ∧
    (given moored c).mo.queue.contains (1, 0) = false ∧ moored.ctxState 5 = Cs.active ∧ moored.get F.MO_CTX_STATE_RETAIN [5] ≠ 1 ∧
    (moored.put F.MO_CTX_STATE_RETAIN [5] 1).get F.MO_CTX_STATE_RETAIN [5] = 1 := by decide +kernel

/-- A CONFIG of an empty list, and WK_COMMIT of a set that exists at its last instance and beyond it. -/
theorem witness_CommitsRequested :
    let c := cmd 9 0x0000_0000_0000_0143 0 0 0
    (given on c).configDesc c = none ∧ (match (given on c).ptrRead 7 0 0 with | (_, .ok bs) => bs.length == 16 * 0 | _ => false) = true ∧
    (setInfo 0x143).map (·.1) = some 4096 ∧ setInfo 0x144 = none ∧ on.setCheck 0x143 4095 false = .good ∧ on.commit? 0x143 4095 = none ∧
    on.mayWrite .host .BS_MCG_MAP [4095] = true := by decide +kernel

/-- A commit whose time has come, and one whose time has not. -/
theorem witness_StagedSetsSwap :
    let c : Commit := ⟨0x143, 4095, [], none, false, some (1, 0), none, false⟩
    let d : Commit := ⟨0x143, 4095, [], some (0, 1), false, none, none, false⟩
    ({ on with commits := [c] } : State).commit? 0x143 4095 = some c ∧ ({ on with commits := [d] } : State).commit? 0x143 4095 = some d ∧ on.ctNs < 1 ∧
    inSet 0x143 4095 (regAddr .BS_MCG_MAP [4095]) = true ∧ inSet 0x143 4095 (regAddr .BS_MCG_MAP [4094]) = false ∧ on.commit? 0x180 0 = none := by
  decide +kernel

/-- POWER of the host's ring to each state it may name, and of the Harbourmaster's. -/
theorem witness_PowerStates : (∀ n ∈ [0, 1, 2, 3, 4], let c := cmd 11 (BitVec.ofNat 64 n) 0 0 0
      (given on c).cmd? 1 0 = some c ∧ (given on c).startable c = true) ∧ on.ringOwner 1 = .host ∧ on.get F.PM_STATE_STATE < 4 ∧
    on.pwr.entering = none ∧ (on.put F.PM_STATE_RAMPING [] 1).get F.PM_STATE_RAMPING = 1 ∧ (on.put F.PM_STATE_LOCAL_DROP [] 1).get F.PM_STATE_LOCAL_DROP = 1 ∧
    on.recordsDue none = false ∧ on.powered = true ∧ State.reset.powered = false := by decide +kernel

/-- A shard to delete, one that is loading. -/
theorem witness_ShardCommands :
    let s := { on.put F.BH_SH_STATE_STATE [3] 1 with bh := { on.bh with shards := [(3, some shard1)], loads := [(1, 0, 3)] } }
    let c := cmd 8 0x0000_0000_0003_0001 0 0 0
    (given s c).cmd? 1 0 = some c ∧ (given s c).shardDesc c false = none ∧ s.shardState 3 = Sh.empty ∧ s.shardMoor 3 = none ∧ s.shard 3 = some shard1 ∧
    shard1.freeze = none ∧ (s.bh.loads.find? fun l => l.2.2 = 3) = some (1, 0, 3) ∧ shard1.initKind = 1 := by decide +kernel

/-- An empty COMMIT, a COMMIT of the last LIVE shard, and a frozen epoch. -/
theorem witness_CommitAndCopy :
    let s := { on.put F.BH_SH_STATE_STATE [4095] Sh.live with bh := { on.bh with shards := [(4095, some shard1)] } }
    let c := cmd 6 0x0000_0001_0001_0FFF 0x4000000000001000 0 0
    let e := cmd 6 0 0 0 0
    let f : Freeze := ⟨1, 0, 1, [], 0, [], none, [], [], false, false, 0, [], [], false, none, none⟩
    (given on e).commitCheck e = none ∧ e.fld 4 16 16 = 0 ∧ (given s c).commitCheck c = none ∧ s.stuck 4095 = false ∧ s.copying 4095 = false ∧
    f.awaitAck = [] ∧ ({ shard1 with freeze := some f } : Shard).freeze = some f ∧ f.committed = false := by decide +kernel

/-- A body too short, and one of a peer's endpoint that names a shard. -/
theorem witness_BoathousePackets : (packet 2 8 (List.replicate 31 0)).body.length < 32 ∧ 32 ≤ (packet 2 8 (List.replicate 32 0)).body.length ∧
    (let s := on.cwr .BH_PEER [0] (putBits (putBits (putBits 0 F.BH_PEER_VALID.lo 1 1) F.BH_PEER_ENDPOINT.lo 8 0x10) F.BH_PEER_JOB.lo 8 3)
     let p := packet 2 8 (leBytes 0x30 32)
     (s.takeBh 0 p).peerOk p (parseBh p.body) = true) ∧
    (∀ f ∈ on.bh.frags, f.is 0x10 0 0 = false) ∧ on.bh.restores = [] ∧ on.restore? 1 0 = none := by decide +kernel

/-- A dispatch for an IDLE Pavilion, a fault to release, a bad word to scrub. -/
theorem witness_PavilionEvents :
    let l : Launch := ⟨1, 0, 2, 0, 800, 0, 0, 0, 0, 0, 0, [], [], 0, [799], [799], none⟩
    let s := { on.put F.PV_RUN_STATE [799] Ps.idle with pv := { on.pv with launches := [l] } }
    (match s.nextReady 799 with | some (.launched m) => m == l | _ => false) = true ∧ s.pvState 799 = Ps.idle ∧ s.get F.PV_CTRL_DISPATCH_HOLD = 0 ∧ s.get F.PM_STATE_STATE ≤ 1 ∧
    on.pvState 799 = Ps.gated ∧ (s.put F.PV_RUN_STATE [799] Ps.faulted).get F.PV_FAULT_VALID [799] = 0 ∧ on.get F.PV_CTRL_SCRUB_EN ≠ 0 := by
  decide +kernel

theorem witness_SliceAndShardDigest : (2 ^ 64 - 1 < 2 ^ 64) ∧ (2 ^ 24 - 1 < 2 ^ 24) ∧ (2 ^ 16 - 1 < 2 ^ 16) ∧ (2 ^ 40 - 1 < 2 ^ 40) := by decide

/-- A CONTRIB of a context that is not there, of a stale job, and one that comes before its parcel. -/
theorem witness_Contributions :
    let body := leBytes (0x0001_0007_0005_0030) 8 ++ leBytes 0 8 ++ leBytes 0 8
    let p := packet 1 8 body
    on.ctxState 5 ≠ Cs.active ∧ moored.ctxState 5 = Cs.active ∧ bits (word64At p.body 0) 0 4 = 0 ∧ p.hdr.job = moored.job 5 ∧
    bits (word64At p.body 0) 4 12 = moored.job 5 ∧ bits (word64At p.body 0) 32 16 = moored.epoch 5 ∧ (moored.ctx 5).fenced 1 = false ∧
    moored.findParcel 5 0 = none ∧ 2 ^ 31 ≤ (moored.gateNext 5 + 2 ^ 32 - 1 - 0) % 2 ^ 32 := by decide +kernel

/-- No candidate; a lease that has passed, and the moment before. -/
theorem witness_AdmissionAndGate : on.candidate = none ∧ on.findParcel 5 0 = none ∧ on.ctxsIn Cs.active = [] ∧ on.engineBusy = false ∧
    (let s := { moored with now := 2500000 }
     s.ctxState 5 = Cs.active ∧ (s.ctx 5).bitmap.testBit 1 = true ∧ s.beaconAt ((s.ctx 5).portOf 1) + 500000 * (s.ctx 5).leaseMs ≤ s.now ∧
     (s.ctx 5).since + 500000 * (s.ctx 5).leaseMs ≤ s.now) ∧ ¬(moored.ctx 5).since + 500000 * (moored.ctx 5).leaseMs ≤ 2499999 ∧
    (on.put F.GEN_CTRL_STRICT_ORDER [] 1).mo.colls = [] := by decide +kernel

/-- Dock's last line, a host window, the widths of a root port. -/
theorem witness_DockAndWindows :
    let s := { on.cwr .DK_WIN_BASE [7] 0x8000000000000000 with up := { on.up with linkUp := true, decoders := on.up.decoders.set 7 (0x1000, 0x10000000, true, false) } }
    dockBytes / 64 - 1 < dockBytes / 64 ∧ (on.put F.DK_CTRL_SCRUB_EN [] 1).get F.DK_CTRL_SCRUB_EN = 1 ∧
    (on.put F.DK_STATUS_POWER [] 2).get F.DK_STATUS_POWER = 2 ∧ s.decoderOf 0x1040 = some (7, 0x1000) ∧ s.decoderOf 0x0FFF = none ∧
    s.up.linkUp = true ∧ on.cget F.DK_WIN_BASE_VALID [7] = 0 ∧ 31 < 32 ∧ 127 < 128 := by decide +kernel

/-- A good header and a bad one; a queue whose last cell is to cross; a port whose link is down. -/
theorem witness_BasinPath :
    let good := packet 0 8 (List.replicate 4 0)
    headerBad good = false ∧ headerBad { good with body := [] } = true ∧ on.linkUp 0 = false ∧ on.isPort 0 = true ∧ on.portOf 0 = 0 ∧ 0 < on.portWidth 0 ∧
    on.basin.mc = [] ∧ on.basin.reasm.find? (fun x => x.1 = 0) = none ∧ spGet none on.basin.downAt 0 = none := by decide +kernel

/-- An empty table, an ageing limit, a meter, a gate list. -/
theorem witness_HarbourMetersGates : on.Writes .host .HB_OP [3] ∧ on.candidates 3 7 = [] ∧ (on.freePlace 3 7).isSome = true ∧ on.wintering = false ∧
    (on.put F.HB_AGE_ENABLE [3] 1).get F.HB_AGE_ENABLE [3] = 1 ∧ on.get F.SC_METER_RATE_CIR ≤ on.get F.SC_METER_RATE_PIR ∧
    on.lossless 0 0 = (on.get F.BS_CTRL_LOSSLESS).testBit 0 ∧ on.gateEntries 511 = [] :=
  ⟨writes _ _ _ (by decide +kernel), by decide +kernel⟩

/-- The rates at the limit of 500 parts per million and beyond it; the last nanosecond of a second. -/
theorem witness_ClocktowerRows : on.Writes .host .CT_RATE [] ∧ ¬(500 * 2 ^ 39 < ((2 ^ 39 + 274877906 : Int) - 2 ^ 39).natAbs * 1000000) ∧
    500 * 2 ^ 39 < ((2 ^ 39 + 274877907 : Int) - 2 ^ 39).natAbs * 1000000 ∧ on.clock.sec < 2 ^ 48 ∧ on.clock.ns < 2 ^ 30 ∧
    (on.put F.CT_CTRL_PPS_IN_EN [] 1).get F.CT_CTRL_PPS_IN_EN = 1 ∧ 999999999 < 1000000000 :=
  ⟨writes _ _ _ (by decide +kernel), by decide +kernel⟩

/-- A channel lit, tuning and dark; a calibration asked for. -/
theorem witness_LighthouseCircuits :
    let c : Channel := { (on.channel 63) with lit := some 63 }
    let t : Channel := { (on.channel 63) with tuning := some (63, 0) }
    let s (c : Channel) : State := { on with quays := { on.quays with channels := [(63, some c)] } }
    ((s c).channel 63).lit = some 63 ∧ ((s t).channel 63).tuning = some (63, 0) ∧ (on.channel 63).lit = none ∧ on.quays.cal = none ∧
    (on.lhState 63 63 = 0) ∧ ((on.put F.LH_CIRCUIT_STATE [63, 63] 2).lhState 63 63 = 2) := by decide +kernel

/-- A genuine KEEPALIVE on an UP slot, a bad one, and the ends of the sequence comparison. -/
theorem witness_BreakwaterFrames :
    let s := (((on.cwr .BW_LH_CFG [31] 0x8000000000000000).put F.QY_PORT_STATUS_STAGE (pidx 0) 6).put F.BW_LH_STATUS_STATE [31] 2).cwr .BW_SA_CFG [31] 0x00FFFFFF
    let f : BwIn := ⟨0, 0, true, 4, 1, 0, 0, 0, 0, 0, []⟩
    s.slotOf 0 = some 31 ∧ s.stage 0 = 6 ∧ s.slotState 31 = 2 ∧ f.icv = true ∧ f.btype = 4 ∧ f.ver = 1 ∧ (s.cget F.BW_SA_CFG_RX_EN [31]).testBit f.an = true ∧
    tseqPassed 0 (2 ^ 47 - 1) = true ∧ tseqPassed 0 (2 ^ 47) = false ∧ tseqPassed (2 ^ 48 - 1) 0 = true ∧ tseqPassed 5 5 = false := by
  decide +kernel

/-- Each timer's slot: UP with a window, OUTAGE, no key agreement. -/
theorem witness_BreakwaterTimers :
    let s := ((on.cwr .BW_LH_CFG [31] 0x8000000000000000).put F.BW_LH_STATUS_STATE [31] 4).put F.QY_PORT_STATUS_STAGE (pidx 0) 6
    s.slotState 31 = 4 ∧ s.wintering = false ∧ s.slotValid 31 = true ∧ on.slotState 31 = 0 ∧ on.keyxSlot 0 = none ∧ on.spanValid 15 = false ∧
    s.keyxSlot 0 = some 31 := by decide +kernel

/-- A frame on an UP port, an ACK of it, and a port at stage 1. -/
theorem witness_LinkLayer :
    let s := on.put F.QY_PORT_STATUS_STAGE (pidx 511) 6
    s.stage 511 = 6 ∧ s.isEth 511 = false ∧ s.lhPort 511 = false ∧ on.stage 511 ≠ 6 ∧ (s.link 511).nakAt = none ∧ (s.link 511).rxNext = 0 ∧
    (s.port 511).partner = none ∧ (s.port 511).suppress = 0 ∧ (s.port 511).beaconAt = none := by decide +kernel

/-- Ports at each stage; lanes in order and reversed. -/
theorem witness_BringUp : on.stage 504 = 1 ∧ on.isPort 504 = true ∧ [0, 1, 2, 3] = List.range 4 ∧ [3, 2, 1, 0].reverse = List.range 4 ∧
    (on.put F.QY_PORT_STATUS_STAGE (pidx 504) 5).stage 504 = 5 ∧ on.Writes .hm .QY_CMIS_CMD [63] ∧ on.get F.QY_CMIS_STATUS_BUSY [63] = 0 ∧
    spGet none on.quays.cmis 63 = none ∧ bits (0x2000000#64) 18 8 = 128 := by
  refine ⟨by decide +kernel, by decide +kernel, by decide, by decide, by decide +kernel, writes _ _ _ (by decide +kernel), by decide +kernel⟩

/-- 96 temperatures in RUN. -/
theorem witness_LodgeSamples : on.sup.rails = .main ∧ State.reset.sup.rails = .standby ∧ (List.replicate 96 (0 : Int)).length = 96 ∧
    on.get F.PM_STATE_STATE < 2 ∧ (511 < 512) ∧ on.sup.refclk = true ∧ on.get F.DK_STATUS_POWER ≠ 0 ∧
    (on.put F.DK_STATUS_POWER [] 0).get F.DK_STATUS_POWER = 0 := by decide +kernel

/-- A service request heard, and a set of keys that waits to go into force. -/
theorem witness_AttestationMessages : on.powered = true ∧ on.get F.GH_STATUS_FAULT = 0 ∧ on.gate.queue.length < 16 ∧ on.gate.serving = none ∧
    (let msg := leBytes (1 + 256 + 16 * 2 ^ 32) 8 ++ leBytes 0 8
     16 ≤ msg.length ∧ natAt msg 0 1 = 1 ∧ natAt msg 1 1 = 1 ∧ natAt msg 4 4 = msg.length ∧ msg.length % 4 = 0) ∧
    (on.ideStream 1).established = false ∧ ((on.ideStream 1).pendingGo.getD 1 none) = none := by decide +kernel

theorem witness_MailboxRequests : on.Writes .host .GH_REQ [] ∧ on.get F.GH_RSP_BUSY = 0 ∧ on.get F.GH_STATUS_FAULT = 0 ∧ on.gate.queue = [] ∧
    on.gate.serving = none ∧ (on.put F.GH_RSP_BUSY [] 1).get F.GH_RSP_BUSY = 1 ∧ on.gate.log.length < 65536 :=
  ⟨writes _ _ _ (by decide +kernel), by decide +kernel⟩

theorem witness_HarbourmasterRows : on.Writes .hm .HM_HEARTBEAT [] ∧ on.Writes .host .HM_CTRL [] ∧ on.Writes .host .HM_DOCK [3] ∧
    (on.put F.HM_STATUS_STATE [] 1).get F.HM_STATUS_STATE = 1 ∧ on.hm.stopped = false :=
  ⟨writes _ _ _ (by decide +kernel), writes _ _ _ (by decide +kernel), writes _ _ _ (by decide +kernel), by decide +kernel⟩

theorem witness_TallyRows : on.Writes .host .TL_BW_CFG [] ∧ on.Writes .host .TL_PC_CFG [63] ∧ on.get F.TL_DUMP_RING_EN = 0 ∧ on.tal.snap = none ∧
    on.get F.TL_PC_CFG_EN [63] = 0 ∧ on.get F.TL_BW_CFG_WINDOW_US = on.get F.TL_BW_CFG_WINDOW_US ∧ findReg 0x38 = none :=
  ⟨writes _ _ _ (by decide +kernel), writes _ _ _ (by decide +kernel), by decide +kernel⟩

theorem witness_CountersCleared : on.Writes .host .PV_TILE_ERR [] ∧ on.Writes .host .MO_CNT_CLEAR [] ∧ on.Writes .host .BS_BUF_USED [3] ∧
    on.Writes .host .QY_PRBS_CTRL (pidx 511) :=
  ⟨writes _ _ _ (by decide +kernel), writes _ _ _ (by decide +kernel), writes _ _ _ (by decide +kernel), writes _ _ _ (by decide +kernel)⟩

/-- Each rail, and a status that a sensor's heat would set. -/
theorem witness_PmbusAnswers : on.sup.rails = .main ∧ State.reset.sup.rails = .standby ∧
    ({ on with sup := { on.sup with rails := .none } } : State).sup.rails = .none ∧ (0 : Nat) < 1000 ∧ 2 ^ 15 - 1 < 1000 * 2 ^ 25 := by decide

/-- A boot that can go on, and one that has ended. -/
theorem witness_ResetAndBoot : let s := State.reset
    (after .modEnRise s).powered = true ∧ (after .modEnRise s).get F.GEN_STATUS_BOOT_DONE = 0 ∧ (after .modEnRise s).get F.GH_STATUS_BOOT_FAIL = 0 ∧
    (after .modEnRise s).get F.GH_STATUS_STAGE = 0 ∧ on.get F.GEN_STATUS_BOOT_DONE = 1 ∧ (on.put F.GH_STATUS_STAGE [] 5).get F.GH_STATUS_STAGE = 5 := by
  decide +kernel

/-- An empty queue without and with power. -/
theorem witness_StepRunsFront : State.reset.pending = [] ∧ State.reset.powered = false ∧ on.pending = [] ∧ on.powered = true := by decide

/-- Reset is canonical. -/
theorem witness_StepKeepsWf : State.reset.Wf ∧ on.sent = [] := ⟨⟨trivial, trivial, trivial, trivial, trivial⟩, rfl⟩

/-- The supply's states and the pins. -/
theorem witness_ModulePower : State.reset.sup.rails = .standby ∧ State.reset.sup.modEn = false ∧ State.reset.sup.refclk = true ∧
    on.sup.rails = .main ∧ on.sup.modEn = true ∧ on.up.perst = true ∧ State.reset.pending = [] ∧ State.reset.Wf :=
  ⟨rfl, rfl, rfl, rfl, rfl, rfl, rfl, ⟨trivial, trivial, trivial, trivial, trivial⟩⟩

/-! ### Hypotheses of the statements that say where a row completes -/

/-- Ring 1 in RUN over the host's address 0x1000, where a NOP of the expected generation lies. -/
def ringed : State :=
  (((((hostHas (leBytes 0x0101 64)).cput F.WK_RING_BASE_SPACE [1] 4).cput F.WK_RING_BASE_ADDR [1] 0x1000).cput F.WK_RING_CFG_WINDOW [1] 1).cput
    F.WK_RING_CFG_SLOTS [1] 4 |>.put F.WK_RING_CTRL_STATE [1] 1).put F.WK_RING_HEAD_EXPECT_GEN [1] 1

/-- One ring with a head; a wait met, one failed; a NOP and an EVENT SET to start; a POWER past its limit; a record due; a line no ring lies in. -/
theorem witness_EngineRowsComplete :
    on.Writes .host .GEN_CTRL [] ∧ on.mo.colls = [] ∧
    ringed.headReady 1 = true ∧ (∀ x, x < 256 → x ≠ 1 → ringed.headReady x = false) ∧
    (match (ringed.memRead 2 (ringed.cget F.WK_RING_BASE_SPACE [1]) (ringed.headAddr 1) 64).2 with | .ok bs => bs.length == 64 | _ => false) = true ∧
    (let c := { cmd 1 0 0 0 0 with wait0 := .pending }
     (given on c).cmd? 1 0 = some c ∧ on.evFail 0 = false ∧ (0 : Nat) ≤ on.evVal 0 ∧ (on.evFailTo 0 true).evFail 0 = true) ∧
    (let c := cmd 10 0x0000_0001_FFFF_0000 7 0 0
     (given on c).cmd? 1 0 = some c ∧ c.serial = false ∧ c.fld 4 0 16 = 0 ∧ c.fld 4 32 32 = 1) ∧
    (let c := { cmd 11 0 0 0 0 with stage := .running, desc := [0x0001_0000_0000_0B00, 0, 0, 0, 0, 0, 0, 0] }
     (given { on with now := 50000 } c).cmd? 1 0 = some c ∧ c.type = 11 ∧ c.fld 0 48 16 = 1) ∧
    (let c := { cmd 1 0 0 0 0 with stage := .ended }
     let s := given (on.cput F.WK_CQ_CFG_SLOTS [0] 4) c
     s.rings.cmds.find? (fun c => c.ring = 1) = some c ∧ s.cqAwake 1 = true ∧ s.cqFull 1 = false ∧ c.sigEn = false ∧ c.irq = false) ∧
    (∀ r, r < 256 → on.cget F.WK_RING_BASE_SPACE [r] ≠ 4) :=
  ⟨writes _ _ _ (by decide +kernel), by decide +kernel⟩

/-- The NOP of `ringed` is accepted with its slot and sequence number. -/
theorem test_acceptance : (after .commandAcceptance ringed).rings.cmds.map (fun c => (c.ring, c.seq, c.slot, c.type)) = [(1, 0, 0, 1)] := by decide +kernel

/-- `moored` with one REDUCE of one parcel, not admitted, and admitted. -/
def reducing (live : List Parcel) : State :=
  let c : Coll := ⟨1, 0, 5, 0, 0, .fp32, .fp32, 0, 0, 1024, 0, 0, 7, 2, live.length, 0, 0, live, [], [], none, 0, [], none⟩
  { moored with mo := { moored.mo with colls := [c] } }

def parcel0 : Parcel := ⟨0, 0, true, 0, [], [], [], [], [], [0, 1], [], [], [], []⟩

/-- Each state a Pavilion's row turns on, a candidate, a lease that has passed, and permitted writes. -/
theorem witness_ParcelRowsComplete :
    (on.put F.PV_RUN_STATE [799] 1).pvState 799 = 1 ∧ on.get F.PM_STATE_STATE ≤ 1 ∧ (on.put F.PM_STATE_STATE [] 1).get F.PM_STATE_STATE = 1 ∧
    (on.put F.PV_RUN_STATE [799] 2).readyFor 799 = [] ∧ kern.bound = false ∧ kern.kid ≠ 0 ∧ (runs (regs [])).pvState 0 = 3 ∧
    on.get F.PV_FAULT_VALID [0] = 0 ∧ (1#64).getLsbD 0 = true ∧ on.get F.PV_RUN_LEVEL1 [0] = 0 ∧
    (runs { regs [] with out := [⟨3, 0x100, 0, .product 1 0 false 0 [], none, none⟩] }).presented 0 1 = true ∧
    (on.put F.PV_RUN_LEVEL0 [0] 4).presented 0 0 = false ∧
    ((runs { regs [] with wait := some (.event 5 0) }).pav 0).wait = some (.event 5 0) ∧ (0 : Nat) ≤ on.evVal 5 ∧
    (reducing []).candidate.isSome = true ∧ ((reducing []).waitingParcel 5).isSome = true ∧
    (let s := { reducing [parcel0] with now := 500 * 65536 }
     (match s.findParcel 5 0 with
       | some (c, x) => 0 < (s.granLens c x.k).length && (s.contributors c).contains 1 && s.due c x 0 1
       | none => false)) = true ∧
    (let s := { moored with now := 2500000 }
     s.ctxState 5 = Cs.active ∧ (s.ctx 5).bitmap.testBit 1 = true ∧ s.beaconAt ((s.ctx 5).portOf 1) + 500000 * (s.ctx 5).leaseMs ≤ s.now ∧
     (s.ctx 5).since + 500000 * (s.ctx 5).leaseMs ≤ s.now ∧ s.mo.colls = [] ∧ s.bh.restores = []) ∧
    on.ctxsIn Cs.active = [] ∧ on.engineBusy = false ∧ bits (0x8000#64) 0 16 ≤ 32768 ∧ on.bh.shards = [] := by decide +kernel

/-- A packet reassembled, ports at each stage, a circuit tuning, and a slot whose every timer has run out. -/
theorem witness_LinkRowsComplete :
    let x : BPkt := ⟨packet 0 8 [], 0, 0, false, true, none⟩
    let s6 := on.put F.QY_PORT_STATUS_STAGE (pidx 504) 6
    let pk : BwPkt := ⟨0, 0, 0, false, []⟩
    let sl := { (on.slot 31) with window := [pk], units := [pk], gaps := [(3, some 0)] }
    let up := (((on.cwr .BW_LH_CFG [31] 0x8000000000000000).put F.QY_PORT_STATUS_STAGE (pidx 0) 6).put F.BW_LH_STATUS_STATE [31] 2).setSlot 31 sl
    ({ on with basin := { on.basin with reasm := [(0, x)] } } : State).basin.reasm.find? (fun x => x.1 = 0) = some (0, x) ∧ s6.linkUp 504 = true ∧
    s6.stage 504 = 6 ∧ (s6.port 504).beaconAt = none ∧ s6.isEth 504 = false ∧ s6.lhPort 504 = false ∧ on.isPort 504 = true ∧ on.stage 504 = 1 ∧
    stageLimit ((on.put F.QY_PORT_STATUS_STAGE (pidx 504) 5).stage 504) = some 1000 ∧
    (s6.put F.QY_PORT_CTRL_REPLAY_MAX (pidx 504) 0).cget F.QY_PORT_CTRL_REPLAY_MAX (pidx 504) = s6.cget F.QY_PORT_CTRL_REPLAY_MAX (pidx 504) ∧
    seqBehind 0 0 ≤ seqBehind 0 1 ∧ up.slotOpen 31 = true ∧ (3, some 0) ∈ (up.slot 31).gaps ∧ spGet none (up.slot 31).naks 3 = none ∧
    (up.slot 31).window ≠ [] ∧ (up.slot 31).units ≠ [] ∧ up.slotValid 31 = true ∧ up.slotState 31 = 2 ∧
    (up.put F.BW_LH_STATUS_STATE [31] 4).slotState 31 = 4 ∧ up.wintering = false := by decide +kernel

/-- A running Harbourmaster, a clock present, a dump ring, a drop to release, a span's silent site. -/
theorem witness_SupervisionRowsComplete :
    let d := { (on.put F.PM_STATE_LOCAL_DROP [] 1).put F.PM_STATE_CAUSE [] 3 with now := 2 ^ 60, pwr := { on.pwr with capSince := some 0 } }
    let h := on.put F.HM_STATUS_STATE [] 1
    let t := on.put F.TL_DUMP_RING_EN [] 1
    d.releasable = true ∧ on.powered = true ∧ on.sup.refclk = true ∧ h.get F.HM_STATUS_STATE = 1 ∧ h.hm.stopped = false ∧ h.get F.HM_CTRL_HOLD = 0 ∧
    on.gate.queue = [] ∧ on.gate.serving = none ∧ t.get F.TL_DUMP_RING_EN ≠ 0 ∧ t.get F.PM_STATE_STATE < 2 ∧ t.tal.snap = none ∧ on.mo.colls = [] ∧
    (on.get F.BW_SPAN_STATUS_DEAD [15]).testBit 3 = false := by decide +kernel

/-- A parent silent, and a peer whose time has passed. -/
theorem witness_SilentPeers :
    let e : BhExt := ⟨2, 0, 0, 0, 0, 0, 0, 0, 0, 0⟩
    let a : Await := ⟨9, e, [], 0, 3⟩
    let s := { on with now := 500000 * 65536, bh := { on.bh with awaits := [a] } }
    on.restore? 1 0 = none ∧ a.endpoint = 9 ∧ a.sentAt + 500000 * s.get F.BH_CTRL_PEER_TIMEOUT_MS ≤ s.now ∧ s.sendsDue a ≤ a.sends ∧
    s.bh.shards = [] ∧ s.bh.rebuilds = [] ∧ s.bh.restores = [] ∧ on.bh.awaits = [] ∧
    (let y : Await := { a with sends := 1 }
     let v := { s with now := 500000 * s.get F.BH_CTRL_PEER_TIMEOUT_MS / 2 }
     v.now < y.sentAt + 500000 * v.get F.BH_CTRL_PEER_TIMEOUT_MS ∧
       y.sends + 1 = min 3 (1 + 3 * (v.now - y.sentAt) / (500000 * v.get F.BH_CTRL_PEER_TIMEOUT_MS))) := by decide +kernel

/-- Twenty data blocks of zeros and a control block. -/
theorem witness_CodewordRoundTrip : (2 ^ 58 - 1 < 2 ^ 58) ∧
    (let bs := controlBlock Ctl.idle 255 0 (List.replicate 24 0) :: List.replicate 19 (dataBlock (List.replicate 32 0))
     bs.length = 20 ∧ ∀ b ∈ bs, b.body.length = 32 ∧ (b.isData = true ∨ b.isControl = true)) := by decide +kernel

/-- The Gray levels of 00, 10, 11 and 01, the first bit first. -/
theorem test_gray : [grayOf false false, grayOf false true, grayOf true true, grayOf true false] = [0, 1, 2, 3] := by decide

/-- x^10 is x^3 + 1 in GF(2^10). -/
theorem test_gf10 : gf10Alpha 10 = 9 ∧ gf10Mul 9 (gf10Inv 9) = 1 := by decide +kernel

/-- A one after 58 zeros is scrambled into ones 39 and 58 bits on. -/
theorem test_scrambler : (scramble 7 0 1 256).1 % 2 ^ 60 = 1 + 2 ^ 39 + 2 ^ 58 := by decide +kernel

/-- One frame in one codeword: its bytes, then zeros, as twenty data blocks after 58 zeros. -/
def frameWord : RxWord :=
  let stream := frameOf 0 false (packet 0 8 []) ++ List.replicate 584 0
  let bs := (List.range 20).map fun j => dataBlock ((stream.drop (32 * j)).take 32)
  ⟨504, 0, 0, levelsOf false false (rsEncode (messageOf 0 bs).1), []⟩

/-- A frame that is good, on a port in service. -/
theorem witness_LinkLayer_frame :
    let s := on.put F.QY_PORT_STATUS_STAGE (pidx 504) 6
    s.stage 504 = 6 ∧ s.isEth 504 = false ∧ s.lhPort 504 = false ∧ (s.link 504).nakAt = none ∧
    (let f := s.frameIn 504 0 [frameWord]
     f.isSome && frameOk (f.getD []) && natAt (f.getD []) 4 4 == (s.link 504).rxNext) = true := by decide +kernel

end Sys2Proof.Tests
end

section
/-! SUPPORT. What the checks of a register write answer (R4, R10, R11, R28, R395, R426), for REGISTER_WRITE and for the commands that
write a register through a row of their own. -/

namespace Sys2Proof.Machine

variable {s : State} {req : Requester} {r : Reg} {idx : List Nat} {off size : Nat}

/-! ### Commands with a register row -/

/-- Every command with a register row is the checked write of that register. -/
theorem exec_eq_rowWrite {i : Instr} (h : rowReg i = some (req, r, idx)) :
    ∃ eff : State → State, ∀ s, exec i s = .next (s.rowWrite req r idx eff) := by
  cases i <;> simp only [rowReg, Option.some.injEq, Prod.mk.injEq, reduceCtorEq] at h
  all_goals
    obtain ⟨rfl, rfl, rfl⟩ := h
    exact ⟨_, fun _ => rfl⟩

theorem State.rowWrite_unreached (h : s.powered = false ∨ idxIn r idx = false) (eff : State → State) :
    s.rowWrite req r idx eff = s := by
  rcases h with h | h <;> simp [State.rowWrite, h]

theorem State.rowWrite_denied (hp : s.powered = true) (hi : idxIn r idx = true) (hc : s.checkReg req r idx = false)
    (eff : State → State) :
    s.rowWrite req r idx eff = (s.deny req 0 (regAddr r idx)).countBar0 req 2 (regAddr r idx) := by
  simp [State.rowWrite, hp, hi, hc]

/-! ### REGISTER_WRITE -/

/-- A write of another shape than an aligned word, or without power, is dropped. -/
theorem State.checkWrite_misshapen (h : s.powered = false ∨ size ≠ 8 ∨ off % 8 ≠ 0) : s.checkWrite req off size = .drop := by
  have bad : (!s.powered || decide (size ≠ 8) || decide (off % 8 ≠ 0)) = true := by
    rcases h with h | h | h <;> simp [h]
  rw [State.checkWrite, if_pos bad]

/-- A word of the mailbox's request buffer goes to the buffer, but for the Gatehouse's own. -/
theorem State.checkWrite_mailbox (hp : s.powered = true) (hb : s.bootDone = true) (ha : off % 8 = 0) (hlo : 0x02008000 ≤ off)
    (hhi : off < 0x0200C000) (hr : req ≠ .gh) : s.checkWrite req off 8 = .mailbox := by
  have hv : ¬0x02100000 ≤ off := by omega
  simp [State.checkWrite, hp, hb, ha, hlo, hhi, hr, hv]

section
variable (hp : s.powered = true) (hb : s.bootDone = true) (ha : off % 8 = 0) (hm : ¬(0x02008000 ≤ off ∧ off < 0x02010000))
  (hg : s.beyondGrade off = false)
include hp hb ha hm hg

/-- An aligned word after boot, outside the mailbox, within the grade and not of the committed view, at an offset that maps no
register. -/
theorem State.checkWrite_unmapped (hv : ¬(0x02100000 ≤ off ∧ off < 0x03000000)) (hf : findReg off = none) :
    s.checkWrite req off 8 = .drop := by
  have hm₁ : ¬(0x02008000 ≤ off ∧ off < 0x0200C000) := by omega
  have hm₂ : ¬(0x0200C000 ≤ off ∧ off < 0x02010000) := by omega
  simp [State.checkWrite, hp, hb, ha, hv, hm₁, hm₂, hg, hf]

/-- As `checkWrite_unmapped`, of a register whose "written by" line does not name the requester: denied, in the committed view too. -/
theorem State.checkWrite_denied (hf : findReg off = some (r, idx)) (hw : s.mayWrite req r idx = false) :
    s.checkWrite req off 8 = .deny := by
  have hm₁ : ¬(0x02008000 ≤ off ∧ off < 0x0200C000) := by omega
  have hm₂ : ¬(0x0200C000 ≤ off ∧ off < 0x02010000) := by omega
  simp [State.checkWrite, hp, hb, ha, hm₁, hm₂, hg, hf, hw]

/-- As `checkWrite_unmapped`, of a register whose "written by" line names the requester. -/
theorem State.checkWrite_reg (hv : ¬(0x02100000 ≤ off ∧ off < 0x03000000)) (hf : findReg off = some (r, idx))
    (hw : s.mayWrite req r idx = true) : s.checkWrite req off 8 = .reg r idx := by
  have hm₁ : ¬(0x02008000 ≤ off ∧ off < 0x0200C000) := by omega
  have hm₂ : ¬(0x0200C000 ≤ off ∧ off < 0x02010000) := by omega
  simp [State.checkWrite, hp, hb, ha, hv, hm₁, hm₂, hg, hf, hw]

end

section
variable (v : Word64)

theorem exec_registerWrite_drop (h : s.checkWrite req off size = .drop) :
    exec (.registerWrite req off size v) s = .next (s.countBar0 req 2 off) := by
  simp [exec, execRegisterWrite, h]

theorem exec_registerWrite_deny (h : s.checkWrite req off size = .deny) :
    exec (.registerWrite req off size v) s = .next ((s.deny req 0 off).countBar0 req 2 off) := by
  simp [exec, execRegisterWrite, h]

theorem exec_registerWrite_reg (h : s.checkWrite req off size = .reg r idx) :
    exec (.registerWrite req off size v) s = .next ((s.regEffect req r idx v).countBar0 req 1 off) := by
  simp [exec, execRegisterWrite, h]

theorem exec_registerWrite_mailbox (h : s.checkWrite req off size = .mailbox) (hb : s.get F.GH_RSP_BUSY = 0) :
    exec (.registerWrite req off size v) s = .next (({ s with gate := { s.gate with
      reqBuf := (wordBytes v).zipIdx.foldl (fun m x => spPut 0 m (off - 0x02008000 + x.2) x.1) s.gate.reqBuf } } : State).countBar0
        req 1 off) := by
  simp [exec, execRegisterWrite, h, hb]

end

end Sys2Proof.Machine
end

section
/-! SUPPORT. Writes that are dropped. -/

namespace Sys2Proof.Machine

/-- R11, R395: a denied write leaves its trace in the log and the counts, and nothing else. -/
theorem deniedWrite_logged : claimDeniedWriteIsLogged := by
  intro s req r idx hp hi off who logged counted after
  have hdeny : s.deny req 0 off = counted.tally 0x70 := by
    cases req <;> simp [State.deny, reqCode, State.bump, counted, logged, who]
  refine ⟨fun i hrow hc => ?_, fun v ha hb hm hg hf hw => ?_⟩
  · obtain ⟨eff, heff⟩ := exec_eq_rowWrite hrow
    rw [heff, State.rowWrite_denied hp hi hc, hdeny]
  · rw [exec_registerWrite_deny v (State.checkWrite_denied hp hb ha hm hg hf hw), hdeny]

/-- R10: a write of a wrong shape or of no register changes nothing but the programmable counters. -/
theorem misshapenWrite_dropped : claimMisshapenWriteHasNoEffect := by
  refine ⟨fun s req off size v h => exec_registerWrite_drop v ?_, fun i s req r idx hrow h => ?_⟩
  · by_cases hshape : s.powered = false ∨ size ≠ 8 ∨ off % 8 ≠ 0
    · exact State.checkWrite_misshapen hshape
    · obtain ⟨hp, rfl, ha⟩ : s.powered = true ∧ size = 8 ∧ off % 8 = 0 := by simpa using hshape
      obtain h | h | h | ⟨hb, hm, hv, hg, hf⟩ := h
      · exact absurd (.inl h) hshape
      · exact absurd rfl h
      · exact absurd ha h
      · exact State.checkWrite_unmapped hp hb ha hm hg hv hf
  · obtain ⟨eff, heff⟩ := exec_eq_rowWrite hrow
    rw [heff, State.rowWrite_unreached h]

/-- Settles O16: every denied or dropped write goes through the checks of one shared operation. -/
theorem deniedWriteIsLogged : Obligations.DeniedWriteIsLogged :=
  ⟨deniedWrite_logged, misshapenWrite_dropped⟩

end Sys2Proof.Machine
end

section
/-! SUPPORT. How a written word reaches the fields of a register (R12, R396). -/

namespace Sys2Proof.Machine

/-! ### Bits of a field -/

theorem bits_lt (w : Word64) (lo width : Nat) : bits w lo width < 2 ^ width := Nat.mod_lt _ (Nat.two_pow_pos _)

theorem testBit_bits (w : Word64) (lo width i : Nat) : (bits w lo width).testBit i = (decide (i < width) && w.getLsbD (lo + i)) := by
  simp [bits, BitVec.getLsbD]

/-- Two fields share no bit. -/
def Fld.Apart (f g : Fld) : Prop := f.lo + f.width ≤ g.lo ∨ g.lo + g.width ≤ f.lo

/-- A field lies in its register's 64 bits. -/
def Fld.Fits (f : Fld) : Prop := f.lo + f.width ≤ 64

/-- The tables of R27: the fields of a register lie in its word and share no bit. -/
theorem regDesc_fields_apart (r : Reg) :
    (∀ f ∈ (regDesc r).fields, f.Fits) ∧ (regDesc r).fields.Pairwise Fld.Apart := by
  unfold Fld.Fits Fld.Apart
  cases r <;> decide

/-! ### A word applied field by field -/

/-- The word that `applyFields` gives, from `w` on. -/
def writeWord (locked : Bool) (old v : Word64) (fs : List Fld) (w : Word64) : Word64 :=
  fs.foldl (fun w f => putBits w f.lo f.width (writeField locked old v f).1) w

section
variable {locked : Bool} {old v : Word64}

theorem applyFields_eq (fs : List Fld) :
    applyFields locked fs old v = (writeWord locked old v fs old, fs.any fun f => (writeField locked old v f).2) := by
  have from_ : ∀ (fs : List Fld) (w : Word64) (d : Bool),
      fs.foldl (fun (w, d) f => let p := writeField locked old v f; (putBits w f.lo f.width p.1, d || p.2)) (w, d) =
        (writeWord locked old v fs w, d || fs.any fun f => (writeField locked old v f).2) := by
    intro fs
    induction fs with
    | nil => simp [writeWord]
    | cons f fs ih => intro w d; simp [writeWord, ih, Bool.or_assoc]
  exact (from_ fs old false).trans (by rw [Bool.false_or])

/-- A bit of no field stands. -/
theorem writeWord_getLsbD {fs : List Fld} (hf : ∀ f ∈ fs, f.Fits) {i : Nat} (hi : ∀ f ∈ fs, ¬(f.lo ≤ i ∧ i < f.lo + f.width))
    (w : Word64) : (writeWord locked old v fs w).getLsbD i = w.getLsbD i := by
  induction fs generalizing w with
  | nil => rfl
  | cons f fs ih =>
    rw [List.forall_mem_cons] at hf hi
    rw [writeWord, List.foldl_cons, ← writeWord, ih hf.2 hi.2, putBits_getLsbD hf.1, if_neg hi.1]

/-- A field that shares no bit with those written stands. -/
theorem bits_writeWord_apart {fs : List Fld} (hf : ∀ f ∈ fs, f.Fits) {g : Fld} (hg : ∀ f ∈ fs, g.Apart f) (w : Word64) :
    bits (writeWord locked old v fs w) g.lo g.width = bits w g.lo g.width := by
  induction fs generalizing w with
  | nil => rfl
  | cons f fs ih =>
    rw [List.forall_mem_cons] at hf hg
    rw [writeWord, List.foldl_cons, ← writeWord, ih hf.2 hg.2, bits_putBits_ne hf.1 (Or.symm hg.1)]

/-- A field written takes its value. -/
theorem bits_writeWord {fs : List Fld} (hf : ∀ f ∈ fs, f.Fits) (ha : fs.Pairwise Fld.Apart) {g : Fld} (hg : g ∈ fs) (w : Word64) :
    bits (writeWord locked old v fs w) g.lo g.width = (writeField locked old v g).1 % 2 ^ g.width := by
  induction fs generalizing w with
  | nil => simp at hg
  | cons f fs ih =>
    rw [List.forall_mem_cons] at hf
    rw [List.pairwise_cons] at ha
    rw [writeWord, List.foldl_cons, ← writeWord]
    obtain rfl | hg := List.mem_cons.1 hg
    · rw [bits_writeWord_apart hf.2 ha.1, bits_putBits_self hf.1]
    · exact ih hf.2 ha.2 hg _

/-! ### The value and the denial of one field, by its access code -/

theorem getLsbD_ofNat_bits {w : Word64} {f : Fld} (hf : f.Fits) {i : Nat} (hi : i < f.width) :
    (BitVec.ofNat 64 (bits w f.lo f.width)).getLsbD i = w.getLsbD (f.lo + i) := by
  have : i < 64 := by unfold Fld.Fits at hf; omega
  simp only [BitVec.getLsbD_ofNat, testBit_bits, hi, this, decide_true, Bool.true_and]

theorem writeField_w1c {f : Fld} (hf : f.Fits) (hc : f.acc = .w1c) :
    (writeField locked old v f).1 % 2 ^ f.width = bits (old &&& ~~~v) f.lo f.width := by
  apply Nat.eq_of_testBit_eq
  intro i
  by_cases hi : i < f.width
  · have h64 : f.lo + i < 64 := by unfold Fld.Fits at hf; omega
    have h64' : i < 64 := by omega
    simp only [writeField, hc, Nat.testBit_mod_two_pow, BitVec.testBit_toNat, testBit_bits, BitVec.getLsbD_and,
      BitVec.getLsbD_not, getLsbD_ofNat_bits hf hi, hi, h64, h64', decide_true, Bool.true_and]
  · simp [hi, testBit_bits]

theorem writeField_w1s {f : Fld} (hf : f.Fits) (hc : f.acc = .w1s) :
    (writeField locked old v f).1 % 2 ^ f.width = bits (old ||| v) f.lo f.width := by
  apply Nat.eq_of_testBit_eq
  intro i
  by_cases hi : i < f.width
  · simp only [writeField, hc, Nat.testBit_mod_two_pow, BitVec.testBit_toNat, testBit_bits, BitVec.getLsbD_or,
      getLsbD_ofNat_bits hf hi, hi, decide_true, Bool.true_and]
  · simp [hi, testBit_bits]

/-- What a field is after a write, by its access code (R12, R396). -/
def fieldAfter (locked : Bool) (old v : Word64) (f : Fld) : Nat :=
  match f.acc with
  | .rw => bits v f.lo f.width
  | .rwl => if locked then bits old f.lo f.width else bits v f.lo f.width
  | .ro | .wo => bits old f.lo f.width
  | .w1c => bits (old &&& ~~~v) f.lo f.width
  | .w1s => bits (old ||| v) f.lo f.width

theorem writeField_value {f : Fld} (hf : f.Fits) : (writeField locked old v f).1 % 2 ^ f.width = fieldAfter locked old v f := by
  have hb : ∀ w, bits w f.lo f.width % 2 ^ f.width = bits w f.lo f.width := fun w => Nat.mod_eq_of_lt (bits_lt w _ _)
  unfold fieldAfter
  cases hc : f.acc with
  | rw => simp [writeField, hc, hb]
  | ro => simp [writeField, hc, hb]
  | wo => simp [writeField, hc, hb]
  | rwl => cases locked <;> simp [writeField, hc, hb, apply_ite Prod.fst]
  | w1c => simpa using writeField_w1c hf hc
  | w1s => simpa using writeField_w1s hf hc

/-- A write is denied where it would change a field that the seal has locked. -/
theorem writeField_denied (f : Fld) :
    (writeField locked old v f).2 = true ↔ locked = true ∧ f.acc = .rwl ∧ bits v f.lo f.width ≠ bits old f.lo f.width := by
  cases hc : f.acc <;> simp [writeField, hc, apply_ite Prod.snd]

end

/-! ### A register by its general rule -/

/-- The registers without a text of their own are written by the general rule. -/
theorem State.regEffect_general {s : State} {req : Requester} {r : Reg} {idx : List Nat} {v : Word64} (h : r ∉ ownText) :
    s.regEffect req r idx v = s.applyWrite req r idx v := by
  cases r <;> simp [ownText] at h <;> rfl

theorem fieldsFor_general {r : Reg} (req : Requester) (h : r ∉ ownText) : fieldsFor r req = (regDesc r).fields := by
  have hr : r ≠ .PM_CAP := by rintro rfl; exact h (by decide)
  unfold fieldsFor
  split
  · exact absurd rfl hr
  · exact absurd rfl hr
  · rfl

/-- The general rule: every field takes its value by its access code, and every other bit stands. -/
theorem exists_applyWrite_general {s : State} (req : Requester) {r : Reg} (idx : List Nat) (v : Word64) (h : r ∉ ownText) :
    let tried : Prop := s.isSealed = true ∧
      ∃ f ∈ (regDesc r).fields, f.acc = .rwl ∧ bits v f.lo f.width ≠ bits (s.rd r idx) f.lo f.width
    ∃ w : Word64, (¬tried → s.applyWrite req r idx v = s.wr r idx w) ∧
      (tried → s.applyWrite req r idx v = (s.wr r idx w).deny req 0 (regAddr r idx)) ∧
      (∀ f ∈ (regDesc r).fields, bits w f.lo f.width = fieldAfter s.isSealed (s.rd r idx) v f) ∧
      ∀ i, (∀ f ∈ (regDesc r).fields, ¬(f.lo ≤ i ∧ i < f.lo + f.width)) → w.getLsbD i = (s.rd r idx).getLsbD i := by
  intro tried
  obtain ⟨hf, ha⟩ := regDesc_fields_apart r
  have htried : ((regDesc r).fields.any fun f => (writeField s.isSealed (s.rd r idx) v f).2) = true ↔ tried := by
    simp only [List.any_eq_true, writeField_denied, tried]
    constructor
    · rintro ⟨f, hm, hs, hc, hn⟩; exact ⟨hs, f, hm, hc, hn⟩
    · rintro ⟨hs, f, hm, hc, hn⟩; exact ⟨f, hm, hs, hc, hn⟩
  refine ⟨writeWord s.isSealed (s.rd r idx) v (regDesc r).fields (s.rd r idx), fun ht => ?_, fun ht => ?_, fun f hm => ?_,
    fun i hi => writeWord_getLsbD hf hi _⟩
  · simp only [State.applyWrite, fieldsFor_general req h, applyFields_eq, if_neg (mt htried.1 ht)]
  · simp only [State.applyWrite, fieldsFor_general req h, applyFields_eq, if_pos (htried.2 ht)]
  · exact (bits_writeWord hf ha hm _).trans (writeField_value (hf f hm))

/-- Settles O17: the general rule field by field, and the request buffer. -/
theorem registerWriteReachesFields : Obligations.RegisterWriteReachesFields := by
  refine ⟨fun s req off r idx v hp hb ha hm hv hg hf hw hr => ?_, fun s req off v hp hb ha hlo hhi hr hbusy => ?_⟩
  · have hexec := (exec_registerWrite_reg v (State.checkWrite_reg hp hb ha hm hg hv hf hw)).trans
      (by rw [State.regEffect_general hr])
    obtain ⟨w, hfree, hsealed, hfields, hbits⟩ := exists_applyWrite_general (s := s) req idx v hr
    exact ⟨w, fun ht => by rw [hexec, hfree ht], fun ht => by rw [hexec, hsealed ht], hfields, fun i _ => hbits i⟩
  · exact exec_registerWrite_mailbox v (State.checkWrite_mailbox hp hb ha hlo hhi hr) hbusy

end Sys2Proof.Machine
end

section
/-! SUPPORT. The steps of boot (R2, R392) and what each leaves. -/

namespace Sys2Proof.Machine

variable {s : State}

/-! ### Folds -/

section
variable {α γ : Type} {f : State → α → State} {g : State → γ}

/-- What every step of a fold leaves alone, the fold leaves alone. -/
theorem foldl_unchanged {l : List α} (h : ∀ x ∈ l, ∀ s, g (f s x) = g s) (s : State) : g (l.foldl f s) = g s := by
  induction l generalizing s with
  | nil => rfl
  | cons x l ih =>
    rw [List.forall_mem_cons] at h
    rw [List.foldl_cons, ih h.2, h.1]

/-- In a fold over a numbered list, what step `i` makes `c` and the other steps leave alone is `c` at the end. -/
theorem foldl_zipIdx_at {f : State → α × Nat → State} {l : List α} {i : Nat} {w : α} {c : γ} (hi : l[i]? = some w)
    (hset : ∀ s, g (f s (w, i)) = c) (hne : ∀ s x j, j < l.length → j ≠ i → g (f s (x, j)) = g s) (s : State) :
    g (l.zipIdx.foldl f s) = c := by
  induction l using List.reverseRecOn with
  | nil => simp at hi
  | append_singleton l a ih =>
    rw [List.zipIdx_append, List.foldl_append]
    simp only [List.zipIdx_singleton, List.foldl_cons, List.foldl_nil, Nat.zero_add]
    by_cases h : i = l.length
    · subst h
      obtain rfl : a = w := by simpa using hi
      exact hset _
    · have hi' : l[i]? = some w := by
        have : i < (l ++ [a]).length := (List.getElem?_eq_some_iff.1 hi).1
        rwa [List.getElem?_append_left (by simp at this; omega)] at hi
      rw [hne _ _ _ (by simp) (Ne.symm h)]
      exact ih hi' fun s x j hj => hne s x j (by simp; omega)

end

/-! ### Addresses -/

@[simp] theorem regAddr_PV_SITE (i : Nat) : regAddr .PV_SITE [i] = 0x1000000 + 0x4000 * i := rfl
@[simp] theorem regAddr_PM_VTAB (i : Nat) : regAddr .PM_VTAB [i] = 0xE00100 + 0x8 * i := rfl
@[simp] theorem regAddr_PM_WEIGHT (i : Nat) : regAddr .PM_WEIGHT [i] = 0xE00200 + 0x8 * i := rfl
@[simp] theorem regAddr_GEN_ID : regAddr .GEN_ID [] = 0 := rfl
@[simp] theorem regAddr_GEN_STATUS : regAddr .GEN_STATUS [] = 0x10 := rfl
@[simp] theorem regAddr_PV_CAPS : regAddr .PV_CAPS [] = 0x400000 := rfl
@[simp] theorem regAddr_GH_STATUS : regAddr .GH_STATUS [] = 0x2000008 := rfl
@[simp] theorem regAddr_HM_STATUS : regAddr .HM_STATUS [] = 0x2010008 := rfl

theorem State.rd_put_ne (f : Fld) {idx jdx : List Nat} {q : Reg} (v : Nat) (h : regAddr f.reg idx ≠ regAddr q jdx) :
    (s.put f idx v).rd q jdx = s.rd q jdx :=
  State.rd_wr_ne _ h

theorem State.get_congr {t : State} (f : Fld) {idx : List Nat} (h : s.rd f.reg idx = t.rd f.reg idx) : s.get f idx = t.get f idx := by
  rw [State.get, h, State.get]

/-! ### Measurements (R391) -/

section
variable (slot kind index svn : Nat) (d : BitVec 512)

theorem State.extend_slot : spGet 0 (s.extend slot kind index svn d).gate.slots slot =
    Config.sha3 (leBytes (spGet 0 s.gate.slots slot).toNat 64 ++ leBytes d.toNat 64) := by
  unfold State.extend
  dsimp only
  split <;> exact spGet_spPut_self _ _ _ _

@[simp] theorem State.extend_running : (s.extend slot kind index svn d).gate.running = s.gate.running := by
  unfold State.extend
  dsimp only
  split <;> rfl

@[simp] theorem State.extend_now : (s.extend slot kind index svn d).now = s.now := by
  unfold State.extend
  dsimp only
  split <;> rfl

theorem State.extend_rd {q : Reg} {jdx : List Nat} (h : regAddr .GH_STATUS [] ≠ regAddr q jdx) :
    (s.extend slot kind index svn d).rd q jdx = s.rd q jdx := by
  unfold State.extend
  dsimp only
  split
  · exact State.rd_wr_ne _ h
  · rfl

/-- A full log is shown in LOG_FULL, and the other fields of GH_STATUS stand. -/
theorem State.extend_get {f : Fld} (hr : f.reg = .GH_STATUS) (hf : f.Apart F.GH_STATUS_LOG_FULL) :
    (s.extend slot kind index svn d).get f = s.get f := by
  unfold State.extend
  dsimp only
  split
  · exact State.get_put_reg F.GH_STATUS_LOG_FULL f (by decide) hr.symm hf.symm [] 1
  · rfl

end

/-! ### The fuses' data (R393) -/

/-- The site map written to PV_SITE. -/
def State.putSites (s : State) (l : List (Nat × Nat)) : State :=
  l.zipIdx.foldl (fun s x =>
    ((s.put F.PV_SITE_DIE [x.2] (x.2 / (s.pavCount / 4))).put F.PV_SITE_ROW [x.2] x.1.1).put F.PV_SITE_COL [x.2] x.1.2) s

/-- The voltage table written to PM_VTAB. -/
def State.putVtab (s : State) (l : List Word64) : State := l.zipIdx.foldl (fun s x => s.wr .PM_VTAB [x.2] x.1) s

/-- The weights written to PM_WEIGHT. -/
def State.putWeights (s : State) (l : List Word64) : State :=
  l.zipIdx.foldl (fun s x => (s.put F.PM_WEIGHT_FJ [x.2] (bits x.1 0 32)).put F.PM_WEIGHT_DOMAIN [x.2] (bits x.1 32 2)) s

theorem State.loadFuses_eq (s : State) :
    s.loadFuses = ((((s.gradeWords.put F.GH_STATUS_DEBUG_SEALED [] s.fuses.debugSeal.toNat).putSites s.fuses.site).putVtab
      s.fuses.vtab).putWeights s.fuses.weights).extend 1 1 0 0
        (Config.sha3 (Config.fuseSummary s.fuses.serial s.fuses.svn s.fuses.revoked)) := rfl

section
variable {q : Reg} {jdx : List Nat} {l : List (Nat × Nat)} {ws : List Word64}

theorem State.putSites_rd (h : ∀ i < l.length, regAddr .PV_SITE [i] ≠ regAddr q jdx) : (s.putSites l).rd q jdx = s.rd q jdx := by
  refine foldl_unchanged (g := fun s => s.rd q jdx) (fun x hx s => ?_) s
  have hi := h x.2 (List.snd_lt_of_mem_zipIdx hx)
  exact (State.rd_put_ne F.PV_SITE_COL _ hi).trans ((State.rd_put_ne F.PV_SITE_ROW _ hi).trans (State.rd_put_ne F.PV_SITE_DIE _ hi))

theorem State.putVtab_rd (h : ∀ i < ws.length, regAddr .PM_VTAB [i] ≠ regAddr q jdx) : (s.putVtab ws).rd q jdx = s.rd q jdx :=
  foldl_unchanged (g := fun s => s.rd q jdx) (fun x hx _ => State.rd_wr_ne _ (h x.2 (List.snd_lt_of_mem_zipIdx hx))) s

theorem State.putWeights_rd (h : ∀ i < ws.length, regAddr .PM_WEIGHT [i] ≠ regAddr q jdx) :
    (s.putWeights ws).rd q jdx = s.rd q jdx := by
  refine foldl_unchanged (g := fun s => s.rd q jdx) (fun x hx s => ?_) s
  have hi := h x.2 (List.snd_lt_of_mem_zipIdx hx)
  exact (State.rd_put_ne F.PM_WEIGHT_DOMAIN _ hi).trans (State.rd_put_ne F.PM_WEIGHT_FJ _ hi)

@[simp] theorem State.putSites_gate : (s.putSites l).gate = s.gate :=
  foldl_unchanged (g := State.gate) (fun _ _ _ => by rfl) s

@[simp] theorem State.putVtab_gate : (s.putVtab ws).gate = s.gate :=
  foldl_unchanged (g := State.gate) (fun _ _ _ => by rfl) s

@[simp] theorem State.putWeights_gate : (s.putWeights ws).gate = s.gate :=
  foldl_unchanged (g := State.gate) (fun _ _ _ => by rfl) s


theorem State.putVtab_row {i : Nat} {w : Word64} (h : ws[i]? = some w) : (s.putVtab ws).rd .PM_VTAB [i] = w :=
  foldl_zipIdx_at (g := fun s => s.rd .PM_VTAB [i]) h (fun _ => State.rd_wr_self _ _ _)
    (fun _ _ _ _ hne => State.rd_wr_ne _ (by simp; omega)) s

/-- The word of another place of PM_WEIGHT stands. -/
theorem State.get_putWeight_ne (f : Fld) (hf : f.reg = .PM_WEIGHT) {i j x y : Nat} (h : j ≠ i) :
    ((s.put F.PM_WEIGHT_FJ [j] x).put F.PM_WEIGHT_DOMAIN [j] y).get f [i] = s.get f [i] := by
  have hne : regAddr .PM_WEIGHT [j] ≠ regAddr f.reg [i] := by simp [hf]; omega
  rw [State.get_put_ne F.PM_WEIGHT_DOMAIN f _ hne, State.get_put_ne F.PM_WEIGHT_FJ f _ hne]

theorem State.putWeights_fj {i : Nat} {w : Word64} (h : ws[i]? = some w) : (s.putWeights ws).get F.PM_WEIGHT_FJ [i] = bits w 0 32 := by
  refine foldl_zipIdx_at (g := fun s => s.get F.PM_WEIGHT_FJ [i]) h (fun s => ?_) (fun s x j _ hne => ?_) s
  · rw [State.get_put_reg F.PM_WEIGHT_DOMAIN F.PM_WEIGHT_FJ (by decide) rfl (by decide), State.get_put_self _ (by decide)]
    exact Nat.mod_eq_of_lt (bits_lt w 0 32)
  · exact State.get_putWeight_ne _ rfl hne

theorem State.putWeights_domain {i : Nat} {w : Word64} (h : ws[i]? = some w) :
    (s.putWeights ws).get F.PM_WEIGHT_DOMAIN [i] = bits w 32 2 := by
  refine foldl_zipIdx_at (g := fun s => s.get F.PM_WEIGHT_DOMAIN [i]) h (fun s => ?_) (fun s x j _ hne => ?_) s
  · rw [State.get_put_self _ (by decide)]
    exact Nat.mod_eq_of_lt (bits_lt w 32 2)
  · exact State.get_putWeight_ne _ rfl hne

end

/-! ### The steps -/

/-- Boot goes on: with power, not at its end and not failed. -/
def State.BootGoes (s : State) : Prop :=
  s.powered = true ∧ s.get F.GEN_STATUS_BOOT_DONE = 0 ∧ s.get F.GH_STATUS_BOOT_FAIL = 0

theorem State.bootStep_stopped (h : ¬s.BootGoes) : s.bootStep = s := by
  have h1 : s.get F.GEN_STATUS_BOOT_DONE < 2 := bits_lt _ _ 1
  have h2 : s.get F.GH_STATUS_BOOT_FAIL < 2 := bits_lt _ _ 1
  have stop : (!s.powered || s.bootDone || decide (s.get F.GH_STATUS_BOOT_FAIL = 1)) = true := by
    by_contra hn
    simp only [Bool.or_eq_true, Bool.not_eq_true', decide_eq_true_eq, State.bootDone, not_or] at hn
    exact h ⟨by simpa using hn.1.1, by omega, by omega⟩
  rw [State.bootStep, if_pos stop]

section
variable (h : s.BootGoes)
include h

theorem State.BootGoes.not_stopped : (!s.powered || s.bootDone || decide (s.get F.GH_STATUS_BOOT_FAIL = 1)) = false := by
  obtain ⟨hp, hd, hf⟩ := h
  simp [State.bootDone, hp, hd, hf]

theorem State.bootStep_fuses (hs : s.get F.GH_STATUS_STAGE = 0) : s.bootStep = s.loadFuses.put F.GH_STATUS_STAGE [] 1 := by
  simp [State.bootStep, h.not_stopped, hs]

theorem State.bootStep_first (hs : s.get F.GH_STATUS_STAGE = 1) : s.bootStep = s.bootImage 0 0 2 := by
  simp [State.bootStep, h.not_stopped, hs]

theorem State.bootStep_second (hs : s.get F.GH_STATUS_STAGE = 2) : s.bootStep = s.bootImage 1 3 3 := by
  simp [State.bootStep, h.not_stopped, hs]

theorem State.bootStep_third (hs : s.get F.GH_STATUS_STAGE = 3) : s.bootStep =
    if (s.bootImage 2 2 4).get F.GH_STATUS_STAGE = 4 then
      ({ s.bootImage 2 2 4 with hm := ⟨(s.bootImage 2 2 4).now, false⟩ } : State).put F.HM_STATUS_STATE [] Hs.running
    else s.bootImage 2 2 4 := by
  simp [State.bootStep, h.not_stopped, hs]

theorem State.bootStep_dock (hs : s.get F.GH_STATUS_STAGE = 4) :
    s.bootStep = (s.put F.DK_STATUS_POWER [] 0).put F.GH_STATUS_STAGE [] 5 := by
  simp [State.bootStep, h.not_stopped, hs]

theorem State.bootStep_last (hs : s.get F.GH_STATUS_STAGE = 5) : s.bootStep =
    { (s.put F.GH_STATUS_STAGE [] 6).put F.GEN_STATUS_BOOT_DONE [] 1 with sup := { s.sup with whPerst := true } } := by
  simp [State.bootStep, h.not_stopped, hs]

end

/-! ### An image (R391, R392) -/

theorem State.bootImage_none {kind slot stage : Nat} (h : s.goodCopy kind = none) :
    s.bootImage kind slot stage = (s.put F.GH_STATUS_BOOT_FAIL [] 1).put F.GH_STATUS_FAIL_KIND [] kind := by
  simp [State.bootImage, h]

theorem State.bootImage_some {kind slot stage c : Nat} (h : s.goodCopy kind = some c) :
    s.bootImage kind slot stage =
      (let m := (s.runImage kind c).extend slot 0 kind (natAt (s.flashCopy kind c) 8 2) (imageDigest (s.flashCopy kind c))
       if c = 1 then m.put F.GH_STATUS_COPY_B [] 1 else m).put F.GH_STATUS_STAGE [] stage := by
  simp [State.bootImage, h]

/-- What an image that is good leaves: the stage, the copy, its measurement, its SVN. -/
theorem State.bootImage_good {kind slot stage c : Nat} (hstage : stage < 8) (h : s.goodCopy kind = some c) :
    let t := s.bootImage kind slot stage
    t.get F.GH_STATUS_STAGE = stage ∧ (c = 1 → t.get F.GH_STATUS_COPY_B = 1) ∧
      spGet 0 t.gate.slots slot = Config.sha3 (leBytes (spGet 0 s.gate.slots slot).toNat 64 ++
        leBytes (imageDigest (s.flashCopy kind c)).toNat 64) ∧
      t.gate.running = s.gate.running.set kind (natAt (s.flashCopy kind c) 8 2) ∧ t.now = s.now := by
  intro t
  have hslot := State.extend_slot (s := s.runImage kind c) slot 0 kind (natAt (s.flashCopy kind c) 8 2) (imageDigest (s.flashCopy kind c))
  have hget : t.get F.GH_STATUS_STAGE = stage := by
    simp only [t, State.bootImage_some h]
    rw [State.get_put_self _ (by decide)]
    exact Nat.mod_eq_of_lt hstage
  refine ⟨hget, fun hc => ?_, ?_⟩
  · simp only [t, State.bootImage_some h, if_pos hc]
    rw [State.get_put_reg F.GH_STATUS_STAGE F.GH_STATUS_COPY_B (by decide) rfl (by decide), State.get_put_self _ (by decide)]
    rfl
  · simp only [t, State.bootImage_some h]
    split <;> exact ⟨hslot, State.extend_running .., State.extend_now ..⟩

/-- The third image starts the Harbourmaster where a copy is good, and changes nothing more where none is. -/
theorem State.bootStep_third_none (h : s.BootGoes) (hs : s.get F.GH_STATUS_STAGE = 3) (hc : s.goodCopy 2 = none) :
    s.bootStep = s.bootImage 2 2 4 := by
  have hstage : (s.bootImage 2 2 4).get F.GH_STATUS_STAGE = 3 := by
    rw [State.bootImage_none hc, State.get_put_reg F.GH_STATUS_FAIL_KIND F.GH_STATUS_STAGE (by decide) rfl (by decide),
      State.get_put_reg F.GH_STATUS_BOOT_FAIL F.GH_STATUS_STAGE (by decide) rfl (by decide), hs]
  rw [State.bootStep_third h hs, if_neg (by omega)]

theorem State.bootStep_third_some {c : Nat} (h : s.BootGoes) (hs : s.get F.GH_STATUS_STAGE = 3) (hc : s.goodCopy 2 = some c) :
    s.bootStep = ({ s.bootImage 2 2 4 with hm := ⟨s.now, false⟩ } : State).put F.HM_STATUS_STATE [] Hs.running := by
  obtain ⟨hstage, -, -, -, hnow⟩ := State.bootImage_good (s := s) (kind := 2) (slot := 2) (stage := 4) (by decide) hc
  rw [State.bootStep_third h hs, if_pos hstage, hnow]

theorem State.goodCopy_cases (s : State) (kind : Nat) :
    (s.imageGood kind (s.flashCopy kind 0) = true → s.goodCopy kind = some 0) ∧
    (s.imageGood kind (s.flashCopy kind 0) = false → s.imageGood kind (s.flashCopy kind 1) = true → s.goodCopy kind = some 1) ∧
    (s.imageGood kind (s.flashCopy kind 0) = false → s.imageGood kind (s.flashCopy kind 1) = false → s.goodCopy kind = none) := by
  refine ⟨fun ha => ?_, fun ha hb => ?_, fun ha hb => ?_⟩
  · simp [State.goodCopy, ha]
  · simp [State.goodCopy, ha, hb]
  · simp [State.goodCopy, ha, hb]

/-! ### What the fuses' step leaves -/

/-- A register that none of the fuses' three tables is. -/
def State.offTables (f : Fuses) (q : Reg) (jdx : List Nat) : Prop :=
  (∀ i < f.site.length, regAddr .PV_SITE [i] ≠ regAddr q jdx) ∧ (∀ i < f.vtab.length, regAddr .PM_VTAB [i] ≠ regAddr q jdx) ∧
    ∀ i < f.weights.length, regAddr .PM_WEIGHT [i] ≠ regAddr q jdx

theorem State.putTables_rd {f : Fuses} {q : Reg} {jdx : List Nat} (h : State.offTables f q jdx) :
    (((s.putSites f.site).putVtab f.vtab).putWeights f.weights).rd q jdx = s.rd q jdx := by
  obtain ⟨hsite, hvtab, hweights⟩ := h
  rw [State.putWeights_rd hweights, State.putVtab_rd hvtab, State.putSites_rd hsite]

theorem State.loadFuses_rd {q : Reg} {jdx : List Nat} (hq : regAddr .GH_STATUS [] ≠ regAddr q jdx) (h : State.offTables s.fuses q jdx) :
    s.loadFuses.rd q jdx = s.gradeWords.rd q jdx := by
  rw [State.loadFuses_eq, State.extend_rd _ _ _ _ _ hq, State.putTables_rd h, State.rd_put_ne F.GH_STATUS_DEBUG_SEALED _ hq]

theorem State.loadFuses_sealed (_hs : s.fuses.site.length ≤ 800) (hv : s.fuses.vtab.length ≤ 6) (hw : s.fuses.weights.length ≤ 32) :
    s.loadFuses.get F.GH_STATUS_DEBUG_SEALED = s.fuses.debugSeal.toNat := by
  have hoff : State.offTables s.fuses .GH_STATUS [] := by
    refine ⟨fun i hi => ?_, fun i hi => ?_, fun i hi => ?_⟩ <;> simp <;> omega
  rw [State.loadFuses_eq, State.extend_get _ _ _ _ _ rfl (.inl (by decide)),
    State.get_congr F.GH_STATUS_DEBUG_SEALED (State.putTables_rd hoff), State.get_put_self _ (by decide)]
  cases s.fuses.debugSeal <;> rfl

theorem State.loadFuses_vtab (hw : s.fuses.weights.length ≤ 32) (hv : s.fuses.vtab.length ≤ 6) {i : Nat} {w : Word64}
    (h : s.fuses.vtab[i]? = some w) : s.loadFuses.rd .PM_VTAB [i] = w := by
  have hi : i < s.fuses.vtab.length := (List.getElem?_eq_some_iff.1 h).1
  rw [State.loadFuses_eq, State.extend_rd _ _ _ _ _ (by simp; omega), State.putWeights_rd (fun j _ => by simp; omega), State.putVtab_row h]

theorem State.loadFuses_weight (hw : s.fuses.weights.length ≤ 32) {i : Nat} {w : Word64} (h : s.fuses.weights[i]? = some w) :
    s.loadFuses.get F.PM_WEIGHT_FJ [i] = bits w 0 32 ∧ s.loadFuses.get F.PM_WEIGHT_DOMAIN [i] = bits w 32 2 := by
  have hi : i < s.fuses.weights.length := (List.getElem?_eq_some_iff.1 h).1
  have hne : regAddr .GH_STATUS [] ≠ regAddr .PM_WEIGHT [i] := by simp; omega
  rw [State.loadFuses_eq]
  exact ⟨(State.get_congr F.PM_WEIGHT_FJ (State.extend_rd _ _ _ _ _ hne)).trans (State.putWeights_fj h),
    (State.get_congr F.PM_WEIGHT_DOMAIN (State.extend_rd _ _ _ _ _ hne)).trans (State.putWeights_domain h)⟩

theorem State.loadFuses_genId : s.loadFuses.rd .GEN_ID [] = genIdWord s.fuses.grade := by
  rw [State.loadFuses_rd (by simp) ⟨fun i _ => by simp, fun i _ => by simp, fun i _ => by simp⟩, State.gradeWords,
    State.rd_put_ne F.PV_CAPS_PAV_PER_DIE _ (by simp [F.PV_CAPS_PAV_PER_DIE]), State.rd_put_ne F.PV_CAPS_PAV_COUNT _ (by simp [F.PV_CAPS_PAV_COUNT]),
    State.rd_wr_self]

theorem State.pavCount_le (s : State) : s.pavCount ≤ 800 := by
  unfold State.pavCount
  split <;> decide

theorem State.loadFuses_caps : s.loadFuses.get F.PV_CAPS_PAV_COUNT = s.pavCount ∧ s.loadFuses.get F.PV_CAPS_PAV_PER_DIE = s.pavCount / 4 := by
  have hrd : s.loadFuses.rd .PV_CAPS [] = s.gradeWords.rd .PV_CAPS [] := by
    refine State.loadFuses_rd (by simp) ⟨fun i _ => ?_, fun i _ => ?_, fun i _ => ?_⟩ <;> simp <;> omega
  have hcount := s.pavCount_le
  constructor
  · refine (State.get_congr F.PV_CAPS_PAV_COUNT hrd).trans
      ((State.get_put_reg F.PV_CAPS_PAV_PER_DIE F.PV_CAPS_PAV_COUNT (by decide) rfl (by decide) _ _).trans ?_)
    rw [State.get_put_self _ (by decide)]
    exact Nat.mod_eq_of_lt (by simp [F.PV_CAPS_PAV_COUNT]; omega)
  · refine (State.get_congr F.PV_CAPS_PAV_PER_DIE hrd).trans ((State.get_put_self F.PV_CAPS_PAV_PER_DIE (by decide) _ _).trans ?_)
    exact Nat.mod_eq_of_lt (by simp [F.PV_CAPS_PAV_PER_DIE]; omega)

theorem State.loadFuses_slot : spGet 0 s.loadFuses.gate.slots 1 =
    Config.sha3 (leBytes (spGet 0 s.gate.slots 1).toNat 64 ++
      leBytes (Config.sha3 (Config.fuseSummary s.fuses.serial s.fuses.svn s.fuses.revoked)).toNat 64) := by
  rw [State.loadFuses_eq, State.extend_slot, State.putWeights_gate, State.putVtab_gate, State.putSites_gate]
  rfl

/-! ### Reset and boot -/

/-- What a good image leaves at a boot step that goes to the next stage, in the words of the claim. -/
theorem State.bootStep_image {kind slot : Nat} (h : s.BootGoes) {stage : Nat} (hs : s.get F.GH_STATUS_STAGE = stage)
    (hk : (stage, kind, slot) ∈ [(1, 0, 0), (2, 1, 3), (3, 2, 2)]) :
    (s.goodCopy kind = none → s.bootStep = (s.put F.GH_STATUS_BOOT_FAIL [] 1).put F.GH_STATUS_FAIL_KIND [] kind) ∧
    ∀ c, s.goodCopy kind = some c → s.bootStep.get F.GH_STATUS_STAGE = stage + 1 ∧ (c = 1 → s.bootStep.get F.GH_STATUS_COPY_B = 1) ∧
      spGet 0 s.bootStep.gate.slots slot = Config.sha3 (leBytes (spGet 0 s.gate.slots slot).toNat 64 ++
        leBytes (imageDigest (s.flashCopy kind c)).toNat 64) ∧
      s.bootStep.gate.running = s.gate.running.set kind (natAt (s.flashCopy kind c) 8 2) := by
  simp only [List.mem_cons, Prod.mk.injEq, List.not_mem_nil, or_false] at hk
  have hstage : stage + 1 < 8 := by omega
  have hplain : s.bootStep = s.bootImage kind slot (stage + 1) ∨ (stage = 3 ∧ kind = 2 ∧ slot = 2) := by
    obtain ⟨rfl, rfl, rfl⟩ | ⟨rfl, rfl, rfl⟩ | ⟨rfl, rfl, rfl⟩ := hk
    · exact .inl (State.bootStep_first h hs)
    · exact .inl (State.bootStep_second h hs)
    · exact .inr ⟨rfl, rfl, rfl⟩
  obtain heq | ⟨rfl, rfl, rfl⟩ := hplain
  · rw [heq]
    refine ⟨fun hc => State.bootImage_none hc, fun c hc => ?_⟩
    obtain ⟨h1, h2, h3, h4, -⟩ := State.bootImage_good (slot := slot) hstage hc
    exact ⟨h1, h2, h3, h4⟩
  · refine ⟨fun hc => (State.bootStep_third_none h hs hc).trans (State.bootImage_none hc), fun c hc => ?_⟩
    obtain ⟨h1, h2, h3, h4, -⟩ := State.bootImage_good (slot := 2) hstage hc
    have hne : regAddr F.HM_STATUS_STATE.reg [] ≠ regAddr .GH_STATUS [] := by decide
    rw [State.bootStep_third_some h hs hc]
    exact ⟨(State.get_put_ne F.HM_STATUS_STATE F.GH_STATUS_STAGE _ hne).trans h1,
      fun h => (State.get_put_ne F.HM_STATUS_STATE F.GH_STATUS_COPY_B _ hne).trans (h2 h), h3, h4⟩

/-- Settles O53: reset's tables are empty by definition, and each stage of boot has its own equation. -/
theorem resetAndBoot : Obligations.ResetAndBoot := by
  refine ⟨⟨⟨trivial, trivial, trivial, trivial, trivial⟩, rfl, rfl, rfl, rfl, rfl, rfl, rfl, rfl, rfl, rfl, rfl, rfl, rfl, rfl, rfl,
    fun _ _ => ⟨rfl, rfl⟩⟩, fun s => ?_, State.goodCopy_cases⟩
  intro stage goes t image
  refine ⟨State.bootStep_stopped, fun h hs => ?_, fun h hs => State.bootStep_image (stage := stage) h rfl (by simp [hs]),
    fun h hs => State.bootStep_image (stage := stage) h rfl (by simp [hs]),
    fun h hs => State.bootStep_image (stage := stage) h rfl (by simp [hs]), fun h hs hc => ?_, fun h hs => State.bootStep_dock h hs,
    fun h hs => ?_⟩
  · rw [show t = s.loadFuses.put F.GH_STATUS_STAGE [] 1 from State.bootStep_fuses h hs]
    have hne : ∀ (f : Fld) {jdx : List Nat}, regAddr .GH_STATUS [] ≠ regAddr f.reg jdx →
        (s.loadFuses.put F.GH_STATUS_STAGE [] 1).get f jdx = s.loadFuses.get f jdx :=
      fun f _ hq => State.get_put_ne F.GH_STATUS_STAGE f _ hq
    refine ⟨State.get_put_self F.GH_STATUS_STAGE (by decide) _ _, fun hsite hvtab hweights => ⟨?_, fun i w hi => ?_, fun i w hi => ?_⟩,
      (State.rd_put_ne F.GH_STATUS_STAGE _ (by decide)).trans State.loadFuses_genId,
      (hne F.PV_CAPS_PAV_COUNT (by decide)).trans State.loadFuses_caps.1,
      (hne F.PV_CAPS_PAV_PER_DIE (by decide)).trans State.loadFuses_caps.2, State.loadFuses_slot⟩
    · exact (State.get_put_reg F.GH_STATUS_STAGE F.GH_STATUS_DEBUG_SEALED (by decide) rfl (by decide) _ _).trans
        (State.loadFuses_sealed hsite hvtab hweights)
    · have hlen : i < s.fuses.vtab.length := (List.getElem?_eq_some_iff.1 hi).1
      exact (State.rd_put_ne F.GH_STATUS_STAGE _ (by simp [F.GH_STATUS_STAGE]; omega)).trans (State.loadFuses_vtab hweights hvtab hi)
    · have hlen : i < s.fuses.weights.length := (List.getElem?_eq_some_iff.1 hi).1
      obtain ⟨hfj, hdomain⟩ := State.loadFuses_weight hweights hi
      have hq : regAddr .GH_STATUS [] ≠ regAddr .PM_WEIGHT [i] := by simp; omega
      exact ⟨(hne F.PM_WEIGHT_FJ hq).trans hfj, (hne F.PM_WEIGHT_DOMAIN hq).trans hdomain⟩
  · obtain ⟨c, hc⟩ := Option.ne_none_iff_exists'.1 hc
    rw [show t = _ from State.bootStep_third_some h hs hc]
    exact ⟨State.get_put_self F.HM_STATUS_STATE (by decide) _ _, rfl⟩
  · have hregs : t.regs = ((s.put F.GH_STATUS_STAGE [] 6).put F.GEN_STATUS_BOOT_DONE [] 1).regs := by
      rw [show t = _ from State.bootStep_last h hs]
    have hget : ∀ f : Fld, t.get f = ((s.put F.GH_STATUS_STAGE [] 6).put F.GEN_STATUS_BOOT_DONE [] 1).get f := fun f =>
      State.get_congr f (by rw [State.rd, hregs, State.rd])
    refine ⟨?_, ?_, congrArg (·.sup.whPerst) (State.bootStep_last h hs)⟩
    · rw [hget, State.get_put_ne F.GEN_STATUS_BOOT_DONE F.GH_STATUS_STAGE _ (by decide), State.get_put_self _ (by decide)]
      rfl
    · rw [hget, State.get_put_self _ (by decide)]
      rfl

end Sys2Proof.Machine
end

section
/-! SUPPORT. The swap of staged sets: what the ending of a commit leaves alone, and a commit beyond the end of its set. -/

namespace Sys2Proof.Machine

/-- The end of a commit moves no committed copy. -/
@[simp] theorem State.endCommit_cregs (s : State) (c : Commit) (status at_ : Nat) : (s.endCommit c status at_).cregs = s.cregs := by
  unfold State.endCommit
  cases c.owner <;> rfl

/-- STAGED_SET_SWAP of a pending commit without AT_TIME, of a set whose swap has no row of its own. -/
theorem exec_stagedSetSwap_untimed {s : State} {set inst : Nat} {c : Commit} (hc : s.commit? set inst = some c)
    (ho : ownSwap set = false) (ht : c.atTime = none) :
    exec (.stagedSetSwap set inst) s = .next ((s.swap set inst c.snapshot).endCommit c St.ok s.ctNs) := by
  have hcome : s.timeCome c = true := by simp [State.timeCome, ht]
  simp [exec, execStagedSetSwap, hc, ho, hcome]

/-- Refutes O25. The swaps of the sets 0x2C0 and 0x340, which have one member each, install it as member 0 whatever member the commit names,
and the statement speaks of every pending commit, one of a member that the set does not have among them (CONFIG and WK_COMMIT take no
such commit: R120, R121). With BW_BUF_LEN committed as 1 and a pending commit of member 1 of set 0x2C0 with an empty snapshot, the swap
clears BW_BUF_LEN, which member 1 does not hold. -/
theorem not_stagedSetsSwap : ¬Obligations.StagedSetsSwap := by
  rintro ⟨-, hswap, -⟩
  let c : Commit := ⟨0x2C0, 1, [], none, false, none, none, false⟩
  let s : State := { State.reset with cregs := [(regAddr .BW_BUF_LEN [], 1)], commits := [c] }
  have hwf : s.Wf := ⟨trivial, trivial, trivial, trivial, trivial⟩
  have hc : s.commit? 0x2C0 1 = some c := by decide +kernel
  obtain ⟨-, -, hother, -⟩ := hswap s 0x2C0 1 c hwf hc
  obtain ⟨t, hexec, hcregs⟩ := hother (by decide) (.inr fun _ _ h => nomatch h)
  rw [exec_stagedSetSwap_untimed hc (by decide) rfl] at hexec
  have hsame : (s.swap 0x2C0 1 []).cregs = t.cregs := by
    simpa using congrArg State.cregs (Host.Outcome.next.inj hexec)
  have hcleared : (s.swap 0x2C0 1 []).cregs = [] := by decide +kernel
  have hstands : (s.install 0x2C0 1 []).cregs = [(regAddr .BW_BUF_LEN [], 1)] := by decide +kernel
  exact absurd (hcleared.symm.trans (hsame.trans (hcregs.trans hstands))) (by decide)

end Sys2Proof.Machine
end

section
/-! SUPPORT. One mgc cycle: time goes on once, and nothing else that a tick does moves the cycle count or network time. -/

namespace Sys2Proof.Machine

variable {s : State}

/-- The cycle count and network time. -/
def State.time (s : State) : Nat × Clock := (s.now, s.clock)

/-! ### Registers, Dock and memory -/

@[simp] theorem State.wr_time (r : Reg) (idx : List Nat) (v : Word64) : (s.wr r idx v).time = s.time := rfl
@[simp] theorem State.put_time (f : Fld) (idx : List Nat) (v : Nat) : (s.put f idx v).time = s.time := rfl
@[simp] theorem State.bump_time (f : Fld) (idx : List Nat) (n : Nat) : (s.bump f idx n).time = s.time := rfl
@[simp] theorem State.tally_time (e n : Nat) : (s.tally e n).time = s.time := rfl
@[simp] theorem State.send_time (o : Sent) : (s.send o).time = s.time := rfl

@[simp] theorem State.useCheck_time (line : Nat) (write : Bool) : (s.useCheck line write).time = s.time := by
  unfold State.useCheck
  dsimp only
  split <;> rfl

@[simp] theorem State.dockErr_time (line source : Nat) (uncorr : Bool) : (s.dockErr line source uncorr).time = s.time := by
  unfold State.dockErr
  split
  · exact State.wr_time ..
  · rfl

@[simp] theorem State.wakeDock_time : s.wakeDock.time = s.time := by
  unfold State.wakeDock
  dsimp only
  split <;> rfl

@[simp] theorem State.touchLine_time (source line : Nat) : (s.touchLine source line).time = s.time := by
  unfold State.touchLine
  simp only [apply_ite State.time, State.dockErr_time, State.bump_time, State.tally_time, State.useCheck_time, State.wakeDock_time,
    ite_self]

@[simp] theorem State.dockRead_time (source a n : Nat) : (s.dockRead source a n).1.time = s.time := by
  have hlines := foldl_unchanged (g := State.time) (l := linesOf a n) (fun l _ s => s.touchLine_time source l) s
  unfold State.dockRead
  dsimp only
  split <;> exact hlines

@[simp] theorem State.whRead_time (a n : Nat) : (s.whRead a n).1.time = s.time := by
  unfold State.whRead
  repeat' split
  all_goals rfl

@[simp] theorem State.hostRead_time (a n : Nat) : (s.hostRead a n).1.time = s.time := by
  unfold State.hostRead
  repeat' split
  all_goals rfl

@[simp] theorem State.ptrRead_time (source : Nat) (p : Word64) (len : Nat) : (s.ptrRead source p len).1.time = s.time := by
  unfold State.ptrRead State.memRead
  split
  · rfl
  split
  · exact State.dockRead_time ..
  · exact State.whRead_time ..
  · exact State.hostRead_time ..
  · rfl

/-! ### Boot (R392) -/

@[simp] theorem State.extend_time (slot kind index svn : Nat) (d : BitVec 512) : (s.extend slot kind index svn d).time = s.time := by
  unfold State.extend
  dsimp only
  split <;> rfl

@[simp] theorem State.putSites_time (l : List (Nat × Nat)) : (s.putSites l).time = s.time :=
  foldl_unchanged (g := State.time) (fun _ _ _ => by rfl) s

@[simp] theorem State.putVtab_time (l : List Word64) : (s.putVtab l).time = s.time :=
  foldl_unchanged (g := State.time) (fun _ _ _ => by rfl) s

@[simp] theorem State.putWeights_time (l : List Word64) : (s.putWeights l).time = s.time :=
  foldl_unchanged (g := State.time) (fun _ _ _ => by rfl) s

@[simp] theorem State.loadFuses_time : s.loadFuses.time = s.time := by
  simp only [State.loadFuses_eq, State.extend_time, State.putWeights_time, State.putVtab_time, State.putSites_time]
  rfl

@[simp] theorem State.bootImage_time (kind slot stage : Nat) : (s.bootImage kind slot stage).time = s.time := by
  cases h : s.goodCopy kind with
  | none => rw [State.bootImage_none h]; rfl
  | some c =>
    have hextend : ((s.runImage kind c).extend slot 0 kind (natAt (s.flashCopy kind c) 8 2)
        (imageDigest (s.flashCopy kind c))).time = s.time := State.extend_time ..
    rw [State.bootImage_some h]
    dsimp only
    split <;> exact hextend

@[simp] theorem State.bootStep_time : s.bootStep.time = s.time := by
  unfold State.bootStep
  split
  · rfl
  split
  · exact State.loadFuses_time
  · exact State.bootImage_time ..
  · exact State.bootImage_time ..
  · dsimp only
    split <;> exact State.bootImage_time ..
  · rfl
  · rfl

/-! ### The Gatehouse's service (R399 to R403) -/

@[simp] theorem State.sealAll_time : s.sealAll.time = s.time := State.extend_time ..

@[simp] theorem State.stageFw_time (body : List Byte) (flashOk : Bool) : (s.stageFw body flashOk).1.time = s.time := by
  have hread := s.ptrRead_time 7 (word64At body 0) (natAt body 8 8)
  unfold State.stageFw
  dsimp only
  split
  · rfl
  split
  · rfl
  generalize s.ptrRead 7 (word64At body 0) (natAt body 8 8) = read at hread ⊢
  repeat' split
  all_goals exact hread

@[simp] theorem State.serveMailbox_time (r : ServiceReq) : (s.serveMailbox r).1.time = s.time := by
  unfold State.serveMailbox
  dsimp only
  split
  · rfl
  split
  · rfl
  split
  · exact State.sealAll_time
  · split
    · rfl
    · exact State.extend_time ..
  · split <;> rfl
  · exact State.stageFw_time ..
  · repeat' split
    all_goals rfl
  · rfl
  · rfl

@[simp] theorem State.serveMessage_time (msg : List Byte) : (s.serveMessage msg).1.time = s.time := by
  unfold State.serveMessage
  dsimp only
  repeat' split
  all_goals rfl

@[simp] theorem State.beginService_time (r : ServiceReq) : (s.beginService r).time = s.time := by
  unfold State.beginService
  split
  · exact State.serveMailbox_time r
  · exact State.serveMessage_time r.bytes

@[simp] theorem State.nextService_time : s.nextService.time = s.time := by
  unfold State.nextService
  split
  · exact State.beginService_time _
  · rfl

@[simp] theorem State.finishService_time : s.finishService.time = s.time := by
  unfold State.finishService
  split
  · rfl
  · dsimp only
    rw [State.nextService_time]
    repeat' split
    all_goals rfl

/-! ### The ramp of a commit (R369) -/

@[simp] theorem State.rise_time (r : Nat) (forCommit : Bool) : (s.rise r forCommit).time = s.time := rfl

@[simp] theorem State.commitRamp_time : s.commitRamp.time = s.time := by
  unfold State.commitRamp
  split
  · rfl
  · simp only [apply_ite State.time, State.rise_time, ite_self]

/-! ### Packets and partials held (R334, R344) -/

@[simp] theorem State.mapParcel_time (r q k : Nat) (f : Parcel → Parcel) : (s.mapParcel r q k f).time = s.time := rfl
@[simp] theorem State.mapSlot_time (i : Nat) (f : BwSlot → BwSlot) : (s.mapSlot i f).time = s.time := rfl
@[simp] theorem State.showSlot_time (i : Nat) : (s.showSlot i).time = s.time := rfl
@[simp] theorem State.showMoor_time (m : Nat) : (s.showMoor m).time = s.time := by simp only [State.showMoor, State.put_time]
@[simp] theorem State.showSpan_time (j : Nat) : (s.showSpan j).time = s.time := State.put_time ..

@[simp] theorem State.showSpanOf_time (m : Nat) : (s.showSpanOf m).time = s.time := by
  unfold State.showSpanOf
  split <;> rfl

@[simp] theorem State.mapPav_time (n : Nat) (f : Pav → Pav) : (s.mapPav n f).time = s.time := rfl
@[simp] theorem State.showPv_time : s.showPv.time = s.time := by simp only [State.showPv, State.put_time]

@[simp] theorem State.stopKern_time (n : Nat) : (s.stopKern n).time = s.time := by
  unfold State.stopKern
  split
  · simp [State.setPvState, State.clearKern]
  · rfl

@[simp] theorem State.dropColl_time (c : Coll) : (s.dropColl c).time = s.time :=
  (State.showSpanOf_time _).trans ((State.showMoor_time _).trans
    (foldl_unchanged (g := State.time) (fun n _ _ => State.stopKern_time n) s))

@[simp] theorem State.stopColl_time (ring seq status detail : Nat) (member : Option Nat) :
    (s.stopColl ring seq status detail member).time = s.time := by
  unfold State.stopColl
  split
  · rfl
  · exact State.dropColl_time _

@[simp] theorem State.siteForm_time (c : Coll) (k : Nat) (h : PartialHdr) (bytes : List Byte) :
    (s.siteForm c k h bytes).time = s.time := by
  unfold State.siteForm
  split
  · rfl
  · split
    · exact State.stopColl_time ..
    · rfl

/-- A partial taken, in whatever way it is, moves no time. -/
theorem State.takePartial_time {t : State} {payload : List Byte} (h : s.takePartial payload = some t) : t.time = s.time := by
  have hstale : (s.bump F.BW_DROP_STALE).time = s.time := rfl
  unfold State.takePartial at h
  dsimp only at h
  split at h
  · exact Option.some.inj h ▸ hstale
  split at h
  · exact Option.some.inj h ▸ hstale
  split at h
  · split at h
    · nomatch h
    · exact Option.some.inj h ▸ rfl
  split at h
  · exact Option.some.inj h ▸ rfl
  split at h
  · exact Option.some.inj h ▸ State.mapParcel_time ..
  · exact Option.some.inj h ▸ (State.showSpan_time _).trans ((State.siteForm_time ..).trans (State.mapParcel_time ..))

theorem State.bwTake_time {t : State} {i : Nat} {isPartial : Bool} {payload : List Byte} (h : s.bwTake i isPartial payload = some t) :
    t.time = s.time := by
  unfold State.bwTake at h
  split at h
  · exact State.takePartial_time h
  · dsimp only at h
    split at h
    · nomatch h
    · obtain rfl := Option.some.inj h
      rfl

@[simp] theorem State.drainRx_time (i : Nat) : (s.drainRx i).time = s.time := by
  unfold State.drainRx
  dsimp only
  split
  · rfl
  · refine (foldl_unchanged (g := State.time) (fun h _ s => ?_) _).trans (State.mapSlot_time i _)
    split
    · next htake => exact State.bwTake_time htake
    · rfl

@[simp] theorem State.drainAll_time : s.drainAll.time = s.time :=
  foldl_unchanged (g := State.time) (fun i _ s => s.drainRx_time i) s

/-! ### The lines (R290 to R298) -/

@[simp] theorem State.mapPort_time (p : Nat) (f : PortState → PortState) : (s.mapPort p f).time = s.time := rfl

@[simp] theorem State.mapLink_time (p : Nat) (f : Link → Link) : (s.mapLink p f).time = s.time := by
  unfold State.mapLink State.setLink
  repeat' split
  all_goals rfl

@[simp] theorem State.sendMessage_time (p : Nat) : (s.sendMessage p).time = s.time := by
  unfold State.sendMessage
  simp

@[simp] theorem State.runLine_time (p : Nat) : (s.runLine p).time = s.time := by
  unfold State.runLine
  dsimp only
  split
  · rfl
  · exact foldl_unchanged (g := State.time) (fun _ _ s => s.sendMessage_time p) s

@[simp] theorem State.runLines_time : s.runLines.time = s.time :=
  foldl_unchanged (g := State.time) (fun x _ s => s.runLine_time x.1) s

/-! ### The tick -/

/-- In OFF no clock runs. -/
theorem State.tick_off (h : s.powered = false) : s.tick = s := by simp [State.tick, h]

/-- A tick with power moves the time as `State.advanceTime` does, and no further. -/
theorem State.tick_time (h : s.powered = true) : s.tick.time = s.advanceTime.time := by
  simp [State.tick, h]

theorem step_of_empty (h : s.pending = []) : step s = .next s.tick := by simp [step, h]

/-- Settles O52: what waits for time leaves time alone, so a tick moves it once, and it puts no command in the queue. -/
theorem stepRunsFront : Obligations.StepRunsFront := by
  refine ⟨fun s c rest => rfl, fun s hempty hoff => ?_, fun s hempty hon => ?_⟩
  · rw [step_of_empty hempty, State.tick_off hoff]
  · have htime : s.tick.time = s.advanceTime.time := State.tick_time hon
    have hpending : s.tick.pending = s.pending := (keeps_tick (Keeps.refl s)).pending
    exact ⟨s.tick, step_of_empty hempty, congrArg Prod.fst htime, congrArg Prod.snd htime, hpending.trans hempty⟩

end Sys2Proof.Machine
end

section
/-! SUPPORT. The slice of a granule and the digest of a shard as words of 64 bits (R52, R182). -/

namespace Sys2Proof.Machine

/-- R52: the multiplication modulo 2^64 is that of words, and the top six bits are a shift. -/
theorem sliceOfGranule_eq_word (m g : Nat) : sliceOfGranule m g =
    (((BitVec.ofNat 64 g + (BitVec.ofNat 64 m <<< 40)) * 0x2545F4914F6CDD1D#64) >>> 58).toNat := by
  have hplace : BitVec.ofNat 64 m <<< 40 = BitVec.ofNat 64 (m <<< 40) := by
    rw [BitVec.shiftLeft_eq_mul_twoPow, Nat.shiftLeft_eq, BitVec.ofNat_mul]; rfl
  rw [hplace, ← BitVec.ofNat_add, ← BitVec.ofNat_mul, BitVec.toNat_ushiftRight, BitVec.toNat_ofNat]
  rfl

theorem sliceOfGranule_lt (m g : Nat) : sliceOfGranule m g < 64 := by
  rw [sliceOfGranule_eq_word, BitVec.toNat_ushiftRight, Nat.shiftRight_eq_div_pow]
  omega

/-- The last word of a shard's digest (R182): the epoch in the top sixteen bits over PARAMS. -/
theorem epochWord_eq (epoch params : Nat) :
    BitVec.ofNat 64 (epoch * 2 ^ 48 ||| params) = (BitVec.ofNat 64 epoch <<< 48) ||| BitVec.ofNat 64 params := by
  rw [BitVec.ofNat_or, BitVec.shiftLeft_eq_mul_twoPow, BitVec.ofNat_mul]; rfl

/-- The digest of the first `b` blocks of a block digest table, before the last word. -/
def blocksDigest (bdt : List Word64) (b : Nat) : Word64 := (bdt.take b).foldl (fun d w => mix (d ^^^ w)) 0

theorem blocksDigest_succ {bdt : List Word64} {b : Nat} (h : b < bdt.length) :
    blocksDigest bdt (b + 1) = mix (blocksDigest bdt b ^^^ (bdt[b]?).getD 0) := by
  rw [blocksDigest, List.take_succ_eq_append_getElem h, List.foldl_concat, List.getElem?_eq_getElem h, Option.getD_some, blocksDigest]

theorem shardDigest_eq (bdt : List Word64) (epoch params : Nat) : shardDigest bdt epoch params =
    mix (blocksDigest bdt bdt.length ^^^ ((BitVec.ofNat 64 epoch <<< 48) ||| BitVec.ofNat 64 params)) := by
  rw [shardDigest, epochWord_eq, blocksDigest, List.take_length]

/-- Settles O32: the slice is the model's arithmetic read as words, and the digest folds one block after the other. -/
theorem sliceAndShardDigest : Obligations.SliceAndShardDigest := by
  refine ⟨fun m g _ _ => ⟨sliceOfGranule_eq_word m g, sliceOfGranule_lt m g⟩, fun epoch params _ _ => ?_,
    fun bdt epoch params _ _ => ⟨blocksDigest bdt, rfl, fun b => blocksDigest_succ, shardDigest_eq bdt epoch params⟩⟩
  rw [shardDigest_eq]
  exact congrArg mix BitVec.zero_xor

end Sys2Proof.Machine
end

section
/-! SUPPORT. The writes that clear counters: what a permitted one clears, and what it leaves alone. -/

namespace Sys2Proof.Machine

variable {s : State} {c : Instr} {req : Requester} {r : Reg} {idx : List Nat}

/-- A permitted write of a register through its own row takes effect and is counted. -/
theorem State.rowWrite_allowed (h : s.Writes req r idx) (eff : State → State) :
    Host.Outcome.next (s.rowWrite req r idx eff) = (eff s).written req r idx := by
  simp [State.rowWrite, State.written, h.powered, h.inRange, h.allowed]

/-! ### Fields made zero -/

theorem regDesc_fields_reg (r : Reg) : ∀ f ∈ (regDesc r).fields, f.reg = r := by
  cases r <;> decide

/-- Fields made zero leave every other register alone. -/
theorem State.zero_rd_ne {fs : List Fld} (hf : ∀ f ∈ fs, f.reg = r) {q : Reg} {jdx : List Nat} (hne : regAddr r idx ≠ regAddr q jdx) :
    (s.zero fs idx).rd q jdx = s.rd q jdx :=
  foldl_unchanged (g := fun t => t.rd q jdx) (fun f hm t => State.rd_put_ne f 0 (by rwa [hf f hm])) s

/-- Fields made zero leave all but the registers alone. -/
theorem State.zero_frame (fs : List Fld) : { s.zero fs idx with regs := s.regs } = s :=
  foldl_unchanged (f := fun t f => t.put f idx 0) (g := fun t : State => { t with regs := s.regs }) (fun _ _ _ => rfl) s

/-- A field that shares no bit with those made zero stands. -/
theorem State.get_zero_apart {fs : List Fld} {g : Fld} (h : ∀ f ∈ fs, f.reg = g.reg ∧ f.Fits ∧ g.Apart f) :
    (s.zero fs idx).get g idx = s.get g idx :=
  foldl_unchanged (g := fun t => t.get g idx)
    (fun f hm _ => let ⟨hr, hfit, hap⟩ := h f hm; State.get_put_reg f g hfit hr hap.symm idx 0) s

theorem State.get_zero {fs : List Fld} (hs : fs.Sublist (regDesc r).fields) {g : Fld} (hg : g ∈ fs) :
    (s.zero fs idx).get g idx = 0 := by
  obtain ⟨hfit, hap⟩ := regDesc_fields_apart r
  induction fs generalizing s with
  | nil => simp at hg
  | cons f fs ih =>
    have hin : ∀ x ∈ f :: fs, x ∈ (regDesc r).fields := fun _ hx => hs.subset hx
    have hfs : fs.Sublist (regDesc r).fields := (List.sublist_cons_self f fs).trans hs
    obtain rfl | hg := List.mem_cons.1 hg
    · have hrest : ∀ x ∈ fs, x.reg = g.reg ∧ x.Fits ∧ g.Apart x := fun x hx =>
        have hx' := hin x (List.mem_cons_of_mem _ hx)
        ⟨(regDesc_fields_reg r x hx').trans (regDesc_fields_reg r g (hin g hg)).symm, hfit x hx',
          (List.pairwise_cons.1 (hap.sublist hs)).1 x hx⟩
      have hself := State.get_put_self (s := s) g (hfit g (hin g hg)) idx 0
      exact (State.get_zero_apart hrest).trans (hself.trans (Nat.zero_mod _))
    · exact ih hfs hg

/-- A row whose effect is to make counts of its own register zero clears them. -/
theorem clears_of_zero {fs : List Fld} (hexec : exec c s = .next (s.rowWrite req r idx (·.zero fs idx)))
    (hs : fs.Sublist (regDesc r).fields) : clears s c req r idx fs := fun hw =>
  ⟨s.zero fs idx, hexec.trans (State.rowWrite_allowed hw _), fun _ hf => State.get_zero hs hf, State.zero_frame fs,
    fun _ _ hne => State.zero_rd_ne (fun f hf => regDesc_fields_reg r f (hs.subset hf)) hne.symm⟩

/-! ### Registers made zero by a mask -/

/-- The registers of `rs` made zero whose bits of the mask, from bit `k` on, are set. -/
def State.zeroMasked (s : State) (rs : List Reg) (mask : Nat) (k : Nat := 0) : State :=
  (rs.zipIdx k).foldl (fun s r => if mask.testBit r.2 then s.wr r.1 [] 0 else s) s

theorem State.zeroMasked_cons (q : Reg) (rs : List Reg) (mask k : Nat) :
    s.zeroMasked (q :: rs) mask k = (if mask.testBit k then s.wr q [] 0 else s).zeroMasked rs mask (k + 1) := rfl

/-- A register that is none of those named stands. -/
theorem State.zeroMasked_rd_ne {rs : List Reg} {mask k : Nat} {q : Reg} {jdx : List Nat}
    (h : ∀ p ∈ rs, regAddr p [] ≠ regAddr q jdx) : (s.zeroMasked rs mask k).rd q jdx = s.rd q jdx := by
  refine foldl_unchanged (g := fun t => t.rd q jdx) (fun x hx t => ?_) s
  split
  · exact State.rd_wr_ne 0 (h x.1 (List.fst_mem_of_mem_zipIdx hx))
  · rfl

theorem State.zeroMasked_frame (rs : List Reg) (mask : Nat) : { s.zeroMasked rs mask with regs := s.regs } = s := by
  refine foldl_unchanged (f := fun t (x : Reg × Nat) => if mask.testBit x.2 then t.wr x.1 [] 0 else t)
    (g := fun t : State => { t with regs := s.regs }) (fun x _ t => ?_) s
  split <;> rfl

/-- Each register named is zero where its bit of the mask is set, and stands where it is not. -/
theorem State.zeroMasked_rd {rs : List Reg} {mask k i : Nat} {q : Reg} (hd : (rs.map (regAddr · [])).Nodup) (hi : rs[i]? = some q) :
    (s.zeroMasked rs mask k).rd q [] = if mask.testBit (k + i) then 0 else s.rd q [] := by
  induction rs generalizing s k i with
  | nil => simp at hi
  | cons p rs ih =>
    obtain ⟨hp, hd⟩ := List.nodup_cons.1 hd
    have hrest : ∀ x ∈ rs, regAddr x [] ≠ regAddr p [] := fun x hx heq => hp (List.mem_map.2 ⟨x, hx, heq⟩)
    rw [State.zeroMasked_cons]
    cases i with
    | zero =>
      obtain rfl : p = q := by simpa using hi
      rw [State.zeroMasked_rd_ne hrest, Nat.add_zero]
      split
      · exact State.rd_wr_self p [] 0
      · rfl
    | succ i =>
      have hi : rs[i]? = some q := by simpa using hi
      have hstep : (if mask.testBit k then s.wr p [] 0 else s).rd q [] = s.rd q [] := by
        split
        · exact State.rd_wr_ne 0 (hrest q (List.mem_of_getElem? hi)).symm
        · rfl
      rw [ih hd hi, hstep, Nat.add_right_comm, Nat.add_assoc]

/-- A row whose effect is to clear the registers that its mask names. -/
theorem clearsMasked_of_zeroMasked {rs : List Reg} {mask : Nat} (hexec : exec c s = .next (s.rowWrite req r [] (·.zeroMasked rs mask)))
    (hd : (rs.map (regAddr · [])).Nodup) : clearsMasked s c req r mask rs := fun hw =>
  ⟨s.zeroMasked rs mask, hexec.trans (State.rowWrite_allowed hw _), State.zeroMasked_frame rs mask,
    fun i _ hi => by rw [State.zeroMasked_rd hd hi, Nat.zero_add], fun _ _ h => State.zeroMasked_rd_ne h⟩

/-! ### The rows -/

/-- R236: PEAK takes the value of USED, which is as wide. -/
theorem State.clearPeak_peak (n : Nat) : (s.clearPeak n).get F.BS_BUF_USED_PEAK [n] = s.get F.BS_BUF_USED_USED [n] :=
  (State.get_put_self F.BS_BUF_USED_PEAK (by decide) _ _).trans (Nat.mod_eq_of_lt (bits_lt _ _ _))

theorem State.clearPeak_used (n : Nat) : (s.clearPeak n).get F.BS_BUF_USED_USED [n] = s.get F.BS_BUF_USED_USED [n] :=
  State.get_put_reg F.BS_BUF_USED_PEAK F.BS_BUF_USED_USED (by decide) rfl (by decide) _ _

/-- Settles O51: ten rows make fields of their own register zero, three clear the registers of a mask, and PEAK_CLR and PRBS_CLEAR have an
effect of their own. -/
theorem countersCleared : Obligations.CountersCleared := fun s req n mask =>
  ⟨clears_of_zero rfl (by decide), clears_of_zero rfl (by decide), clears_of_zero rfl (by decide), clears_of_zero rfl (by decide),
    clears_of_zero rfl (by decide), clears_of_zero rfl (by decide), clears_of_zero rfl (by decide), clears_of_zero rfl (by decide),
    clears_of_zero rfl (by decide), clears_of_zero rfl (by decide), clearsMasked_of_zeroMasked rfl (by decide),
    clearsMasked_of_zeroMasked rfl (by decide), clearsMasked_of_zeroMasked rfl (by decide),
    fun hw => ⟨s.clearPeak n, State.rowWrite_allowed hw _, State.clearPeak_peak n, State.clearPeak_used n, rfl⟩,
    fun hw => State.rowWrite_allowed hw _⟩

end Sys2Proof.Machine
end

section
/-! SUPPORT. The ends of a Pavilion's outstanding instructions (R36, R76, R78 to R82) and the levels of its arrays (R39). -/

namespace Sys2Proof.Machine

variable {s : State} {n tag : Nat} {o : Outst} {k : Kern}

/-! ### A Pavilion and its clock -/

@[simp] theorem State.pav_setPav_self (s : State) (n : Nat) (p : Pav) : (s.setPav n p).pav n = p := by
  simp [State.pav, State.setPav]

@[simp] theorem State.pav_mapPav_self (s : State) (n : Nat) (f : Pav → Pav) : (s.mapPav n f).pav n = f (s.pav n) :=
  State.pav_setPav_self ..

@[simp] theorem State.mapPav_pvc (s : State) (n : Nat) (f : Pav → Pav) : (s.mapPav n f).pvc = s.pvc := rfl

/-! ### Outstanding instructions -/

theorem Pav.outst_tag {p : Pav} (h : p.outst tag = some o) : o.tag = tag := by
  simpa using List.find?_some h

theorem State.faultOut_eq (ho : (s.pav n).outst tag = some o) (cls addr : Nat) :
    s.faultOut n o cls addr = ((s.dropOut n tag).sampleOut o true).raiseFault n cls o.tag o.pc addr := by
  rw [State.faultOut, Pav.outst_tag ho]

theorem State.sampleOut_none (h : o.sample = none) (fault : Bool) : s.sampleOut o fault = s := by
  simp [State.sampleOut, h]

/-! ### PRODUCT_DRAIN (R36, R76) -/

section
variable {array td quad : Nat} {split : Bool} {cells : Sp Word32}
variable (ho : (s.pav n).outst tag = some o) (hop : o.op = .product array td split quad cells)
include ho hop

/-- While a warm-up lasts, the drain leaves until when the array's last operand was presented. -/
theorem exec_productDrain_writes (hbad : o.bad = none) (hshown : s.pvc < spGet 0 (s.pav n).shown array) (hsample : o.sample = none) :
    exec (.productDrain n tag) s = .next ((s.dropOut n tag).mapPav n fun p =>
      { p with t := cells.foldl (fun m c => spPut 0 m (1024 * td + c.1) c.2) p.t }) := by
  simp [exec, execProductDrain, ho, hop, hbad, State.sampleOut_none hsample, State.dropOut, hshown]

theorem exec_productDrain_faults {cls addr : Nat} (hbad : o.bad = some (cls, addr)) :
    exec (.productDrain n tag) s = .next (((s.dropOut n tag).sampleOut o true).raiseFault n cls o.tag o.pc addr) := by
  simp [exec, execProductDrain, ho, hop, hbad, State.faultOut_eq ho]

end

/-! ### TRANSFER_COMPLETE (R78, R79) -/

section
variable {a : Word64}
variable (ho : (s.pav n).outst tag = some o) (hk : (s.pav n).kern = some k) (hwait : (s.pav n).mustWait k o = false)
include ho hk hwait

theorem exec_transferComplete_in {t len : Nat} {bs : List Byte} {u : State} (hop : o.op = .xld a t len) (hbad : o.bad = none)
    (hstaged : k.bound = true → xferSeg a = 1 → s.stagedBefore k (xferOff a) len = false) (hfetch : s.fetch k a len false = (u, .ok bs)) :
    exec (.transferComplete n tag false) s = .next (((u.dropOut n tag).sampleOut o false).tileStore n t bs) := by
  have hfree : (k.bound && decide (xferSeg a = 1) && s.stagedBefore k (xferOff a) len) = false := by
    by_cases hb : k.bound = true ∧ xferSeg a = 1
    · simp [hstaged hb.1 hb.2]
    · simpa using fun h1 h2 => absurd ⟨h1, h2⟩ hb
  simp [exec, execTransferComplete, ho, hk, hwait, hop, hbad, hfree, hfetch]

theorem exec_transferComplete_faults {t len cls addr : Nat} (hop : o.op = .xld a t len) (hbad : o.bad = some (cls, addr)) :
    exec (.transferComplete n tag false) s = .next (((s.dropOut n tag).sampleOut o true).raiseFault n cls o.tag o.pc addr) := by
  simp [exec, execTransferComplete, ho, hk, hwait, hop, hbad, State.faultOut_eq ho]

variable {bs : List Byte} (hop : o.op = .xst a bs) (hbad : o.bad = none)
include hop hbad

/-- R80: a staged write has been in its kernel since it was issued. -/
theorem exec_transferComplete_staged (h : k.stages a = true) :
    exec (.transferComplete n tag false) s = .next ((s.dropOut n tag).sampleOut o false) := by
  simp [exec, execTransferComplete, ho, hk, hwait, hop, hbad, h]

theorem exec_transferComplete_slip (h : k.stages a = false) (hspace : (k.seg (xferSeg a)).space = 1) :
    exec (.transferComplete n tag false) s = .next (((s.dropOut n tag).sampleOut o false).slipWrite (k.place a) bs) := by
  simp [exec, execTransferComplete, ho, hk, hwait, hop, hbad, h, hspace]

theorem exec_transferComplete_mem (h : k.stages a = false) (hspace : (k.seg (xferSeg a)).space ≠ 1)
    (hprot : (k.seg (xferSeg a)).space = 2 → s.protects (k.place a) bs.length = false) :
    exec (.transferComplete n tag false) s =
      .next (((s.dropOut n tag).sampleOut o false).memWrite (k.seg (xferSeg a)).space (k.place a) bs) := by
  have hfree : ¬((k.seg (xferSeg a)).space = 2 ∧ s.protects (k.place a) bs.length = true) := fun hp => by simp [hprot hp.1] at hp
  simp [exec, execTransferComplete, ho, hk, hwait, hop, hbad, h, hspace, hfree]

end

/-! ### MULTICAST_ARRIVAL (R81, R82) -/

/-- A message written whole at a receiver, which counts it. -/
def State.arriveAt (s : State) (r t : Nat) (bs : List Byte) : State :=
  (s.tileStore r t bs).mapPav r fun p => { p with mcnt := (p.mcnt + 1) % 2 ^ 64 }

section
variable {t r : Nat} {bs : List Byte} {left : List Nat}
variable (ho : (s.pav n).outst tag = some o) (hop : o.op = .pmc t bs left) (hbad : o.bad = none) (hr : r ∈ left)
  (hrun : s.pvState r ≠ Ps.faulted)
include ho hop hbad hr hrun

theorem exec_multicastArrival_last (h : left.erase r = []) :
    exec (.multicastArrival n tag r) s = .next (((s.arriveAt r t bs).dropOut n tag).sampleOut o false) := by
  simp [exec, execMulticastArrival, ho, hop, hbad, hr, hrun, h, State.arriveAt]

theorem exec_multicastArrival_more (h : left.erase r ≠ []) :
    exec (.multicastArrival n tag r) s = .next ((s.arriveAt r t bs).mapPav n fun p =>
      { p with out := p.out.map fun q => if q.tag = tag then { q with op := .pmc t bs (left.erase r) } else q }) := by
  simp [exec, execMulticastArrival, ho, hop, hbad, hr, hrun, h, State.arriveAt]

end

/-! ### ARRAY_RAMP_UP and ARRAY_RAMP_DOWN (R39) -/

theorem levelFld_eq (array : Bool) : levelFld array.toNat = if array then F.PV_RUN_LEVEL1 else F.PV_RUN_LEVEL0 := by
  cases array <;> rfl

theorem Pav.products_isEmpty {p : Pav} {array : Nat} :
    (p.products array).isEmpty = false ↔ ∃ o ∈ p.out, ∃ td sp q c, o.op = .product array td sp q c := by
  simp only [Pav.products, List.isEmpty_eq_false_iff_exists_mem, List.mem_filter]
  refine exists_congr fun o => and_congr_right' ?_
  generalize o.op = op
  cases op <;> simp

theorem State.presented_iff {array : Nat} : s.presented n array = true ↔
    (∃ o ∈ (s.pav n).out, ∃ td sp q c, o.op = .product array td sp q c) ∨ s.pvc < spGet 0 (s.pav n).shown array := by
  rw [State.presented, Bool.or_eq_true, decide_eq_true_iff, Bool.not_eq_true', Pav.products_isEmpty]

section
variable {array : Bool}

theorem exec_arrayRampUp_rises (hl : s.get (levelFld array.toNat) [n] < 4) (hp : s.presented n array.toNat = true)
    (hdue : s.get (levelFld array.toNat) [n] = 0 ∨ spGet 0 (s.pav n).ramp array.toNat + 8 ≤ s.pvc) :
    exec (.arrayRampUp n array) s = .next (s.setLevel n array.toNat (s.get (levelFld array.toNat) [n] + 1)) := by
  simp [exec, execArrayRampUp, hl, hp, hdue]

theorem exec_arrayRampDown_falls (hl : 0 < s.get (levelFld array.toNat) [n]) (hp : s.presented n array.toNat = false)
    (hquiet : spGet 0 (s.pav n).shown array.toNat + 8 ≤ s.pvc) (hdue : spGet 0 (s.pav n).ramp array.toNat + 8 ≤ s.pvc) :
    exec (.arrayRampDown n array) s = .next (s.setLevel n array.toNat (s.get (levelFld array.toNat) [n] - 1)) := by
  simp [exec, execArrayRampDown, hl, hp, hquiet, hdue]

end

/-- Settles O14: each event has an equation for each way it can end, and an array's level moves by one shared operation. -/
theorem outstandingCompletes : Obligations.OutstandingCompletes := by
  refine ⟨fun s n tag o k ho hk => ?_, fun s n array => ?_⟩
  · exact ⟨fun _ _ _ _ _ hop => exec_productDrain_writes ho hop,
      fun _ _ _ _ _ _ _ hop => exec_productDrain_faults ho hop,
      fun _ _ _ _ _ hop hbad hwait => exec_transferComplete_in ho hk hwait hop hbad,
      fun _ _ hop hbad hwait => ⟨exec_transferComplete_staged ho hk hwait hop hbad, exec_transferComplete_slip ho hk hwait hop hbad,
        exec_transferComplete_mem ho hk hwait hop hbad⟩,
      fun _ _ _ _ _ hop hbad hwait => exec_transferComplete_faults ho hk hwait hop hbad,
      fun _ _ _ _ hop hbad hr hrun => ⟨exec_multicastArrival_last ho hop hbad hr hrun, exec_multicastArrival_more ho hop hbad hr hrun⟩⟩
  · intro arr f l p moved goes shown
    have hfld : levelFld arr = f := levelFld_eq array
    have hpresented : s.presented n arr = true ↔ shown := State.presented_iff
    have hgoes : ∀ x, .next (s.setLevel n arr x) = goes x := fun x => by rw [State.setLevel, hfld]
    have hl : l = s.get (levelFld arr) [n] := by rw [hfld]
    refine ⟨fun hlow hshown hdue => ?_, fun hhigh hshown hquiet hdue => ?_⟩
    · rw [hl] at hlow hdue ⊢
      exact (exec_arrayRampUp_rises hlow (hpresented.2 hshown) hdue).trans (hgoes _)
    · rw [hl] at hhigh ⊢
      exact (exec_arrayRampDown_falls hhigh (Bool.eq_false_iff.2 (mt hpresented.1 hshown)) hquiet hdue).trans (hgoes _)

end Sys2Proof.Machine
end

section
/-! SUPPORT. What an instruction that executes does, by the answer of its own function (R65, R66, R85). -/

namespace Sys2Proof.Machine

variable {s t : State} {n : Nat} {g : Guard} {k : Kern} {op len : Nat} {f : Pav → Kern → Res} {q : Pav}

section
variable (h : s.Issues n g k) (h8 : len = 8 → (s.pav n).pc % 8 = 0)
include h h8

theorem State.beloc_done {tag addr : Nat} (hf : f (s.pav n) k = .done t tag addr) :
    s.beloc n g op len f = t.retire n op len tag addr k (s.pav n).pc none := by
  rw [State.beloc_issues h h8, hf]

theorem State.beloc_fault {cls addr : Nat} (hf : f (s.pav n) k = .fault t cls addr) :
    s.beloc n g op len f = (t.sampleOne n (s.pav n).pc op 0 k true addr).raiseFault n cls 0 (s.pav n).pc addr := by
  rw [State.beloc_issues h h8, hf]

theorem State.beloc_tagged {tag cls addr : Nat} (hf : f (s.pav n) k = .tagged t tag cls addr) :
    s.beloc n g op len f =
      ((t.mapPav n fun p => { p with pc := (p.pc + len) % 2 ^ 48 }).sampleOne n (s.pav n).pc op tag k true addr).raiseFault n cls tag
        (s.pav n).pc addr := by
  rw [State.beloc_issues h h8, hf]

end

section
variable (h : s.Issues n g k)
include h

theorem State.beloc_done4 {tag addr : Nat} (hf : f (s.pav n) k = .done t tag addr) :
    s.beloc n g op 4 f = t.retire n op 4 tag addr k (s.pav n).pc none :=
  State.beloc_done h (fun h => absurd h (by decide)) hf

theorem State.beloc_jump4 {pc : Nat} (hf : f (s.pav n) k = .jump t pc) :
    s.beloc n g op 4 f = t.retire n op 4 0 0 k (s.pav n).pc (some pc) := by
  rw [State.beloc_issues4 h, hf]

theorem State.beloc_wait4 {w : PvWait} (hf : f (s.pav n) k = .wait w) :
    s.beloc n g op 4 f = (s.mapPav n fun p => { p with wait := some w, issueAt := s.pvc }).setPvState n Ps.waiting := by
  rw [State.beloc_issues4 h, hf]

/-- An instruction of 32 bits that changes nothing but its Pavilion's own state. -/
theorem State.beloc_doneWith4 (hf : f (s.pav n) k = s.doneWith n q) : s.beloc n g op 4 f = s.retires n op 4 k q 0 0 :=
  State.beloc_done4 h hf

theorem State.beloc_vdone4 (hf : f (s.pav n) k = s.vdone n q) : s.beloc n g op 4 f = s.retiresVec n op k q :=
  State.beloc_done4 h hf

/-- A fault that finds the state as it was. -/
theorem State.beloc_faultsAt (h8 : len = 8 → (s.pav n).pc % 8 = 0) {cls addr : Nat} (hf : f (s.pav n) k = .fault s cls addr) :
    s.beloc n g op len f = s.faultsAt n op k cls addr :=
  State.beloc_fault h h8 hf

theorem State.beloc_faultsAt4 {cls addr : Nat} (hf : f (s.pav n) k = .fault s cls addr) :
    s.beloc n g op 4 f = s.faultsAt n op k cls addr :=
  State.beloc_fault h (fun h => absurd h (by decide)) hf

end

end Sys2Proof.Machine
end

section
/-! SUPPORT. Scalar arithmetic, compares and predicate logic (R46, R69): the table of the scalar unit in the integers it speaks of. -/

namespace Sys2Proof.Machine

/-! ### Words as integers -/

theorem shiftBy_eq (b : Word64) : shiftBy b = b.toNat % 64 := by simp [shiftBy, bits]

section
variable {w : Nat} (a b : BitVec w) (m : Nat)

theorem shiftLeft_eq_ofNat : a <<< m = BitVec.ofNat w (a.toNat * 2 ^ m) := by
  apply BitVec.eq_of_toNat_eq
  simp [Nat.shiftLeft_eq]

theorem ushiftRight_eq_ofNat : a >>> m = BitVec.ofNat w (a.toNat / 2 ^ m) := by
  apply BitVec.eq_of_toNat_eq
  have : a.toNat / 2 ^ m < 2 ^ w := (Nat.div_le_self _ _).trans_lt a.isLt
  simp [Nat.shiftRight_eq_div_pow, Nat.mod_eq_of_lt this]

theorem sshiftRight_eq_ofInt : a.sshiftRight m = BitVec.ofInt w (a.toInt / 2 ^ m) := by
  rw [BitVec.sshiftRight, Int.shiftRight_eq_div_pow]
  norm_cast

theorem mul_eq_ofNat : a * b = BitVec.ofNat w (a.toNat * b.toNat) := by
  rw [BitVec.ofNat_mul, BitVec.ofNat_toNat, BitVec.ofNat_toNat, BitVec.setWidth_eq, BitVec.setWidth_eq]

theorem smaller_eq_ofInt : (if b.slt a then b else a) = BitVec.ofInt w (min a.toInt b.toInt) := by
  rw [BitVec.slt_eq_decide]
  by_cases h : b.toInt < a.toInt
  · simp [h, min_eq_right h.le]
  · simp [h, min_eq_left (not_lt.1 h)]

theorem larger_eq_ofInt : (if a.slt b then b else a) = BitVec.ofInt w (max a.toInt b.toInt) := by
  rw [BitVec.slt_eq_decide]
  by_cases h : a.toInt < b.toInt
  · simp [h, max_eq_right h.le]
  · simp [h, max_eq_left (not_lt.1 h)]

theorem smaller_eq_ofNat : (if b.ult a then b else a) = BitVec.ofNat w (min a.toNat b.toNat) := by
  rw [BitVec.ult_eq_decide]
  by_cases h : b.toNat < a.toNat
  · simp [h, min_eq_right h.le]
  · simp [h, min_eq_left (not_lt.1 h)]

theorem larger_eq_ofNat : (if a.ult b then b else a) = BitVec.ofNat w (max a.toNat b.toNat) := by
  rw [BitVec.ult_eq_decide]
  by_cases h : a.toNat < b.toNat
  · simp [h, max_eq_right h.le]
  · simp [h, max_eq_left (not_lt.1 h)]

end

/-- A word and a sign-extended immediate added. -/
theorem add_sext11 (a : Word64) (imm : BitVec 11) : a + sext11 imm = BitVec.ofInt 64 (a.toInt + imm.toInt) := by
  rw [BitVec.ofInt_add, BitVec.ofInt_toInt, sext11, BitVec.signExtend]

theorem toInt_sext11 (imm : BitVec 11) : (sext11 imm).toInt = imm.toInt := by
  rw [sext11, BitVec.toInt_signExtend_of_le (by decide)]

/-- Sixteen bits shifted in from the right. -/
theorem shiftIn16 (a : Word64) (imm : BitVec 16) :
    (a <<< 16) ||| imm.zeroExtend 64 = BitVec.ofNat 64 (a.toNat * 65536 + imm.toNat) := by
  have himm := imm.isLt
  have hhigh : a.toNat * 65536 % 2 ^ 64 = (a.toNat % 2 ^ 48) <<< 16 := by
    rw [Nat.shiftLeft_eq]
    omega
  apply BitVec.eq_of_toNat_eq
  simp only [BitVec.toNat_or, BitVec.toNat_shiftLeft, BitVec.toNat_setWidth, BitVec.toNat_ofNat, Nat.shiftLeft_eq]
  rw [show (2 : Nat) ^ 16 = 65536 from rfl, hhigh, Nat.mod_eq_of_lt (a := imm.toNat) (by omega),
    ← Nat.shiftLeft_add_eq_or_of_lt (by omega), Nat.shiftLeft_eq]
  omega

/-! ### The operations of the scalar unit -/

variable {s : State} {n : Nat} {g : Guard} {k : Kern}

section
variable (h : s.Issues n g k) {op : Nat} {i : Instr}
include h

/-- A scalar instruction whose function gives `x` retires with `x` in its destination. -/
theorem exec_scalarOp {rd : BitVec 5} {v : Pav → Word64} {x : Word64} (hexec : exec i s = .next (s.scalarOp n g op rd v))
    (hv : v (s.pav n) = x) : exec i s = .next (s.retires n op 4 k ((s.pav n).setReg rd x) 0 0) := by
  subst hv
  rw [hexec, State.scalarOp, State.beloc_doneWith4 h rfl]

/-- As `exec_scalarOp`, of a predicate. -/
theorem exec_predOp {pd : BitVec 3} {v : Pav → Bool} {x : Bool} (hexec : exec i s = .next (s.predOp n g op pd v))
    (hv : v (s.pav n) = x) : exec i s = .next (s.retires n op 4 k ((s.pav n).setPred pd x) 0 0) := by
  subst hv
  rw [hexec, State.predOp, State.beloc_doneWith4 h rfl]

end

/-- R69, form A: each function of the table. -/
theorem scalarArithmetic_form_a : claimScalarArithmetic := by
  intro s n g k rd rs1 rs2 h p a b sh gives
  have hsh : shiftBy b = sh := shiftBy_eq b
  refine ⟨exec_scalarOp h rfl rfl, exec_scalarOp h rfl rfl, exec_scalarOp h rfl rfl, exec_scalarOp h rfl rfl, exec_scalarOp h rfl rfl,
    exec_scalarOp h rfl ?_, exec_scalarOp h rfl ?_, exec_scalarOp h rfl ?_, exec_scalarOp h rfl (mul_eq_ofNat a b),
    exec_scalarOp h rfl rfl, exec_scalarOp h rfl (smaller_eq_ofInt a b), exec_scalarOp h rfl (larger_eq_ofInt a b),
    exec_scalarOp h rfl (smaller_eq_ofNat a b), exec_scalarOp h rfl (larger_eq_ofNat a b), exec_scalarOp h rfl rfl⟩
  · exact (shiftLeft_eq_ofNat a _).trans (by rw [hsh])
  · exact (ushiftRight_eq_ofNat a _).trans (by rw [hsh])
  · exact (sshiftRight_eq_ofInt a _).trans (by rw [hsh])

/-- R69, opcodes 0x02 to 0x07. -/
theorem scalarArithmetic_immediates : claimScalarImmediates := by
  intro s n g k rd rs1 imm sh imm16 h p a gives
  exact ⟨exec_scalarOp h rfl (add_sext11 a imm), exec_scalarOp h rfl rfl, exec_scalarOp h rfl rfl, exec_scalarOp h rfl rfl,
    exec_scalarOp h rfl (shiftLeft_eq_ofNat a _), exec_scalarOp h rfl (ushiftRight_eq_ofNat a _),
    exec_scalarOp h rfl (sshiftRight_eq_ofInt a _),
    exec_scalarOp h rfl (BitVec.rotateRight_eq_rotateRightAux_of_lt sh.isLt), exec_scalarOp h rfl (shiftIn16 _ imm16)⟩

/-! ### Conditions -/

section
variable (a b : Word64)

theorem condHolds_eq : condHolds .eq a b = decide (a.toNat = b.toNat) := by simp [condHolds, BitVec.toNat_inj]
theorem condHolds_ne : condHolds .ne a b = decide (a.toNat ≠ b.toNat) := by simp [condHolds, BitVec.toNat_inj]
theorem condHolds_lt : condHolds .lt a b = decide (a.toInt < b.toInt) := BitVec.slt_eq_decide
theorem condHolds_ltu : condHolds .ltu a b = decide (a.toNat < b.toNat) := BitVec.ult_eq_decide
theorem condHolds_ge : condHolds .ge a b = decide (b.toInt ≤ a.toInt) := by
  simp [condHolds, BitVec.slt_eq_decide, ← decide_not]
theorem condHolds_geu : condHolds .geu a b = decide (b.toNat ≤ a.toNat) := by
  simp [condHolds, BitVec.ult_eq_decide, ← decide_not]

/-- Words are equal as they are as signed numbers. -/
theorem condHolds_eq_toInt : condHolds .eq a b = decide (a.toInt = b.toInt) := by simp [condHolds, BitVec.toInt_inj]
theorem condHolds_ne_toInt : condHolds .ne a b = decide (a.toInt ≠ b.toInt) := by simp [condHolds, BitVec.toInt_inj]

end

/-- R69, opcodes 0x08 and 0x09. -/
theorem scalarArithmetic_predicates : claimPredicateInstructions := by
  intro s n g k pd p1 p2 rs1 rs2 imm h p a b gives
  have himm := toInt_sext11 imm
  exact ⟨exec_predOp h rfl (condHolds_eq a b), exec_predOp h rfl (condHolds_ne a b), exec_predOp h rfl (condHolds_lt a b),
    exec_predOp h rfl (condHolds_ltu a b), exec_predOp h rfl (condHolds_ge a b), exec_predOp h rfl (condHolds_geu a b),
    exec_predOp h rfl rfl, exec_predOp h rfl rfl, exec_predOp h rfl rfl, exec_predOp h rfl rfl,
    exec_predOp h rfl (himm ▸ condHolds_eq_toInt a _), exec_predOp h rfl (himm ▸ condHolds_ne_toInt a _),
    exec_predOp h rfl (himm ▸ condHolds_lt a _), exec_predOp h rfl (condHolds_ltu a _)⟩

/-- Settles O1: every row is one of two shared operations, and its function is that of R69's table. -/
theorem scalarArithmetic : Obligations.ScalarArithmetic :=
  ⟨scalarArithmetic_form_a, scalarArithmetic_immediates, scalarArithmetic_predicates⟩

end Sys2Proof.Machine
end

section
/-! SUPPORT. Tile memory (R31 to R33, R61): what a store writes, what it leaves alone, and the instructions that load and store. -/

namespace Sys2Proof.Machine

/-! ### Runs of a table -/

section
variable {α : Type} [DecidableEq α] (d : α)

/-- A list put at keys that rise by one reads back as the list; every other key stands. -/
theorem spGet_foldl_zipIdx (m : Sp α) (a x : Nat) (l : List α) (j : Nat := 0) :
    spGet d ((l.zipIdx j).foldl (fun m y => spPut d m (a + y.2) y.1) m) x =
      if a + j ≤ x ∧ x < a + j + l.length then (l[x - (a + j)]?).getD d else spGet d m x := by
  induction l generalizing m j with
  | nil =>
    have hout : ¬(a + j ≤ x ∧ x < a + j + ([] : List α).length) := by simp
    rw [if_neg hout]
    rfl
  | cons v l ih =>
    rw [List.zipIdx_cons, List.foldl_cons, ih, List.length_cons]
    obtain rfl | hx := eq_or_ne x (a + j)
    · have hnext : ¬(a + (j + 1) ≤ a + j ∧ a + j < a + (j + 1) + l.length) := by omega
      rw [if_neg hnext, if_pos (by omega), Nat.sub_self]
      exact spGet_spPut_self d m _ v
    · rw [spGet_spPut_ne d d m v hx.symm]
      by_cases hin : a + j ≤ x ∧ x < a + j + (l.length + 1)
      · rw [if_pos hin, if_pos (by omega), show x - (a + j) = x - (a + (j + 1)) + 1 by omega, List.getElem?_cons_succ]
      · rw [if_neg hin, if_neg (by omega)]

theorem spSorted_foldl_spPut {β : Type} {m : Sp α} (l : List β) (key : β → Nat) (v : β → α) (h : spSorted m) :
    spSorted (l.foldl (fun m y => spPut d m (key y) (v y)) m) := by
  induction l generalizing m with
  | nil => exact h
  | cons y l ih => exact ih (spPut_sorted d _ _ h)

end

/-! ### A store -/

/-- The words of eight bytes that a range touches. -/
theorem mem_wordsOf {a len w : Nat} : w ∈ wordsOf a len ↔ len ≠ 0 ∧ a < 8 * w + 8 ∧ 8 * w < a + len := by
  rw [wordsOf]
  split
  · simp [*]
  · simp only [List.mem_map, List.mem_range]
    constructor
    · rintro ⟨i, hi, rfl⟩
      omega
    · rintro ⟨hne, hlo, hhi⟩
      exact ⟨w - a / 8, by omega, by omega⟩

section
variable (p : Pav) (a : Nat) (bs : List Byte)

theorem Pav.store_tile_sorted (h : spSorted p.tile) : spSorted (p.store a bs).tile := spSorted_foldl_spPut 0 _ _ _ h

/-- A byte stored reads as stored, every other as before. -/
theorem Pav.store_byte (x : Nat) :
    (p.store a bs).bytes x 1 = if a ≤ x ∧ x < a + bs.length then [(bs[x - a]?).getD 0] else p.bytes x 1 := by
  have h := spGet_foldl_zipIdx (0 : Byte) p.tile a x bs
  simp only [Nat.add_zero] at h
  simp only [Pav.bytes, Pav.store, List.range_one, List.map_cons, List.map_nil, Nat.add_zero, h]
  split <;> rfl

theorem Pav.mem_store_bad (w : Nat) : w ∈ (p.store a bs).bad ↔ w ∈ p.bad ∧ ¬(a ≤ 8 * w ∧ 8 * w + 8 ≤ a + bs.length) := by
  simp [Pav.store, imp_iff_not_or]

theorem Pav.mem_store_weak (w : Nat) : w ∈ (p.store a bs).weak ↔ w ∈ p.weak ∧ w ∉ wordsOf a bs.length := by
  simp [Pav.store]

/-- R33: fresh check bits where a word is written whole. -/
theorem Pav.store_whole {w : Nat} (hlo : a ≤ 8 * w) (hhi : 8 * w + 8 ≤ a + bs.length) :
    w ∉ (p.store a bs).bad ∧ w ∉ (p.store a bs).weak := by
  rw [Pav.mem_store_bad, Pav.mem_store_weak, mem_wordsOf]
  exact ⟨fun hw => hw.2 ⟨hlo, hhi⟩, fun hw => hw.2 ⟨by omega, by omega, by omega⟩⟩

theorem Pav.store_apart {w : Nat} (h : 8 * w + 8 ≤ a ∨ a + bs.length ≤ 8 * w) :
    (w ∈ (p.store a bs).bad ↔ w ∈ p.bad) ∧ (w ∈ (p.store a bs).weak ↔ w ∈ p.weak) := by
  rw [Pav.mem_store_bad, Pav.mem_store_weak, mem_wordsOf]
  exact ⟨and_iff_left (by omega), and_iff_left (by omega)⟩

end

theorem scalarStores_frame : claimTileStoreFrame := fun p a bs h =>
  ⟨p.store_tile_sorted a bs h, p.store_byte a bs, fun _ => p.store_whole a bs, fun _ => p.store_apart a bs,
    rfl, rfl, rfl, rfl, rfl, rfl, rfl, rfl⟩

/-! ### The instructions -/

/-- An effective address in the integers: modulo 2^64. -/
theorem effAddr_eq (p : Pav) (rs1 : BitVec 5) (imm : BitVec 11) :
    effAddr p rs1 imm = (BitVec.ofInt 64 ((p.reg rs1).toInt + imm.toInt)).toNat :=
  congrArg BitVec.toNat (add_sext11 _ imm)

variable {s : State} {n : Nat} {g : Guard} {k : Kern}

/-- An instruction that is one write of tile memory. -/
theorem State.beloc_tileWrite4 (h : s.Issues n g k) {op a al : Nat} {f : Pav → Kern → Res} {bs : List Byte}
    (hf : f (s.pav n) k = s.tileWrite n (s.pav n) a al bs) (hal : a % al = 0) (hserves : (s.pav n).serves a bs.length) :
    s.beloc n g op 4 f = (s.tileStore n a bs).retire n op 4 0 a k (s.pav n).pc none :=
  State.beloc_done4 h (hf.trans (State.tileWrite_ok hal hserves))

section
variable (h : s.Issues n g k) {i : Instr} {op w a : Nat} {rs1 : BitVec 5} {imm : BitVec 11}
variable (ha : effAddr (s.pav n) rs1 imm = a)
include h ha

theorem exec_loadOp {rd : BitVec 5} (hexec : exec i s = .next (s.loadOp n g op w rd rs1 imm))
    (hready : a % w = 0 ∧ (s.pav n).serves a w ∧ (s.pav n).badWord a w = none) :
    exec i s = .next (((s.countTile n a w).setPav n ((s.pav n).setReg rd
      (BitVec.ofNat 64 (leNat ((s.pav n).bytes a w))))).retire n op 4 0 a k (s.pav n).pc none) := by
  obtain ⟨haligned, hserves, hgood⟩ := hready
  subst ha
  rw [hexec, State.loadOp, State.beloc_done4 h (State.tileRead_ok haligned hserves hgood)]

theorem exec_storeOp {rs2 : BitVec 5} (hexec : exec i s = .next (s.storeOp n g op w rs2 rs1 imm))
    (hready : a % w = 0 ∧ (s.pav n).serves a w) :
    exec i s = .next ((s.tileStore n a (leBytes ((s.pav n).reg rs2).toNat w)).retire n op 4 0 a k (s.pav n).pc none) := by
  obtain ⟨haligned, hserves⟩ := hready
  subst ha
  rw [hexec, State.storeOp, State.beloc_tileWrite4 h rfl haligned (by rwa [leBytes_length]), effAddr]

end

theorem scalarStores_stores : claimScalarStores := by
  intro s n g k rs2 rs1 imm h p a ready gives
  have ha : effAddr p rs1 imm = a := effAddr_eq p rs1 imm
  exact ⟨exec_storeOp h ha rfl, exec_storeOp h ha rfl, exec_storeOp h ha rfl, exec_storeOp h ha rfl⟩

theorem scalarStores_loads : claimScalarLoads := by
  intro s n g k rd rs1 imm h p a ready gives
  have ha : effAddr p rs1 imm = a := effAddr_eq p rs1 imm
  exact ⟨exec_loadOp h ha rfl, exec_loadOp h ha rfl, exec_loadOp h ha rfl, exec_loadOp h ha rfl⟩

/-- Settles O3: the eight rows are two shared operations, and a store's frame is that of the table of bytes it writes. -/
theorem scalarStores : Obligations.ScalarStores :=
  ⟨scalarStores_stores, scalarStores_frame, scalarStores_loads⟩

end Sys2Proof.Machine
end

section
/-! SUPPORT. Branches (R69, R85) and the control registers (R59). -/

namespace Sys2Proof.Machine

variable {s : State} {n : Nat} {g : Guard} {k : Kern}

/-! ### Branches -/

/-- A relative target in the integers: modulo the 48 bits of the PC. -/
theorem relTarget_eq (p : Pav) (off : BitVec 21) :
    relTarget p off = (BitVec.ofInt 48 ((p.pc : Int) + 4 * off.toInt)).toNat := by
  have hoff : off.signExtend 48 <<< 2 = BitVec.ofInt 48 (4 * off.toInt) := by
    rw [BitVec.shiftLeft_eq_mul_twoPow, BitVec.ofInt_mul, mul_comm, BitVec.signExtend]
    rfl
  rw [relTarget, hoff, BitVec.ofInt_add, BitVec.ofInt_natCast]

theorem exec_branch (h : s.Issues n g k) {i : Instr} {op t : Nat} {q : Pav} {f : Pav → Kern → Res}
    (hexec : exec i s = .next (s.beloc n g op 4 f)) (hf : f (s.pav n) k = s.branchTo n k q t) :
    exec i s =
      if k.codeLen ≤ t then .next (s.faultsAt n op k Fc.illegal 0)
      else if t % 4 ≠ 0 then .next (s.faultsAt n op k Fc.misaligned t)
      else .next ((s.setPav n q).retire n op 4 0 0 k (s.pav n).pc (some t)) := by
  rw [hexec]
  unfold State.branchTo at hf
  by_cases hlen : k.codeLen ≤ t
  · rw [if_pos hlen] at hf ⊢
    rw [State.beloc_faultsAt4 h hf]
  rw [if_neg hlen] at hf ⊢
  by_cases hal : t % 4 ≠ 0
  · rw [if_pos hal] at hf ⊢
    rw [State.beloc_faultsAt4 h hf]
  · rw [if_neg hal] at hf ⊢
    rw [State.beloc_jump4 h hf]

theorem branches_targets : claimBranches := by
  intro s n g k off rd rs1 imm h p rel abs link goes
  have hrel : relTarget p off = rel := relTarget_eq p off
  have habs : effAddr p rs1 imm = abs := effAddr_eq p rs1 imm
  exact ⟨exec_branch h rfl (hrel ▸ rfl), exec_branch h rfl (hrel ▸ rfl), exec_branch h rfl (habs ▸ rfl)⟩

/-! ### Control registers -/

section
variable (h : s.Issues n g k)
include h

theorem exec_crr_reads {rd c : BitVec 5} {v : Nat} (hc : s.ctrl n (s.pav n) k c.toNat = some v) :
    exec (.crr n g rd c) s = .next (s.retires n 0x15 4 k ((s.pav n).setReg rd (BitVec.ofNat 64 v)) 0 0) := by
  rw [exec, execCrr, State.beloc_doneWith4 h]
  simp only [hc]

theorem exec_crr_illegal {rd c : BitVec 5} (hc : s.ctrl n (s.pav n) k c.toNat = none) :
    exec (.crr n g rd c) s = .next (s.faultsAt n 0x15 k Fc.illegal 0) := by
  rw [exec, execCrr, State.beloc_faultsAt4 h]
  simp only [hc]

theorem exec_crw_writes {c rs1 : BitVec 5} {q : Pav} (hc : s.ctrlWrite (s.pav n) k c.toNat ((s.pav n).reg rs1).toNat = some q) :
    exec (.crw n g c rs1) s = .next (s.retires n 0x16 4 k q 0 0) := by
  rw [exec, execCrw, State.beloc_doneWith4 h]
  simp only [hc]

theorem exec_crw_illegal {c rs1 : BitVec 5} (hc : s.ctrlWrite (s.pav n) k c.toNat ((s.pav n).reg rs1).toNat = none) :
    exec (.crw n g c rs1) s = .next (s.faultsAt n 0x16 k Fc.illegal 0) := by
  rw [exec, execCrw, State.beloc_faultsAt4 h]
  simp only [hc]

/-- A write that is illegal above a limit. -/
theorem exec_crw_le {c rs1 : BitVec 5} {q : Pav} {m : Nat}
    (hc : s.ctrlWrite (s.pav n) k c.toNat ((s.pav n).reg rs1).toNat = if ((s.pav n).reg rs1).toNat > m then none else some q) :
    exec (.crw n g c rs1) s = if ((s.pav n).reg rs1).toNat ≤ m then .next (s.retires n 0x16 4 k q 0 0)
      else .next (s.faultsAt n 0x16 k Fc.illegal 0) := by
  split
  · rw [exec_crw_writes h (hc.trans (if_neg (not_lt.2 ‹_›)))]
  · rw [exec_crw_illegal h (hc.trans (if_pos (not_le.1 ‹_›)))]

/-- A write that is illegal in a bound kernel. -/
theorem exec_crw_launched {c rs1 : BitVec 5} {q : Pav}
    (hc : s.ctrlWrite (s.pav n) k c.toNat ((s.pav n).reg rs1).toNat = if k.bound then none else some q) :
    exec (.crw n g c rs1) s = if k.bound then .next (s.faultsAt n 0x16 k Fc.illegal 0)
      else .next (s.retires n 0x16 4 k q 0 0) := by
  split
  · rw [exec_crw_illegal h (hc.trans (if_pos ‹_›))]
  · rw [exec_crw_writes h (hc.trans (if_neg ‹_›))]

end

/-- R59: no control register is c16 or above. -/
theorem State.ctrl_beyond {p : Pav} {c : Nat} (hc : 16 ≤ c) : s.ctrl n p k c = none := by
  unfold State.ctrl
  split
  case h_17 => rfl
  all_goals omega

theorem State.ctrlWrite_readonly {p : Pav} {c v : Nat} (hc : c = 0 ∨ c = 9 ∨ c = 10 ∨ c = 11 ∨ 13 ≤ c) :
    s.ctrlWrite p k c v = none := by
  unfold State.ctrlWrite
  split
  case h_10 => rfl
  all_goals omega

/-- The kernel with a watchdog budget of `v` from now on: the part of 1,024 cycles that has run stays run (R86). -/
def State.budgeted (s : State) (k : Kern) (v : Nat) : Kern :=
  { k with wdog := v, wdogAt := if k.kid = 0 then k.wdogAt else k.wdogAt + (s.pvc - k.wdogAt) / 1024 * 1024 }

theorem State.wdog_budgeted (v : Nat) : s.wdog (s.budgeted k v) = v := by
  unfold State.wdog State.budgeted
  split
  · rfl
  · rename_i hkid
    have hrest : (s.pvc - (k.wdogAt + (s.pvc - k.wdogAt) / 1024 * 1024)) / 1024 = 0 := by omega
    simp only at hkid ⊢
    rw [hrest, Nat.sub_zero]

theorem branches_controls : claimControlRegisters := by
  intro s n g k rd rs1 c h p v reads writes illegal
  refine ⟨exec_crr_reads h rfl, exec_crr_reads h rfl, exec_crr_reads h rfl, exec_crr_reads h rfl, exec_crr_reads h rfl,
    exec_crr_reads h rfl, exec_crr_reads h rfl, exec_crr_reads h rfl, exec_crr_reads h rfl, exec_crr_reads h rfl, exec_crr_reads h rfl,
    exec_crr_reads h rfl, exec_crr_reads h rfl, exec_crr_reads h (by rw [Nat.mul_comm 2]; rfl),
    exec_crr_reads h (by rw [Nat.mul_comm 65536]; rfl), exec_crr_reads h rfl,
    fun hc => exec_crr_illegal h (State.ctrl_beyond hc), exec_crw_le h rfl, exec_crw_le h rfl, exec_crw_launched h rfl,
    exec_crw_launched h rfl, exec_crw_launched h rfl, exec_crw_writes h rfl, exec_crw_writes h rfl, exec_crw_writes h ?_,
    fun hv => ⟨s.budgeted k v, State.wdog_budgeted v, rfl, exec_crw_writes h (if_neg (not_lt.2 hv))⟩,
    fun hv => exec_crw_illegal h (if_pos hv), fun hc => exec_crw_illegal h (State.ctrlWrite_readonly ?_)⟩
  · show some _ = some _
    rw [BitVec.ofNat_toNat, BitVec.setWidth_eq]
  · obtain rfl | rfl | rfl | rfl | hc := hc <;> simp [*]

/-- Settles O4: the three branches are one shared operation, and a control register has an answer for each number. -/
theorem branches : Obligations.Branches := ⟨branches_targets, branches_controls⟩

end Sys2Proof.Machine
end

section
/-! SUPPORT. What the wrapper of every instruction answers where the instruction does not execute (R57, R65, R66, R85, R208), and the words that
stand for no instruction. -/

namespace Sys2Proof.Machine

variable {s : State} {n : Nat} {g : Guard} {k : Kern} {op len : Nat} {f : Pav → Kern → Res}

/-! ### The wrapper before an instruction's own function -/

/-- R57: only a RUNNING Pavilion issues. -/
theorem State.beloc_notRunning (h : (s.pav n).kern = none ∨ s.pvState n ≠ Ps.running) : s.beloc n g op len f = s := by
  unfold State.beloc
  dsimp only
  split
  · rfl
  · rename_i k hk
    rw [if_pos (h.resolve_left (by simp [hk]))]

section
variable (hk : (s.pav n).kern = some k) (hrun : s.pvState n = Ps.running)
include hk hrun

/-- R208: the line of the instruction is uncorrectable. -/
theorem State.beloc_unfetched {l : Nat} (hl : s.fetchBad k (s.pav n).pc = some l) :
    s.beloc n g op len f = (s.touchLine 0 l).raiseFault n Fc.data 0 (s.pav n).pc (64 * l) := by
  simp [State.beloc, hk, hrun, hl]

variable (hfetch : s.fetchBad k (s.pav n).pc = none)
include hfetch

/-- R66: the guard !p0. -/
theorem State.beloc_illegalGuard (hp : g.pred = 0) (hi : g.inv = true) : s.beloc n g op len f = s.faultsAt n op k Fc.illegal 0 := by
  simp [State.beloc, hk, hrun, hfetch, hp, hi, State.faultsAt]

variable (hlegal : ¬(g.pred = 0 ∧ g.inv = true))
include hlegal

/-- R66: an instruction whose guard is 0 only issues. -/
theorem State.beloc_guardFalse (hg : (s.pav n).guard g = false) :
    s.beloc n g op len f = s.setPav n { s.pav n with pc := ((s.pav n).pc + len) % 2 ^ 48 } := by
  have hg0 : (decide (g.pred = 0) && g.inv) = false := by simpa using hlegal
  simp only [State.beloc, hk, hrun, hfetch, hg0, hg, ne_eq, not_true_eq_false, if_false, Bool.false_eq_true, Bool.not_false, if_true]

/-- R65: a 64-bit instruction at an address that is no multiple of 8. -/
theorem State.beloc_apart (hg : (s.pav n).guard g = true) (hlen : len = 8) (hpc : (s.pav n).pc % 8 ≠ 0) :
    s.beloc n g op len f = s.faultsAt n op k Fc.misaligned (s.pav n).pc := by
  have hg0 : (decide (g.pred = 0) && g.inv) = false := by simpa using hlegal
  have h8 : (decide (len = 8) && decide ((s.pav n).pc % 8 ≠ 0)) = true := by simp [hlen, hpc]
  simp only [ne_eq] at h8
  simp only [State.beloc, hk, hrun, hfetch, hg0, hg, h8, ne_eq, not_true_eq_false, if_false, Bool.false_eq_true, Bool.not_true, if_true,
    State.faultsAt]

end

theorem State.fetchBad_eq {im : KImage} (h : spGet none s.pv.images k.kid = some im) (pc : Nat) :
    s.fetchBad k pc =
      if pc < k.codeLen ∧ s.dockBad ((im.place + 64 + pc) / 64) = true then some ((im.place + 64 + pc) / 64) else none := by
  simp [State.fetchBad, h]

theorem sharedIssueFaults_traps : claimSharedIssueFaults := by
  intro i s n g op len k hi hk hrun pc
  obtain ⟨f, hexec⟩ := exec_beloc hi
  simp only [hexec]
  exact ⟨fun l hl => congrArg _ (State.beloc_unfetched hk hrun hl),
    fun hfetch => ⟨fun hp hinv => congrArg _ (State.beloc_illegalGuard hk hrun hfetch hp hinv),
      fun hlegal hg hlen hpc => congrArg _ (State.beloc_apart hk hrun hfetch hlegal hg hlen hpc)⟩,
    fun im him => State.fetchBad_eq him pc⟩

theorem sharedIssueFaults_notExecuted : claimNotExecutedOnlyMovesPc := by
  refine ⟨fun i s n g op len hi h => ?_, fun i s n g op len k hi hk hrun hfetch hlegal hg => ?_⟩ <;>
    obtain ⟨f, hexec⟩ := exec_beloc hi
  · rw [hexec, State.beloc_notRunning h]
  · rw [hexec, State.beloc_guardFalse hk hrun hfetch hlegal hg]

/-! ### Unassigned words -/

theorem bits_ofNat_mod {w : Word64} {lo width : Nat} (h : lo + width ≤ 32) :
    bits (BitVec.ofNat 64 (w.toNat % 2 ^ 32)) lo width = bits w lo width := by
  apply Nat.eq_of_testBit_eq
  intro i
  simp only [bits, BitVec.toNat_ofNat, Nat.testBit_mod_two_pow, Nat.testBit_shiftRight]
  by_cases hi : i < width
  · have h32 : lo + i < 32 := by omega
    have h64 : lo + i < 64 := by omega
    simp [hi, h32, h64]
  · simp [hi]

/-- The word as an instruction of its own length. -/
def ownWord (w : Word64) : Word64 := if lengthOf w = 4 then BitVec.ofNat 64 (bits w 0 32) else w

theorem bits_ownWord {w : Word64} {lo width : Nat} (h : lo + width ≤ 32) : bits (ownWord w) lo width = bits w lo width := by
  unfold ownWord
  split
  · exact bits_ofNat_mod h
  · rfl

theorem bits_opcode (w : Word64) : bits w 0 7 = w.toNat % 128 := by simp [bits]

theorem guardOf_eq (w : Word64) : guardOf w = ⟨BitVec.ofNat 3 (w.toNat / 128), w.getLsbD 10⟩ := by
  have hpred : BitVec.ofNat 3 (bits w 7 3) = BitVec.ofNat 3 (w.toNat / 128) := by
    apply BitVec.eq_of_toNat_eq
    simp [bits, Nat.shiftRight_eq_div_pow]
  have hinv : decide (bits w 10 1 = 1) = w.getLsbD 10 := by
    simp [bits, BitVec.getLsbD, Nat.testBit_eq_decide_div_mod_eq, Nat.shiftRight_eq_div_pow]
  rw [guardOf, hpred, hinv]

/-- R65: an unassigned word goes through the wrapper of every instruction, under the opcode, guard and length that it spells. -/
theorem exec_illegalOpcode {w : Word64} (h : assigned (ownWord w) = false) :
    exec (.illegalOpcode n w) s =
      .next (s.beloc n (guardOf w) (w.toNat % 128) (lengthOf w) fun _ _ => .fault s Fc.illegal 0) := by
  have hop : bits (ownWord w) 0 7 = bits w 0 7 := bits_ownWord (by decide)
  have hguard : guardOf (ownWord w) = guardOf w := by
    rw [guardOf, bits_ownWord (by decide), bits_ownWord (by decide), guardOf]
  have hlen : lengthOf (ownWord w) = lengthOf w := by rw [lengthOf, hop, lengthOf]
  have hexec : exec (.illegalOpcode n w) s = execIllegalOpcode n w s := rfl
  rw [hexec, execIllegalOpcode, ← ownWord]
  dsimp only
  rw [h, hop, hguard, hlen, bits_opcode]
  rfl

theorem assigned_zero {w : Word64} (h : w.toNat % 128 = 0) : assigned w = false := by
  simp [assigned, bits_opcode, h]

theorem sharedIssueFaults_unassigned : claimUnassignedOpcodes := by
  refine ⟨fun s n k w hk hrun hfetch => ?_, fun w hw => assigned_zero hw, by decide, ⟨_, rfl, fun _ _ => rfl⟩, ⟨_, rfl, fun _ _ => rfl⟩,
    ⟨_, rfl, fun _ _ => rfl⟩⟩
  intro op g nope apart hunassigned
  have hlen : lengthOf w = if op < 0x60 then 4 else 8 := by rw [lengthOf, bits_opcode]
  have hown : ownWord w = if op < 0x60 then BitVec.ofNat 64 (w.toNat % 2 ^ 32) else w := by
    rw [ownWord, hlen]
    split <;> simp [bits]
  have hexec := exec_illegalOpcode (s := s) (n := n) (w := w) (hown ▸ hunassigned)
  rw [guardOf_eq, hlen] at hexec
  rw [hexec]
  refine ⟨fun hnope => congrArg _ (State.beloc_illegalGuard hk hrun hfetch hnope.1 hnope.2), fun hlegal hg hnear => ?_,
    fun hlegal hg hapart => ?_, fun hlegal hg => congrArg _ (State.beloc_guardFalse hk hrun hfetch hlegal hg)⟩
  · refine congrArg _ (State.beloc_faultsAt ⟨hk, hrun, hfetch, hlegal, hg⟩ (fun h8 => ?_) rfl)
    split at h8
    · omega
    · exact not_not.1 fun hpc => hnear ⟨by omega, hpc⟩
  · exact congrArg _ (State.beloc_apart hk hrun hfetch hlegal hg (if_neg (by omega)) hapart.2)

/-- Settles O5: what stops an instruction before its own function runs is one wrapper's answer, the same for every row. -/
theorem sharedIssueFaults : Obligations.SharedIssueFaults :=
  ⟨sharedIssueFaults_traps, sharedIssueFaults_unassigned, sharedIssueFaults_notExecuted⟩

end Sys2Proof.Machine
end

section
/-! SUPPORT. What retiring does (R96, R414): the PC, and the sampling gap. -/

namespace Sys2Proof.Machine

variable {s : State} {n : Nat} {k : Kern}

/-! ### Entries put twice -/

theorem spIns_spIns {α : Type} (m : Sp α) (i : Nat) (v w : α) : spIns (spIns m i v) i w = spIns m i w := by
  induction m with
  | nil => simp [spIns]
  | cons p m ih =>
    obtain ⟨j, x⟩ := p
    simp only [spIns]
    split
    · simp [spIns]
    · split
      · simp [spIns]
      · simp [spIns, *]

@[simp] theorem State.setPav_setPav (s : State) (n : Nat) (p q : Pav) : (s.setPav n p).setPav n q = s.setPav n q := by
  simp [State.setPav, spPut, spIns_spIns]

@[simp] theorem State.setPav_get (s : State) (n : Nat) (p : Pav) (f : Fld) (idx : List Nat) : (s.setPav n p).get f idx = s.get f idx := rfl

@[simp] theorem State.mapPav_get (s : State) (n : Nat) (u : Pav → Pav) (f : Fld) (idx : List Nat) : (s.mapPav n u).get f idx = s.get f idx := rfl

/-! ### The gap -/

theorem State.sampleWrite_disabled (h : s.get F.TL_SAMPLE_RING_EN = 0) (bs : List Byte) : s.sampleWrite bs = s := by
  simp [State.sampleWrite, h]

section
variable {pc op tag addr : Nat} {fault : Bool} {issue : Option Nat}

/-- Sampling disabled. -/
theorem State.sampleOne_disabled (h : s.get F.TL_SAMPLE_CTL_EN = 0) : s.sampleOne n pc op tag k fault addr issue = s := by
  simp [State.sampleOne, h]

variable (h : s.get F.TL_SAMPLE_CTL_EN ≠ 0)
include h

/-- An instruction within the gap. -/
theorem State.sampleOne_within (hgap : 1 < (s.pav n).gap) :
    s.sampleOne n pc op tag k fault addr issue = s.setPav n { s.pav n with gap := (s.pav n).gap - 1 } := by
  simp [State.sampleOne, h, hgap]

/-- The instruction that ends the gap, with no tag and no ring to record it in. -/
theorem State.sampleOne_ends (hgap : (s.pav n).gap ≤ 1) (hring : s.get F.TL_SAMPLE_RING_EN = 0) :
    s.sampleOne n pc op 0 k fault addr issue =
      { s.setPav n { s.pav n with gap := (drawGap s.sampleExp 4096 (s.pav n).gen).1, gen := (drawGap s.sampleExp 4096 (s.pav n).gen).2 }
          with freeCtr := s.freeCtr + 1 } := by
  have hno : ¬(s.pav n).gap > 1 := by omega
  unfold State.sampleOne State.fresh
  dsimp only
  rw [if_neg h, if_neg hno, if_neg (by simp)]
  exact State.sampleWrite_disabled (by exact hring) _

end

/-- Settles O6: retiring moves the PC, and the sample of one instruction does the rest. -/
theorem retireAndSampling : Obligations.RetireAndSampling := by
  intro s n op len tag addr pc k dest issue next moved
  refine ⟨fun hlive => ?_, fun hfaulted hoff => ?_⟩
  · have hretire : s.retire n op len tag addr k pc dest issue = moved.sampleOne n pc op tag k false addr issue := if_neg hlive
    have hpav : moved.pav n = { s.pav n with pc := next } := State.pav_mapPav_self ..
    rw [hretire]
    refine ⟨fun hoff => State.sampleOne_disabled (s := moved) hoff, fun hon hgap => ?_, fun hon hgap hring htag => ?_⟩
    · rw [State.sampleOne_within (s := moved) hon (by rwa [hpav]), hpav]
    · subst htag
      rw [State.sampleOne_ends (s := moved) hon (by rwa [hpav]) hring, hpav]
      rfl
  · rw [State.retire, if_pos hfaulted, State.sampleOne_disabled hoff]

end Sys2Proof.Machine
end

section
/-! SUPPORT. The vector unit (R70 to R73): what an operation does to the lanes of its destination, and what it leaves alone. -/

namespace Sys2Proof.Machine

variable {s : State} {n : Nat} {g : Guard} {k : Kern} {p : Pav}

/-! ### Lanes written one after the other -/

theorem spGet_foldl_range {α : Type} [DecidableEq α] (d : α) (m : Sp α) (a x len : Nat) (v : Nat → α) :
    spGet d ((List.range len).foldl (fun m i => spPut d m (a + i) (v i)) m) x =
      if a ≤ x ∧ x < a + len then v (x - a) else spGet d m x := by
  induction len with
  | zero =>
    have hout : ¬(a ≤ x ∧ x < a + 0) := by omega
    rw [if_neg hout]
    rfl
  | succ len ih =>
    rw [List.range_succ, List.foldl_append, List.foldl_cons, List.foldl_nil]
    obtain rfl | hx := eq_or_ne x (a + len)
    · rw [spGet_spPut_self, if_pos (by omega), Nat.add_sub_cancel_left]
    · rw [spGet_spPut_ne d d _ _ hx.symm, ih]
      exact if_congr (by omega) rfl rfl

/-- Lanes made the words of a list: nothing but the vector file changes. -/
theorem Pav.setLanes_eq (p : Pav) (r : BitVec 5) (l : List Word32) :
    p.setLanes r l = { p with v := l.zipIdx.foldl (fun m x => spPut 0 m (64 * r.toNat + x.2) x.1) p.v } := by
  unfold Pav.setLanes
  generalize l.zipIdx = z
  induction z generalizing p with
  | nil => rfl
  | cons x z ih => rw [List.foldl_cons, ih]; rfl

/-- Lanes made from their source lanes: nothing but the vector file and the flags changes. -/
theorem Pav.mapLanes_eq (p : Pav) (ty : BitVec 2) (vd : BitVec 5) (srcs : Nat → List Word32) (f : List Nat → Nat × Nat) :
    p.mapLanes ty vd srcs f = { p with
      v := (List.range p.vl).foldl (fun m i => spPut 0 m (64 * vd.toNat + i) (laneResult ty f (srcs i)).1) p.v,
      fstat := (List.range p.vl).foldl (fun m i => m ||| (laneResult ty f (srcs i)).2) p.fstat } := by
  unfold Pav.mapLanes
  generalize List.range p.vl = l
  induction l generalizing p with
  | nil => rfl
  | cons i l ih => rw [List.foldl_cons, ih]; rfl

/-! ### Instructions of the vector unit -/

section
variable (h : s.Issues n g k) {i : Instr} {op : Nat} {legal : Bool} {ty : BitVec 2} {vd : BitVec 5}
  {srcs : Pav → Nat → List Word32} {f : List Nat → Nat × Nat} (hexec : exec i s = .next (s.vecOp n g op legal ty vd srcs f))
include h hexec

theorem exec_vecOp_legal (hl : legal = true) {lanes : Nat → List Word32} (hsrcs : srcs (s.pav n) = lanes) :
    exec i s = .next (s.retiresVec n op k ((s.pav n).mapLanes ty vd lanes f)) := by
  subst hsrcs
  rw [hexec, State.vecOp, State.beloc_vdone4 h (if_pos hl)]

theorem exec_vecOp_illegal (hl : legal = false) : exec i s = .next (s.faultsAt n op k Fc.illegal 0) := by
  rw [hexec, State.vecOp, State.beloc_faultsAt4 h (if_neg (by simp [hl]))]

end

/-! ### VADD and its kind -/

/-- The rows of R70's table are the model's operations on two vectors and on a vector and a scalar. -/
theorem vectorRows_exec {row} (h : row ∈ vectorRows) (n : Nat) (g : Guard) (ty : BitVec 2) (vd vs1 vs2 : BitVec 5) (s : State) :
    exec (row.1 n g ty vd vs1 vs2) s = .next (s.vecOp n g 0x20 (row.2.2.legal ty) ty vd
      (fun p i => [p.lane vs1 i, p.lane vs2 i]) (row.2.2.elem ty)) ∧
    exec (row.2.1 n g ty vd vs1 vs2) s = .next (s.vecOp n g 0x22 (row.2.2.legal ty) ty vd
      (fun p i => [p.lane vs1 i, scalarLane ty (p.reg vs2)]) (row.2.2.elem ty)) := by
  simp only [vectorRows, List.mem_cons, List.not_mem_nil, or_false] at h
  obtain rfl | rfl | rfl | rfl | rfl | rfl | rfl | rfl | rfl | rfl | rfl := h <;> exact ⟨rfl, rfl⟩

/-- R70: T = 3 for bitwise functions and shifts. -/
theorem VOp.legal_iff (o : VOp) (ty : BitVec 2) : o.legal ty = true ↔ o ∈ [VOp.add, .sub, .mul, .max, .min] ∨ ty = 3 := by
  cases o <;> simp [VOp.legal]

theorem scalarLane_eq (ty : BitVec 2) (w : Word64) :
    scalarLane ty w = if ty = 1 ∨ ty = 2 then BitVec.ofNat 32 (w.toNat % 65536 * 65537) else w.setWidth 32 := by
  simp [scalarLane, isPacked]

theorem vectorArithmetic_rows : claimVectorArithmetic := by
  intro row hrow s n g k ty vd vs1 vs2 h p o allowed scalar
  obtain ⟨hvv, hvs⟩ := vectorRows_exec hrow n g ty vd vs1 vs2 s
  have hscalar : scalarLane ty (p.reg vs2) = scalar := scalarLane_eq ty _
  refine ⟨fun hal => ?_, fun hal => ?_⟩
  · have hl : o.legal ty = true := (VOp.legal_iff o ty).2 hal
    exact ⟨exec_vecOp_legal h hvv hl rfl, exec_vecOp_legal h hvs hl (by rw [← hscalar])⟩
  · have hl : o.legal ty = false := Bool.eq_false_iff.2 (mt (VOp.legal_iff o ty).1 hal)
    exact ⟨exec_vecOp_illegal h hvv hl, exec_vecOp_illegal h hvs hl⟩

/-! ### One rounding (R40) -/

/-- The code of a fused multiply-add is the exact sum rounded once, whatever its flags. -/
theorem fmaElem_code (f : Fmt) (negP negC : Bool) (l : List Nat) :
    (fmaElem f negP negC l).1 = roundIeee f .rne
      ((if negP then ((decodeVal f ((l[1]?).getD 0)).mul (decodeVal f ((l[2]?).getD 0))).neg
        else (decodeVal f ((l[1]?).getD 0)).mul (decodeVal f ((l[2]?).getD 0))).add
        (if negC then (decodeVal f ((l[0]?).getD 0)).neg else decodeVal f ((l[0]?).getD 0))) := by
  unfold fmaElem
  dsimp only
  split <;> rfl

/-- A row that T = 3 makes illegal and whose elements are each rounded once. -/
theorem exec_vecOp_rounded (h : s.Issues n g k) {i : Instr} {op : Nat} {ty : BitVec 2} {vd : BitVec 5} {srcs : Pav → Nat → List Word32}
    {e : List Nat → Nat × Nat} {v : List Nat → Val} (hexec : exec i s = .next (s.vecOp n g op (decide (ty ≠ 3)) ty vd srcs e))
    {lanes : Nat → List Word32} (hsrcs : srcs (s.pav n) = lanes) (hround : ∀ l, (e l).1 = roundIeee (typeFmt ty) .rne (v l)) :
    (ty ≠ 3 → ∃ r : List Nat → Nat × Nat, (∀ l, (r l).1 = roundIeee (typeFmt ty) .rne (v l)) ∧
      exec i s = .next (s.retiresVec n op k ((s.pav n).mapLanes ty vd lanes r))) ∧
    (ty = 3 → exec i s = .next (s.faultsAt n op k Fc.illegal 0)) :=
  ⟨fun hty => ⟨e, hround, exec_vecOp_legal h hexec (decide_eq_true hty) hsrcs⟩,
    fun hty => exec_vecOp_illegal h hexec (decide_eq_false (not_not.2 hty))⟩

theorem vectorArithmetic_roundedOnce : claimVectorRoundedOnce := by
  intro s n g k ty vd vs1 vs2 h p f val made one two three
  exact ⟨exec_vecOp_rounded h rfl rfl fun _ => rfl, exec_vecOp_rounded h rfl rfl fun _ => rfl,
    exec_vecOp_rounded h rfl rfl (fmaElem_code f false false), exec_vecOp_rounded h rfl rfl (fmaElem_code f true false),
    exec_vecOp_rounded h rfl rfl (fmaElem_code f false true)⟩

end Sys2Proof.Machine
end

section
/-! SUPPORT. VCVT (R71): the pairs it converts, and what a conversion leaves. -/

namespace Sys2Proof.Machine

variable {s : State} {n : Nat} {g : Guard} {k : Kern}

/-! ### Pairs of formats -/

theorem Fmt.isIeee_iff (f : Fmt) : f.isIeee = true ↔ f = .fp32 ∨ f = .bf16 ∨ f = .fp16 := by
  cases f <;> simp [Fmt.isIeee]

/-- A format is MX where it is neither an integer format nor one of IEEE 754. -/
theorem Fmt.isMx_iff (f : Fmt) : f.isMx = true ↔ ¬(f = .int32 ∨ f = .int8) ∧ ¬(f = .fp32 ∨ f = .bf16 ∨ f = .fp16) := by
  cases f <;> simp [Fmt.isMx]

theorem cvtLegal_iff (f d : Fmt) : cvtLegal f d = true ↔
    f ≠ d ∧ ((¬f.isMx = true ∧ ¬d.isMx = true) ∨ (f.isIeee = true ∧ d.isMx = true) ∨ (f.isMx = true ∧ d.isIeee = true)) := by
  simp [cvtLegal, or_assoc]

/-! ### What a conversion leaves -/

/-- Elements written to a register, and EIDX moved on under SR. -/
theorem Pav.bumpEidx_writeElems (p : Pav) (d : Fmt) (vd : BitVec 5) (vs : List Val) :
    (p.writeElems d vd vs).bumpEidx =
      if p.rmode = 1 then { p.writeElems d vd vs with eidx := (p.eidx + p.vl) % 2 ^ 32 } else p.writeElems d vd vs := by
  simp only [Pav.bumpEidx, Pav.writeElems, Pav.setVecBytes, Pav.setLanes_eq]

@[simp] theorem Pav.bumpEidx_writeElems_fstat (p : Pav) (d : Fmt) (vd : BitVec 5) (vs : List Val) :
    (p.writeElems d vd vs).bumpEidx.fstat = p.fstat := by
  simp only [Pav.bumpEidx, Pav.writeElems, Pav.setVecBytes, Pav.setLanes_eq]
  split <;> rfl

/-! ### The instruction -/

section
variable (h : s.Issues n g k) {dst src : BitVec 4} {vd vs1 : BitVec 5}
include h

theorem exec_vcvt_illegal
    (hno : ∀ f d, Fmt.ofCode src.toNat = some f → Fmt.ofCode dst.toNat = some d → cvtLegal f d = false) :
    exec (.vcvt n g dst src vd vs1) s = .next (s.faultsAt n 0x23 k Fc.illegal 0) := by
  have hexec : exec (.vcvt n g dst src vd vs1) s = execVcvt n g dst src vd vs1 s := rfl
  rw [hexec, execVcvt, State.beloc_faultsAt4 h]
  dsimp only
  split
  · rename_i d f hd hf
    rw [hno f d hf hd]
    rfl
  · rfl

variable {f d : Fmt} (hf : Fmt.ofCode src.toNat = some f) (hd : Fmt.ofCode dst.toNat = some d) (hl : cvtLegal f d = true)
include hf hd hl

theorem exec_vcvt_zero (hvl : (s.pav n).vl = 0) : exec (.vcvt n g dst src vd vs1) s = .next (s.retiresVec n 0x23 k (s.pav n)) := by
  have hexec : exec (.vcvt n g dst src vd vs1) s = execVcvt n g dst src vd vs1 s := rfl
  rw [hexec, execVcvt, State.beloc_vdone4 h]
  simp [hf, hd, hl, hvl]

variable (hvl : 0 < (s.pav n).vl)
include hvl

/-- The flags of a conversion into an MX format are a free value. -/
theorem exec_vcvt_mx (hmx : d.isMx = true) : exec (.vcvt n g dst src vd vs1) s =
    .next (({ s with freeCtr := s.freeCtr + 1 } : State).retiresVec n 0x23 k
      { ((s.pav n).writeElems d vd ((readElems f (s.pav n).vl ((s.pav n).vecBytes vs1)).map (·.2))).bumpEidx with
        fstat := (s.pav n).fstat ||| ((Config.freeValue s.freeCtr).toNat % 32) }) := by
  have hexec : exec (.vcvt n g dst src vd vs1) s = execVcvt n g dst src vd vs1 s := rfl
  rw [hexec, execVcvt, State.beloc_done4 h (t := (({ s with freeCtr := s.freeCtr + 1 } : State).setPav n _).advance F.PV_CYC_VEC_COUNT [n])
    (tag := 0) (addr := 0)]
  · rfl
  · simp [hf, hd, hl, hvl.ne', hmx, State.fresh, State.vdone]

theorem exec_vcvt_rounded (hmx : d.isMx = false) : exec (.vcvt n g dst src vd vs1) s =
    .next (s.retiresVec n 0x23 k
      { ((s.pav n).writeElems d vd ((readElems f (s.pav n).vl ((s.pav n).vecBytes vs1)).map (·.2))).bumpEidx with
        fstat := (s.pav n).fstat ||| (((readElems f (s.pav n).vl ((s.pav n).vecBytes vs1)).zipIdx).map fun x =>
          cvtFlags f d ((s.pav n).rnd x.2) x.1.1 x.1.2 (roundVal d ((s.pav n).rnd x.2) x.1.2)).foldl (· ||| ·) 0 }) := by
  have hexec : exec (.vcvt n g dst src vd vs1) s = execVcvt n g dst src vd vs1 s := rfl
  rw [hexec, execVcvt, State.beloc_vdone4 h]
  simp [hf, hd, hl, hvl.ne', hmx]

end

theorem vectorArithmetic_conversions : claimVcvtConversions := by
  intro s n g k dst src vd vs1 h p ints ieee mx listed
  have hlisted : ∀ f d, cvtLegal f d = true ↔ listed f d := fun f d => by
    rw [cvtLegal_iff, Fmt.isMx_iff, Fmt.isMx_iff, Fmt.isIeee_iff, Fmt.isIeee_iff]
  refine ⟨fun f d hf hd hl => ?_, fun hno => exec_vcvt_illegal h fun f d hf hd => ?_⟩
  · intro es q q'
    have hlegal := (hlisted f d).2 hl
    have hq' : (p.writeElems d vd (es.map (·.2))).bumpEidx = q' := Pav.bumpEidx_writeElems ..
    rw [← hq']
    exact ⟨fun hvl => exec_vcvt_zero h hf hd hlegal hvl,
      fun hvl hmx => exec_vcvt_mx h hf hd hlegal hvl ((Fmt.isMx_iff d).2 hmx),
      fun hvl hmx => exec_vcvt_rounded h hf hd hlegal hvl (Bool.eq_false_iff.2 (mt (Fmt.isMx_iff d).1 hmx))⟩
  · refine Bool.eq_false_iff.2 fun hlegal => ?_
    obtain hf' | hd' | ⟨f', d', hf', hd', hl'⟩ := hno
    · simp [hf] at hf'
    · simp [hd] at hd'
    · obtain rfl : f = f' := Option.some.inj (hf.symm.trans hf')
      obtain rfl : d = d' := Option.some.inj (hd.symm.trans hd')
      exact hl' ((hlisted f d).1 hlegal)

/-- Settles O7: a row of two vectors or of a vector and a scalar is one shared operation on its element function. -/
theorem vectorArithmetic : Obligations.VectorArithmetic :=
  ⟨vectorArithmetic_rows, vectorArithmetic_roundedOnce, vectorArithmetic_conversions⟩

end Sys2Proof.Machine
end

section
/-! SUPPORT. The lanes of a vector result, moves between lanes, scalars, tile memory and accumulator tiles (R70, R77). -/

namespace Sys2Proof.Machine

variable {s : State} {n : Nat} {g : Guard} {k : Kern} {p : Pav}

/-! ### The lanes of a result -/

theorem laneIndex_ne {r vd : BitVec 5} (h : r ≠ vd) {i len : Nat} (hi : i < 64) (hlen : len ≤ 64) :
    ¬(64 * vd.toNat ≤ 64 * r.toNat + i ∧ 64 * r.toNat + i < 64 * vd.toNat + len) := by
  have hne : r.toNat ≠ vd.toNat := fun heq => h (BitVec.eq_of_toNat_eq heq)
  omega

section
variable (ty : BitVec 2) (vd : BitVec 5) (srcs : Nat → List Word32) (f : List Nat → Nat × Nat)

/-- A lane of any register after an operation of `vl` lanes. -/
theorem Pav.mapLanes_lane (p : Pav) (r : BitVec 5) (i : Nat) :
    (p.mapLanes ty vd srcs f).lane r i =
      if 64 * vd.toNat ≤ 64 * r.toNat + i ∧ 64 * r.toNat + i < 64 * vd.toNat + p.vl
      then (laneResult ty f (srcs (64 * r.toNat + i - 64 * vd.toNat))).1 else p.lane r i := by
  simp only [Pav.lane, Pav.mapLanes_eq]
  exact spGet_foldl_range 0 p.v _ _ _ fun i => (laneResult ty f (srcs i)).1

/-- R70: lanes 0 to VL - 1 take the results, and nothing else but the flags changes. -/
theorem Pav.mapLanes_frame (hv : spSorted p.v) (hvl : p.vl ≤ 64) :
    let q := p.mapLanes ty vd srcs f
    spSorted q.v ∧ (∀ i, i < p.vl → q.lane vd i = (laneResult ty f (srcs i)).1) ∧
    (∀ i, p.vl ≤ i → i < 64 → q.lane vd i = p.lane vd i) ∧ (∀ r i, r ≠ vd → i < 64 → q.lane r i = p.lane r i) ∧
    q.s = p.s ∧ q.p = p.p ∧ q.a = p.a ∧ q.t = p.t ∧ q.tile = p.tile ∧ q.pc = p.pc ∧ q.digest = p.digest ∧ q.eidx = p.eidx := by
  refine ⟨?_, fun i hi => ?_, fun i hlo _ => ?_, fun r i hr hi => ?_, ?_⟩
  · rw [Pav.mapLanes_eq]
    exact spSorted_foldl_spPut 0 _ _ _ hv
  · rw [Pav.mapLanes_lane, if_pos (by omega), Nat.add_sub_cancel_left]
  · rw [Pav.mapLanes_lane, if_neg (by omega)]
  · rw [Pav.mapLanes_lane, if_neg (laneIndex_ne hr hi hvl)]
  · simp only [Pav.mapLanes_eq, and_self]

end

/-- An INT32 operation on two lanes. -/
theorem laneResult_int (o : VOp) (a b : Word32) : (laneResult 3 (o.elem 3) [a, b]).1 = o.int a b := by
  simp [laneResult, laneElems, isPacked, packLane, VOp.elem]

/-- A packed type treats the halves of a word apart. -/
theorem laneResult_packed (o : VOp) {ty : BitVec 2} (hty : ty = 1 ∨ ty = 2) (a b : Word32) :
    (laneResult ty (o.elem ty) [a, b]).1 = BitVec.ofNat 32 ((o.float (typeFmt ty) (a.toNat % 65536) (b.toNat % 65536)).1 % 65536 +
      65536 * (o.float (typeFmt ty) (a.toNat / 65536) (b.toNat / 65536)).1) := by
  have hp : isPacked ty = true := by obtain rfl | rfl := hty <;> rfl
  have h3 : ty ≠ 3 := by obtain rfl | rfl := hty <;> decide
  have helem : ∀ x y, o.elem ty [x, y] = o.float (typeFmt ty) x y := fun _ _ => if_neg h3
  have hpack : ∀ x y, packLane ty [x, y] = BitVec.ofNat 32 (x % 65536 + y * 65536) := fun _ _ => if_pos hp
  have helems : ∀ w, laneElems ty w = [w.toNat % 65536, w.toNat / 65536] := fun _ => if_pos hp
  rw [Nat.mul_comm 65536]
  simp only [laneResult, helems, hp, if_true, List.range_succ, List.range_zero, List.nil_append, List.map_cons, List.map_nil,
    List.cons_append, List.getElem?_cons_zero, List.getElem?_cons_succ, Option.getD_some, helem, hpack]

theorem vectorMoves_lanes : claimVectorLaneFrame := by
  refine ⟨fun p ty vd srcs f hv hvl => Pav.mapLanes_frame ty vd srcs f hv hvl, fun a b => ?_, fun o ty a b hty =>
    laneResult_packed o hty a b⟩
  simp only [laneResult_int]
  exact ⟨rfl, rfl, rfl, larger_eq_ofInt a b, smaller_eq_ofInt a b, rfl, rfl, rfl, rfl, rfl, rfl⟩

/-! ### Moves between tile memory and lanes -/

/-- The address of VLD and VST in the integers: modulo 2^64. -/
theorem vecAddr_eq (p : Pav) (rs1 : BitVec 5) (imm : BitVec 11) :
    vecAddr p rs1 imm = (BitVec.ofInt 64 ((p.reg rs1).toInt + 64 * imm.toInt)).toNat := by
  have himm : sext11 imm <<< 6 = BitVec.ofInt 64 (64 * imm.toInt) := by
    rw [BitVec.shiftLeft_eq_mul_twoPow, BitVec.ofInt_mul, mul_comm, sext11, BitVec.signExtend]
    rfl
  rw [vecAddr, himm, BitVec.ofInt_add, BitVec.ofInt_toInt]

theorem flatMap_leBytes_length (len w : Nat) (v : Nat → Nat) : ((List.range len).flatMap fun i => leBytes (v i) w).length = w * len := by
  simp [List.length_flatMap, Nat.mul_comm]

section
variable (h : s.Issues n g k) {vd rs1 : BitVec 5} {imm : BitVec 11} {a : Nat} (ha : vecAddr (s.pav n) rs1 imm = a)
include h

theorem exec_vld_zero (hvl : (s.pav n).vl = 0) :
    exec (.vld n g vd rs1 imm) s = .next (s.retires n 0x24 4 k (s.pav n) 0 0) :=
  congrArg _ (State.beloc_doneWith4 h (if_pos hvl))

theorem exec_vst_zero (hvl : (s.pav n).vl = 0) :
    exec (.vst n g vd rs1 imm) s = .next (s.retires n 0x25 4 k (s.pav n) 0 0) :=
  congrArg _ (State.beloc_doneWith4 h (if_pos hvl))

variable (hvl : 0 < (s.pav n).vl) (hal : a % 64 = 0) (hserves : (s.pav n).serves a (4 * (s.pav n).vl))
include ha hvl hal hserves

theorem exec_vld (hgood : (s.pav n).badWord a (4 * (s.pav n).vl) = none) :
    exec (.vld n g vd rs1 imm) s = .next (((s.countTile n a (4 * (s.pav n).vl)).setPav n
      ((s.pav n).setLanes vd ((List.range (s.pav n).vl).map fun i =>
        BitVec.ofNat 32 (leNat ((((s.pav n).bytes a (4 * (s.pav n).vl)).drop (4 * i)).take 4))))).retire n 0x24 4 0 a k
          (s.pav n).pc none) := by
  subst ha
  exact congrArg _ (State.beloc_done4 h ((if_neg hvl.ne').trans (State.tileRead_ok hal hserves hgood)))

theorem exec_vst :
    exec (.vst n g vd rs1 imm) s = .next ((s.tileStore n a ((List.range (s.pav n).vl).flatMap fun i =>
      leBytes ((s.pav n).lane vd i).toNat 4)).retire n 0x25 4 0 a k (s.pav n).pc none) := by
  subst ha
  refine congrArg _ (State.beloc_tileWrite4 h (if_neg hvl.ne') hal ?_)
  rwa [flatMap_leBytes_length]

end

/-! ### Accumulator tiles -/

theorem Pav.tileBusy_eq_false {t : Nat} (h : ∀ o ∈ p.out, ∀ arr sp q cells, o.op ≠ .product arr t sp q cells) : p.tileBusy t = false := by
  refine List.any_eq_false.2 fun o ho => ?_
  split
  · rename_i arr td sp q cells hop
    exact fun heq => h o ho arr sp q cells (of_decide_eq_true heq ▸ hop)
  · simp

/-- What TRD, TWR and TCLR do once no outstanding product writes the tile. -/
theorem State.beloc_tile (h : s.Issues n g k) {op t : Nat} {f : Pav → Kern → Res} {q : Pav} (hfree : (s.pav n).tileBusy t = false)
    (hf : f (s.pav n) k = if (s.pav n).tileBusy t then .stall else s.vdone n q) : s.beloc n g op 4 f = s.retiresVec n op k q :=
  State.beloc_vdone4 h (hf.trans (if_neg (by simp [hfree])))

theorem vectorMoves_rows : claimVectorMoves := by
  intro s n g k vd vs1 rd rs1 imm lane r tile h p a word free
  have ha : vecAddr p rs1 imm = a := vecAddr_eq p rs1 imm
  have hword : BitVec.ofNat 32 (p.reg rs1).toNat = word := BitVec.ofNat_toNat 32 _
  refine ⟨fun hvl => ⟨exec_vld_zero h hvl, exec_vst_zero h hvl⟩,
    fun hvl hal hserves => ⟨exec_vld h ha hvl hal hserves, exec_vst h ha hvl hal hserves⟩,
    congrArg _ (State.beloc_vdone4 h (by rw [← hword])), congrArg _ (State.beloc_vdone4 h rfl),
    congrArg _ (State.beloc_vdone4 h (by rw [← hword])), fun hfree => ?_⟩
  have hbusy : (s.pav n).tileBusy tile.toNat = false := Pav.tileBusy_eq_false hfree
  exact ⟨congrArg _ (State.beloc_tile h hbusy rfl), congrArg _ (State.beloc_tile h hbusy rfl),
    congrArg _ (State.beloc_tile h hbusy rfl)⟩

/-- Settles O8: a lane's result is what its element function gives, and every move is one access or one write of lanes. -/
theorem vectorMoves : Obligations.VectorMoves := ⟨vectorMoves_rows, vectorMoves_lanes⟩

end Sys2Proof.Machine
end

section
/-! SUPPORT. VRED and VDG (R72, R73): how lanes are combined in a tree, and folded into the digest in pairs. -/

namespace Sys2Proof.Machine

variable {s : State} {n : Nat} {g : Guard} {k : Kern}

/-! ### The tree of VRED -/

section
variable (f : Nat → Nat → Nat × Nat)

theorem treeOf_single {l : List Nat} (h : l.length ≤ 1) (m : Nat) : treeOf f m l = ((l.head?).getD 0, 0) := by
  cases m with
  | zero => rfl
  | succ m => rw [treeOf, if_pos h]

/-- A level of the tree has half as many values, an odd one counted as a pair. -/
theorem pairUp_length : ∀ l : List Nat, (pairUp f l).1.length = (l.length + 1) / 2
  | [] => by simp [pairUp]
  | [_] => by simp [pairUp]
  | a :: b :: rest => by
    simp only [pairUp, List.length_cons, pairUp_length rest]
    omega

/-- R72: adjacent pairs are combined. -/
theorem pairUp_pair : ∀ (l : List Nat) (j : Nat), 2 * j + 1 < l.length →
    (pairUp f l).1[j]? = some (f ((l[2 * j]?).getD 0) ((l[2 * j + 1]?).getD 0)).1
  | [], _, h => by simp at h
  | [_], _, h => by simp at h
  | a :: b :: rest, 0, _ => by simp [pairUp]
  | a :: b :: rest, j + 1, h => by
    have hj : 2 * (j + 1) = 2 * j + 1 + 1 := by omega
    simp only [pairUp, hj, List.getElem?_cons_succ]
    exact pairUp_pair rest j (by simp only [List.length_cons] at h; omega)

/-- R72: an unpaired last value moves up unchanged. -/
theorem pairUp_unpaired : ∀ l : List Nat, l.length % 2 = 1 → (pairUp f l).1[l.length / 2]? = l[l.length - 1]?
  | [], h => by simp at h
  | [_], _ => by simp [pairUp]
  | a :: b :: rest, h => by
    simp only [List.length_cons] at h ⊢
    have hhalf : (rest.length + 1 + 1) / 2 = rest.length / 2 + 1 := by omega
    have hlast : rest.length + 1 + 1 - 1 = rest.length - 1 + 1 + 1 := by omega
    rw [hhalf, hlast]
    simp only [pairUp, List.getElem?_cons_succ]
    exact pairUp_unpaired rest (by omega)

theorem treeOf_level {m : Nat} {l : List Nat} (h : 1 < l.length) (hm : l.length ≤ 2 ^ m) :
    (treeOf f m l).1 = (treeOf f (m - 1) (pairUp f l).1).1 := by
  cases m with
  | zero => omega
  | succ m => rw [treeOf, if_neg (not_le.2 h)]; rfl

end

/-- Settles O9: the tree goes up a level at a time, and a level is `pairUp`. -/
theorem vredTree : Obligations.VredTree := by
  refine ⟨fun s n g k fn rd vs1 h => ?_, fun f m l hm => ⟨fun hl => treeOf_single f hl m, fun hl =>
    ⟨(pairUp f l).1, pairUp_length f l, pairUp_pair f l, pairUp_unpaired f l, treeOf_level f hl hm⟩⟩⟩
  intro p f r
  refine ⟨congrArg _ (State.beloc_vdone4 h ?_), fun hvl => ?_⟩
  · have hfn : fn = 0 ∨ fn = 1 ∨ fn = 2 ∨ fn = 3 := by
      clear r f
      revert fn
      decide
    obtain rfl | rfl | rfl | rfl := hfn <;> rfl
  · have hnone : (List.range p.vl).map (fun i => (p.lane vs1 i).toNat) = [] := by rw [hvl]; rfl
    exact (congrArg (treeOf f 7) hnone).trans (treeOf_single f (by decide) 7)

/-! ### The fold of VDG -/

/-- The word that lanes 2j and 2j + 1 of a list make: an odd last lane is paired with zero (R73). -/
def pairWord (l : List Word32) (j : Nat) : Word64 :=
  ((l[2 * j]?).getD 0).setWidth 64 ||| (if 2 * j + 1 < l.length then ((l[2 * j + 1]?).getD 0).setWidth 64 <<< 32 else 0)

/-- The digest takes one word for each pair, in ascending order. -/
theorem foldLanes_eq_foldl (l : List Word32) (d : Word64) :
    foldLanes d l = (List.range ((l.length + 1) / 2)).foldl (fun d j => mix (d ^^^ pairWord l j)) d := by
  induction d, l using foldLanes.induct with
  | case1 d => rfl
  | case2 d a => simp [foldLanes, pairWord]
  | case3 d a b rest ih =>
    have hlen : ((a :: b :: rest).length + 1) / 2 = (rest.length + 1) / 2 + 1 := by
      simp only [List.length_cons]
      omega
    have hzero : pairWord (a :: b :: rest) 0 = a.zeroExtend 64 ||| (b.zeroExtend 64 <<< 32) := by simp [pairWord]
    have hsucc : ∀ j, pairWord (a :: b :: rest) (j + 1) = pairWord rest j := fun j => by
      simp [pairWord, show 2 * (j + 1) = 2 * j + 1 + 1 by omega]
    rw [foldLanes, ih, hlen, List.range_succ_eq_map, List.foldl_cons, List.foldl_map, hzero]
    simp only [hsucc]

/-- Settles O10: the words of `foldLanes` are the pairs of lanes. -/
theorem vdgFold : Obligations.VdgFold := by
  intro s n g k vs1 h p w
  have hfold : foldLanes p.digest ((List.range p.vl).map (p.lane vs1)) =
      (List.range ((p.vl + 1) / 2)).foldl (fun d j => mix (d ^^^ w j)) p.digest := by
    rw [foldLanes_eq_foldl, List.length_map, List.length_range]
    refine List.foldl_ext _ _ _ fun d j hj => ?_
    have hj : 2 * j < p.vl := by
      have := List.mem_range.1 hj
      omega
    have hw : pairWord ((List.range p.vl).map (p.lane vs1)) j = w j := by
      simp only [pairWord, w, List.length_map, List.length_range, List.getElem?_map, List.getElem?_range hj, Option.map_some,
        Option.getD_some]
      split
      · rw [List.getElem?_range ‹_›]
        rfl
      · rfl
    rw [hw]
  exact congrArg _ (State.beloc_vdone4 h (by rw [← hfold]))

end Sys2Proof.Machine
end

section
/-! SUPPORT. The exact accumulators (R47 to R51, R74): their sums, their blocks as bytes, and the instructions on both. -/

namespace Sys2Proof.Machine

variable {s : State} {n : Nat} {g : Guard} {k : Kern}

/-! ### Sums (R47, R48) -/

/-- R47: two additions commute, whatever is added. -/
theorem Exact.add_addends_comm (x : Exact) (v w : Val) : ((x.add v).1.add w).1 = ((x.add w).1.add v).1 := by
  unfold Exact.add
  cases v <;> cases w <;> dsimp only <;> split_ifs <;> simp [add_right_comm]

theorem toIntAt_eq (neg : Bool) (m : Nat) (e q : Int) :
    toIntAt neg m e q = (if neg then -1 else 1) * ((m * 2 ^ (e - q).toNat : Nat) : Int) := by
  unfold toIntAt
  rw [Nat.shiftLeft_eq]
  cases neg <;> simp

/-- R48: a finite addend of magnitude below 2^136. -/
theorem Exact.add_fin (x : Exact) {neg : Bool} {m : Nat} {e : Int} (he : -160 ≤ e) (hm : m * 2 ^ (e + 160).toNat < 2 ^ 296) :
    x.add (.fin neg m e) =
      ({ x with word := x.word + BitVec.ofInt 320 ((if neg then -1 else 1) * ((m * 2 ^ (e + 160).toNat : Nat) : Int)) }, false) := by
  have hsmall : ¬(m ≠ 0 && decide ((m.log2 : Int) + e ≥ 136)) = true := by
    intro hbig
    obtain ⟨hne, hlog⟩ : m ≠ 0 ∧ (m.log2 : Int) + e ≥ 136 := by simpa using hbig
    have hpow : 2 ^ 296 ≤ m * 2 ^ (e + 160).toNat := by
      calc 2 ^ 296 ≤ 2 ^ (m.log2 + (e + 160).toNat) := Nat.pow_le_pow_right (by decide) (by omega)
        _ = 2 ^ m.log2 * 2 ^ (e + 160).toNat := Nat.pow_add ..
        _ ≤ m * 2 ^ (e + 160).toNat := Nat.mul_le_mul_right _ (Nat.log2_self_le hne)
    omega
  have hq : e - -160 = e + 160 := by omega
  unfold Exact.add
  dsimp only
  rw [if_neg hsmall, toIntAt_eq, hq]

/-! ### Bytes of a block (R51, R74) -/

theorem leNat_leBytes (v n : Nat) : leNat (leBytes v n) = v % 256 ^ n := by
  induction n generalizing v with
  | zero => simp [leBytes, leNat, Nat.mod_one]
  | succ n ih =>
    rw [leBytes, leNat, ih, BitVec.toNat_ofNat, show (2 : Nat) ^ 8 = 256 from rfl, pow_succ', Nat.mod_mul (a := 256)]

theorem drop_mul_flatMap {α : Type} {f : Nat → List α} {w : Nat} (hf : ∀ i, (f i).length = w) (i : Nat) (l : List Nat) :
    (l.flatMap f).drop (w * i) = (l.drop i).flatMap f := by
  induction i generalizing l with
  | zero => simp
  | succ i ih =>
    cases l with
    | nil => simp
    | cons j l => rw [List.flatMap_cons, Nat.mul_succ, Nat.add_comm, ← List.drop_drop, List.drop_left' (hf j), ih, List.drop_succ_cons]

/-- The `i`th of a list of runs of one length. -/
theorem take_drop_flatMap {α : Type} {f : Nat → List α} {w len i : Nat} (hf : ∀ i, (f i).length = w) (hi : i < len) :
    (((List.range len).flatMap f).drop (w * i)).take w = f i := by
  have hrange : (List.range len).drop i = i :: (List.range len).drop (i + 1) := by
    rw [List.drop_eq_getElem_cons (by simpa using hi), List.getElem_range]
  rw [drop_mul_flatMap hf, hrange, List.flatMap_cons, List.take_left' (hf i)]

theorem Exact.flags_testBit (x : Exact) :
    x.flags < 16 ∧ x.flags.testBit 0 = x.nan ∧ x.flags.testBit 1 = x.pinf ∧ x.flags.testBit 2 = x.ninf := by
  unfold Exact.flags
  cases x.nan <;> cases x.pinf <;> cases x.ninf <;> decide

section
variable (lane : Nat → Exact)

/-- The words of a block. -/
def blockWords64 : List Byte := (List.range 64).flatMap fun i => leBytes (lane i).word.toNat 40

/-- The flag map of a block. -/
def blockFlags : List Byte := (List.range 32).map fun j => BitVec.ofNat 8 ((lane (2 * j)).flags + 16 * (lane (2 * j + 1)).flags)

theorem blockBytes_eq : blockBytes lane = blockWords64 lane ++ blockFlags lane := rfl

theorem blockWords64_length : (blockWords64 lane).length = 2560 := flatMap_leBytes_length 64 40 _

theorem blockBytes_length : (blockBytes lane).length = 2592 := by
  rw [blockBytes_eq, List.length_append, blockWords64_length, blockFlags, List.length_map, List.length_range]

/-- A lane's word in a block. -/
theorem natAt_blockBytes {i : Nat} (hi : i < 64) : natAt (blockBytes lane) (40 * i) 40 = (lane i).word.toNat := by
  have hlen : 40 * i + 40 ≤ (blockWords64 lane).length := by rw [blockWords64_length]; omega
  have hword : (lane i).word.toNat < 256 ^ 40 := (lane i).word.isLt
  rw [natAt, blockBytes_eq, List.drop_append_of_le_length (by omega), List.take_append_of_le_length (by rw [List.length_drop]; omega),
    blockWords64, take_drop_flatMap (fun _ => leBytes_length _ _) hi, leNat_leBytes, Nat.mod_eq_of_lt hword]

/-- A lane's flags in a block. -/
theorem blockFlags_lane {i : Nat} (hi : i < 64) :
    (((blockBytes lane)[2560 + i / 2]?).getD 0).toNat >>> (4 * (i % 2)) % 16 = (lane i).flags := by
  have hj : i / 2 < 32 := by omega
  obtain ⟨hlo, -⟩ := (lane (2 * (i / 2))).flags_testBit
  obtain ⟨hhi, -⟩ := (lane (2 * (i / 2) + 1)).flags_testBit
  rw [blockBytes_eq, List.getElem?_append_right (by rw [blockWords64_length]; omega), blockWords64_length, Nat.add_sub_cancel_left,
    blockFlags, List.getElem?_map, List.getElem?_range hj, Option.map_some, Option.getD_some, BitVec.toNat_ofNat,
    Nat.shiftRight_eq_div_pow]
  obtain he | ho : i % 2 = 0 ∨ i % 2 = 1 := by omega
  · have hl : 2 * (i / 2) = i := by omega
    rw [hl] at hlo ⊢
    rw [he, Nat.mul_zero, pow_zero, Nat.div_one]
    omega
  · have hl : 2 * (i / 2) + 1 = i := by omega
    rw [hl] at hhi ⊢
    rw [ho, Nat.mul_one]
    omega

/-- R51: a lane read back from its block. -/
theorem blockLane_blockBytes {i : Nat} (hi : i < 64) : blockLane (blockBytes lane) i = lane i := by
  obtain ⟨-, hnan, hpinf, hninf⟩ := (lane i).flags_testBit
  have hbit : ∀ b < 4, ((((blockBytes lane)[2560 + i / 2]?).getD 0).toNat >>> (4 * (i % 2))).testBit b = (lane i).flags.testBit b := by
    intro b hb
    rw [← blockFlags_lane lane hi, show 16 = 2 ^ 4 from rfl, Nat.testBit_mod_two_pow]
    simp [hb]
  unfold blockLane
  dsimp only
  rw [natAt_blockBytes lane hi, hbit 0 (by decide), hbit 1 (by decide), hbit 2 (by decide), hnan, hpinf, hninf, BitVec.ofNat_toNat,
    BitVec.setWidth_eq]

end

theorem exactInstructions_blocks : claimExactBlocks :=
  ⟨fun lane => ⟨blockBytes_length lane, fun _ hi => blockLane_blockBytes lane hi⟩, Exact.add_addends_comm,
    fun _ => ⟨rfl, rfl, rfl⟩, fun x _ _ _ he hm => ⟨congrArg Prod.fst (x.add_fin he hm), congrArg Prod.snd (x.add_fin he hm)⟩⟩

end Sys2Proof.Machine
end

section
/-! SUPPORT. The instructions on exact accumulators and on their blocks in tile memory (R74). -/

namespace Sys2Proof.Machine

variable {s : State} {n : Nat} {g : Guard} {k : Kern}

/-! ### Formats -/

theorem exactFmt_some {fmt : BitVec 4} {f : Fmt} (hf : Fmt.ofCode fmt.toNat = some f) (hne : f ≠ .int8) : exactFmt fmt = some f := by
  rw [exactFmt, hf]
  cases f <;> first | rfl | exact absurd rfl hne

theorem exactFmt_none {fmt : BitVec 4} (hf : Fmt.ofCode fmt.toNat = none ∨ Fmt.ofCode fmt.toNat = some .int8) : exactFmt fmt = none := by
  rw [exactFmt]
  obtain hf | hf := hf <;> rw [hf]

/-! ### Answers of the instructions -/

section
variable (h : s.Issues n g k) {fmt : BitVec 4} {vs vd rs1 : BitVec 5} {a : BitVec 3}
include h

/-- R74: a format that is none, or INT8. -/
theorem exec_exact_illegal (hf : exactFmt fmt = none) :
    exec (.xacc n g fmt vs a) s = .next (s.faultsAt n 0x30 k Fc.illegal 0) ∧
    exec (.xrnd n g fmt a vd) s = .next (s.faultsAt n 0x31 k Fc.illegal 0) ∧
    exec (.xacct n g fmt vs rs1) s = .next (s.faultsAt n 0x33 k Fc.illegal 0) ∧
    exec (.xrndt n g fmt rs1 vd) s = .next (s.faultsAt n 0x34 k Fc.illegal 0) := by
  refine ⟨congrArg _ (State.beloc_faultsAt4 h ?_), congrArg _ (State.beloc_faultsAt4 h ?_), congrArg _ (State.beloc_faultsAt4 h ?_),
    congrArg _ (State.beloc_faultsAt4 h ?_)⟩ <;> simp only [hf]

section
variable {f : Fmt} (hf : exactFmt fmt = some f)
include hf

theorem exec_xacc : exec (.xacc n g fmt vs a) s =
    .next (((s.setPav n ((List.range (s.pav n).vl).foldl
      (fun q i => q.setAcc a i (((s.pav n).accumulate f vs ((s.pav n).acc a)).1 i)) (s.pav n))).bump F.PV_XRANGE_COUNT []
        ((s.pav n).accumulate f vs ((s.pav n).acc a)).2).retire n 0x30 4 0 0 k (s.pav n).pc none) :=
  congrArg _ (State.beloc_done4 h (by simp only [hf]))

theorem exec_xrnd : exec (.xrnd n g fmt a vd) s =
    .next ((s.roundOut n (s.pav n) f vd ((s.pav n).acc a)).retire n 0x31 4 0 0 k (s.pav n).pc none) :=
  congrArg _ (State.beloc_done4 h (by simp only [hf]))

theorem exec_xacct_zero (hvl : (s.pav n).vl = 0) : exec (.xacct n g fmt vs rs1) s = .next (s.retires n 0x33 4 k (s.pav n) 0 0) :=
  congrArg _ (State.beloc_doneWith4 h (by simp only [hf, hvl, if_true]))

theorem exec_xrndt_zero (hvl : (s.pav n).vl = 0) : exec (.xrndt n g fmt rs1 vd) s = .next (s.retires n 0x34 4 k (s.pav n) 0 0) :=
  congrArg _ (State.beloc_doneWith4 h (by simp only [hf, hvl, if_true]))

end

section
variable {b : Nat} (hb : ((s.pav n).reg rs1).toNat = b) (hal : b % 64 = 0) (hserves : (s.pav n).serves b 2592)
include hb hal hserves

theorem exec_xsta : exec (.xsta n g rs1 a) s =
    .next ((s.tileStore n b (blockBytes ((s.pav n).acc a))).retire n 0x36 4 0 b k (s.pav n).pc none) := by
  subst hb
  exact congrArg _ (State.beloc_tileWrite4 h rfl hal (by rwa [blockBytes_length]))

theorem exec_xclrt : exec (.xclrt n g rs1) s =
    .next ((s.tileStore n b (List.replicate 2592 0)).retire n 0x37 4 0 b k (s.pav n).pc none) := by
  subst hb
  exact congrArg _ (State.beloc_tileWrite4 h rfl hal (by rwa [List.length_replicate]))

variable (hgood : (s.pav n).badWord b 2592 = none)
include hgood

omit h in
theorem State.blockRead_ok (f : State → Nat → List Byte → Res) :
    s.blockRead n (s.pav n) rs1 f = f (s.countTile n b 2592) b ((s.pav n).bytes b 2592) := by
  subst hb
  rw [State.blockRead, exactSize]
  exact State.tileRead_ok (r := fun t bs => f t _ bs) hal hserves hgood

theorem exec_xlda : exec (.xlda n g rs1 a) s =
    .next (((s.countTile n b 2592).setPav n ((List.range 64).foldl
      (fun q i => q.setAcc a i (blockLane ((s.pav n).bytes b 2592) i)) (s.pav n))).retire n 0x35 4 0 b k (s.pav n).pc none) :=
  congrArg _ (State.beloc_done4 h (State.blockRead_ok hb hal hserves hgood _))

variable {f : Fmt} (hf : exactFmt fmt = some f) (hvl : 0 < (s.pav n).vl)
include hf hvl

theorem exec_xacct : exec (.xacct n g fmt vs rs1) s =
    .next ((((s.countTile n b 2592).tileStore n b
      (blockBytes ((s.pav n).accumulate f vs (blockLane ((s.pav n).bytes b 2592))).1)).bump F.PV_XRANGE_COUNT []
        ((s.pav n).accumulate f vs (blockLane ((s.pav n).bytes b 2592))).2).retire n 0x33 4 0 b k (s.pav n).pc none) :=
  congrArg _ (State.beloc_done4 h (by simp only [hf, hvl.ne', if_false, State.blockRead_ok hb hal hserves hgood]))

theorem exec_xrndt : exec (.xrndt n g fmt rs1 vd) s =
    .next (((s.countTile n b 2592).roundOut n (s.pav n) f vd (blockLane ((s.pav n).bytes b 2592))).retire n 0x34 4 0 b k
      (s.pav n).pc none) :=
  congrArg _ (State.beloc_done4 h (by simp only [hf, hvl.ne', if_false, State.blockRead_ok hb hal hserves hgood]))

end

end

theorem exactInstructions_rows : claimExactInstructions := by
  intro s n g k fmt vs vd rs1 a h p b bs blk ready reads addsTo
  refine ⟨fun f hcode hne => ?_, fun hcode => exec_exact_illegal h (exactFmt_none hcode), congrArg _ (State.beloc_doneWith4 h rfl),
    fun ⟨hal, hserves, hgood⟩ => exec_xlda h rfl hal hserves hgood,
    fun hal hserves => ⟨exec_xsta h rfl hal hserves, exec_xclrt h rfl hal hserves⟩⟩
  have hf := exactFmt_some hcode hne
  exact ⟨exec_xacc h hf, exec_xrnd h hf, fun hvl => ⟨exec_xacct_zero h hf hvl, exec_xrndt_zero h hf hvl⟩,
    fun hvl ⟨hal, hserves, hgood⟩ => ⟨exec_xacct h rfl hal hserves hgood hf hvl, exec_xrndt h rfl hal hserves hgood hf hvl⟩⟩

/-- Settles O11: each instruction is one access of a block or one pass over lanes; a block's bytes give back its lanes. -/
theorem exactInstructions : Obligations.ExactInstructions := ⟨exactInstructions_rows, exactInstructions_blocks⟩

end Sys2Proof.Machine
end

section
/-! SUPPORT. Tensor instructions as they issue (R34 to R39, R76, R77). -/

namespace Sys2Proof.Machine

variable {s : State} {n : Nat} {g : Guard} {k : Kern} {op : Nat} {f : Pav → Kern → Res}

/-! ### Instructions of 64 bits -/

section
variable (h : s.Issues n g k) (h8 : (s.pav n).pc % 8 = 0)
include h h8

theorem State.beloc_done8 {t : State} {tag addr : Nat} (hf : f (s.pav n) k = .done t tag addr) :
    s.beloc n g op 8 f = t.retire n op 8 tag addr k (s.pav n).pc none :=
  State.beloc_done h (fun _ => h8) hf

theorem State.beloc_faultsAt8 {cls addr : Nat} (hf : f (s.pav n) k = .fault s cls addr) :
    s.beloc n g op 8 f = s.faultsAt n op k cls addr :=
  State.beloc_faultsAt h (fun _ => h8) hf

end

/-! ### MMA and TPF -/

@[simp] theorem State.countTile_pv (s : State) (n a len : Nat) : (s.countTile n a len).pv = s.pv := by
  unfold State.countTile
  dsimp only
  split <;> rfl

section
variable (h : s.Issues n g k) (h8 : (s.pav n).pc % 8 = 0) {td : BitVec 3} {acc split array : Bool} {quad : BitVec 2} {fmt : BitVec 4}
  {ra rb rk rt : BitVec 5}
include h h8

theorem exec_mma_illegal (hno : mmaFmt fmt = none ∨ 65535 < ((s.pav n).reg rk).toNat ∨ (quad ≠ 0 ∧ split = false)) :
    exec (.mma n g td acc split array quad fmt ra rb rk rt) s = .next (s.faultsAt n 0x60 k Fc.illegal 0) := by
  refine congrArg _ (State.beloc_faultsAt8 h h8 ?_)
  dsimp only
  split
  · rfl
  · rename_i f hf
    have hbad : (decide (((s.pav n).reg rk).toNat > 65535) || (decide (quad ≠ 0) && !split)) = true := by
      simpa [hf] using hno
    rw [if_pos hbad]

section
variable {f : Fmt} (hf : mmaFmt fmt = some f) (hsteps : ((s.pav n).reg rk).toNat ≤ 65535) (hquad : quad = 0 ∨ split = true)
include hf hsteps hquad

omit h h8 hf in
theorem mma_operands_legal : ¬(decide (((s.pav n).reg rk).toNat > 65535) || (decide (quad ≠ 0) && !split)) = true := by
  obtain rfl | rfl := hquad <;> simp [hsteps]

theorem exec_mma_misaligned_a (ha : ((s.pav n).reg ra).toNat % 64 ≠ 0) :
    exec (.mma n g td acc split array quad fmt ra rb rk rt) s =
      .next (s.faultsAt n 0x60 k Fc.misaligned ((s.pav n).reg ra).toNat) := by
  refine congrArg _ (State.beloc_faultsAt8 h h8 ?_)
  dsimp only
  rw [hf]
  dsimp only
  rw [if_neg (mma_operands_legal hsteps hquad), if_pos ha]

variable (ha : ((s.pav n).reg ra).toNat % 64 = 0)
include ha

theorem exec_mma_misaligned_b (hb : ((s.pav n).reg rb).toNat % 64 ≠ 0) :
    exec (.mma n g td acc split array quad fmt ra rb rk rt) s =
      .next (s.faultsAt n 0x60 k Fc.misaligned ((s.pav n).reg rb).toNat) := by
  refine congrArg _ (State.beloc_faultsAt8 h h8 ?_)
  dsimp only
  rw [hf]
  dsimp only
  rw [if_neg (mma_operands_legal hsteps hquad), if_neg (not_not.2 ha), if_pos hb]

/-- R76, R77: room for a fourth product, a free tag, and nothing outstanding that touches the panels or the cells. -/
theorem exec_mma_issues {a b len : Nat} (hra : ((s.pav n).reg ra).toNat = a) (hrb : ((s.pav n).reg rb).toNat = b)
    (hlen : panelLen f (if split then 16 else 32) ((s.pav n).reg rk).toNat = len) (hb : b % 64 = 0)
    (hroom : ((s.pav n).products array.toNat).length < 4) (htag : (s.pav n).tagBusy = false)
    (hrangeA : (s.pav n).rangeBusy a len = false) (hrangeB : (s.pav n).rangeBusy b len = false)
    (hcells : (s.pav n).quadBusy td.toNat split quad.toNat = false)
    (hsplit : split = true ∨ ∀ o ∈ (s.pav n).products array.toNat, ∀ x y q c, o.op ≠ .product x y true q c) :
    let p := s.pav n
    let bad := (p.panelFault a len).orElse fun _ => p.panelFault b len
    let cells := if bad.isSome then [] else
      p.productCells td.toNat acc split quad.toNat f (p.reg rk).toNat (p.bytes a len) (p.bytes b len)
    let q := p.takeTag rt (some (.product array.toNat td.toNat split quad.toNat cells)) bad
    let t := (s.countTile n a (min len (tileSize - a))).countTile n b (min len (tileSize - b))
    let u : State := { t with freeCtr := t.freeCtr + 1 }
    exec (.mma n g td acc split array quad fmt ra rb rk rt) s =
      .next ((((u.setPav n { q with fstat := q.fstat ||| ((Config.freeValue t.freeCtr).toNat % 32) }).present n array.toNat
        s.pvc).put (splitFld array.toNat) [n] split.toNat).retire n 0x60 8 p.nextTag a k p.pc none) := by
  intro p bad cells q t u
  have hpvc : t.pvc = s.pvc := by simp only [t, State.pvc, State.countTile_pv]
  refine congrArg _ (State.beloc_done8 h h8 ?_)
  dsimp only
  rw [hf]
  dsimp only
  rw [if_neg (mma_operands_legal hsteps hquad), if_neg (not_not.2 ha), hra, hrb, hlen, if_neg (not_not.2 hb), if_neg, ← hpvc]
  · rfl
  · rw [htag, hrangeA, hrangeB, hcells, decide_eq_false (not_le.2 hroom)]
    simp only [Bool.or_false, Bool.false_or, Bool.and_eq_true, List.any_eq_true, Bool.not_eq_true', not_and, not_exists]
    intro hwhole o ho hop
    have hno := hsplit.resolve_left (by simp [hwhole]) o ho
    split at hop
    · subst hop
      exact hno _ _ _ _ ‹_›
    · exact absurd hop (by decide)

end

theorem exec_tpf (hfree : (s.pav n).tagBusy = false) : exec (.tpf n g array rt) s =
    .next (((s.setPav n ((s.pav n).takeTag rt none none)).present n array.toNat (s.pvc + 256)).retire n 0x61 8 (s.pav n).nextTag 0 k
      (s.pav n).pc none) :=
  congrArg _ (State.beloc_done8 h h8 (if_neg (by simp [hfree])))

end

/-! ### TST and TLD -/

section
variable (h : s.Issues n g k) (h8 : (s.pav n).pc % 8 = 0) {td : BitVec 3} {ra rt : BitVec 5} {a : Nat}
  (hra : ((s.pav n).reg ra).toNat = a)
include h h8 hra

theorem exec_tst_misaligned (hal : a % 64 ≠ 0) : exec (.tst n g td ra rt) s = .next (s.faultsAt n 0x62 k Fc.misaligned a) := by
  subst hra
  exact congrArg _ (State.beloc_faultsAt8 h h8 (if_pos hal))

theorem exec_tld_misaligned (hal : a % 64 ≠ 0) : exec (.tld n g td ra rt) s = .next (s.faultsAt n 0x63 k Fc.misaligned a) := by
  subst hra
  exact congrArg _ (State.beloc_faultsAt8 h h8 (if_pos hal))

variable (hal : a % 64 = 0) (htag : (s.pav n).tagBusy = false) (htile : (s.pav n).tileBusy td.toNat = false)
  (hrange : (s.pav n).rangeBusy a 4096 = false)
include hal htag htile hrange

omit h h8 hra in
/-- R77: a free tag, a tile that no outstanding product writes, and a range that no incomplete transfer writes. -/
theorem tile_access_free {x y z : Res} :
    (if a % 64 ≠ 0 then x else if ((s.pav n).tagBusy || (s.pav n).tileBusy td.toNat || (s.pav n).rangeBusy a 4096) = true then y else z) =
      z := by
  rw [if_neg (not_not.2 hal), htag, htile, hrange]
  rfl

section
variable (hout : tileSize < a + 4096)
include hout

theorem exec_tst_out : exec (.tst n g td ra rt) s =
    .next ((((s.setPav n ((s.pav n).takeTag rt none none)).mapPav n fun p => { p with pc := (p.pc + 8) % 2 ^ 48 }).sampleOne n
      (s.pav n).pc 0x62 (s.pav n).nextTag k true (max a tileSize)).raiseFault n Fc.tileRange (s.pav n).nextTag (s.pav n).pc
        (max a tileSize)) := by
  subst hra
  exact congrArg _ (State.beloc_tagged h (fun _ => h8) ((tile_access_free hal htag htile hrange).trans (if_pos hout)))

theorem exec_tld_out : exec (.tld n g td ra rt) s =
    .next ((((s.setPav n ((s.pav n).takeTag rt none none)).mapPav n fun p => { p with pc := (p.pc + 8) % 2 ^ 48 }).sampleOne n
      (s.pav n).pc 0x63 (s.pav n).nextTag k true (max a tileSize)).raiseFault n Fc.tileRange (s.pav n).nextTag (s.pav n).pc
        (max a tileSize)) := by
  subst hra
  exact congrArg _ (State.beloc_tagged h (fun _ => h8) ((tile_access_free hal htag htile hrange).trans (if_pos hout)))

end

variable (hin : a + 4096 ≤ tileSize)
include hin

theorem exec_tst : exec (.tst n g td ra rt) s =
    .next (((s.setPav n ((s.pav n).takeTag rt none none)).tileStore n a ((List.range 1024).flatMap fun i =>
      leBytes ((s.pav n).cell td.toNat (i / 32) (i % 32)).toNat 4)).retire n 0x62 8 (s.pav n).nextTag a k (s.pav n).pc none) := by
  subst hra
  exact congrArg _ (State.beloc_done8 h h8 ((tile_access_free hal htag htile hrange).trans (if_neg (not_lt.2 hin))))

theorem exec_tld_uncorrectable {w : Nat} (hbad : (s.pav n).badWord a 4096 = some w) : exec (.tld n g td ra rt) s =
    .next (((((s.countTile n a 4096).setPav n ((s.pav n).takeTag rt none none)).mapPav n fun p =>
      { p with pc := (p.pc + 8) % 2 ^ 48 }).sampleOne n (s.pav n).pc 0x63 (s.pav n).nextTag k true (8 * w)).raiseFault n Fc.tileUncorr
        (s.pav n).nextTag (s.pav n).pc (8 * w)) := by
  subst hra
  refine congrArg _ (State.beloc_tagged h (fun _ => h8)
    ((tile_access_free hal htag htile hrange).trans ((if_neg (not_lt.2 hin)).trans ?_)))
  rw [hbad]

theorem exec_tld (hgood : (s.pav n).badWord a 4096 = none) : exec (.tld n g td ra rt) s =
    .next (((s.countTile n a 4096).setPav n ((List.range 1024).foldl (fun q i => q.setCell td.toNat (i / 32) (i % 32)
      (BitVec.ofNat 32 (leNat ((((s.pav n).bytes a 4096).drop (4 * i)).take 4)))) ((s.pav n).takeTag rt none none))).retire n 0x63 8
        (s.pav n).nextTag a k (s.pav n).pc none) := by
  subst hra
  refine congrArg _ (State.beloc_done8 h h8
    ((tile_access_free hal htag htile hrange).trans ((if_neg (not_lt.2 hin)).trans ?_)))
  rw [hgood]
  rfl

end

/-- Settles O12: a tensor instruction checks its operands, then what is outstanding, and what it does then is one state. -/
theorem tensorInstructions : Obligations.TensorInstructions := by
  refine ⟨fun s n g k td acc split array quad fmt ra rb rk rt h h8 => ⟨fun hno => exec_mma_illegal h h8 hno,
    fun f hf hsteps hquad => ⟨fun ha => exec_mma_misaligned_a h h8 hf hsteps hquad ha,
      fun ha hb => exec_mma_misaligned_b h h8 hf hsteps hquad ha hb,
      fun ha hb hroom htag hrangeA hrangeB hcells hsplit =>
        exec_mma_issues h h8 hf hsteps hquad ha rfl rfl rfl hb hroom htag hrangeA hrangeB hcells hsplit⟩,
    fun hfree => exec_tpf h h8 hfree⟩, fun s n g k td ra rt h h8 => ?_⟩
  exact ⟨fun hal => ⟨exec_tst_misaligned h h8 rfl hal, exec_tld_misaligned h h8 rfl hal⟩,
    fun hal htag htile hrange => ⟨fun hout => ⟨exec_tst_out h h8 rfl hal htag htile hrange hout,
      exec_tld_out h h8 rfl hal htag htile hrange hout⟩, fun hin => ⟨exec_tst h h8 rfl hal htag htile hrange hin,
        fun _ hbad => exec_tld_uncorrectable h h8 rfl hal htag htile hrange hin hbad,
        fun hgood => exec_tld h h8 rfl hal htag htile hrange hin hgood⟩⟩⟩

end Sys2Proof.Machine
end

section
/-! SUPPORT. Transfers and multicast as they issue (R63, R68, R78, R80, R81). -/

namespace Sys2Proof.Machine

variable {s : State} {n : Nat} {g : Guard} {k : Kern} {p : Pav}

/-! ### Transfer addresses (R63) -/

theorem xferSeg_eq (a : Word64) : xferSeg a = a.toNat / 2 ^ 61 := by
  have := a.isLt
  rw [xferSeg, bits, Nat.shiftRight_eq_div_pow]
  omega

theorem xferOff_eq (a : Word64) : xferOff a = a.toNat % 2 ^ 48 := rfl

/-- A transfer that its segment allows. -/
theorem Kern.allowed_iff (k : Kern) (a : Word64) (len : Nat) (write : Bool) : k.allowed a len write = true ↔
    (a.toNat / 2 ^ 48 % 2 ^ 13 = 0 ∧ xferOff a + len ≤ (k.seg (xferSeg a)).len) ∧
      (if write then (k.seg (xferSeg a)).write else (k.seg (xferSeg a)).read) = true := by
  simp only [Kern.allowed, bits, Nat.shiftRight_eq_div_pow, Bool.and_eq_true, decide_eq_true_eq]
  tauto

/-! ### The checks of XLD and XST -/

section
variable {rt rl rm ra : BitVec 5} {f : Nat → Nat → Word64 → Res}

theorem State.transfer_tooLong (hlen : 524288 < (p.reg rl).toNat) : s.transfer n p rt rl rm ra f = .fault s Fc.illegal 0 :=
  if_pos hlen

variable (hle : (p.reg rl).toNat ≤ 524288)
include hle

theorem State.transfer_misaligned (hne : (p.reg rl).toNat ≠ 0) (hal : (p.reg rl).toNat % 64 ≠ 0 ∨ (p.reg rm).toNat % 64 ≠ 0) :
    s.transfer n p rt rl rm ra f = .fault s Fc.misaligned (p.reg rm).toNat :=
  (if_neg (not_lt.2 hle)).trans (if_pos (by simpa [hne] using hal))

theorem State.transfer_offset (hne : (p.reg rl).toNat ≠ 0) (hlen : (p.reg rl).toNat % 64 = 0) (ht : (p.reg rm).toNat % 64 = 0)
    (hoff : xferOff (p.reg ra) % 64 ≠ 0) : s.transfer n p rt rl rm ra f = .fault s Fc.misaligned (p.reg ra).toNat :=
  (if_neg (not_lt.2 hle)).trans ((if_neg (by simp [hlen, ht])).trans (if_pos (by simp [hne, hoff])))

variable (hal : (p.reg rl).toNat = 0 ∨ ((p.reg rl).toNat % 64 = 0 ∧ (p.reg rm).toNat % 64 = 0 ∧ xferOff (p.reg ra) % 64 = 0))
  (hroom : p.transfers < 32) (htag : p.tagBusy = false) (hrange : p.rangeBusy (p.reg rm).toNat (p.reg rl).toNat = false)
include hal hroom htag hrange

/-- R68, R78: a transfer that passes the checks of its operands, with room, a free tag and a free range. -/
theorem State.transfer_ok : s.transfer n p rt rl rm ra f =
    if (p.reg rl).toNat = 0 then .done (s.setPav n (p.takeTag rt none none)) p.nextTag 0
    else f (p.reg rl).toNat (p.reg rm).toNat (p.reg ra) := by
  have hshape : ¬(decide ((p.reg rl).toNat ≠ 0) && (decide ((p.reg rl).toNat % 64 ≠ 0) || decide ((p.reg rm).toNat % 64 ≠ 0))) = true := by
    obtain hz | ⟨hlen, ht, -⟩ := hal
    · simp [hz]
    · simp [hlen, ht]
  have hoff : ¬(decide ((p.reg rl).toNat ≠ 0) && decide (xferOff (p.reg ra) % 64 ≠ 0)) = true := by
    obtain hz | ⟨-, -, ho⟩ := hal
    · simp [hz]
    · simp [ho]
  have hfree : ¬(decide (p.transfers ≥ 32) || p.tagBusy || p.rangeBusy (p.reg rm).toNat (p.reg rl).toNat) = true := by
    simp [hroom, htag, hrange]
  unfold State.transfer
  dsimp only
  rw [if_neg (not_lt.2 hle), if_neg hshape, if_neg hoff, if_neg hfree]

end

/-! ### The fault a transfer will report -/

theorem orElse_none_right {α : Type} (x : Option α) : (x.orElse fun _ => none) = x := by
  cases x <;> rfl

/-- The fault of a transfer's range or segment comes before that of its tile memory. -/
theorem Kern.transferFault_eq (k : Kern) (a : Word64) (t len : Nat) (write : Bool) (tile : Option (Nat × Nat)) :
    (if t + len > tileSize then some (Fc.tileRange, max t tileSize)
      else if (!k.allowed a len write) = true then some (Fc.denied, k.place a) else tile) =
    (if tileSize < t + len then some (Fc.tileRange, max t tileSize)
      else if (a.toNat / 2 ^ 48 % 2 ^ 13 = 0 ∧ a.toNat % 2 ^ 48 + len ≤ (k.seg (a.toNat / 2 ^ 61)).len) ∧
        (if write then (k.seg (a.toNat / 2 ^ 61)).write else (k.seg (a.toNat / 2 ^ 61)).read) = true then none
      else some (Fc.denied, (k.seg (a.toNat / 2 ^ 61)).base + a.toNat % 2 ^ 48)).orElse fun _ => tile := by
  have hallowed := k.allowed_iff a len write
  rw [xferSeg_eq, xferOff_eq] at hallowed
  rw [Kern.place, xferSeg_eq, xferOff_eq]
  by_cases hout : tileSize < t + len
  · rw [if_pos hout, if_pos hout]
    rfl
  rw [if_neg hout, if_neg hout]
  by_cases hal : k.allowed a len write = true
  · rw [if_pos (hallowed.1 hal), if_neg (by simp [hal])]
    rfl
  · rw [if_neg (mt hallowed.2 hal), if_pos (by simp [hal])]
    rfl

theorem Kern.stages_iff (k : Kern) (a : Word64) : k.stages a = true ↔ k.bound = true ∧ a.toNat / 2 ^ 61 ≤ 1 := by
  simp [Kern.stages, xferSeg_eq]

/-! ### XLD and XST -/

section
variable (h : s.Issues n g k) (h8 : (s.pav n).pc % 8 = 0) {rt rl rm ra : BitVec 5}
include h h8

/-- Operands that no transfer has. -/
theorem exec_transfer_faults {cls addr : Nat} (hf : ∀ f, s.transfer n (s.pav n) rt rl rm ra f = .fault s cls addr) :
    exec (.xld n g rt rl rm ra) s = .next (s.faultsAt n 0x68 k cls addr) ∧
    exec (.xst n g rt rl rm ra) s = .next (s.faultsAt n 0x69 k cls addr) :=
  ⟨congrArg _ (State.beloc_faultsAt8 h h8 (hf _)), congrArg _ (State.beloc_faultsAt8 h h8 (hf _))⟩

variable {len t : Nat} {a : Word64} (hrl : ((s.pav n).reg rl).toNat = len) (hrm : ((s.pav n).reg rm).toNat = t)
  (hra : (s.pav n).reg ra = a) (hle : len ≤ 524288) (hal : len = 0 ∨ (len % 64 = 0 ∧ t % 64 = 0 ∧ a.toNat % 2 ^ 48 % 64 = 0))
  (hroom : (s.pav n).transfers < 32) (htag : (s.pav n).tagBusy = false) (hrange : (s.pav n).rangeBusy t len = false)
include hrl hrm hra hle hal hroom htag hrange

/-- R78: a transfer of no bytes retires at once, its addresses unchecked. -/
theorem exec_transfer_zero (hz : len = 0) :
    exec (.xld n g rt rl rm ra) s =
      .next ((s.setPav n ((s.pav n).takeTag rt none none)).retire n 0x68 8 (s.pav n).nextTag 0 k (s.pav n).pc none) ∧
    exec (.xst n g rt rl rm ra) s =
      .next ((s.setPav n ((s.pav n).takeTag rt none none)).retire n 0x69 8 (s.pav n).nextTag 0 k (s.pav n).pc none) := by
  subst hrl hrm hra
  have hok : ∀ f, s.transfer n (s.pav n) rt rl rm ra f = _ := fun f => (State.transfer_ok hle hal hroom htag hrange).trans (if_pos hz)
  exact ⟨congrArg _ (State.beloc_done8 h h8 (hok _)), congrArg _ (State.beloc_done8 h h8 (hok _))⟩

variable (hne : len ≠ 0)
include hne

theorem exec_xld_issues : exec (.xld n g rt rl rm ra) s =
    .next ((s.setPav n ((s.pav n).takeTag rt (some (.xld a t len))
      (if t + len > tileSize then some (Fc.tileRange, max t tileSize)
        else if (!k.allowed a len false) = true then some (Fc.denied, k.place a) else none))).retire n 0x68 8 (s.pav n).nextTag a.toNat k
          (s.pav n).pc none) := by
  subst hrl hrm hra
  exact congrArg _ (State.beloc_done8 h h8 ((State.transfer_ok hle hal hroom htag hrange).trans (if_neg hne)))

/-- R80: XST takes its bytes now, and a bound kernel's write to segment 0 or 1 is staged. -/
theorem exec_xst_issues {bad : Option (Nat × Nat)} {bs : List Byte} {q : Pav}
    (hbad : (if t + len > tileSize then some (Fc.tileRange, max t tileSize)
      else if (!k.allowed a len true) = true then some (Fc.denied, k.place a)
      else ((s.pav n).badWord t len).map fun w => (Fc.tileUncorr, 8 * w)) = bad)
    (hbs : (if bad.isSome then [] else (s.pav n).bytes t len) = bs)
    (hq : (if bad = none ∧ k.bound = true ∧ a.toNat / 2 ^ 61 ≤ 1 then
        { (s.pav n).takeTag rt (some (.xst a bs)) bad with
          kern := some { k with staged := k.staged ++ [(a.toNat / 2 ^ 61, a.toNat % 2 ^ 48, bs)] } }
      else (s.pav n).takeTag rt (some (.xst a bs)) bad) = q) :
    exec (.xst n g rt rl rm ra) s =
      .next (((s.countTile n t (min len (tileSize - t))).setPav n q).retire n 0x69 8 (s.pav n).nextTag a.toNat k (s.pav n).pc none) := by
  subst hrl hrm hra
  refine congrArg _ (State.beloc_done8 h h8 ((State.transfer_ok hle hal hroom htag hrange).trans ((if_neg hne).trans ?_)))
  dsimp only
  rw [hbad, hbs, ← hq, xferSeg_eq, xferOff_eq]
  congr 2
  exact if_congr (by rw [Bool.and_eq_true, Option.isNone_iff_eq_none, Kern.stages_iff]) rfl rfl

end

/-! ### PMC -/

/-- R81: a destination that meets what a bound kernel reserves. -/
theorem Kern.reserved_iff (k : Kern) (d len : Nat) : k.reserved d len = true ↔
    k.bound = true ∧ (overlaps d len k.arrwBase (4096 * k.arrwSlots) = true ∨ overlaps d len 0x7FC00 0x400 = true) := by
  simp [Kern.reserved]

/-- R81: the others of the group in the sender's mesh row or column. -/
theorem State.receivers_eq (s : State) (n : Nat) (k : Kern) (dir : Bool) : s.receivers n k dir =
    k.group.filter fun m => m ≠ n ∧ s.get (if dir then F.PV_SITE_COL else F.PV_SITE_ROW) [m] =
      s.get (if dir then F.PV_SITE_COL else F.PV_SITE_ROW) [n] := by
  simp [State.receivers]

theorem State.countTile_get_ne (s : State) (n a len : Nat) {f : Fld} {idx : List Nat} (h : regAddr .PV_TILE_ERR [] ≠ regAddr f.reg idx) :
    (s.countTile n a len).get f idx = s.get f idx := by
  unfold State.countTile
  dsimp only
  split
  · exact (State.get_put_ne _ f _ h).trans (State.get_put_ne _ f _ h)
  · exact State.get_put_ne _ f _ h

section
variable (h : s.Issues n g k) (h8 : (s.pav n).pc % 8 = 0) {dir : Bool} {rt rl rm rd : BitVec 5} {len t d : Nat}
  (hrl : ((s.pav n).reg rl).toNat = len) (hrm : ((s.pav n).reg rm).toNat = t) (hrd : ((s.pav n).reg rd).toNat = d)
include h h8 hrl hrm hrd

omit hrm hrd in
theorem exec_pmc_tooLong (hlen : 65536 < len) : exec (.pmc n g dir rt rl rm rd) s = .next (s.faultsAt n 0x70 k Fc.illegal 0) := by
  subst hrl
  exact congrArg _ (State.beloc_faultsAt8 h h8 (if_pos hlen))

variable (hle : len ≤ 65536)
include hle

omit hrd in
theorem exec_pmc_misaligned (hal : len % 64 ≠ 0 ∨ t % 64 ≠ 0) :
    exec (.pmc n g dir rt rl rm rd) s = .next (s.faultsAt n 0x70 k Fc.misaligned t) := by
  subst hrl hrm
  exact congrArg _ (State.beloc_faultsAt8 h h8 ((if_neg (not_lt.2 hle)).trans (if_pos (by simpa using hal))))

variable (hlen : len % 64 = 0) (ht : t % 64 = 0)
include hlen ht

theorem exec_pmc_destination (hd : d % 64 ≠ 0) :
    exec (.pmc n g dir rt rl rm rd) s = .next (s.faultsAt n 0x70 k Fc.misaligned d) := by
  subst hrl hrm hrd
  exact congrArg _ (State.beloc_faultsAt8 h h8
    ((if_neg (not_lt.2 hle)).trans ((if_neg (by simp [hlen, ht])).trans (if_pos hd))))

/-- R81: with room, a free tag and a free source, a multicast is outstanding where it has a receiver or a fault to report. -/
theorem exec_pmc_issues (hd : d % 64 = 0) (hroom : (s.pav n).transfers < 32) (htag : (s.pav n).tagBusy = false)
    (hrange : (s.pav n).rangeBusy t len = false) {bad : Option (Nat × Nat)} {rcv : List Nat}
    (hbad : (if len = 0 then none
      else if tileSize < t + len then some (Fc.tileRange, max t tileSize)
      else if tileSize < d + len then some (Fc.tileRange, max d tileSize)
      else if k.bound = true ∧ (overlaps d len k.arrwBase (4096 * k.arrwSlots) = true ∨ overlaps d len 0x7FC00 0x400 = true) then
        some (Fc.tileRange, d)
      else ((s.pav n).badWord t len).map fun w => (Fc.tileUncorr, 8 * w)) = bad)
    (hrcv : (s.countTile n t (min len (tileSize - t))).receivers n k dir = rcv) :
    exec (.pmc n g dir rt rl rm rd) s =
      .next (((s.countTile n t (min len (tileSize - t))).setPav n (if bad = none ∧ rcv = [] then (s.pav n).takeTag rt none none
        else (s.pav n).takeTag rt (some (.pmc d (if bad = none then (s.pav n).bytes t len else []) rcv)) bad)).retire n 0x70 8
          (s.pav n).nextTag t k (s.pav n).pc none) := by
  subst hrl hrm hrd
  refine congrArg _ (State.beloc_done8 h h8 ?_)
  have hbytes : ∀ x : List Byte, (if bad.isSome = true then [] else x) = if bad = none then x else [] := fun x => by
    cases bad <;> rfl
  have hbad' : (if ((s.pav n).reg rl).toNat = 0 then none
      else if ((s.pav n).reg rm).toNat + ((s.pav n).reg rl).toNat > tileSize then some (Fc.tileRange, max ((s.pav n).reg rm).toNat tileSize)
      else if ((s.pav n).reg rd).toNat + ((s.pav n).reg rl).toNat > tileSize then some (Fc.tileRange, max ((s.pav n).reg rd).toNat tileSize)
      else if k.reserved ((s.pav n).reg rd).toNat ((s.pav n).reg rl).toNat = true then some (Fc.tileRange, ((s.pav n).reg rd).toNat)
      else ((s.pav n).badWord ((s.pav n).reg rm).toNat ((s.pav n).reg rl).toNat).map fun w => (Fc.tileUncorr, 8 * w)) = bad := by
    simp only [← hbad, Kern.reserved_iff]
  dsimp only
  rw [if_neg (not_lt.2 hle), if_neg (by simp [hlen, ht]), if_neg (not_not.2 hd), if_neg (by simp [hroom, htag, hrange]), hbad', hrcv, hbytes]
  by_cases hnone : bad = none ∧ rcv = []
  · rw [if_pos hnone, if_pos (by simp [hnone])]
  · rw [if_neg hnone, if_neg (by simpa using hnone)]

end

/-- Settles O13: XLD and XST share the checks of their operands, PMC has its own, and each then has one state to leave. -/
theorem transfersIssue : Obligations.TransfersIssue := by
  refine ⟨fun s n g k rt rl rm ra h h8 => ?_, fun s n g k dir rt rl rm rd h h8 => ?_⟩
  · intro p len t a off both
    refine ⟨fun hlen => exec_transfer_faults h h8 fun _ => State.transfer_tooLong hlen,
      fun hle hne hal => exec_transfer_faults h h8 fun _ => State.transfer_misaligned hle hne hal,
      fun hle hne hlen ht hoff => exec_transfer_faults h h8 fun _ => State.transfer_offset hle hne hlen ht hoff,
      fun hle hal hroom htag hrange => ⟨fun hz => exec_transfer_zero h h8 rfl rfl rfl hle hal hroom htag hrange hz, fun hne => ?_⟩⟩
    intro seg fits badOf badX badS bs q q'
    have hX : (if t + len > tileSize then some (Fc.tileRange, max t tileSize)
        else if (!k.allowed a len false) = true then some (Fc.denied, k.place a) else none) = badX :=
      (k.transferFault_eq a t len false none).trans (orElse_none_right _)
    exact ⟨hX ▸ exec_xld_issues h h8 rfl rfl rfl hle hal hroom htag hrange hne,
      exec_xst_issues h h8 rfl rfl rfl hle hal hroom htag hrange hne (k.transferFault_eq a t len true _) rfl rfl⟩
  · intro p len t d pmc
    refine ⟨exec_pmc_tooLong h h8 rfl, exec_pmc_misaligned h h8 rfl rfl, exec_pmc_destination h h8 rfl rfl rfl,
      fun hle hlen ht hd hroom htag hrange => ?_⟩
    intro bad site rcv u
    refine exec_pmc_issues h h8 rfl rfl rfl hle hlen ht hd hroom htag hrange rfl ?_
    have hsite : ∀ i, u.get site [i] = s.get site [i] := fun i => State.countTile_get_ne _ _ _ _ <| by
      cases dir <;> (show 0x400018 ≠ 0x1000000 + 0x4000 * i) <;> omega
    refine (State.receivers_eq ..).trans (List.filter_congr fun m _ => ?_)
    exact congrArg₂ (fun x y => decide (m ≠ n ∧ x = y)) (hsite m) (hsite n)

end Sys2Proof.Machine
end

section
/-! SUPPORT. Waits, signals, fences and what ends a wait (R83, R84, R95). -/

namespace Sys2Proof.Machine

variable {s t : State} {n : Nat} {g : Guard} {k : Kern} {p : Pav} {w : PvWait}

/-! ### When a wait is over -/

@[simp] theorem State.waitOver_event (e y : Nat) : s.waitOver n (.event e y) = if y ≤ s.evVal e then some s else none := rfl

@[simp] theorem State.waitOver_signal (e y : Nat) : s.waitOver n (.signal e y) =
    if (s.pav n).fenceMet 7 = true then some (s.advance F.WK_EVENT_VALUE [e] y) else none := rfl

@[simp] theorem State.waitOver_fence (m : Nat) : s.waitOver n (.fence m) = if (s.pav n).fenceMet m = true then some s else none := rfl

@[simp] theorem State.waitOver_mcnt (x : Nat) : s.waitOver n (.mcnt x) = if x ≤ (s.pav n).mcnt then some s else none := rfl

@[simp] theorem State.waitOver_ending (c : Nat) :
    s.waitOver n (.ending c) = if (s.pav n).fenceMet 7 = true then some (s.endKernel n c) else none := rfl

/-- R83: tag 0 waits for every instruction that is outstanding. -/
@[simp] theorem State.waitOver_tag (tag : Nat) : s.waitOver n (.tag tag) =
    if ∀ o ∈ (s.pav n).out, tag ≠ 0 ∧ o.tag ≠ tag then some s else none := by
  by_cases h0 : tag = 0
  · simp [waitOver, h0, List.eq_nil_iff_forall_not_mem]
  · simp [waitOver, h0, Pav.outst, List.find?_eq_none]

@[simp] theorem State.waitOver_arrival (hk : (s.pav n).kern = some k) (rd re : BitVec 5) :
    s.waitOver n (.arrival rd.toNat re.toNat) = (s.popRecord (s.pav n) k rd re).map (s.setPav n) := by
  simp [waitOver, hk]

/-! ### An instruction that waits where its condition does not hold -/

section
variable {op : Nat} {f : Pav → Kern → Res} (h : s.Issues n g k) (hf : f (s.pav n) k = s.syncOp n w)
include h hf

theorem State.beloc_syncOp_met (hw : s.waitOver n w = some t) :
    s.beloc n g op 4 f = t.retire n op 4 0 0 k (s.pav n).pc none :=
  State.beloc_done4 h (hf.trans (by rw [syncOp, hw]))

theorem State.beloc_syncOp_unmet (hw : s.waitOver n w = none) :
    s.beloc n g op 4 f = (s.mapPav n fun p => { p with wait := some w, issueAt := s.pvc }).setPvState n Ps.waiting :=
  State.beloc_wait4 h (hf.trans (by rw [syncOp, hw]))

end

theorem State.withEvent_outside {rs1 : BitVec 5} {f : Nat → Res} (h : k.evCount ≤ (p.reg rs1).toNat) :
    s.withEvent p k rs1 f = .fault s Fc.illegal 0 :=
  if_neg (not_lt.2 h)

theorem State.withEvent_inside {rs1 : BitVec 5} {f : Nat → Res} (h : (p.reg rs1).toNat < k.evCount) :
    s.withEvent p k rs1 f = f (k.evBase + (p.reg rs1).toNat) :=
  if_pos h

theorem synchronisation_meaning : claimSynchronisation := by
  intro s n g k rs1 rs2 rd re mask code h
  have hk := h.kern
  have hmet : ∀ {op : Nat} {f : Pav → Kern → Res} {w t}, f (s.pav n) k = s.syncOp n w → s.waitOver n w = some t →
      (.next (s.beloc n g op 4 f) : Out) = .next (t.retire n op 4 0 0 k (s.pav n).pc none) :=
    fun hf hw => congrArg _ (State.beloc_syncOp_met h hf hw)
  have hunmet : ∀ {op : Nat} {f : Pav → Kern → Res} {w}, f (s.pav n) k = s.syncOp n w → s.waitOver n w = none → (.next (s.beloc n g op 4 f) : Out) =
      .next ((s.mapPav n fun p => { p with wait := some w, issueAt := s.pvc }).setPvState n Ps.waiting) :=
    fun hf hw => congrArg _ (State.beloc_syncOp_unmet h hf hw)
  intro p x y ends waits idleIn
  refine ⟨fun hout => ⟨?_, ?_⟩, fun hin => ⟨?_, ?_, ?_, ?_⟩, ?_, ?_, ?_, ?_, ?_, ?_, fun hb => ⟨?_, ?_⟩, ?_, ?_⟩
  · exact congrArg _ (State.beloc_faultsAt4 h (State.withEvent_outside hout))
  · exact congrArg _ (State.beloc_faultsAt4 h (State.withEvent_outside hout))
  · exact fun hv => hmet (State.withEvent_inside hin) (if_pos hv)
  · exact fun hv => hunmet (State.withEvent_inside hin) (if_neg (not_le.2 hv))
  · exact fun hi => hmet (State.withEvent_inside hin) (if_pos hi)
  · exact fun hi => hunmet (State.withEvent_inside hin) (if_neg hi)
  · exact fun hi => hmet rfl (if_pos hi)
  · exact fun hi => hunmet rfl (if_neg hi)
  · intro tag done
    have htag : s.syncOp n (.tag (bits (p.reg rs1) 0 8)) = s.syncOp n (.tag tag) := by simp [bits, tag, x]
    exact ⟨fun hd => hmet htag ((State.waitOver_tag _).trans (if_pos hd)),
      fun hd => hunmet htag ((State.waitOver_tag _).trans (if_neg hd))⟩
  · exact fun hm => hmet rfl (if_pos hm)
  · exact fun hm => hunmet rfl (if_neg (not_le.2 hm))
  · exact fun hb => congrArg _ (State.beloc_faultsAt4 h (by simp [hb]))
  · exact fun q hq => hmet (if_pos hb) (by simp [State.waitOver_arrival hk, hq, p])
  · exact fun hq => hunmet (if_pos hb) (by simp [State.waitOver_arrival hk, hq, p])
  · exact fun hi => hmet rfl (if_pos hi)
  · exact fun hi => hunmet rfl (if_neg hi)

/-! ### CONDITION_MET -/

section
variable (hw : (s.pav n).wait = some w) (hk : (s.pav n).kern = some k)
include hw hk

theorem exec_conditionMet_notWaiting (hst : s.pvState n ≠ Ps.waiting) : exec (.conditionMet n) s = .next s := by
  show execConditionMet n s = _
  simp only [execConditionMet, hw, hk]
  rw [if_pos hst]

theorem exec_conditionMet_unmet (hover : s.waitOver n w = none) : exec (.conditionMet n) s = .next s := by
  show execConditionMet n s = _
  simp only [execConditionMet, hw, hk, hover, ite_self]

theorem exec_conditionMet_met (hst : s.pvState n = Ps.waiting) (hover : s.waitOver n w = some t) (hend : ∀ c, w ≠ .ending c) :
    exec (.conditionMet n) s =
      .next (((t.retire n w.opcode 4 0 0 k (s.pav n).pc none (some (s.pav n).issueAt)).mapPav n
        fun p => { p with wait := none }).setPvState n Ps.running) := by
  show execConditionMet n s = _
  simp only [execConditionMet, hw, hk, hover]
  rw [if_neg (not_not.2 hst)]

end

/-! ### Arrival records (R84) -/

theorem State.popRecord_cons {r : ArrRec} {rest : List ArrRec} (hq : k.queue = r :: rest) (s : State) (p : Pav) (rd re : BitVec 5) :
    s.popRecord p k rd re = some ((({ p with kern := some { k.freeSlot with queue := rest, holding := true } } : Pav).setReg rd
      (BitVec.ofNat 64 r.addr)).setReg re (BitVec.ofNat 64 (r.len + r.member * 2 ^ 16 + r.entry * 2 ^ 32))) := by
  simp only [popRecord, hq]

theorem State.popRecord_nil (hq : k.queue = []) (s : State) (p : Pav) (rd re : BitVec 5) :
    s.popRecord p k rd re = if s.lastRecord k = true then
      some ((({ p with kern := some k.freeSlot } : Pav).setReg rd (BitVec.allOnes 64)).setReg re 0) else none := by
  simp only [popRecord, hq]

@[simp] theorem Kern.freeSlot_inUse (k : Kern) : k.freeSlot.inUse = if k.holding then k.inUse - 1 else k.inUse := by
  unfold freeSlot
  split <;> rfl

/-- Settles O15: an instruction waits where `waitOver` answers none and retires from what it answers otherwise. -/
theorem synchronisation : Obligations.Synchronisation := by
  refine ⟨synchronisation_meaning, fun s n w k hw hk => ⟨exec_conditionMet_notWaiting hw hk,
    fun _ => exec_conditionMet_unmet hw hk, fun t => exec_conditionMet_met hw hk⟩,
    fun s p k r rest rd re hq => ⟨{ k.freeSlot with queue := rest, holding := true }, State.popRecord_cons hq s p rd re, rfl, rfl,
      k.freeSlot_inUse⟩, fun s p k rd re hq => ⟨fun hlast => ⟨k.freeSlot, ?_⟩, fun hmore => ?_⟩⟩
  · rw [State.popRecord_nil hq, if_pos hlast]
  · rw [State.popRecord_nil hq, if_neg (by simp [hmore])]

end Sys2Proof.Machine
end

section
/-! SUPPORT. The state of a Pavilion and its window of registers: what a change of state does, and what stands beside the window. -/

namespace Sys2Proof.Machine

variable {s t u : State} {n m : Nat}

/-! ### Where the registers lie -/

@[simp] theorem regAddr_PV_RUN (i : Nat) : regAddr .PV_RUN [i] = 0x1000008 + 0x4000 * i := rfl
@[simp] theorem regAddr_PV_FAULT (i : Nat) : regAddr .PV_FAULT [i] = 0x1000010 + 0x4000 * i := rfl
@[simp] theorem regAddr_PV_FAULT_ADDR (i : Nat) : regAddr .PV_FAULT_ADDR [i] = 0x1000018 + 0x4000 * i := rfl
@[simp] theorem regAddr_PV_STATUS : regAddr .PV_STATUS [] = 0x400010 := rfl
@[simp] theorem regAddr_PV_XRANGE : regAddr .PV_XRANGE [] = 0x400020 := rfl
@[simp] theorem regAddr_TL_EVT (i : Nat) : regAddr .TL_EVT [i] = 0xF01000 + 0x8 * i := rfl
@[simp] theorem regAddr_TL_PC_VAL (i : Nat) : regAddr .TL_PC_VAL [i] = 0xF02018 + 0x20 * i := rfl
@[simp] theorem regAddr_BW_LH_STATUS (i : Nat) : regAddr .BW_LH_STATUS [i] = 0xB01010 + 0x80 * i := rfl
@[simp] theorem regAddr_BW_LH_SEQ (i : Nat) : regAddr .BW_LH_SEQ [i] = 0xB01018 + 0x80 * i := rfl
@[simp] theorem regAddr_BW_SA_PN (i j : Nat) : regAddr .BW_SA_PN [i, j] = 0xB01040 + 0x80 * i + 0x8 * j := rfl

/-! ### A Pavilion's state -/

/-- PV_STATUS alone is brought up to date. -/
theorem State.showPv_rd {r : Reg} {idx : List Nat} (h : regAddr .PV_STATUS [] ≠ regAddr r idx) : s.showPv.rd r idx = s.rd r idx := by
  simp only [State.showPv]
  repeat rw [State.rd_put_ne _ _ h]

@[simp] theorem State.showPv_pv : s.showPv.pv = s.pv := rfl

theorem State.setPvState_rd {r : Reg} {idx : List Nat} (st : Nat) (hs : regAddr .PV_STATUS [] ≠ regAddr r idx)
    (hr : regAddr .PV_RUN [n] ≠ regAddr r idx) : (s.setPvState n st).rd r idx = s.rd r idx :=
  (State.showPv_rd hs).trans (State.rd_put_ne _ _ hr)

theorem State.setPvState_get {f : Fld} {idx : List Nat} (st : Nat) (hs : regAddr .PV_STATUS [] ≠ regAddr f.reg idx)
    (hr : regAddr .PV_RUN [n] ≠ regAddr f.reg idx) : (s.setPvState n st).get f idx = s.get f idx := by
  rw [State.get, State.setPvState_rd st hs hr, State.get]

@[simp] theorem State.pvState_setPvState_self (st : Nat) : (s.setPvState n st).pvState n = st % 8 := by
  have hshow : ∀ t : State, t.showPv.pvState n = t.pvState n := fun t => by
    rw [State.pvState, State.get, State.showPv_rd (by simp [F.PV_RUN_STATE]; omega)]
    rfl
  rw [State.setPvState, hshow]
  exact State.get_put_self F.PV_RUN_STATE (by decide) [n] st

theorem State.pvState_setPvState_ne (st : Nat) (h : m ≠ n) : (s.setPvState m st).pvState n = s.pvState n :=
  State.setPvState_get st (by simp [F.PV_RUN_STATE]; omega) (by simp [F.PV_RUN_STATE]; omega)

@[simp] theorem State.pav_setPvState_self (st : Nat) : (s.setPvState n st).pav n = { s.pav n with since := s.now } := by
  rw [State.setPvState, State.pav, State.showPv_pv]
  exact State.pav_mapPav_self (s.put F.PV_RUN_STATE [n] st) n fun p => { p with since := s.now }

/-! ### What stands beside the Pavilions -/

/-- The Pavilions stand from `s` to `t`, and with them every register from their windows on. -/
structure PavsStand (s t : State) : Prop where
  pv : t.pv = s.pv
  rd : ∀ r idx, 0x1000000 ≤ regAddr r idx → t.rd r idx = s.rd r idx

namespace PavsStand

theorem refl (s : State) : PavsStand s s := ⟨rfl, fun _ _ _ => rfl⟩

theorem trans (h : PavsStand s t) (k : PavsStand t u) : PavsStand s u :=
  ⟨k.pv.trans h.pv, fun r idx ha => (k.rd r idx ha).trans (h.rd r idx ha)⟩

/-- A change of neither the Pavilions nor a register. -/
theorem same (h : PavsStand s t) (hpv : u.pv = t.pv := by rfl) (hregs : u.regs = t.regs := by rfl) : PavsStand s u :=
  h.trans ⟨hpv, fun _ _ _ => by rw [State.rd, hregs, State.rd]⟩

theorem put (h : PavsStand s t) (f : Fld) (idx : List Nat) (v : Nat) (ha : regAddr f.reg idx < 0x1000000) : PavsStand s (t.put f idx v) :=
  h.trans ⟨rfl, fun _ _ hr => State.rd_put_ne _ _ (by omega)⟩

theorem ite {c : Prop} [Decidable c] (ht : PavsStand s t) (hu : PavsStand s u) : PavsStand s (if c then t else u) := by
  split <;> assumption

theorem foldl {β : Type} (l : List β) (f : State → β → State) (h : PavsStand s t) (hf : ∀ u x, PavsStand s u → PavsStand s (f u x)) :
    PavsStand s (l.foldl f t) := by
  induction l generalizing t with
  | nil => exact h
  | cons x l ih => exact ih (hf t x h)

theorem pav (h : PavsStand s t) (n : Nat) : t.pav n = s.pav n := by rw [State.pav, h.pv, State.pav]

theorem pvState (h : PavsStand s t) (n : Nat) : t.pvState n = s.pvState n := by
  rw [State.pvState, State.get, h.rd _ _ (by simp [F.PV_RUN_STATE]; omega), State.pvState, State.get]

theorem tally (h : PavsStand s t) {e : Nat} (he : e < 256) (n : Nat) : PavsStand s (t.tally e n) :=
  h.put _ _ _ (by simp [F.TL_EVT_COUNT]; omega)

theorem bumpXrange (h : PavsStand s t) (n : Nat) : PavsStand s (t.bump F.PV_XRANGE_COUNT [] n) := h.put _ _ _ (by decide)

/-! ### Breakwater's slots, of which there are 32 -/

theorem sendKeyx (h : PavsStand s t) (i : Nat) (msg : List Byte) : PavsStand s (t.sendKeyx i msg) := by
  unfold State.sendKeyx
  dsimp only
  split
  · exact h.same
  · exact h

theorem askRekey (h : PavsStand s t) (i : Nat) : PavsStand s (t.askRekey i) := by
  unfold State.askRekey
  dsimp only
  cases (t.slot i).keyx with
  | some k => exact ite h (sendKeyx h.same ..)
  | none => exact ite h.same (sendKeyx h.same ..)

variable {i : Nat} (hi : i < 32)
include hi

theorem showSlot (h : PavsStand s t) : PavsStand s (t.showSlot i) :=
  (h.put F.BW_LH_STATUS_WIN_USED_MIB [i] _ (by simp [F.BW_LH_STATUS_WIN_USED_MIB]; omega)).put F.BW_LH_STATUS_RX_USED_MIB [i] _
    (by simp [F.BW_LH_STATUS_RX_USED_MIB]; omega)

theorem sendBw (h : PavsStand s t) (x : BwHdr) (payload : List Byte) : PavsStand s (t.sendBw i x payload) := by
  have han : t.cget F.BW_SA_CFG_TX_AN [i] < 4 := bits_lt ..
  have hpn : ∀ v, PavsStand s (t.put F.BW_SA_PN_NEXT_PN [i, t.cget F.BW_SA_CFG_TX_AN [i]] v) := fun v =>
    h.put _ _ v (by simp [F.BW_SA_PN_NEXT_PN]; omega)
  unfold State.sendBw
  dsimp only
  exact ite h (ite (askRekey (same (hpn _)) i) (same (hpn _)))

theorem closeBlock (h : PavsStand s t) : PavsStand s (t.closeBlock i) := by
  unfold State.closeBlock
  dsimp only
  split
  · exact h
  · exact same (foldl _ _ h fun u r hu => sendBw hi hu ..)

theorem bwSend (h : PavsStand s t) (isPartial : Bool) (payload : List Byte) : PavsStand s (t.bwSend i isPartial payload) := by
  have hsent : ∀ v x b p, PavsStand s (((t.put F.BW_LH_SEQ_TX_NEXT [i] v).setSlot i x).sendBw i b p) := fun v x b p =>
    sendBw hi (same (h.put F.BW_LH_SEQ_TX_NEXT [i] v (by simp [F.BW_LH_SEQ_TX_NEXT]; omega))) b p
  unfold State.bwSend
  dsimp only
  exact showSlot hi (ite (closeBlock hi (hsent ..)) (hsent ..))

theorem drainPartials (k : Nat) (h : PavsStand s t) : PavsStand s (t.drainPartials i k) := by
  induction k generalizing t with
  | zero => exact h
  | succ k ih =>
    unfold State.drainPartials
    dsimp only
    split
    · exact h
    · exact ite (ih (bwSend hi h.same ..)) h

theorem sendPartial (h : PavsStand s t) (payload : List Byte) : PavsStand s (t.sendPartial i payload) :=
  drainPartials hi _ h.same

omit hi in
/-- R343: the packets of a form leave through the slots of its span. -/
theorem sendForm (h : PavsStand s t) (c : Coll) (j k e form : Nat) (stow : Bool) (bytes : List Byte) :
    PavsStand s (t.sendForm c j k e form stow bytes) :=
  foldl _ _ h fun _ _ hu => foldl _ _ hu fun v site hv => by
    dsimp only
    exact sendPartial (bits_lt _ _ 5) hv _

omit hi in
theorem formPartial (h : PavsStand s t) (c : Coll) (x : Parcel) (e : Nat) : PavsStand s (t.formPartial c x e) := by
  unfold State.formPartial
  dsimp only
  split
  · exact h
  · refine ite (same (bumpXrange h _)) (sendForm (ite (tally (tally (same (bumpXrange h _)) (by decide) _) (by decide) _) (same (bumpXrange h _))) ..)

omit hi in
/-- R343: forming the partials of a parcel leaves the Pavilions as they are. -/
theorem formReady (h : PavsStand s t) (ring seq k : Nat) : PavsStand s (t.formReady ring seq k) := by
  unfold State.formReady
  split
  · exact h
  · refine ite h (foldl _ _ h fun u e hu => ?_)
    split
    · exact hu
    · exact ite (formPartial hu ..) hu

end PavsStand

end Sys2Proof.Machine
end

section
/-! SUPPORT. Dispatch, arrival records and the Pavilion's own events (R33, R57, R84, R86, R91, R92, R379). -/

namespace Sys2Proof.Machine

variable {s t : State} {n : Nat} {k : Kern}

/-! ### The entry contract (R91) -/

theorem spGet_spPut {α : Type} [DecidableEq α] (d : α) (m : Sp α) (i j : Nat) (v : α) :
    spGet d (spPut d m i v) j = if i = j then v else spGet d m j := by
  split
  · next h => rw [← h, spGet_spPut_self]
  · next h => exact spGet_spPut_ne d d m v h

/-- Stores change the tile memory alone. -/
theorem Pav.foldl_store_eq (l : List (Nat × List Byte)) (p : Pav) :
    ∃ tile bad weak, l.foldl (fun p w => p.store w.1 w.2) p = { p with tile, bad, weak } := by
  induction l generalizing p with
  | nil => exact ⟨p.tile, p.bad, p.weak, rfl⟩
  | cons w l ih =>
    obtain ⟨tile, bad, weak, h⟩ := ih (p.store w.1 w.2)
    exact ⟨tile, bad, weak, h⟩

/-- The registers that the contract gives. -/
def entryRegs (regs : List (Nat × Nat)) : Sp Word64 := regs.foldl (fun m r => spPut 0 m r.1 (BitVec.ofNat 64 r.2)) []

/-- s1 holds the tile address of the arguments or the parcel block, s2 and s3 what the kind of kernel gives them. -/
theorem spGet_entryRegs (a b : Nat) (r : BitVec 5) : spGet 0 (entryRegs [(1, 0x7FC00), (2, a), (3, b)]) r.toNat =
    if r = 1 then 0x7FC00 else if r = 2 then BitVec.ofNat 64 a else if r = 3 then BitVec.ofNat 64 b else 0 := by
  have hr : ∀ j : Nat, j < 32 → ((j = r.toNat) = (r = BitVec.ofNat 5 j)) := fun j hj => propext
    ⟨fun h => by simp [h], fun h => by simp [h, Nat.mod_eq_of_lt hj]⟩
  simp only [entryRegs, List.foldl_cons, List.foldl_nil, spGet_spPut, hr 1 (by decide), hr 2 (by decide), hr 3 (by decide)]
  by_cases h1 : r = 1#5
  · simp [h1]
  by_cases h2 : r = 2#5
  · simp [h2]
  by_cases h3 : r = 3#5
  · simp [h3]
  · simp [h1, h2, h3, spGet]

/-- A Pavilion that was `old` as dispatch leaves it at `now`, its tile memory clear. -/
def entryPav (old : Pav) (k : Kern) (entry : Nat) (regs : List (Nat × Nat)) (rmode job moor pseq eidx now : Nat) : Pav :=
  { Pav.fresh with
    s := entryRegs regs, vl := 64, rmode := rmode, srJob := job, srMoor := moor, srPsq := pseq, eidx := eidx, pc := entry,
    kern := some k, gen := old.gen, gap := old.gap, ramp := old.ramp, shown := old.shown, since := now }

section
variable (s n k) (entry : Nat) (regs : List (Nat × Nat)) (rmode job moor pseq eidx : Nat) (writes : List (Nat × List Byte))

theorem State.pvState_enter : (s.enter n k entry regs rmode job moor pseq eidx writes).pvState n = Ps.running :=
  ((PavsStand.refl _).tally (by decide) _).pvState n |>.trans (State.pvState_setPvState_self _)

/-- A Pavilion as dispatch leaves it: the contract's, but for the tile memory that the stores make. -/
theorem State.pav_enter : ∃ tile bad weak, (s.enter n k entry regs rmode job moor pseq eidx writes).pav n =
    { entryPav (s.pav n) k entry regs rmode job moor pseq eidx s.now with tile, bad, weak } := by
  obtain ⟨tile, bad, weak, h⟩ := Pav.foldl_store_eq writes (entryPav (s.pav n) k entry regs rmode job moor pseq eidx 0)
  refine ⟨tile, bad, weak, ?_⟩
  unfold State.enter
  dsimp only
  rw [((PavsStand.refl _).tally (by decide) _).pav n, State.pav_setPvState_self, State.pav_setPav_self]
  split <;> exact congrArg (fun p : Pav => { p with since := s.now }) h

end

/-! ### Dispatch (R91, R92) -/

theorem State.dispatch_starts (f : State → State) (hst : s.pvState n = Ps.idle) (hhold : s.get F.PV_CTRL_DISPATCH_HOLD = 0)
    (hon : s.get F.PM_STATE_STATE ≤ 1) : s.dispatch n f = f s := by
  simp [State.dispatch, hst, hhold, State.pavsOn, hon, Ps.idle, Ps.gated]

theorem State.dispatch_waits (f : State → State) (hg : s.pvState n ≠ Ps.gated)
    (hw : s.pvState n ≠ Ps.idle ∨ s.get F.PV_CTRL_DISPATCH_HOLD ≠ 0 ∨ 1 < s.get F.PM_STATE_STATE) : s.dispatch n f = s := by
  rw [State.dispatch, if_neg hg, if_neg]
  simp only [State.pavsOn, Bool.and_eq_true, decide_eq_true_eq]
  rintro ⟨⟨hi, hh⟩, ho⟩
  obtain h | h | h := hw
  · exact h hi
  · exact h hh
  · omega

theorem State.dispatch_wakes (f : State → State) (hg : s.pvState n = Ps.gated) : s.dispatch n f = s.wakeNext := if_pos hg

theorem exec_launchedDispatch {l : Launch} (h : s.nextReady n = some (.launched l)) :
    exec (.launchedDispatch n) s = .next (s.dispatch n fun s => s.startLaunched n l) := by
  show execLaunchedDispatch n s = _
  simp only [execLaunchedDispatch, h]

theorem exec_boundDispatch {c : Coll} {x : Parcel} {stamp : Nat} (h : s.nextReady n = some (.bound c x stamp)) :
    exec (.boundDispatch n) s = .next (s.dispatch n fun s => s.startBound n c x none) := by
  show execBoundDispatch n s = _
  simp only [execBoundDispatch, h]

theorem exec_launchedDispatch_waits (hg : s.pvState n ≠ Ps.gated)
    (hw : s.pvState n ≠ Ps.idle ∨ s.get F.PV_CTRL_DISPATCH_HOLD ≠ 0 ∨ 1 < s.get F.PM_STATE_STATE) :
    exec (.launchedDispatch n) s = .next s := by
  show execLaunchedDispatch n s = _
  unfold execLaunchedDispatch
  split
  · rw [State.dispatch_waits _ hg hw]
  · rfl

theorem exec_boundDispatch_waits (hg : s.pvState n ≠ Ps.gated)
    (hw : s.pvState n ≠ Ps.idle ∨ s.get F.PV_CTRL_DISPATCH_HOLD ≠ 0 ∨ 1 < s.get F.PM_STATE_STATE) :
    exec (.boundDispatch n) s = .next s := by
  show execBoundDispatch n s = _
  unfold execBoundDispatch
  split
  · rw [State.dispatch_waits _ hg hw]
  · rw [State.dispatch_waits _ hg hw]
  · rfl

section
variable (hst : s.pvState n = Ps.idle) (hhold : s.get F.PV_CTRL_DISPATCH_HOLD = 0) (hon : s.get F.PM_STATE_STATE ≤ 1)
include hst hhold hon

/-- R91, R92: what a launched kernel finds as it starts. -/
theorem exec_launchedDispatch_starts {l : Launch} (h : s.nextReady n = some (.launched l)) :
    let im := (s.image l.kid).getD KImage.none
    ∃ t k, exec (.launchedDispatch n) s = .next t ∧ t.pvState n = Ps.running ∧ (t.pav n).kern = some k ∧ k.bound = false ∧
      k.ring = l.ring ∧ k.seq = l.seq ∧ k.segs = l.segs ∧ k.evBase = l.evBase ∧ k.evCount = l.evCount ∧ k.wdog = im.wdog ∧
      (t.pav n).pc = im.entry ∧ (t.pav n).vl = 64 ∧ (t.pav n).rmode = l.rmode ∧ (t.pav n).srJob = l.srJob ∧
      (t.pav n).srMoor = l.srMoor ∧ (t.pav n).srPsq = l.srPsq ∧
      (∀ r : BitVec 5, (t.pav n).reg r = if r = 1 then 0x7FC00 else if r = 2 then BitVec.ofNat 64 (n - l.first)
        else if r = 3 then BitVec.ofNat 64 l.count else 0) ∧
      (∀ p, (t.pav n).pred p = decide (p = 0)) ∧ (∀ v i, (t.pav n).lane v i = 0) ∧ (t.pav n).out = [] := by
  intro im
  let k : Kern := ⟨false, l.ring, l.seq, l.kid, 0, 0, none, l.segs, im.code.length, l.evBase, l.evCount,
    (List.range l.count).map (l.first + ·), im.arrwBase, 0, [], [], [], 0, 0, false, [], im.wdog, s.pvc, s.pvc⟩
  obtain ⟨tile, bad, weak, hp⟩ := State.pav_enter (s.mapLaunch l.ring l.seq fun l => { l with toGo := l.toGo.erase n })
    n k im.entry [(1, 0x7FC00), (2, n - l.first), (3, l.count)] l.rmode l.srJob l.srMoor l.srPsq 0 [(im.dataAddr, im.data), (0x7FC00, l.args)]
  refine ⟨s.startLaunched n l, k, by rw [exec_launchedDispatch h, State.dispatch_starts _ hst hhold hon], State.pvState_enter .., ?_⟩
  have hp' : (s.startLaunched n l).pav n = _ := hp
  rw [hp']
  refine ⟨rfl, rfl, rfl, rfl, rfl, rfl, rfl, rfl, rfl, rfl, rfl, rfl, rfl, rfl, spGet_entryRegs _ _, fun p => ?_, fun _ _ => rfl, rfl⟩
  simp [Pav.pred, Pav.fresh, entryPav]

omit hst hhold hon in
/-- R93: the kernel of a parcel enters, and the partials that it leaves whole are formed. -/
theorem State.startBound_eq (s : State) (n : Nat) (c : Coll) (x : Parcel) : ∃ k entry writes,
    s.startBound n c x none = (s.enter n k entry [(1, 0x7FC00), (2, (s.owned c x.k n).length), (3, c.pseq x.k)] c.rmode (s.job c.moor)
      c.moor (c.pseq x.k) 0 writes).formReady c.ring c.seq x.k ∧
    k.bound = true ∧ k.ring = c.ring ∧ k.seq = c.seq ∧ k.parcel = x.k ∧ k.entries = s.owned c x.k n :=
  ⟨_, _, _, rfl, rfl, rfl, rfl, rfl, rfl⟩

/-- R91, R93: what a bound kernel finds as it starts. -/
theorem exec_boundDispatch_starts {c : Coll} {x : Parcel} {stamp : Nat} (h : s.nextReady n = some (.bound c x stamp)) :
    ∃ t k, exec (.boundDispatch n) s = .next t ∧ t.pvState n = Ps.running ∧ (t.pav n).kern = some k ∧ k.bound = true ∧
      k.ring = c.ring ∧ k.seq = c.seq ∧ k.parcel = x.k ∧ k.entries = s.owned c x.k n ∧ (t.pav n).vl = 64 ∧
      (t.pav n).rmode = c.rmode ∧ (t.pav n).srMoor = c.moor ∧ (t.pav n).reg 1 = 0x7FC00 ∧
      (t.pav n).reg 2 = BitVec.ofNat 64 (s.owned c x.k n).length ∧ (t.pav n).reg 3 = BitVec.ofNat 64 (c.pseq x.k) := by
  obtain ⟨k, entry, writes, heq, hbound, hring, hseq, hparcel, hentries⟩ := State.startBound_eq s n c x
  have hstand := (PavsStand.refl (s.enter n k entry [(1, 0x7FC00), (2, (s.owned c x.k n).length), (3, c.pseq x.k)] c.rmode
    (s.job c.moor) c.moor (c.pseq x.k) 0 writes)).formReady c.ring c.seq x.k
  obtain ⟨tile, bad, weak, hp⟩ := State.pav_enter s n k entry [(1, 0x7FC00), (2, (s.owned c x.k n).length), (3, c.pseq x.k)] c.rmode
    (s.job c.moor) c.moor (c.pseq x.k) 0 writes
  rw [← hstand.pav n, ← heq] at hp
  have hstate := hstand.pvState n
  rw [← heq, State.pvState_enter] at hstate
  refine ⟨s.startBound n c x none, k, by rw [exec_boundDispatch h, State.dispatch_starts _ hst hhold hon], hstate, ?_⟩
  rw [hp]
  exact ⟨rfl, hbound, hring, hseq, hparcel, hentries, rfl, rfl, rfl, spGet_entryRegs _ _ 1, spGet_entryRegs _ _ 2, spGet_entryRegs _ _ 3⟩

end

/-! ### Waking, gating, the watchdog (R86, R379) -/

section
variable (s n)

theorem exec_pavilionWake : exec (.pavilionWake n) s = .next (if s.pvState n = Ps.waking ∧ s.get F.PM_STATE_STATE ≤ 1 then
    (s.setPvState n Ps.idle).wakeNext else s) := by
  show execPavilionWake n s = _
  simp [execPavilionWake, State.pavsOn]

/-- R379: an idle Pavilion without work is gated, in QUIET at once, in RUN after its time. -/
theorem exec_pavilionGating : exec (.pavilionGating n) s = .next (if s.pvState n = Ps.idle ∧ s.readyFor n = [] ∧
      (s.get F.PM_STATE_STATE = 1 ∨ s.get F.PM_STATE_STATE = 0 ∧ s.get F.PM_CTRL_RUN_GATE = 1 ∧
        (s.pav n).since + 500 * s.get F.PM_CTRL_GATE_IDLE_US ≤ s.now) then
    s.setPvState n Ps.gated else s) := by
  show execPavilionGating n s = _
  refine congrArg _ (if_congr ?_ rfl rfl)
  simp only [Bool.and_eq_true, Bool.or_eq_true, decide_eq_true_eq, List.isEmpty_iff, and_assoc]
  exact Iff.rfl

theorem State.wdog_eq_zero (hk : k.kid ≠ 0) : s.wdog k = 0 ↔ k.wdog ≤ (s.pvc - k.wdogAt) / 1024 := by
  rw [State.wdog, if_neg hk, Nat.sub_eq_zero_iff_le]

variable {s n}

theorem exec_watchdog_faults (hk : (s.pav n).kern = some k) (hkid : k.kid ≠ 0) (hw : s.wdog k = 0)
    (hst : s.pvState n = Ps.running ∨ s.pvState n = Ps.waiting) :
    exec (.watchdog n) s = .next (s.raiseFault n Fc.watchdog 0 (s.pav n).pc 0) := by
  show execWatchdog n s = _
  simp [execWatchdog, hk, hkid, hw, hst]

theorem exec_watchdog_waits (h : ∀ k, (s.pav n).kern = some k → k.kid = 0 ∨ s.wdog k ≠ 0) : exec (.watchdog n) s = .next s := by
  show execWatchdog n s = _
  unfold execWatchdog
  split
  · next k hk =>
    rw [if_neg]
    obtain hkid | hw := h k hk
    · simp [hkid]
    · simp [hw]
  · rfl

end

/-! ### Arrival records (R84, R351) -/

section
variable {c : Coll} {x : Parcel} (hk : (s.pav n).kern = some k) (hb : k.bound = true) (hcodec : k.codec = none)
  (hst : s.pvState n = Ps.running ∨ s.pvState n = Ps.waiting) (hc : s.coll? k.ring k.seq = some c)
  (hx : (c.live.find? fun x => x.k = k.parcel) = some x)
include hk hb hcodec hst hc hx

omit hb hcodec hst in
theorem exec_arrivalRecord_none (h : s.nextPost c x k = none) (bad : Bool) : exec (.arrivalRecord n bad) s = .next s := by
  show execArrivalRecord n bad s = _
  simp only [execArrivalRecord, hk, hc, Option.bind_some, hx, Option.map_some, h, ite_self]

theorem exec_arrivalRecord_some {a : Arrival} (h : s.nextPost c x k = some a) (bad : Bool) :
    exec (.arrivalRecord n bad) s = .next (if bad then s.discard c x a
      else if k.inUse < k.arrwSlots then s.mapPav n fun p => { p.store (k.arrwBase + 4096 * k.slotNext) a.elems with kern := some { k with
        posted := k.posted ++ [(a.entry, a.member)],
        queue := k.queue ++ [⟨k.arrwBase + 4096 * k.slotNext, a.elems.length, a.member, k.entries.idxOf a.entry⟩],
        slotNext := (k.slotNext + 1) % k.arrwSlots, inUse := k.inUse + 1 } }
      else s) := by
  have hruns : ¬(!k.bound || k.codec.isSome || !(decide (s.pvState n = Ps.running) || decide (s.pvState n = Ps.waiting))) = true := by
    simpa [hb, hcodec, ← or_iff_not_imp_left] using hst
  show execArrivalRecord n bad s = _
  simp only [execArrivalRecord, hk, hc, Option.bind_some, hx, Option.map_some, h]
  rw [if_neg hruns]

end

/-- R351: the fifth discard of a contribution stops its command. -/
theorem State.discard_stops {c : Coll} {x : Parcel} {a : Arrival} (h : 4 ≤ spGet 0 c.discards (s.granNo c x.k a.entry * 4096 + a.member)) :
    s.discard c x a = (s.tally 0x23).stopColl c.ring c.seq St.dataError 0 (some a.member) := if_pos h

/-! ### Fault release and scrub (R33, R57) -/

theorem exec_faultRelease {req : Requester} {v : Word64} (h : s.Writes req .PV_FAULT [n]) :
    exec (.faultRelease req n v) s = (s.faultRelease req n v).written req .PV_FAULT [n] :=
  State.rowWrite_allowed h _

theorem exec_tileScrub (w : Nat) : exec (.tileScrub n w) s = .next (
    if s.get F.PV_CTRL_SCRUB_EN ≠ 0 ∧ s.pvState n ≠ Ps.gated ∧ s.pvState n ≠ Ps.waking then
      (if w ∈ (s.pav n).bad then s.bump F.PV_TILE_ERR_UNCORRECTED
        else if w ∈ (s.pav n).weak then (s.bump F.PV_TILE_ERR_CORRECTED).setPav n { s.pav n with weak := (s.pav n).weak.erase w }
        else s)
    else s) := by
  show execTileScrub n w s = _
  by_cases hon : s.get F.PV_CTRL_SCRUB_EN ≠ 0 ∧ s.pvState n ≠ Ps.gated ∧ s.pvState n ≠ Ps.waking
  · simp [execTileScrub, hon]
  · have hoff : (s.get F.PV_CTRL_SCRUB_EN = 0 || s.pvState n = Ps.gated || s.pvState n = Ps.waking : Bool) = true := by
      simp only [Bool.or_eq_true, decide_eq_true_eq]
      tauto
    simp only [execTileScrub, hoff, if_neg hon, if_true]

/-- Settles O31: each event's own lemma, the two dispatches by what `enter` leaves and `formReady` lets stand. -/
theorem pavilionEvents : Obligations.PavilionEvents := by
  refine ⟨fun s n l _ _ h hst hhold hon => exec_launchedDispatch_starts hst hhold hon h,
    fun s n c x stamp _ _ h hst hhold hon => exec_boundDispatch_starts hst hhold hon h,
    fun s n d _ hg hw => ⟨exec_launchedDispatch_waits hg hw, exec_boundDispatch_waits hg hw⟩,
    fun s n l h hg => by rw [exec_launchedDispatch h, State.dispatch_wakes _ hg],
    fun s n => ⟨fun hst hon => ?_, fun h => ?_, ⟨fun hdue => ?_, fun hdue => ?_⟩, fun k hk hkid hw hst => ?_, fun h => ?_⟩,
    fun s n k c x a hk hb hcodec hst hc hx => ⟨fun h => exec_arrivalRecord_none hk hc hx h, fun h => ⟨fun hfull => ?_, fun hfree => ?_,
      fun hfifth => ?_⟩⟩,
    fun s req n v h => ⟨fun hst hv => ?_, fun hst => ?_⟩,
    fun s n w => ⟨fun hon hbad => ?_, fun hon hbad hweak => ?_, fun h => ?_⟩⟩
  · rw [exec_pavilionWake, if_pos ⟨hst, hon⟩]
  · rw [exec_pavilionWake, if_neg (by omega)]
  · rw [exec_pavilionGating, if_pos hdue]
  · rw [exec_pavilionGating, if_neg hdue]
  · exact exec_watchdog_faults hk hkid ((State.wdog_eq_zero s hkid).2 hw) hst
  · refine exec_watchdog_waits fun k hk => or_iff_not_imp_left.2 fun hkid hw => ?_
    have := (State.wdog_eq_zero s hkid).1 hw
    have := (h k hk).resolve_left hkid
    omega
  · rw [exec_arrivalRecord_some hk hb hcodec hst hc hx h, if_neg (by decide), if_neg (by omega)]
  · rw [exec_arrivalRecord_some hk hb hcodec hst hc hx h, if_neg (by decide), if_pos hfree]
    rfl
  · rw [exec_arrivalRecord_some hk hb hcodec hst hc hx h, if_pos rfl, State.discard_stops hfifth]
  · rw [exec_faultRelease h, State.faultRelease, if_pos (by simp [hst, hv])]
  · rw [exec_faultRelease h, State.faultRelease, if_neg (by simp; tauto)]
  · rw [exec_tileScrub, if_pos hon, if_pos hbad]
  · rw [exec_tileScrub, if_pos hon, if_neg hbad, if_pos hweak]
  · rw [exec_tileScrub]
    by_cases hon : s.get F.PV_CTRL_SCRUB_EN ≠ 0 ∧ s.pvState n ≠ Ps.gated ∧ s.pvState n ≠ Ps.waking
    · obtain ⟨hbad, hweak⟩ := h.resolve_left (not_not.2 hon)
      rw [if_pos hon, if_neg hbad, if_neg hweak]
    · rw [if_neg hon]

end Sys2Proof.Machine
end

section
/-! SUPPORT. Where the rows of Pavilions run to their effect (R39, R83, R86, R379). -/

namespace Sys2Proof.Machine

variable {s t : State} {n : Nat} {k : Kern}

/-! ### Waking -/

/-- Only a GATED Pavilion begins to wake. -/
theorem State.wakeNext_pvState (h : s.pvState n ≠ Ps.gated) : s.wakeNext.pvState n = s.pvState n := by
  unfold State.wakeNext
  split
  · rfl
  · refine foldl_unchanged (g := fun s => s.pvState n) (fun m hm u => State.pvState_setPvState_ne _ ?_) s
    have hgated := (List.mem_filter.1 (List.mem_of_mem_take hm)).2
    rintro rfl
    simp [h] at hgated

/-! ### A register write, and what the counters then count (R12, R407) -/

/-- Without a field that the seal locks, a write gives every field its value. -/
theorem State.applyWrite_free {r : Reg} (hr : r ≠ .PM_CAP) (hfree : ∀ f ∈ (regDesc r).fields, f.acc ≠ .rwl) (s : State) (req : Requester)
    (idx : List Nat) (v : Word64) : ∃ w, s.applyWrite req r idx v = s.wr r idx w ∧
      ∀ f ∈ (regDesc r).fields, bits w f.lo f.width = fieldAfter s.isSealed (s.rd r idx) v f := by
  obtain ⟨hf, ha⟩ := regDesc_fields_apart r
  have hfields : fieldsFor r req = (regDesc r).fields := by
    unfold fieldsFor
    split
    · exact absurd rfl hr
    · exact absurd rfl hr
    · rfl
  have hnone : ((regDesc r).fields.any fun f => (writeField s.isSealed (s.rd r idx) v f).2) = false := by
    refine List.any_eq_false.2 fun f hm hd => ?_
    obtain ⟨-, hacc, -⟩ := (writeField_denied f).1 hd
    exact hfree f hm hacc
  refine ⟨writeWord s.isSealed (s.rd r idx) v (regDesc r).fields (s.rd r idx), ?_, fun f hm =>
    (bits_writeWord hf ha hm _).trans (writeField_value (hf f hm))⟩
  simp [State.applyWrite, hfields, applyFields_eq, hnone]

theorem State.pcCount_congr {α : Type} (g : State → α) (hg : ∀ (s : State) (j v : Nat), j < 64 → g (s.put F.TL_PC_VAL_COUNT [j] v) = g s)
    (s : State) (kind : Nat) (pass : State → Nat → Bool) (pos m : Nat) : g (s.pcCount kind pass pos m) = g s := by
  refine foldl_unchanged (fun j hj u => ?_) s
  unfold State.pcCount1
  split
  · exact hg u j _ (List.mem_range.1 hj)
  · rfl

@[simp] theorem State.pcCount_mo (kind : Nat) (pass : State → Nat → Bool) (pos m : Nat) : (s.pcCount kind pass pos m).mo = s.mo :=
  State.pcCount_congr State.mo (fun _ _ _ _ => rfl) ..

@[simp] theorem State.pcCount_pv (kind : Nat) (pass : State → Nat → Bool) (pos m : Nat) : (s.pcCount kind pass pos m).pv = s.pv :=
  State.pcCount_congr State.pv (fun _ _ _ _ => rfl) ..

/-- The programmable counters lie apart from the other blocks' registers. -/
theorem State.pcCount_get {f : Fld} {idx : List Nat} (h : regAddr f.reg idx < 0xF02000 ∨ 0xF03000 ≤ regAddr f.reg idx)
    (kind : Nat) (pass : State → Nat → Bool) (pos m : Nat) : (s.pcCount kind pass pos m).get f idx = s.get f idx :=
  State.pcCount_congr (fun s => s.get f idx) (fun _ _ _ hj => State.get_put_ne _ _ _ (by simp [F.TL_PC_VAL_COUNT]; omega)) ..

@[simp] theorem State.pcCount_pvState (kind : Nat) (pass : State → Nat → Bool) (pos m : Nat) :
    (s.pcCount kind pass pos m).pvState n = s.pvState n :=
  State.pcCount_get (Or.inr (by simp [F.PV_RUN_STATE]; omega)) ..

/-! ### A launched kernel's fault (R87, R109) -/

theorem State.launchDone_regs (s : State) (ring seq : Nat) : (s.launchDone ring seq).regs = s.regs := by
  unfold State.launchDone
  split
  · rfl
  · split
    · rfl
    · dsimp only
      split <;> rfl

@[simp] theorem State.launchLeft_regs (s : State) (ring seq m : Nat) (fail : Option (Nat × Nat)) :
    (s.launchLeft ring seq m fail).regs = s.regs :=
  State.launchDone_regs ..

/-- R57: the first fault of a Pavilion is recorded with VALID. -/
theorem State.recordFault_valid (h : s.get F.PV_FAULT_VALID [n] = 0) (cls itag pc addr : Nat) :
    (s.recordFault n cls itag pc addr).get F.PV_FAULT_VALID [n] = 1 := by
  rw [State.recordFault, if_neg (by omega), State.get_wr_ne _ _ (by simp [F.PV_FAULT_VALID]), State.get]
  show bits (State.rd (State.wr ..) .PV_FAULT [n]) 0 1 = 1
  rw [State.rd_wr_self, bits, BitVec.toNat_ofNat, Nat.shiftRight_zero]
  omega

theorem State.recordFault_pv (s : State) (n cls itag pc addr : Nat) : (s.recordFault n cls itag pc addr).pv = s.pv := by
  unfold State.recordFault
  split <;> rfl

theorem State.raiseFault_launched (hk : (s.pav n).kern = some k) (hb : k.bound = false) (hv : s.get F.PV_FAULT_VALID [n] = 0)
    (cls itag pc addr : Nat) : (s.raiseFault n cls itag pc addr).pvState n = Ps.faulted ∧
      (s.raiseFault n cls itag pc addr).get F.PV_FAULT_VALID [n] = 1 := by
  have hk' : ((s.recordFault n cls itag pc addr).pav n).kern = some k := by rw [State.pav, State.recordFault_pv, ← hk, State.pav]
  have hraise : s.raiseFault n cls itag pc addr = (((s.recordFault n cls itag pc addr).mapPav n fun p => { p with wait := none }).setPvState n
      Ps.faulted).launchLeft k.ring k.seq n (some (cls, 0)) := by
    simp only [State.raiseFault, hv, hk', hb]
    rfl
  rw [hraise]
  constructor
  · rw [State.pvState, State.get, State.rd, State.launchLeft_regs]
    exact State.pvState_setPvState_self (n := n) Ps.faulted
  · rw [State.get, State.rd, State.launchLeft_regs]
    exact (State.setPvState_get _ (by simp [F.PV_FAULT_VALID]; omega) (by simp [F.PV_FAULT_VALID])).trans (State.recordFault_valid hv ..)

/-! ### Fault release (R57) -/

/-- A write of PV_FAULT with VALID's bit set clears it and leaves the Pavilion's state. -/
theorem State.applyWrite_PV_FAULT (req : Requester) {v : Word64} (hv : v.getLsbD 0 = true) :
    (s.applyWrite req .PV_FAULT [n] v).get F.PV_FAULT_VALID [n] = 0 ∧ (s.applyWrite req .PV_FAULT [n] v).pvState n = s.pvState n := by
  obtain ⟨w, hw, hfields⟩ := State.applyWrite_free (r := .PV_FAULT) (by decide) (by decide) s req [n] v
  rw [hw]
  constructor
  · have hvalid := hfields F.PV_FAULT_VALID (by decide)
    have hclear : fieldAfter s.isSealed (s.rd .PV_FAULT [n]) v F.PV_FAULT_VALID = 0 := by
      refine Nat.eq_of_testBit_eq fun i => ?_
      simp only [fieldAfter, F.PV_FAULT_VALID, testBit_bits]
      rcases i with _ | i
      · simp [hv]
      · simp
    rw [State.get]
    show bits (State.rd (State.wr ..) .PV_FAULT [n]) _ _ = 0
    rw [State.rd_wr_self, hvalid, hclear]
  · exact State.get_wr_ne _ _ (by simp [F.PV_RUN_STATE])

theorem State.clearKern_kern (s : State) (n : Nat) : ((s.clearKern n).pav n).kern = none :=
  congrArg Pav.kern (State.pav_mapPav_self s n fun p => { p with kern := none, wait := none, out := [] })

theorem exec_faultRelease_releases {req : Requester} {v : Word64} (hw : s.Writes req .PV_FAULT [n]) (hst : s.pvState n = Ps.faulted)
    (hv : v.getLsbD 0 = true) : ∃ t, exec (.faultRelease req n v) s = .next t ∧ t.pvState n = Ps.idle ∧ (t.pav n).kern = none := by
  obtain ⟨hvalid, hstate⟩ := State.applyWrite_PV_FAULT (s := s) (n := n) req hv
  refine ⟨_, exec_faultRelease hw, ?_, ?_⟩
  · rw [State.faultRelease, if_pos (by simp [hstate, hst, hvalid]), State.countBar0, State.pcCount_pvState, State.pvState_setPvState_self]
    rfl
  · rw [State.faultRelease, if_pos (by simp [hstate, hst, hvalid]), State.pav, State.countBar0, State.pcCount_pv]
    exact (congrArg Pav.kern (State.pav_setPvState_self _)).trans (State.clearKern_kern _ n)

/-! ### An array's level (R39) -/

theorem State.setLevel_level (array : Bool) {l : Nat} (hl : l < 8) :
    (s.setLevel n array.toNat l).get (levelFld array.toNat) [n] = l := by
  have hput : (s.put (levelFld array.toNat) [n] l).get (levelFld array.toNat) [n] = l % 2 ^ (levelFld array.toNat).width :=
    State.get_put_self _ (by cases array <;> decide) _ _
  have hwidth : (levelFld array.toNat).width = 3 := by cases array <;> rfl
  rw [hwidth] at hput
  exact hput.trans (Nat.mod_eq_of_lt hl)

end Sys2Proof.Machine
end

section
/-! SUPPORT. Where the rows of the collective engine run to their effect (R141 to R155, R178). -/

namespace Sys2Proof.Machine

variable {s : State}

/-! ### Sending leaves the Moorings alone -/

theorem State.ite_mo (b : Bool) {t u : State} (ht : t.mo = s.mo) (hu : u.mo = s.mo) : (if b then t else u).mo = s.mo := by
  split <;> assumption

@[simp] theorem State.countEnqueue_mo (ingress egress : Nat) (pkt : Packet) : (s.countEnqueue ingress egress pkt).mo = s.mo := by
  simp [State.countEnqueue]

@[simp] theorem State.countDrop_mo (p cls : Nat) : (s.countDrop p cls).mo = s.mo := State.pcCount_mo ..

@[simp] theorem State.useCells_mo (die n : Nat) : (s.useCells die n).mo = s.mo := by
  unfold State.useCells
  dsimp only
  split <;> rfl

@[simp] theorem State.pairHead_mo (quay e c : Nat) (empty : Bool) : (s.pairHead quay e c empty).mo = s.mo := by
  unfold State.pairHead
  dsimp only
  split <;> rfl

@[simp] theorem State.toVoq_mo (x : BPkt) (egress : Nat) : (s.toVoq x egress).mo = s.mo := by
  have hcount : ∀ pkt, ((s.useCells (dieOf x.port) x.pkt.cells).countEnqueue x.port egress pkt).mo = s.mo := by simp
  exact State.ite_mo _ (hcount _) ((State.pairHead_mo ..).trans (hcount _))

@[simp] theorem State.dropDown_mo (p cls : Nat) : (s.dropDown p cls).mo = s.mo := State.countDrop_mo ..

@[simp] theorem State.queueTo_mo (x : BPkt) (egress : Nat) : (s.queueTo x egress).mo = s.mo :=
  State.ite_mo _ (State.dropDown_mo ..) (State.ite_mo _ ((State.toVoq_mo ..).trans (State.ite_mo _ rfl rfl)) (State.countDrop_mo ..))

@[simp] theorem State.sendMember_mo (m i ctype pseq gidx len gran aux : Nat) (payload : List Byte) :
    (s.sendMember m i ctype pseq gidx len gran aux payload).mo = s.mo := by
  unfold State.sendMember State.build State.sendPort
  dsimp only
  rw [State.queueTo_mo]

@[simp] theorem State.sendGrant_mo (m i pseq : Nat) : (s.sendGrant m i pseq).mo = s.mo := by
  rw [State.sendGrant, State.sendMember_mo]

@[simp] theorem State.sendRereq_mo (c : Coll) (k e i : Nat) : (s.sendRereq c k e i).mo = s.mo := by
  rw [State.sendRereq, State.bump_mo, State.sendMember_mo]

@[simp] theorem State.showMoor_mo (m : Nat) : (s.showMoor m).mo = s.mo := by
  simp only [State.showMoor, State.put_mo]

@[simp] theorem State.showSpanOf_mo (m : Nat) : (s.showSpanOf m).mo = s.mo := by
  unfold State.showSpanOf
  split <;> rfl

@[simp] theorem State.showFences_mo (m : Nat) : (s.showFences m).mo = s.mo := by
  unfold State.showFences
  dsimp only
  rw [foldl_unchanged (g := State.mo) fun _ _ _ => State.put_mo ..]
  rw [State.put_mo, State.put_mo]

/-! ### A change of one command or parcel -/

/-- A command found by its ring and sequence number is changed by `f`, every other stands. -/
def collAt (ring seq : Nat) (f : Coll → Coll) (c : Coll) : Coll := if c.ring = ring && c.seq = seq then f c else c

theorem State.mapColl_colls (ring seq : Nat) (f : Coll → Coll) : (s.mapColl ring seq f).mo.colls = s.mo.colls.map (collAt ring seq f) := rfl

theorem collAt_self (f : Coll → Coll) (c : Coll) : collAt c.ring c.seq f c = f c := if_pos (by simp)

theorem State.findParcel_congr {t : State} (h : t.mo.colls = s.mo.colls) (m pseq : Nat) : t.findParcel m pseq = s.findParcel m pseq := by
  rw [State.findParcel, h, State.findParcel]

/-- What `findParcel` finds in one command. -/
def Coll.parcelAt (m pseq : Nat) (c : Coll) : Option (Coll × Parcel) :=
  if c.moor = m then (c.live.find? fun p => c.pseq p.k = pseq).map fun p => (c, p) else none

/-- What `mapParcel` makes of the parcels and of the command. -/
def changedAt (k : Nat) (f : Parcel → Parcel) (y : Parcel) : Parcel := if y.k = k then f y else y

def Coll.withParcel (k : Nat) (f : Parcel → Parcel) (c : Coll) : Coll := { c with live := c.live.map (changedAt k f) }

/-- What `mapParcel` makes of a command with a parcel of it. -/
def foundAt (ring seq k : Nat) (f : Parcel → Parcel) (z : Coll × Parcel) : Coll × Parcel :=
  (collAt ring seq (Coll.withParcel k f) z.1, if z.1.ring = ring && z.1.seq = seq then changedAt k f z.2 else z.2)

section
variable {m pseq : Nat} {f : Parcel → Parcel} (hf : ∀ y, (f y).k = y.k)
include hf

theorem changedAt_k (k : Nat) (y : Parcel) : (changedAt k f y).k = y.k := by
  by_cases hy : y.k = k <;> simp [changedAt, hy, hf]

/-- A command changed shows the same parcels, changed. -/
theorem Coll.parcelAt_collAt (ring seq k : Nat) (d : Coll) :
    Coll.parcelAt m pseq (collAt ring seq (Coll.withParcel k f) d) = (Coll.parcelAt m pseq d).map (foundAt ring seq k f) := by
  by_cases hm : d.moor = m
  · subst hm
    by_cases hd : (d.ring = ring && d.seq = seq : Bool) = true
    · have hon : collAt ring seq (Coll.withParcel k f) d = d.withParcel k f := if_pos hd
      rw [hon, Coll.parcelAt, Coll.parcelAt, if_pos rfl, if_pos (by rfl), Coll.withParcel, List.find?_map, Option.map_map, Option.map_map]
      simp only [Function.comp_def, changedAt_k hf, Coll.pseq]
      exact Option.map_congr fun y _ => Prod.ext hon.symm (if_pos hd).symm
    · have hon : collAt ring seq (Coll.withParcel k f) d = d := if_neg hd
      rw [hon, Coll.parcelAt, if_pos rfl, Option.map_map]
      exact Option.map_congr fun y _ => Prod.ext hon.symm (if_neg hd).symm
  · have hmoor : (collAt ring seq (Coll.withParcel k f) d).moor = d.moor := by
      unfold collAt
      split <;> rfl
    rw [Coll.parcelAt, if_neg (hmoor ▸ hm), Coll.parcelAt, if_neg hm, Option.map_none]

/-- A live parcel changed, its place in the command kept, is found again by its sequence number. -/
theorem State.findParcel_mapParcel {c : Coll} {x : Parcel} (h : s.findParcel m pseq = some (c, x)) :
    ∃ d, (s.mapParcel c.ring c.seq x.k f).findParcel m pseq = some (d, f x) := by
  refine ⟨c.withParcel x.k f, ?_⟩
  calc (s.mapParcel c.ring c.seq x.k f).findParcel m pseq
      = (s.mo.colls.map (collAt c.ring c.seq (Coll.withParcel x.k f))).findSome? (Coll.parcelAt m pseq) := rfl
    _ = s.mo.colls.findSome? (Option.map (foundAt c.ring c.seq x.k f) ∘ Coll.parcelAt m pseq) := by
      rw [List.findSome?_map]
      exact congrArg (fun g => s.mo.colls.findSome? g) (funext fun d => Coll.parcelAt_collAt hf _ _ _ d)
    _ = (s.findParcel m pseq).map (foundAt c.ring c.seq x.k f) := List.map_findSome?.symm
    _ = some (c.withParcel x.k f, f x) := by simp [h, foundAt, collAt, changedAt]

end

/-! ### Parcels admitted, asked for again and passed (R141, R144, R150) -/

/-- R141: a re-request that is due is sent, and its interval runs from now. -/
theorem exec_rereq_asks {m pseq e i : Nat} {c : Coll} {x : Parcel} (h : s.findParcel m pseq = some (c, x))
    (he : e < (s.granLens c x.k).length) (hi : i ∈ s.contributors c) (hdue : s.due c x e i = true) :
    ∃ t, exec (.rereq m pseq e i) s = .next t ∧ ∃ d y, t.findParcel m pseq = some (d, y) ∧ spGet 0 y.asked (4096 * e + i) = s.now := by
  have hexec : exec (.rereq m pseq e i) s = .next (s.askAgain c x e i) := by
    show execRereq m pseq e i s = _
    simp only [execRereq, h]
    rw [if_pos (by simp [he, hi, hdue])]
  obtain ⟨d, hd⟩ := State.findParcel_mapParcel (f := fun x => { x with asked := spIns x.asked (4096 * e + i) s.now }) (fun _ => rfl) h
  refine ⟨_, hexec, d, _, (State.findParcel_congr ?_ m pseq).trans hd, spGet_spIns_self ..⟩
  rw [State.askAgain, State.sendRereq_mo]

theorem State.joinOverflow_colls : s.joinOverflow.mo.colls = s.mo.colls := by
  unfold State.joinOverflow
  dsimp only
  rw [foldl_unchanged (g := State.mo) fun _ _ _ => State.showMoor_mo _]

/-- R144: the command whose parcel is admitted is there again, with that parcel granted now. -/
theorem State.takeIn_colls {m cls : Nat} {c : Coll} (h : s.waitingParcel m = some c) : ∃ x : Parcel, x.k = c.nextAdmit ∧ x.grantedAt = s.now ∧
    (s.takeIn m cls).mo.colls =
      s.mo.colls.map (collAt c.ring c.seq fun d => { d with nextAdmit := c.nextAdmit + 1, live := d.live ++ [x] }) := by
  refine ⟨⟨c.nextAdmit, s.waitingCharge m, cls = 1, s.now, [], [], [], [], [], [], [], [], [], []⟩, rfl, rfl, ?_⟩
  simp only [State.takeIn, h]
  rw [State.showSpanOf_mo, State.showMoor_mo, foldl_unchanged (g := State.mo) fun _ _ _ => State.sendGrant_mo ..]
  split
  · rw [State.tally_mo, State.tally_mo]
    rfl
  · rw [State.tally_mo]
    rfl

theorem exec_parcelAdmission_admits {m cls : Nat} {c : Coll} (hcand : s.candidate = some (m, cls)) (h : s.waitingParcel m = some c) :
    ∃ t, exec .parcelAdmission s = .next t ∧ ∃ d ∈ t.mo.colls, d.ring = c.ring ∧ d.seq = c.seq ∧ d.moor = m ∧
      d.nextAdmit = c.nextAdmit + 1 ∧ ∃ x ∈ d.live, x.k = c.nextAdmit ∧ x.grantedAt = s.now := by
  have hexec : exec .parcelAdmission s = .next (s.takeIn m cls).joinOverflow := by
    show execParcelAdmission s = _
    simp only [execParcelAdmission, hcand]
  obtain ⟨x, hxk, hgranted, hcolls⟩ := State.takeIn_colls (cls := cls) h
  have hmem : c ∈ s.mo.colls := List.mem_of_find?_eq_some h
  have hmoor : c.moor = m := by
    have := List.find?_some h
    simp at this
    exact this.1
  refine ⟨_, hexec, { c with nextAdmit := c.nextAdmit + 1, live := c.live ++ [x] }, ?_, rfl, rfl, hmoor, rfl, x, List.mem_append_right _ (List.mem_singleton_self x), hxk, hgranted⟩
  rw [State.joinOverflow_colls, hcolls]
  exact List.mem_map.2 ⟨c, hmem, collAt_self ..⟩

end Sys2Proof.Machine
end

section
/-! SUPPORT. The gate, dead members, and the rows of registers (R125, R147, R150, R155, R178); the rows complete. -/

namespace Sys2Proof.Machine

variable {s : State}

/-! ### GATE_PASSAGE (R150) -/

/-- A parcel that passes leaves the live ones, and unless it is its command's last the command stays. -/
theorem State.passGate_colls {c : Coll} (hlast : c.applied + 1 ≠ c.parcels) (s : State) (x : Parcel) (l : List OutGran) (st : Staged) :
    ∃ colls n, (s.passGate c x l st).mo.colls = List.map (collAt c.ring c.seq fun d =>
      { d with live := d.live.filter fun y => y.k ≠ x.k, applied := d.applied + 1, nondet := d.nondet + n }) colls := by
  unfold State.passGate
  dsimp only
  rw [if_neg hlast, State.showMoor_mo, State.tally_mo, State.put_mo]
  exact ⟨_, _, rfl⟩

section
variable {m : Nat} {c : Coll} {x : Parcel} (h : s.findParcel m (s.gateNext m) = some (c, x)) (hpass : s.passable c x = true)
include h hpass

theorem exec_gatePassage_passes (hkind : c.kid ≠ none ∨ c.op ≠ 8) :
    ∃ u l, exec (.gatePassage m none) s = .next (State.passGate u c x l []) := by
  have hexec : exec (.gatePassage m none) s = execGatePassage m none s := rfl
  rw [hexec]
  simp only [execGatePassage, h, hpass]
  by_cases hkid : c.kid = none
  · refine ⟨s.countXrange c x, s.builtinOut c x, ?_⟩
    simp [hkid, hkind.resolve_left (not_not.2 hkid)]
  · refine ⟨s, s.kernelOut c x, ?_⟩
    simp [Option.isSome_iff_ne_none.2 hkid]

theorem exec_gatePassage_leaves (hlast : c.applied + 1 ≠ c.parcels) (hkind : c.kid ≠ none ∨ c.op ≠ 8) :
    ∃ t, exec (.gatePassage m none) s = .next t ∧ ∀ d ∈ t.mo.colls, d.ring = c.ring → d.seq = c.seq → ∀ y ∈ d.live, y.k ≠ x.k := by
  obtain ⟨u, l, hexec⟩ := exec_gatePassage_passes h hpass hkind
  obtain ⟨colls, n, hcolls⟩ := State.passGate_colls hlast u x l []
  refine ⟨_, hexec, fun d hd hring hseq y hy => ?_⟩
  rw [hcolls] at hd
  obtain ⟨d0, -, rfl⟩ := List.mem_map.1 hd
  by_cases hat : (d0.ring = c.ring && d0.seq = c.seq : Bool) = true
  · rw [collAt, if_pos hat] at hy
    simpa using (List.mem_filter.1 hy).2
  · rw [collAt, if_neg hat] at hring hseq
    simp [hring, hseq] at hat

end

/-! ### MEMBER_DEAD (R155) -/

theorem State.stopMoor_none {m : Nat} (h : ∀ c ∈ s.mo.colls, c.moor ≠ m) (st : Nat) (who : Option Nat) : s.stopMoor m st who = s := by
  have hnone : (s.mo.colls.filter fun c => c.moor = m) = [] := List.filter_eq_nil_iff.2 (by simpa using h)
  rw [State.stopMoor, hnone, List.foldl_nil]

theorem State.showFences_bh (m : Nat) : (s.showFences m).bh = s.bh := by
  unfold State.showFences
  dsimp only
  rw [foldl_unchanged (g := State.bh) fun _ _ _ => State.put_bh ..]
  rw [State.put_bh, State.put_bh]

@[simp] theorem State.ctx_setCtx_self (m : Nat) (c : Ctx) : (s.setCtx m (some c)).ctx m = c := by
  rw [State.ctx, State.setCtx, spGet_spPut_self, Option.getD_some]

theorem State.setCtx_bh (m : Nat) (c : Option Ctx) : (s.setCtx m c).bh = s.bh := rfl

theorem Ctx.fenced_of_or {c : Ctx} {fences i : Nat} (h : c.fences = fences ||| 2 ^ i) : c.fenced i = true := by
  simp [Ctx.fenced, h]

/-- A context with the fence, once shown, stands where no command of the Mooring runs. -/
theorem State.fenced_shown {m i : Nat} {u : State} {c : Ctx} (hmo : u.mo = (s.setCtx m (some c)).mo) (hbh : u.bh = s.bh)
    (hfenced : c.fenced i = true) (hcolls : ∀ c ∈ s.mo.colls, c.moor ≠ m) (st : Nat) (who : Option Nat) :
    (((u.showFences m).stopMoor m st who).ctx m).fenced i = true ∧ ((u.showFences m).stopMoor m st who).bh = s.bh := by
  have hcolls' : ∀ c ∈ (u.showFences m).mo.colls, c.moor ≠ m := by
    rw [State.showFences_mo, hmo]
    exact hcolls
  rw [State.stopMoor_none hcolls', State.showFences_bh, hbh, State.ctx, State.showFences_mo, hmo]
  refine ⟨?_, rfl⟩
  exact (congrArg (Ctx.fenced · i) (State.ctx_setCtx_self (s := s) m c)).trans hfenced

/-- R155: a member of an active Mooring without commands is fenced, and the Boathouse stands. -/
theorem State.fence_member {m i : Nat} (hact : s.ctxState m = Cs.active) (hbit : (s.ctx m).bitmap.testBit i = true)
    (hcolls : ∀ c ∈ s.mo.colls, c.moor ≠ m) (verdict : Bool) :
    ((s.fence m i verdict).ctx m).fenced i = true ∧ (s.fence m i verdict).bh = s.bh := by
  unfold State.fence
  dsimp only
  rw [if_neg (by simp [hact, hbit])]
  split
  · next hfenced =>
    split
    · exact ⟨hfenced, rfl⟩
    · exact ⟨hfenced, rfl⟩
  · split
    · exact State.fenced_shown (by rw [State.put_mo, State.put_mo, State.put_mo]) (by rw [State.put_bh, State.put_bh, State.put_bh, State.setCtx_bh])
        (Ctx.fenced_of_or rfl) hcolls ..
    · exact State.fenced_shown rfl (State.setCtx_bh ..) (Ctx.fenced_of_or rfl) hcolls ..

theorem exec_memberDead_fences {m i : Nat} (hact : s.ctxState m = Cs.active) (hbit : (s.ctx m).bitmap.testBit i = true)
    (hbeacon : s.beaconAt ((s.ctx m).portOf i) + 500000 * (s.ctx m).leaseMs ≤ s.now)
    (hsince : (s.ctx m).since + 500000 * (s.ctx m).leaseMs ≤ s.now)
    (hcolls : ∀ c ∈ s.mo.colls, c.moor ≠ m) (hrestores : ∀ r ∈ s.bh.restores, r.moor ≠ m) :
    ∃ t, exec (.memberDead m i) s = .next t ∧ (t.ctx m).fenced i = true := by
  obtain ⟨hfenced, hbh⟩ := State.fence_member hact hbit hcolls true
  have hgone : (s.fence m i true).memberGone m ((s.ctx m).endpoint i) = s.fence m i true := by
    have hnone : (s.bh.restores.filter fun r => r.moor = m) = [] := List.filter_eq_nil_iff.2 (by simpa using hrestores)
    rw [State.memberGone, hbh, hnone, List.foldl_nil]
  refine ⟨s.fence m i true, ?_, hfenced⟩
  show execMemberDead m i s = _
  have hdue : max (s.beaconAt ((s.ctx m).portOf i)) (s.ctx m).since + us (1000 * (s.ctx m).leaseMs) ≤ s.now := by
    unfold us
    omega
  unfold execMemberDead
  dsimp only
  rw [if_pos (by simp [hact, hbit, hdue]), hgone]

/-! ### Rows of registers (R125, R141, R178) -/

/-- A register without sealed fields, written through its own row, whose fields shown afterwards are those of the write. -/
theorem State.get_applyWrite_rw {f : Fld} (hf : f ∈ (regDesc f.reg).fields) (hacc : f.acc = .rw) (hr : f.reg ≠ .PM_CAP)
    (hfree : ∀ g ∈ (regDesc f.reg).fields, g.acc ≠ .rwl) (s : State) (req : Requester) (v : Word64) :
    (s.applyWrite req f.reg [] v).get f [] = bits v f.lo f.width := by
  obtain ⟨w, hw, hfields⟩ := State.applyWrite_free hr hfree s req [] v
  rw [hw, State.get, State.rd_wr_self, hfields f hf, fieldAfter, hacc]

theorem exec_rereqInterval_takes {req : Requester} {v : Word64} (h : s.Writes req .MO_REREQ []) (hcolls : s.mo.colls = []) :
    ∃ t, exec (.rereqInterval req v) s = .next t ∧ t.get F.MO_REREQ_INTERVAL = bits v 0 16 := by
  have hask : (s.applyWrite req .MO_REREQ [] v).askDue = s.applyWrite req .MO_REREQ [] v := by
    obtain ⟨w, hw, -⟩ := State.applyWrite_free (r := .MO_REREQ) (by decide) (by decide) s req [] v
    rw [hw, State.askDue, State.wr_mo, hcolls, List.foldl_nil]
  refine ⟨_, State.rowWrite_allowed h _, (State.pcCount_get (Or.inl (by decide)) ..).trans ?_⟩
  rw [hask]
  exact State.get_applyWrite_rw (f := F.MO_REREQ_INTERVAL) (by decide) rfl (by decide) (by decide) s req v

theorem exec_floorBerths_takes {req : Requester} {v : Word64} (h : s.Writes req .MO_SLIP_CFG []) (hv : bits v 0 16 ≤ 32768)
    (hidle : s.ctxsIn Cs.active = []) (hbusy : s.engineBusy = false) :
    ∃ t, exec (.floorBerths req v) s = .next t ∧ t.get F.MO_SLIP_CFG_FLOOR_BERTHS = bits v 0 16 := by
  refine ⟨_, State.rowWrite_allowed h _, (State.pcCount_get (Or.inl (by decide)) ..).trans ?_⟩
  rw [State.floorBerths, if_neg (by simp [hidle, hbusy, hv]), State.get_put_ne _ _ _ (by decide), State.get_put_self _ (by decide)]
  exact Nat.mod_eq_of_lt (bits_lt v 0 16)

theorem exec_bgHold_takes {req : Requester} {v : Word64} (h : s.Writes req .BH_CTRL []) (hshards : s.bh.shards = []) :
    ∃ t, exec (.bgHold req v) s = .next t ∧ t.get F.BH_CTRL_BG_HOLD = bits v 28 1 := by
  have hhold : s.bgHold req v = s.applyWrite req .BH_CTRL [] v := by
    obtain ⟨w, hw, -⟩ := State.applyWrite_free (r := .BH_CTRL) (by decide) (by decide) s req [] v
    rw [State.bgHold, hw, State.wr_bh, hshards]
    rfl
  refine ⟨_, State.rowWrite_allowed h _, (State.pcCount_get (Or.inl (by decide)) ..).trans ?_⟩
  rw [hhold]
  exact State.get_applyWrite_rw (f := F.BH_CTRL_BG_HOLD) (by decide) rfl (by decide) (by decide) s req v

/-! ### The rows of Pavilions -/

theorem exec_conditionMet_event {n ev th : Nat} {k : Kern} (hw : (s.pav n).wait = some (.event ev th)) (hk : (s.pav n).kern = some k)
    (hst : s.pvState n = Ps.waiting) (hev : th ≤ s.evVal ev) :
    ∃ t, exec (.conditionMet n) s = .next t ∧ (t.pav n).wait = none ∧ t.pvState n = Ps.running := by
  refine ⟨_, exec_conditionMet_met hw hk hst ((State.waitOver_event ..).trans (if_pos hev)) (fun _ => by simp), ?_,
    State.pvState_setPvState_self _⟩
  rw [State.pav_setPvState_self, State.pav_mapPav_self]

theorem exec_pavilionWake_idle {n : Nat} (hst : s.pvState n = Ps.waking) (hon : s.get F.PM_STATE_STATE ≤ 1) :
    ∃ t, exec (.pavilionWake n) s = .next t ∧ t.pvState n = Ps.idle := by
  have hidle : (s.setPvState n Ps.idle).pvState n = Ps.idle := State.pvState_setPvState_self _
  refine ⟨_, (exec_pavilionWake s n).trans (congrArg _ (if_pos ⟨hst, hon⟩)), ?_⟩
  rw [State.wakeNext_pvState (by rw [hidle]; decide), hidle]

/-- Settles O57: each row has the lemma that says where it runs to. -/
theorem parcelRowsComplete : Obligations.ParcelRowsComplete := by
  refine ⟨fun s n _ => ⟨exec_pavilionWake_idle, fun hst hready hquiet => ?_, fun k hk hb hkid hwd hst hv => ?_,
      fun req v hw hst hv => exec_faultRelease_releases hw hst hv, fun array => ⟨fun hl hp hdue => ?_, fun hl hp hq hdue => ?_⟩,
      fun ev th k => exec_conditionMet_event⟩,
    fun s m cls c => exec_parcelAdmission_admits, fun s m pseq e i c x => exec_rereq_asks, fun s req v => exec_rereqInterval_takes,
    fun s req v => exec_floorBerths_takes, fun s m c x => exec_gatePassage_leaves, fun s m i => exec_memberDead_fences,
    fun s req v => exec_bgHold_takes⟩
  · exact ⟨_, (exec_pavilionGating s n).trans (congrArg _ (if_pos ⟨hst, hready, Or.inl hquiet⟩)), State.pvState_setPvState_self _⟩
  · exact ⟨_, exec_watchdog_faults hk hkid hwd hst, State.raiseFault_launched hk hb hv ..⟩
  · exact ⟨_, exec_arrayRampUp_rises hl hp hdue, State.setLevel_level _ (by omega)⟩
  · have hlt : s.get (levelFld array.toNat) [n] < 8 := by
      rw [levelFld_eq]
      cases array <;> exact bits_lt _ _ 3
    exact ⟨_, exec_arrayRampDown_falls hl hp hq hdue, State.setLevel_level _ (by omega)⟩

end Sys2Proof.Machine
end

section
/-! SUPPORT. The control of rings, consumer indices and event counters (R103, R104, R110, R112, R376). -/

namespace Sys2Proof.Machine

variable {s : State} {req : Requester} {r : Nat}

/-! ### ENABLE, PAUSE, DISABLE and ABORT (R103) -/

section
variable (hw : s.Writes req .WK_RING_CTRL [r])
include hw

theorem exec_enable : exec (.enable req r) s = (s.ringEnable r).written req .WK_RING_CTRL [r] := State.rowWrite_allowed hw _

theorem exec_pause : exec (.pause req r) s = (s.ringPause r).written req .WK_RING_CTRL [r] := State.rowWrite_allowed hw _

theorem exec_disable : exec (.disable req r) s = (s.ringDisable r).written req .WK_RING_CTRL [r] := State.rowWrite_allowed hw _

theorem exec_abort : exec (.abort req r) s = (s.ringAbort r).written req .WK_RING_CTRL [r] := State.rowWrite_allowed hw _

end

/-- Both configurations of a ring are committed: its own and its completion ring's have slots. -/
def State.ringConfigured (s : State) (r : Nat) : Prop :=
  s.cget F.WK_RING_CFG_SLOTS [r] ≠ 0 ∧ s.cget F.WK_CQ_CFG_SLOTS [s.cget F.WK_RING_CFG_CQ [r]] ≠ 0

theorem State.ringEnable_off (hs : s.ringServed r = true) (hst : s.ringState r = Rs.off) (hcfg : s.ringConfigured r) :
    s.ringEnable r =
      let t := ((s.put F.WK_RING_HEAD_HEAD [r] 0).put F.WK_RING_SEQ_SEQ [r] 0).put F.WK_RING_HEAD_EXPECT_GEN [r] 1
      ({ t with rings := { t.rings with lap := spPut 0 t.rings.lap r 0 } } : State).setRing r Rs.run := by
  obtain ⟨hslots, hcq⟩ := hcfg
  simp [State.ringEnable, hs, hst, hslots, hcq, generation]

theorem State.ringEnable_paused (hs : s.ringServed r = true) (hst : s.ringState r = Rs.paused) :
    s.ringEnable r = s.setRing r Rs.run := by
  simp [State.ringEnable, hs, hst, Rs.paused, Rs.off]

theorem State.ringEnable_bad (h : s.ringServed r = false ∨ (s.ringState r = Rs.off ∧ ¬s.ringConfigured r) ∨
    (s.ringState r ≠ Rs.off ∧ s.ringState r ≠ Rs.paused)) : s.ringEnable r = s.ctrlBad := by
  obtain hs | ⟨hst, hcfg⟩ | ⟨hoff, hpaused⟩ := h
  · simp [State.ringEnable, hs]
  · have hnot : ¬(s.cget F.WK_RING_CFG_SLOTS [r] ≠ 0 ∧ s.cget F.WK_CQ_CFG_SLOTS [s.cget F.WK_RING_CFG_CQ [r]] ≠ 0) := hcfg
    have hne : Rs.off ≠ Rs.paused := by decide
    simp only [State.ringEnable, hst, ← Bool.decide_and, hnot, decide_false, Bool.and_false, Bool.false_eq_true, if_false, hne, ite_self]
  · simp [State.ringEnable, hoff, hpaused]

theorem State.ringPause_run (h : s.ringState r = Rs.run) : s.ringPause r = s.setRing r Rs.paused := if_pos h

theorem State.ringPause_bad (h : s.ringState r ≠ Rs.run) : s.ringPause r = s.ctrlBad := if_neg h

theorem State.ringAbort_live (h : s.ringState r = Rs.run ∨ s.ringState r = Rs.paused) : s.ringAbort r =
    ((s.setRing r Rs.aborting).stopAll (s.rings.cmds.filter fun c => c.ring = r) St.aborted).settleRing r := by
  simp [State.ringAbort, State.abortRing, h]

theorem State.ringAbort_bad (hrun : s.ringState r ≠ Rs.run) (hpaused : s.ringState r ≠ Rs.paused) : s.ringAbort r = s.ctrlBad := by
  simp [State.ringAbort, hrun, hpaused]

theorem State.ringDisable_paused (hst : s.ringState r = Rs.paused) (h : s.ringInflight r = 0) :
    s.ringDisable r = (s.put F.WK_RING_HEAD_EXPECT_GEN [r] 0).setRing r Rs.off := by
  simp [State.ringDisable, hst, h]

theorem State.ringDisable_bad (h : s.ringState r ≠ Rs.paused ∨ s.ringInflight r ≠ 0) : s.ringDisable r = s.ctrlBad :=
  if_neg (by simpa using not_and_or.2 h)

/-- R103: each combination of a command and a state. -/
theorem ringControl_states : claimRingControl := by
  intro s req r hw st cfg gives go bad
  rw [exec_enable hw, exec_pause hw, exec_disable hw, exec_abort hw]
  refine ⟨fun hs hst hcfg => ?_, fun hs hst => ?_, fun h => ?_, fun hst => ?_, fun hst => ?_, fun hst hnone => ?_, fun h => ?_,
    fun h => ?_, fun hrun hpaused => ?_⟩
  · rw [State.ringEnable_off hs hst hcfg]; rfl
  · rw [State.ringEnable_paused hs hst]; rfl
  · rw [State.ringEnable_bad h]; rfl
  · rw [State.ringPause_run hst]; rfl
  · rw [State.ringPause_bad hst]; rfl
  · rw [State.ringDisable_paused hst hnone]; rfl
  · rw [State.ringDisable_bad h]; rfl
  · rw [State.ringAbort_live h]; rfl
  · rw [State.ringAbort_bad hrun hpaused]; rfl

/-! ### Consumers and events (R104, R110, R112) -/

theorem bits_low (v : Word64) (n : Nat) : bits v 0 n = v.toNat % 2 ^ n := by rw [bits, Nat.shiftRight_zero]

theorem bits_all (v : Word64) : bits v 0 64 = v.toNat := by rw [bits_low, Nat.mod_eq_of_lt v.isLt]

/-- A value within the span from CONS to PROD is taken, any other dropped. -/
theorem State.consWrite_eq (s : State) (q : Nat) {v : Nat} (hv : v < 2 ^ 32) : s.consWrite q v =
    if (v + 2 ^ 32 - s.get F.WK_CQ_CONS_CONS [q]) % 2 ^ 32 ≤ (s.get F.WK_CQ_PROD_PROD [q] + 2 ^ 32 - s.get F.WK_CQ_CONS_CONS [q]) % 2 ^ 32
    then s.put F.WK_CQ_CONS_CONS [q] v else s.put F.WK_STATUS_CONS_BAD [] 1 := by
  rw [State.consWrite, Nat.mod_eq_of_lt hv]

/-- A write of WK_EVFAIL clears the flags that are written 1. -/
theorem State.applyWrite_WK_EVFAIL (s : State) (req : Requester) (k : Nat) (v : Word64) :
    s.applyWrite req .WK_EVFAIL [k] v = s.wr .WK_EVFAIL [k] (s.rd .WK_EVFAIL [k] &&& ~~~v) := by
  obtain ⟨w, hw, hfields⟩ := State.applyWrite_free (r := .WK_EVFAIL) (by decide) (by decide) s req [k] v
  have hword : w.toNat = (s.rd .WK_EVFAIL [k] &&& ~~~v).toNat := by
    simpa only [fieldAfter, F.WK_EVFAIL_FAIL, bits_all] using hfields F.WK_EVFAIL_FAIL (by decide)
  rw [hw, BitVec.eq_of_toNat_eq hword]

theorem consumerAndEventWrites_taken : claimConsumerAndEventWrites := by
  refine ⟨fun s req q v hw => ?_, fun s req e v hw => State.rowWrite_allowed hw _, fun s req k v hw => ?_⟩
  · intro cons prod new
    have hexec : exec (.consWrite req q v) s = (s.consWrite q new).written req .WK_CQ_CONS [q] := by
      rw [show new = bits v 0 32 from (bits_low v 32).symm]
      exact State.rowWrite_allowed hw _
    rw [hexec, State.consWrite_eq s q (Nat.mod_lt _ (by decide))]
    exact ⟨fun h => by rw [if_pos h], fun h => by rw [if_neg (Nat.not_le.2 h)]⟩
  · rw [← State.applyWrite_WK_EVFAIL s req k v]
    exact State.rowWrite_allowed hw _

/-- Settles O18: each command of a ring is one function of the ring's state, and each row writes one register. -/
theorem ringControl : Obligations.RingControl := ⟨ringControl_states, consumerAndEventWrites_taken⟩

end Sys2Proof.Machine
end

section
/-! SUPPORT. Commands of a ring: found by ring and sequence number, started and ended (R105, R107, R122, R376). -/

namespace Sys2Proof.Machine

variable {s : State} {r q : Nat} {c : Cmd}

/-! ### A command found, and found again after a change -/

theorem State.cmd?_ids (hc : s.cmd? r q = some c) : c.ring = r ∧ c.seq = q := by
  simpa using List.find?_some hc

/-- A change that leaves ring and sequence number alone is found in the command changed. -/
theorem State.cmd?_mapCmd (s : State) (r q : Nat) {f : Cmd → Cmd} (hf : ∀ c, (f c).ring = c.ring ∧ (f c).seq = c.seq) :
    (s.mapCmd r q f).cmd? r q = (s.cmd? r q).map f := by
  have hkey : ((fun c : Cmd => c.ring == r && c.seq == q) ∘ fun c => if c.ring == r && c.seq == q then f c else c) =
      fun c => c.ring == r && c.seq == q := by
    funext c
    simp only [Function.comp_apply]
    split
    · rw [(hf c).1, (hf c).2]
    · rfl
  rw [State.cmd?, State.mapCmd, List.find?_map, hkey, State.cmd?]
  refine Option.map_congr fun c hc => if_pos ?_
  simpa using List.find?_some hc

/-- A command that has not ended, once it has. -/
theorem State.cmd?_endCmd (hc : s.cmd? r q = some c) (hstage : c.stage ≠ .ended) (status detail result result2 : Nat) :
    (s.endCmd r q status detail result result2).cmd? r q =
      some { c with stage := .ended, endedAt := s.now, status := status, detail := detail, result := result, result2 := result2 } := by
  rw [State.endCmd, State.cmd?_mapCmd s r q (fun c => by split <;> exact ⟨rfl, rfl⟩), hc, Option.map_some, if_neg hstage]

theorem State.cmd?_running (hc : s.cmd? r q = some c) :
    (s.running c).cmd? r q = some { c with stage := .running, startedAt := s.now } := by
  obtain ⟨rfl, rfl⟩ := State.cmd?_ids hc
  rw [State.running, State.cmd?_mapCmd s _ _ (fun c => by constructor <;> rfl), hc, Option.map_some]

theorem State.cmd?_congr {t : State} (h : t.rings.cmds = s.rings.cmds) (r q : Nat) : t.cmd? r q = s.cmd? r q := by
  rw [State.cmd?, h, State.cmd?]

/-! ### The start of a command -/

theorem State.startable_iff : s.startable c = true ↔ c.stage = .waiting ∧ c.wait0 = .met ∧ c.wait1 = .met ∧
    (c.serial = true → s.serialReady c.ring c.seq = true) ∧ (c.type = 9 → s.commit? c.cfSet c.cfInst = none) := by
  cases hserial : c.serial <;> by_cases htype : c.type = 9 <;> simp [State.startable, hserial, htype, and_assoc]

/-- The row of a kind starts the commands of that kind. -/
theorem exec_startRow : ∀ row ∈ startRows, ∀ (r q : Nat) (s : State), exec (row.1 r q) s = .next (s.startIf r q row.2) := by
  simp only [startRows, List.forall_mem_cons, List.not_mem_nil, false_imp_iff, implies_true, and_true]
  and_intros <;> exact fun _ _ _ => rfl

theorem State.startIf_starts (hc : s.cmd? r q = some c) (hs : s.startable c = true) {f : Cmd → Bool} (hf : f c = true) :
    s.startIf r q f = s.startCommand c := by
  simp [State.startIf, hc, hs, hf]

theorem State.startIf_waits (hc : s.cmd? r q = some c) {f : Cmd → Bool} (h : ¬(s.startable c = true ∧ f c = true)) :
    s.startIf r q f = s := by
  simp only [State.startIf, hc, Bool.and_eq_true, h, if_false]

theorem exec_commandStart (hc : s.cmd? r q = some c) (hs : s.startable c = true) :
    exec (.commandStart r q) s = .next (s.startCommand c) :=
  congrArg _ (State.startIf_starts hc hs rfl)

/-- A command that waits ends with the status it is stopped with; a MOORING has its own way. -/
theorem State.stopCmd_waiting (hstage : c.stage = .waiting) (ht : c.type ≠ 5) (status : Nat) :
    s.stopCmd c status = s.endCmd c.ring c.seq status 0 (s.idleResult c) 0 := by
  simp [State.stopCmd, hstage, ht]

/-- In WINTER and STANDBY a command of the other kinds stops where it waits (R376). -/
theorem State.startCommand_asleep (hstage : c.stage = .waiting) (hp : 2 ≤ s.get F.PM_STATE_STATE) (ht : c.type ∉ [1, 5, 10, 11]) :
    s.startCommand c = s.endCmd c.ring c.seq St.aborted 0 (if c.type = 3 then 0x3FF else 0) 0 := by
  simp only [List.mem_cons, List.not_mem_nil, or_false, not_or] at ht
  obtain ⟨h1, h5, h10, h11⟩ := ht
  have hidle : s.idleResult c = if c.type = 3 then 0x3FF else 0 := by
    unfold State.idleResult
    split
    · next h => rw [if_pos h]
    · next h => exact absurd h h5
    · next h => exact absurd h h11
    · next h _ _ => rw [if_neg h]
  simp [State.startCommand, hp, h1, h10, h11, State.stopCmd_waiting hstage h5, hidle]

/-- Settles O19: a row of a kind is COMMAND_START of the commands of that kind, and both ask `startable`. -/
theorem commandStarts : Obligations.CommandStarts := by
  intro s r q c hc may
  obtain ⟨hring, hseq⟩ := State.cmd?_ids hc
  have hmay : may ↔ s.startable c = true := by rw [State.startable_iff, hring, hseq]
  refine ⟨fun row hrow => ⟨fun ⟨hm, hkind⟩ => ?_, fun h => ?_⟩, fun h => ?_, fun hm hp ht => ?_⟩
  · rw [exec_startRow row hrow, State.startIf_starts hc (hmay.1 hm) hkind, exec_commandStart hc (hmay.1 hm)]
  · rw [exec_startRow row hrow, State.startIf_waits hc (by rwa [← hmay])]
  · exact congrArg _ (State.startIf_waits hc fun hs => h (hmay.2 hs.1))
  · rw [exec_commandStart hc (hmay.1 hm), State.startCommand_asleep hm.1 hp ht, hring, hseq]

end Sys2Proof.Machine
end

section
/-! SUPPORT. What NOP, EVENT, IMAGE and LAUNCH do once they start (R90, R92, R108, R109, R394). -/

namespace Sys2Proof.Machine

variable {s u : State} {c : Cmd} {bs : List Byte}

/-! ### Each type has its own start -/

theorem State.startCommand_nop (ht : c.type = 1) : s.startCommand c = s.startNop c := by simp [State.startCommand, ht]

theorem State.startCommand_event (ht : c.type = 10) : s.startCommand c = s.startEvent c := by simp [State.startCommand, ht]

section
variable (hp : s.get F.PM_STATE_STATE < 2)
include hp

theorem State.startCommand_launch (ht : c.type = 3) : s.startCommand c = s.startLaunch c := by
  simp [State.startCommand, ht, Nat.not_le.2 hp]

theorem State.startCommand_image (ht : c.type = 4) : s.startCommand c = s.startImage c := by
  simp [State.startCommand, ht, Nat.not_le.2 hp]

theorem State.startCommand_config (ht : c.type = 9) : s.startCommand c = s.startConfig c := by
  simp [State.startCommand, ht, Nat.not_le.2 hp]

end

/-! ### Payloads (R108, R433) -/

theorem strayBit_none {w m : Word64} (off : Nat) (h : w &&& ~~~m = 0) : strayBit off w m = none := if_pos h

theorem strayBit_zero (off : Nat) (m : Word64) : strayBit off 0 m = none := strayBit_none off BitVec.zero_and

theorem strayBit_allOnes (off : Nat) (w : Word64) : strayBit off w (BitVec.allOnes 64) = none := strayBit_none off (by simp)

theorem getLsbD_of_bits_zero {w : Word64} {lo width i : Nat} (h : bits w lo width = 0) (hlo : lo ≤ i) (hhi : i < lo + width) :
    w.getLsbD i = false := by
  have hbit := testBit_bits w lo width (i - lo)
  have hi : i - lo < width := by omega
  simpa [h, hi, Nat.add_sub_cancel' hlo] using hbit.symm

/-- The fields of EVENT that must be zero are the bits outside the mask of its first payload word. -/
theorem eventMask_clear {w : Word64} (hlow : bits w 4 12 = 0) (hhigh : bits w 49 15 = 0) : w &&& ~~~0x0001FFFFFFFF000F#64 = 0 := by
  have hmask : ∀ i < 64, ¬(4 ≤ i ∧ i < 16) → ¬49 ≤ i → (0x0001FFFFFFFF000F#64).getLsbD i = true := by decide
  refine BitVec.eq_of_getLsbD_eq fun i hi => ?_
  simp only [BitVec.getLsbD_and, BitVec.getLsbD_not, hi, decide_true, Bool.true_and, BitVec.ofNat_eq_ofNat, BitVec.getLsbD_zero]
  by_cases h4 : 4 ≤ i ∧ i < 16
  · rw [getLsbD_of_bits_zero hlow h4.1 h4.2, Bool.false_and]
  · by_cases h49 : 49 ≤ i
    · rw [getLsbD_of_bits_zero hhigh h49 (by omega), Bool.false_and]
    · rw [hmask i hi h4 h49, Bool.not_true, Bool.and_false]

/-! ### NOP -/

theorem State.startNop_ok (h4 : c.word 4 = 0) (h5 : c.word 5 = 0) (h6 : c.word 6 = 0) (h7 : c.word 7 = 0) :
    s.startNop c = (s.running c).endCmd c.ring c.seq St.ok 0 0 0 := by
  simp only [State.startNop, payloadBad, h4, h5, h6, h7, strayBit_zero]
  rfl

/-! ### EVENT -/

/-- What EVENT does to one event. -/
def State.eventOne (c : Cmd) (s : State) (e : Nat) : State :=
  match c.subop with
  | 0 => (s.evSet e (c.word 5).toNat).evFailTo e false
  | 1 => s.evAdd e (c.word 5).toNat
  | _ => s.evFailTo e true

theorem State.eventOne_set (h : c.subop = 0) :
    State.eventOne c = fun s e => (s.evSet e (c.word 5).toNat).evFailTo e false := by
  funext s e
  simp [State.eventOne, h]

theorem State.eventOne_add (h : c.subop = 1) : State.eventOne c = fun s e => s.evAdd e (c.word 5).toNat := by
  funext s e
  simp [State.eventOne, h]

theorem State.eventOne_fail (h : c.subop = 2) : State.eventOne c = fun s e => s.evFailTo e true := by
  funext s e
  simp [State.eventOne, h]

theorem State.startEvent_ok (hlow : c.fld 4 4 12 = 0) (hhigh : c.fld 4 49 15 = 0) (h6 : c.word 6 = 0) (h7 : c.word 7 = 0)
    (hrange : c.evFirst + c.evRange ≤ 65536) (hsub : c.subop ≤ 2) :
    s.startEvent c = ((List.range c.evRange).foldl (fun t i => t.eventOne c (c.evFirst + i)) (s.running c)).endCmd
      c.ring c.seq St.ok 0 0 0 := by
  have hpayload : payloadBad c 0x0001FFFFFFFF000F#64 (BitVec.allOnes 64) 0 0 = none := by
    simp only [payloadBad, strayBit_none 0x20 (eventMask_clear hlow hhigh), strayBit_allOnes, h6, h7, strayBit_zero]
    rfl
  have hfields : lowestBad [(0x20, c.subop > 2),
      (0x24, c.evRange > 65536 || (c.evRange ≠ 0 && c.evFirst + c.evRange > 65536))] = none := by
    simp [lowestBad, Nat.not_lt.2 hsub, Nat.not_lt.2 hrange, show ¬65536 < c.evRange by omega]
  simp only [State.startEvent, hpayload, hfields, minOpt, List.foldl_map]
  rfl

/-! ### IMAGE -/

section
variable (h : s.imageDesc c = none)
include h

/-- The start of a command changes nothing that the checks of an IMAGE look at. -/
theorem State.imageDesc_running : (s.running c).imageDesc c = none := h

theorem State.startImage_unload (hsub : c.subop = 1) :
    s.startImage c = ((s.running c).setImage c.imKid none).endCmd c.ring c.seq St.ok 0 0 0 := by
  simp only [State.startImage, State.imageDesc_running h, hsub]

theorem State.startImage_unbind (hsub : c.subop = 3) :
    s.startImage c = ((s.running c).setBind c.imMoor none).endCmd c.ring c.seq St.ok 0 0 0 := by
  simp only [State.startImage, State.imageDesc_running h, hsub]

theorem State.startImage_bind (hsub : c.subop = 2) (hread : (s.running c).ptrRead 0 (c.word 5) 96 = (u, .ok bs))
    (hseg : u.segFault bs 6 = none) : s.startImage c =
      (u.setBind c.imMoor (some ⟨c.imKid, (List.range 6).map (segAt bs)⟩)).endCmd c.ring c.seq St.ok 0 0 0 := by
  simp only [State.startImage, State.imageDesc_running h, hsub, hread, hseg]

theorem State.startImage_load (hsub : c.subop = 0) (hlen : c.imLen ≠ 0) : s.startImage c = (s.running c).loadImage c := by
  simp only [State.startImage, State.imageDesc_running h, hsub, if_neg hlen]

end

section
variable (hread : s.ptrRead 0 (c.word 5) c.imLen = (u, .ok bs))
include hread

theorem State.loadImage_badLength (hlen : c.imLen ≠ 64 + natAt bs 0x0C 4 + natAt bs 0x10 4) :
    s.loadImage c = u.endCmd c.ring c.seq St.badDescriptor 0x30 0 0 := by
  simp only [State.loadImage, hread, if_pos hlen]
  rfl

theorem State.loadImage_ok (hlen : c.imLen = 64 + natAt bs 0x0C 4 + natAt bs 0x10 4) (hgood : imageFault bs = none)
    (hcode : natAt bs 0x0C 4 ≠ 0) (hbound : natAt bs 0x1C 4 ≠ 0) {k a : Nat} (hk : u.freeKid = some k)
    (ha : u.imagePlace c.imLen = some a) : s.loadImage c =
      (((u.storeWrite a c.imLen).setImage k (some (parseKImage bs a))).extend 5 2 k 0 (Config.sha3 bs)).endCmd
        c.ring c.seq St.ok 0 k 0 := by
  have hsizes : (decide (natAt bs 0x0C 4 = 0) || decide (natAt bs 0x1C 4 = 0)) = false := by simp [hcode, hbound]
  simp only [State.loadImage, hread, hgood, hk, ha, hsizes, Bool.false_eq_true, if_false]
  rw [if_neg (not_not.2 hlen)]

end

/-! ### LAUNCH -/

section
variable (h : s.launchDesc c = none) (hread : (s.running c).ptrRead 0 (c.word 5) (128 + c.laArgs) = (u, .ok bs))
  (hseg : u.segFault bs 8 = none)
include h hread hseg

theorem State.startLaunch_empty (hcount : c.laCount = 0) : s.startLaunch c = u.endCmd c.ring c.seq St.ok 0 0x3FF 0 := by
  have h' : (s.running c).launchDesc c = none := h
  simp only [State.startLaunch, h', hread, hseg, if_pos hcount]

/-- The launch of a LAUNCH whose structure is `bs`, in a state `u`. -/
def Cmd.launch (c : Cmd) (u : State) (bs : List Byte) : Launch :=
  let set := (List.range c.laCount).map (c.laFirst + ·)
  ⟨c.ring, c.seq, c.laKid, c.laFirst, c.laCount, c.fld 4 36 1, c.fld 6 0 12, c.fld 6 12 14, c.fld 6 32 32, c.fld 7 0 16, c.fld 7 16 16,
    (List.range 8).map (segAt bs), bs.drop 128, u.mo.order, set, set, none⟩

theorem State.startLaunch_joins (hcount : c.laCount ≠ 0) : s.startLaunch c =
    ({ u with mo := { u.mo with order := u.mo.order + 1 }, pv := { u.pv with launches := u.pv.launches ++ [c.launch u bs] } } :
      State).wakeNext := by
  have h' : (s.running c).launchDesc c = none := h
  simp only [State.startLaunch, h', hread, hseg, if_neg hcount]
  rfl

end

/-- Settles O20: each command's start has an equation for each way that the statement names. -/
theorem shortCommandsRun : Obligations.ShortCommandsRun := by
  intro s r q c hc hs hp
  obtain ⟨rfl, rfl⟩ := State.cmd?_ids hc
  have starts : ∀ {f : Cmd → Bool}, f c = true → Host.Outcome.next (s.startIf c.ring c.seq f) = (.next (s.startCommand c) : Out) :=
    fun hf => congrArg _ (State.startIf_starts hc hs hf)
  have isSub_of : ∀ {t i : Nat}, c.type = t → c.fld 4 0 4 = i → isSub t i c = true := fun ht hi => by
    simp [isSub, Cmd.subop, ht, hi]
  intro go ok sub first count v kid moor len
  refine ⟨fun ht h4 h5 h6 h7 => ?_, fun ht hlow hhigh h6 h7 hrange => ?_, fun ht himg => ?_, fun ht hla u bs hread hseg => ?_⟩
  · refine (starts (f := isType 1) (by simp [isType, ht])).trans ?_
    rw [State.startCommand_nop ht, State.startNop_ok h4 h5 h6 h7]
    rfl
  · have event : ∀ {i : Nat}, c.subop = i → i ≤ 2 → Host.Outcome.next (s.startIf c.ring c.seq (isSub 10 i)) =
        ok ((List.range count).foldl (fun t i => t.eventOne c (first + i)) go) 0 := fun hi hle => by
      rw [starts (isSub_of ht hi), State.startCommand_event ht, State.startEvent_ok hlow hhigh h6 h7 hrange (hi ▸ hle)]
      rfl
    refine ⟨fun hi => (event hi (by decide)).trans ?_, fun hi => (event hi (by decide)).trans ?_, fun hi => (event hi (by decide)).trans ?_⟩
    · rw [State.eventOne_set hi]
    · rw [State.eventOne_add hi]
    · rw [State.eventOne_fail hi]
  · have image : ∀ {i : Nat}, c.subop = i → Host.Outcome.next (s.startIf c.ring c.seq (isSub 4 i)) = (.next (s.startImage c) : Out) :=
      fun hi => by rw [starts (isSub_of ht hi), State.startCommand_image hp ht]
    refine ⟨fun hi => (image hi).trans ?_, fun hi => (image hi).trans ?_, fun u bs hi hread hseg => (image hi).trans ?_,
      fun u bs hi hne hread => ?_⟩
    · rw [State.startImage_unload himg hi]
      rfl
    · rw [State.startImage_unbind himg hi]
      rfl
    · rw [State.startImage_bind himg hi hread hseg]
      rfl
    · have hlen : c.imLen = len := bits_all _
      have load : exec (.load c.ring c.seq) s = .next ((s.running c).loadImage c) :=
        (image hi).trans (by rw [State.startImage_load himg hi (hlen ▸ hne)])
      rw [← hlen] at hread
      rw [load]
      refine ⟨fun hbad => ?_, fun hgood hfault hcode hbound k a hk ha => ?_⟩
      · rw [State.loadImage_badLength (s := s.running c) hread (hlen ▸ hbad)]
      · intro v
        rw [State.loadImage_ok (s := s.running c) hread (hlen ▸ hgood) hfault hcode hbound hk (hlen ▸ ha), hlen]
        rfl
  · have launch : exec (.launch c.ring c.seq) s = .next (s.startLaunch c) :=
      (starts (f := isType 3) (by simp [isType, ht])).trans (by rw [State.startCommand_launch hp ht])
    rw [launch]
    refine ⟨fun hzero => ?_, fun hpos => ⟨c.launch u bs, rfl, rfl, rfl, rfl, rfl, rfl, rfl, rfl, rfl, rfl, ?_⟩⟩
    · rw [State.startLaunch_empty hla hread hseg hzero]
    · rw [State.startLaunch_joins hla hread hseg (by omega)]

end Sys2Proof.Machine
end

section
/-! SUPPORT. Commits requested by CONFIG and by WK_COMMIT (R119 to R122, R378). -/

namespace Sys2Proof.Machine

variable {s u w : State} {c : Cmd} {bs : List Byte} {set inst : Nat}

/-! ### A commit that waits -/

/-- The ramp of a commit is a rise of the voltage, or nothing. -/
theorem State.commitRamp_cases (s : State) : s.commitRamp = s ∨ ∃ r, s.commitRamp = s.rise r true := by
  unfold State.commitRamp
  split
  · exact .inl rfl
  · dsimp only
    split_ifs
    · exact .inr ⟨_, rfl⟩
    · exact .inl rfl

@[simp] theorem State.commitRamp_cregs (s : State) : s.commitRamp.cregs = s.cregs := by
  obtain h | ⟨r, h⟩ := s.commitRamp_cases <;> rw [h]
  rfl

@[simp] theorem State.commitRamp_rings (s : State) : s.commitRamp.rings = s.rings := by
  obtain h | ⟨r, h⟩ := s.commitRamp_cases <;> rw [h]
  rfl

@[simp] theorem State.commitRamp_commits (s : State) : s.commitRamp.commits = s.commits := by
  obtain h | ⟨r, h⟩ := s.commitRamp_cases <;> rw [h]
  rfl

section
variable (s : State) (set inst : Nat) (at_ : Option (Nat × Nat)) (late : Bool) (owner : Option (Nat × Nat))

theorem State.pend_cregs : (s.pend set inst at_ late owner).cregs = s.cregs := State.commitRamp_cregs _

theorem State.pend_rings : (s.pend set inst at_ late owner).rings = s.rings := State.commitRamp_rings _

theorem State.pend_commits : (s.pend set inst at_ late owner).commits = s.commits ++
    [⟨set, inst, s.snapshot set inst, at_, late, owner, if at_.isNone then some s.ctNs else none, false⟩] := State.commitRamp_commits _

end

/-! ### The entries of a write list -/

theorem writeList_eq {n : Nat} (h : bs.length = 16 * n) :
    writeList bs = (List.range n).map fun i => (natAt bs (16 * i) 8, word64At bs (16 * i + 8)) := by
  rw [writeList, h, Nat.mul_div_cancel_left n (by decide)]

theorem State.entryDenied_iff (s : State) (req : Requester) (e : Nat × Word64) :
    s.entryDenied req e = true ↔ ∃ g idx, findReg e.1 = some (g, idx) ∧ s.mayWrite req g idx = false := by
  unfold State.entryDenied
  split
  · next g idx h => simp [h]
  · next h => simp [h]

/-- The entries of a list written to the shadow by a requester. -/
def State.writeEntries (s : State) (req : Requester) (l : List (Nat × Word64)) : State :=
  l.foldl (fun s e => match findReg e.1 with
    | some (r, idx) => s.shadowWrite req r idx e.2
    | none => s) s

/-! ### CONFIG (R120) -/

/-- The time that a CONFIG names, in ns (R276). -/
def Cmd.cfTime (c : Cmd) : Nat := c.fld 6 16 48 * 1000000000 + c.fld 7 0 30

/-- AT_TIME names a time that has passed. -/
def State.configLate (w : State) (c : Cmd) : Bool := c.cfTimed && decide (c.cfTime < w.ctNs)

/-- The time a CONFIG waits for, where it names one still to come. -/
def State.configAt (w : State) (c : Cmd) : Option (Nat × Nat) :=
  if c.cfTimed && !w.configLate c then some (c.fld 6 16 48, c.fld 7 0 30) else none

/-- What CONFIG does once its list has been written. -/
def State.configChecked (w : State) (c : Cmd) : State :=
  match (w.setCheck c.cfSet c.cfInst c.cfTimed).status with
  | some st => w.failCheck c ⟨st, 0, 0⟩
  | none => (w.running c).pend c.cfSet c.cfInst (w.configAt c) (w.configLate c) (some (c.ring, c.seq))

theorem State.configLate_iff (w : State) (c : Cmd) : w.configLate c = true ↔ c.fld 4 12 1 = 1 ∧ c.cfTime < w.ctNs := by
  simp [State.configLate, Cmd.cfTimed]

theorem State.configAt_eq (w : State) (c : Cmd) :
    w.configAt c = if c.fld 4 12 1 = 1 ∧ w.ctNs ≤ c.cfTime then some (c.fld 6 16 48, c.fld 7 0 30) else none := by
  have htimed : (c.cfTimed && !w.configLate c) = true ↔ c.fld 4 12 1 = 1 ∧ w.ctNs ≤ c.cfTime := by
    rw [State.configLate, Cmd.cfTimed]
    by_cases h : c.fld 4 12 1 = 1 <;> simp [h]
  simp only [State.configAt, htimed]

theorem State.configChecked_fails {st : Nat} (h : (w.setCheck c.cfSet c.cfInst c.cfTimed).status = some st) :
    w.configChecked c = w.endCmd c.ring c.seq st 0 0 0 := by
  simp only [State.configChecked, h]
  rfl

theorem State.configChecked_pends (h : w.setCheck c.cfSet c.cfInst c.cfTimed = .good) : w.configChecked c =
    (w.running c).pend c.cfSet c.cfInst (w.configAt c) (w.configLate c) (some (c.ring, c.seq)) := by
  simp only [State.configChecked, h, SetCheck.status]

theorem State.startConfig_unnamed (h : s.listNamed c = false) : s.startConfig c =
    s.endCmd c.ring c.seq St.badDescriptor ((s.configDesc c).getD 0x28) 0 0 := by
  simp only [State.startConfig, h]
  rfl

section
variable (hnamed : s.listNamed c = true) (hread : s.ptrRead 7 (c.word 5) (16 * c.cfCount) = (u, .ok bs))
include hnamed hread

theorem State.startConfig_denied {i : Nat} (hi : (writeList bs).findIdx? (u.entryDenied (u.ringOwner c.ring)) = some i) :
    s.startConfig c = u.endCmd c.ring c.seq St.accessDenied 0x28 0 (16 * i) := by
  simp only [State.startConfig, hnamed, hread, hi]
  rfl

variable (hi : (writeList bs).findIdx? (u.entryDenied (u.ringOwner c.ring)) = none)
include hi

theorem State.startConfig_badField {d : Nat} (hd : s.configDesc c = some d) :
    s.startConfig c = u.endCmd c.ring c.seq St.badDescriptor d 0 0 := by
  simp only [State.startConfig, hnamed, hread, hi, hd]
  rfl

variable (hd : s.configDesc c = none)
include hd

theorem State.startConfig_foreign {i : Nat}
    (hf : badEntry c.cfSet c.cfInst 0 (writeList bs) (u.get F.SC_GATE_ADDR_PORT) = some i) :
    s.startConfig c = u.endCmd c.ring c.seq St.badDescriptor 0x28 0 (16 * i) := by
  simp only [State.startConfig, hnamed, hread, hi, hd, hf]
  rfl

theorem State.startConfig_written (hf : badEntry c.cfSet c.cfInst 0 (writeList bs) (u.get F.SC_GATE_ADDR_PORT) = none) :
    s.startConfig c = (u.writeEntries (u.ringOwner c.ring) (writeList bs)).configChecked c := by
  simp only [State.startConfig, hnamed, hread, hi, hd, hf]
  rfl

end

theorem exec_config (hc : s.cmd? c.ring c.seq = some c) (hs : s.startable c = true) (hp : s.get F.PM_STATE_STATE < 2)
    (ht : c.type = 9) : exec (.config c.ring c.seq) s = .next (s.startConfig c) :=
  congrArg Host.Outcome.next ((State.startIf_starts (f := isType 9) hc hs (by simp [isType, ht])).trans (State.startCommand_config hp ht))

/-! ### WK_COMMIT (R121, R122, R378) -/

theorem bits_one (v : Word64) (i : Nat) : bits v i 1 = (v.getLsbD i).toNat := by
  rw [bits, Nat.shiftRight_eq_div_pow, BitVec.getLsbD, Nat.toNat_testBit, pow_one]

theorem State.setRuns_iff (s : State) (set : Nat) : s.setRuns set = false ↔
    (s.get F.PM_STATE_STATE = 2 ∧ ¬(set / 64 = 1 ∨ (5 ≤ set / 64 ∧ set / 64 ≤ 10))) ∨
      (s.get F.PM_STATE_STATE = 3 ∧ ¬(set / 64 = 1 ∨ set / 64 = 8)) := by
  unfold State.setRuns
  dsimp only
  split
  · next h => simp [h]
  · next h => simp [h]
  · next h2 h3 =>
    refine iff_of_false (by decide) ?_
    rintro (⟨h, -⟩ | ⟨h, -⟩)
    · exact h2 h
    · exact h3 h

theorem State.wkCommit_eq (s : State) (req : Requester) (v : Word64) :
    let t := (s.put F.WK_COMMIT_SET [] (v.toNat % 2 ^ 12)).put F.WK_COMMIT_INSTANCE [] (v.toNat / 2 ^ 12 % 2 ^ 32)
    s.wkCommit req v = if v.getLsbD 44 = true then t.commitGo req (v.toNat % 2 ^ 12) (v.toNat / 2 ^ 12 % 2 ^ 32) else t := by
  have hgo : bits v 44 1 = 1 ↔ v.getLsbD 44 = true := by rw [bits_one]; cases v.getLsbD 44 <;> decide
  have hinst : bits v 12 32 = v.toNat / 2 ^ 12 % 2 ^ 32 := by rw [bits, Nat.shiftRight_eq_div_pow]
  simp only [State.wkCommit, hgo, bits_low, hinst]

theorem State.commitGo_unlisted (h : setInfo set = none) (req : Requester) :
    s.commitGo req set inst = s.commitResult set St.badDescriptor := by
  simp only [State.commitGo, h]

section
variable {n : Nat} {g : Reg} {req : Requester} (h : setInfo set = some (n, g))
include h

theorem State.commitGo_beyond (hn : n ≤ inst) : s.commitGo req set inst = s.commitResult set St.badDescriptor := by
  simp only [State.commitGo, h, if_pos hn]

variable (hn : inst < n)
include hn

theorem State.commitGo_denied (hm : s.mayWrite req g [inst] = false) : s.commitGo req set inst =
    (s.deny req 0 (regAddr g (if n = 1 then [] else [inst]))).commitResult set St.accessDenied := by
  simp [State.commitGo, h, Nat.not_le.2 hn, hm]

variable (hm : s.mayWrite req g [inst] = true)
include hm

theorem State.commitGo_refused (hc : s.commit? set inst ≠ none) :
    s.commitGo req set inst = s.put F.WK_COMMIT_STATUS_REFUSED [] 1 := by
  simp [State.commitGo, h, Nat.not_le.2 hn, hm, Option.isSome_iff_ne_none.2 hc]

variable (hc : s.commit? set inst = none)
include hc

theorem State.commitGo_aborted (hr : s.setRuns set = false) : s.commitGo req set inst = s.commitResult set St.aborted := by
  simp [State.commitGo, h, Nat.not_le.2 hn, hm, hc, hr]

variable (hr : s.setRuns set = true)
include hr

theorem State.commitGo_fails {st : Nat} (hs : (s.setCheck set inst false).status = some st) :
    s.commitGo req set inst = s.commitResult set st := by
  simp [State.commitGo, h, Nat.not_le.2 hn, hm, hc, hr, hs]

theorem State.commitGo_pends (hs : s.setCheck set inst false = .good) :
    s.commitGo req set inst = s.pend set inst none false none := by
  simp [State.commitGo, h, Nat.not_le.2 hn, hm, hc, hr, hs, SetCheck.status]

end

/-- Settles O24: the checks of CONFIG and of WK_COMMIT in their order, each with its own equation. -/
theorem commitsRequested : Obligations.CommitsRequested := by
  refine ⟨fun s r q c hc hs hp ht => ?_, fun s req v hw => ?_⟩
  · obtain ⟨rfl, rfl⟩ := State.cmd?_ids hc
    intro set inst n ends readable
    have hnamed : s.listNamed c = true ↔ readable := by rw [State.listNamed, Bool.and_eq_true, decide_eq_true_iff]; rfl
    rw [exec_config hc hs hp ht]
    refine ⟨fun d hun hd => ?_, fun hreadable u bs hread hlen => ?_⟩
    · rw [State.startConfig_unnamed (Bool.eq_false_iff.2 (mt hnamed.1 hun)), hd]
      rfl
    · intro off denied foreign w time
      have hlist := writeList_eq hlen
      have hdenied : ∀ i, u.entryDenied (u.ringOwner c.ring) (natAt bs (16 * i) 8, word64At bs (16 * i + 8)) = true ↔ denied i :=
        fun i => State.entryDenied_iff ..
      have hwritten : u.writeEntries (u.ringOwner c.ring) (writeList bs) = w := by
        rw [hlist]
        exact List.foldl_map ..
      have hforeign : badEntry c.cfSet c.cfInst 0 (writeList bs) (u.get F.SC_GATE_ADDR_PORT) = foreign := by rw [hlist]; rfl
      refine ⟨fun i hi hden hfirst => ?_, fun hnone => ?_⟩
      · rw [State.startConfig_denied (hnamed.2 hreadable) hread (i := i)]
        rw [hlist, List.findIdx?_eq_some_iff_getElem]
        refine ⟨by simpa using hi, by simpa using (hdenied i).2 hden, fun j hj => ?_⟩
        simpa using mt (hdenied j).1 (hfirst j hj)
      · have hrights : (writeList bs).findIdx? (u.entryDenied (u.ringOwner c.ring)) = none := by
          rw [hlist, List.findIdx?_eq_none_iff, List.forall_mem_map]
          exact fun i hi => Bool.eq_false_iff.2 (mt (hdenied i).1 (hnone i (List.mem_range.1 hi)))
        refine ⟨fun d hd => ?_, fun hd i hf => ?_, fun hd hf => ?_⟩
        · rw [State.startConfig_badField (hnamed.2 hreadable) hread hrights hd]
        · rw [State.startConfig_foreign (hnamed.2 hreadable) hread hrights hd (hforeign.trans hf)]
        · rw [State.startConfig_written (hnamed.2 hreadable) hread hrights hd (hforeign.trans hf), hwritten]
          refine ⟨fun hbad => ?_, fun hzero => ?_, fun hgood => ⟨_, rfl, ?_⟩⟩
          · rw [State.configChecked_fails (congrArg SetCheck.status hbad)]
          · rw [State.configChecked_fails (congrArg SetCheck.status hzero)]
          · rw [State.configChecked_pends hgood]
            refine ⟨State.pend_cregs .., State.pend_rings .., w.configAt c, w.configLate c, ?_, w.configLate_iff c, w.configAt_eq c⟩
            rw [State.pend_commits]
            cases w.configAt c <;> rfl
  · intro set inst t gives go
    have hexec : exec (.wkCommitGo req v) s = gives (s.wkCommit req v) := State.rowWrite_allowed hw _
    rw [hexec, State.wkCommit_eq]
    refine ⟨fun hgo => by rw [if_neg hgo], fun hgo hinfo => ?_, fun n g hgo hinfo => ?_⟩
    · rw [if_pos hgo, State.commitGo_unlisted hinfo]
    · rw [if_pos hgo]
      refine ⟨fun hn => ?_, fun hn hm => ?_, fun hn hm hcommit => ?_, fun hn hm hcommit => ?_⟩
      · rw [State.commitGo_beyond hinfo hn]
      · rw [State.commitGo_denied hinfo hn hm]
      · intro b st off
        have hruns : ¬off → t.setRuns set = true := fun h => by simpa using mt (t.setRuns_iff set).1 h
        refine ⟨fun hoff => ?_, fun hon hbad => ?_, fun hon hzero => ?_, fun hon hgood => ⟨_, rfl, ?_⟩⟩
        · rw [State.commitGo_aborted hinfo hn hm hcommit ((t.setRuns_iff set).2 hoff)]
        · rw [State.commitGo_fails hinfo hn hm hcommit (hruns hon) (congrArg SetCheck.status hbad)]
        · rw [State.commitGo_fails hinfo hn hm hcommit (hruns hon) (congrArg SetCheck.status hzero)]
        · rw [State.commitGo_pends hinfo hn hm hcommit (hruns hon) hgood]
          exact ⟨State.pend_cregs .., State.pend_commits ..⟩
      · rw [State.commitGo_refused hinfo hn hm hcommit]

end Sys2Proof.Machine
end

section
/-! SUPPORT. The ring engine's own steps, completion records and signals (R99 to R118). -/

namespace Sys2Proof.Machine

variable {s : State} {r q : Nat} {c : Cmd}

/-! ### Acceptance (R101) -/

theorem mem_ringOrder (s : State) (h : r < 256) : r ∈ s.ringOrder := by
  refine List.mem_map.2 ⟨(r + 256 - (s.rings.last + 1) % 256) % 256, List.mem_range.2 (Nat.mod_lt _ (by decide)), ?_⟩
  omega

theorem State.acceptNext_some (h : s.ringOrder.find? s.headReady = some r) : s.acceptNext = s.accept r := by
  simp only [State.acceptNext, h]

theorem State.acceptNext_none (h : s.ringOrder.find? s.headReady = none) : s.acceptNext = s := by
  simp only [State.acceptNext, h]

theorem exec_commandAcceptance (s : State) : exec .commandAcceptance s = .next s.acceptNext := rfl

theorem exec_backstopPoll_on (h : s.get F.WK_POLL_INTERVAL ≠ 0) : exec .backstopPoll s =
    .next (s.ringOrder.foldl (fun s r => if s.headReady r then s.accept r else s) s) :=
  congrArg Host.Outcome.next (if_neg h)

theorem exec_backstopPoll_off (h : s.get F.WK_POLL_INTERVAL = 0) : exec .backstopPoll s = .next s :=
  congrArg Host.Outcome.next (if_pos h)

/-- The host's memory once it has written a line, with data or with poison. -/
def HostMem.hostWrites (m : HostMem) (line : Nat) (poison : Bool) (bytes : List Byte) : HostMem :=
  if poison then { m with bad := line :: m.bad.erase line }
  else { m with cells := putCells m.cells (64 * line) (bytes.take 64), bad := m.bad.erase line }

/-- A ring that can accept has its head slot in a line of host memory. -/
def State.headIn (s : State) (line : Nat) : Prop :=
  ∃ r, r < 256 ∧ s.cget F.WK_RING_BASE_SPACE [r] = 4 ∧ s.headAddr r / 64 = line ∧ s.headReady r = true

theorem State.headIn_iff (s : State) (line : Nat) : s.headIn line ↔ ((List.range 256).any fun r =>
    s.cget F.WK_RING_BASE_SPACE [r] = 4 && s.headAddr r / 64 = line && s.headReady r) = true := by
  simp [State.headIn, and_assoc]

section
variable {line : Nat} {poison : Bool} {bytes : List Byte}

theorem exec_hostSnoop_elsewhere (h : ¬({ s with hostMem := s.hostMem.hostWrites line poison bytes } : State).headIn line) :
    exec (.hostSnoop line poison bytes) s = .next { s with hostMem := s.hostMem.hostWrites line poison bytes } :=
  congrArg _ (if_neg (mt (State.headIn_iff _ _).2 h))

theorem exec_hostSnoop_head (h : ({ s with hostMem := s.hostMem.hostWrites line poison bytes } : State).headIn line) :
    exec (.hostSnoop line poison bytes) s =
      .next ({ s with hostMem := s.hostMem.hostWrites line poison bytes } : State).acceptNext :=
  congrArg _ (if_pos ((State.headIn_iff _ _).1 h))

end

/-! ### Waits and time limits (R107, R111) -/

theorem State.lookAt_eq (s : State) (w : WaitState) (e : Nat) (th : Word64) : s.lookAt w e th =
    if w ≠ .pending then w else if s.evFail e then .failed else if th.toNat ≤ s.evVal e then .met else .pending := by
  cases w <;> rfl

section
variable (hc : s.cmd? r q = some c)
include hc

theorem exec_waitResolve_idle (h : c.stage ≠ .waiting) : exec (.waitResolve r q) s = .next s := by
  show execWaitResolve r q s = _
  simp [execWaitResolve, hc, h]

theorem exec_waitResolve_waiting (h : c.stage = .waiting) :
    let w0 := s.lookAt c.wait0 c.w0Event (c.word 2)
    let w1 := s.lookAt c.wait1 c.w1Event (c.word 3)
    let t := s.mapCmd r q fun c => { c with wait0 := w0, wait1 := w1 }
    exec (.waitResolve r q) s =
      .next (if w0 = .failed ∨ w1 = .failed then t.stopCmd { c with wait0 := w0, wait1 := w1 } St.depFailed else t) := by
  show execWaitResolve r q s = _
  simp [execWaitResolve, hc, h]

/-- The limit of a running command has passed since its start. -/
def Cmd.overdue (c : Cmd) (now : Nat) : Prop :=
  c.stage = .running ∧ c.timeout ≠ 0 ∧ c.startedAt + 50000 * c.timeout ≤ now

theorem exec_timeout_overdue (h : c.overdue s.now) : exec (.timeout r q) s = .next (s.stopCmd c St.timeout) := by
  obtain ⟨hstage, hlimit, hlate⟩ := h
  have hus : c.startedAt + us (100 * c.timeout) ≤ s.now := by unfold us; omega
  show execTimeout r q s = _
  simp [execTimeout, hc, hstage, hlimit, hus]

theorem exec_timeout_within (h : ¬c.overdue s.now) : exec (.timeout r q) s = .next s := by
  have hno : ¬(c.stage = .running ∧ c.timeout ≠ 0 ∧ c.startedAt + us (100 * c.timeout) ≤ s.now) := by
    rintro ⟨hstage, hlimit, hlate⟩
    exact h ⟨hstage, hlimit, by unfold us at hlate; omega⟩
  show execTimeout r q s = _
  simp only [execTimeout, hc]
  rw [if_neg (by simpa [and_assoc] using hno)]

end

/-! ### Completion records (R101, R104) -/

section
variable (hc : s.rings.cmds.find? (fun c => c.ring = r) = some c)
include hc

theorem exec_completionRecord_early (h : c.stage ≠ .ended) : exec (.completionRecord r) s = .next s := by
  show execCompletionRecord r s = _
  simp [execCompletionRecord, hc, h]

variable (hawake : s.cqAwake r = true) (hend : c.stage = .ended)
include hawake hend

theorem exec_completionRecord_full (hfull : s.cqFull r = true) :
    exec (.completionRecord r) s = .next (s.put F.WK_STATUS_CQ_FULL_SEEN [] 1) := by
  show execCompletionRecord r s = _
  simp [execCompletionRecord, hc, hawake, hend, hfull]

theorem exec_completionRecord_written (hroom : s.cqFull r = false) :
    let t := s.writeRecord c
    let u : State := { t with rings := { t.rings with cmds := t.rings.cmds.filter fun x => !(x.ring = r && x.seq = c.seq) } }
    exec (.completionRecord r) s = .next (((u.showInflight r).signal c).settleRing r) := by
  show execCompletionRecord r s = _
  simp [execCompletionRecord, hc, hawake, hend, hroom]

end

/-- R101 to R111: the engine's own steps. -/
theorem ringEngine_steps : claimRingEngineSteps := by
  refine ⟨fun s r => ⟨fun h => ?_, fun h => ?_, State.ringOrder.eq_1 s, exec_backstopPoll_on, exec_backstopPoll_off⟩,
    fun s line bytes poison => ⟨exec_hostSnoop_elsewhere, fun h => ?_⟩, fun s r q c hc => ?_, fun s r c hc hawake =>
    ⟨exec_completionRecord_early hc, exec_completionRecord_full hc hawake, exec_completionRecord_written hc hawake⟩⟩
  · rw [exec_commandAcceptance, State.acceptNext_some h]
  · rw [exec_commandAcceptance, State.acceptNext_none h]
  · obtain ⟨x, hx, -, -, hready⟩ := id h
    obtain ⟨r, hr⟩ := Option.isSome_iff_exists.1 (List.find?_isSome.2 ⟨x, mem_ringOrder _ hx, hready⟩)
    exact ⟨r, hr, (exec_hostSnoop_head h).trans (congrArg _ (State.acceptNext_some hr))⟩
  · intro look w0 w1 t
    have hlook : ∀ w e th, s.lookAt w e th = look w e th := s.lookAt_eq
    have hwaiting := exec_waitResolve_waiting hc
    simp only [hlook] at hwaiting
    refine ⟨fun h h0 h1 => (hwaiting h).trans ?_, fun h hfailed => (hwaiting h).trans (congrArg _ (if_pos hfailed)),
      exec_waitResolve_idle hc, exec_timeout_overdue hc, exec_timeout_within hc⟩
    exact congrArg _ (if_neg (not_or.2 ⟨h0, h1⟩))

/-! ### The bytes of a record (R113) -/

theorem leBytes_drop (v n i : Nat) : (leBytes v n).drop i = leBytes (v / 256 ^ i) (n - i) := by
  induction i generalizing v n with
  | zero => simp
  | succ i ih =>
    cases n with
    | zero => simp [leBytes]
    | succ n => rw [leBytes, List.drop_succ_cons, ih, Nat.div_div_eq_div_mul, Nat.pow_succ', Nat.add_sub_add_right]

theorem leBytes_take (v n k : Nat) : (leBytes v n).take k = leBytes v (min k n) := by
  induction k generalizing v n with
  | zero => simp [leBytes]
  | succ k ih =>
    cases n with
    | zero => simp [leBytes]
    | succ n => rw [leBytes, List.take_succ_cons, ih, Nat.add_min_add_right, leBytes]

/-- The number in `k` bytes from byte `i` on of a little-endian number. -/
theorem leNat_slice {v n i k : Nat} (h : i + k ≤ n) : leNat (((leBytes v n).drop i).take k) = v / 256 ^ i % 256 ^ k := by
  rw [leBytes_drop, leBytes_take, leNat_leBytes, Nat.min_eq_left (by omega)]

theorem slice_append_left {a : List Byte} (b : List Byte) {i k : Nat} (h : i + k ≤ a.length) :
    ((a ++ b).drop i).take k = (a.drop i).take k := by
  rw [List.drop_append_of_le_length (by omega), List.take_append_of_le_length (by rw [List.length_drop]; omega)]

theorem slice_append_right {a : List Byte} (b : List Byte) {m : Nat} (h : a.length = m) (i k : Nat) :
    ((a ++ b).drop (m + i)).take k = (b.drop i).take k := by
  rw [← h, List.drop_length_add_append]

/-- The first word of a record. -/
def recordHead (c : Cmd) (gen : Nat) : Nat :=
  gen + c.status % 2 ^ 8 * 2 ^ 8 + c.type * 2 ^ 16 + c.detail % 2 ^ 8 * 2 ^ 24 + c.ring * 2 ^ 32 + c.slot * 2 ^ 40

/-- The four words of a record, each by its bytes. -/
theorem recordBytes_slices (s : State) (c : Cmd) (gen : Nat) {i k : Nat} (h : i + k ≤ 8) :
    leNat (((s.recordBytes c gen).drop i).take k) = recordHead c gen / 256 ^ i % 256 ^ k ∧
    leNat (((s.recordBytes c gen).drop (8 + i)).take k) = (c.seq + s.ts32 * 2 ^ 32) / 256 ^ i % 256 ^ k ∧
    leNat (((s.recordBytes c gen).drop (16 + i)).take k) = c.result / 256 ^ i % 256 ^ k ∧
    leNat (((s.recordBytes c gen).drop (24 + i)).take k) = c.result2 / 256 ^ i % 256 ^ k := by
  have hlen : ∀ v, (leBytes v 8).length = 8 := fun v => leBytes_length v 8
  have hbytes : s.recordBytes c gen = leBytes (recordHead c gen) 8 ++ (leBytes (c.seq + s.ts32 * 2 ^ 32) 8 ++
      (leBytes c.result 8 ++ leBytes c.result2 8)) := by
    rw [State.recordBytes, List.append_assoc, List.append_assoc]
    rfl
  rw [hbytes]
  refine ⟨?_, ?_, ?_, ?_⟩
  · rw [slice_append_left _ (by rw [hlen]; exact h), leNat_slice h]
  · rw [slice_append_right _ (hlen _), slice_append_left _ (by rw [hlen]; exact h), leNat_slice h]
  · rw [show 16 + i = 8 + (8 + i) by omega, slice_append_right _ (hlen _), slice_append_right _ (hlen _),
      slice_append_left _ (by rw [hlen]; exact h), leNat_slice h]
  · rw [show 24 + i = 8 + (8 + (8 + i)) by omega, slice_append_right _ (hlen _), slice_append_right _ (hlen _),
      slice_append_right _ (hlen _), leNat_slice h]

theorem recordBytes_length (s : State) (c : Cmd) (gen : Nat) : (s.recordBytes c gen).length = 32 := by
  simp [State.recordBytes, leBytes_length]

/-! ### Signals and interrupts (R101, R110, R118) -/

/-- A successful COMMIT of no shard with DURABLE_EN. -/
def Cmd.durable (c : Cmd) : Bool := c.type = 6 && c.fld 4 16 16 = 0 && c.fld 6 0 1 = 1 && c.status = 0

/-- DURABLE_EVENT raised where the command asks for it. -/
def State.rung (s : State) (c : Cmd) : State := if c.durable then s.advance F.WK_EVENT_VALUE [c.fld 4 48 16] 1 else s

/-- The interrupt of a record, sent where the command asks for it. -/
def State.told (s : State) (c : Cmd) : State :=
  if c.irq then s.send (.msix (s.cget F.WK_CQ_CFG_VECTOR [s.cget F.WK_RING_CFG_CQ [c.ring]])) else s

theorem State.signal_eq (s : State) (c : Cmd) : s.signal c =
    ((if c.sigEn = false then s else if c.status = 0 then s.evAdd c.sigEvent c.sigInc else s.evFailTo c.sigEvent true).rung c).told c := by
  unfold State.signal
  cases c.sigEn <;> rfl

theorem State.rung_cregs (s : State) (c : Cmd) : (s.rung c).cregs = s.cregs := by
  unfold State.rung
  split <;> rfl

theorem State.rung_sent (s : State) (c : Cmd) : (s.rung c).sent = s.sent := by
  unfold State.rung
  split <;> rfl

theorem State.rung_failed (h : c.status ≠ 0) : s.rung c = s := if_neg (by simp [Cmd.durable, h])

/-- The interrupt in a state that has sent what `s` has, under the same committed copies. -/
theorem State.told_congr {t : State} (hcregs : t.cregs = s.cregs) (hsent : t.sent = s.sent) (c : Cmd) : t.told c =
    if c.irq then { t with sent := s.sent ++ [.msix (s.cget F.WK_CQ_CFG_VECTOR [s.cget F.WK_RING_CFG_CQ [c.ring]])] } else t := by
  unfold State.told State.send State.cget State.crd
  rw [hcregs, hsent]

/-- R113: the record's fields lie where its layout puts them; R110: what the signal does. -/
theorem records_and_signals : claimRecordsAndSignals := by
  intro s c gen bs
  refine ⟨fun hgen hstatus htype hdetail hring hslot hseq hresult hresult2 => ?_, ?_⟩
  · have hhead := recordHead.eq_1 c gen
    have slices := fun (i k : Nat) (h : i + k ≤ 8) => recordBytes_slices s c gen h
    refine ⟨recordBytes_length s c gen, (slices 0 1 (by decide)).1.trans ?_, (slices 1 1 (by decide)).1.trans ?_,
      (slices 2 1 (by decide)).1.trans ?_, (slices 3 1 (by decide)).1.trans ?_, (slices 4 1 (by decide)).1.trans ?_,
      (slices 5 2 (by decide)).1.trans ?_, (slices 0 4 (by decide)).2.1.trans ?_, (slices 0 8 (by decide)).2.2.1.trans ?_,
      (slices 0 8 (by decide)).2.2.2.trans ?_⟩
    all_goals omega
  · intro durable rung told
    have after : ∀ t : State, t.cregs = s.cregs → t.sent = s.sent → (t.rung c).told c = told (rung t) := fun t hcregs hsent =>
      State.told_congr ((t.rung_cregs c).trans hcregs) ((t.rung_sent c).trans hsent) c
    refine ⟨fun hoff => ?_, fun hon hok => ?_, fun hon hfail => ?_⟩
    · rw [State.signal_eq, if_pos hoff]
      exact after s rfl rfl
    · rw [State.signal_eq, if_neg (by simp [hon]), if_pos hok]
      exact after _ rfl rfl
    · rw [State.signal_eq, if_neg (by simp [hon]), if_neg hfail, State.rung_failed hfail]
      exact State.told_congr rfl rfl c

/-- Settles O21: each step of the engine has an equation for each way it can end; a record is four words of bytes. -/
theorem ringEngineSteps : Obligations.RingEngineSteps := ⟨ringEngine_steps, records_and_signals⟩

end Sys2Proof.Machine
end

section
/-! SUPPORT. What the memories leave of the ring engine (R205 to R219). -/

namespace Sys2Proof.Machine

variable {s t u : State}

@[simp] theorem regAddr_WK_STATUS : regAddr .WK_STATUS [] = 0x100008 := rfl
@[simp] theorem regAddr_WK_RING_CTRL (i : Nat) : regAddr .WK_RING_CTRL [i] = 0x101010 + 0x40 * i := rfl
@[simp] theorem regAddr_WK_RING_HEAD (i : Nat) : regAddr .WK_RING_HEAD [i] = 0x101018 + 0x40 * i := rfl
@[simp] theorem regAddr_WK_RING_SEQ (i : Nat) : regAddr .WK_RING_SEQ [i] = 0x101020 + 0x40 * i := rfl
@[simp] theorem regAddr_WK_CQ_PROD (i : Nat) : regAddr .WK_CQ_PROD [i] = 0x105018 + 0x20 * i := rfl
@[simp] theorem regAddr_WK_EVFAIL (i : Nat) : regAddr .WK_EVFAIL [i] = 0x108000 + 0x8 * i := rfl
@[simp] theorem regAddr_WK_EVENT (i : Nat) : regAddr .WK_EVENT [i] = 0x180000 + 0x8 * i := rfl

/-- The ring engine stands from `s` to `t`: its commands, the committed copies, and every register up to the end of its window. -/
structure EngineStands (s t : State) : Prop where
  rings : t.rings = s.rings
  cregs : t.cregs = s.cregs
  rd : ∀ r idx, regAddr r idx < 0x200000 → t.rd r idx = s.rd r idx

namespace EngineStands

theorem refl (s : State) : EngineStands s s := ⟨rfl, rfl, fun _ _ _ => rfl⟩

theorem trans (h : EngineStands s t) (k : EngineStands t u) : EngineStands s u :=
  ⟨k.rings.trans h.rings, k.cregs.trans h.cregs, fun r idx ha => (k.rd r idx ha).trans (h.rd r idx ha)⟩

/-- A change of no command, committed copy or register. -/
theorem same (h : EngineStands s t) (hrings : u.rings = t.rings := by rfl) (hcregs : u.cregs = t.cregs := by rfl)
    (hregs : u.regs = t.regs := by rfl) : EngineStands s u :=
  h.trans ⟨hrings, hcregs, fun _ _ _ => by rw [State.rd, hregs, State.rd]⟩

theorem wr (h : EngineStands s t) (r : Reg) (idx : List Nat) (v : Word64) (ha : 0x200000 ≤ regAddr r idx) : EngineStands s (t.wr r idx v) :=
  h.trans ⟨rfl, rfl, fun _ _ hr => State.rd_wr_ne _ (by omega)⟩

theorem put (h : EngineStands s t) (f : Fld) (idx : List Nat) (v : Nat) (ha : 0x200000 ≤ regAddr f.reg idx) : EngineStands s (t.put f idx v) :=
  h.wr _ _ _ ha

theorem bump (h : EngineStands s t) (f : Fld) (ha : 0x200000 ≤ regAddr f.reg []) : EngineStands s (t.bump f) := h.put _ _ _ ha

theorem tally (h : EngineStands s t) (e n : Nat) : EngineStands s (t.tally e n) :=
  h.put _ _ _ (by simp [F.TL_EVT_COUNT]; omega)

theorem ite {c : Prop} [Decidable c] (ht : EngineStands s t) (hu : EngineStands s u) : EngineStands s (if c then t else u) := by
  split <;> assumption

theorem foldl {β : Type} (l : List β) (f : State → β → State) (h : EngineStands s t)
    (hf : ∀ u x, EngineStands s u → EngineStands s (f u x)) : EngineStands s (l.foldl f t) := by
  induction l generalizing t with
  | nil => exact h
  | cons x l ih => exact ih (hf t x h)

theorem get (h : EngineStands s t) {f : Fld} {idx : List Nat} (ha : regAddr f.reg idx < 0x200000) : t.get f idx = s.get f idx :=
  State.get_congr f (h.rd _ _ ha)

theorem cget (h : EngineStands s t) (f : Fld) (idx : List Nat) : t.cget f idx = s.cget f idx := by
  rw [State.cget, State.crd, h.cregs, State.cget, State.crd]

/-! ### Dock (R207 to R211) -/

theorem wakeDock (h : EngineStands s t) : EngineStands s t.wakeDock :=
  EngineStands.ite (h.same.put _ _ _ (by decide)) h.same

theorem useCheck (h : EngineStands s t) (line : Nat) (write : Bool) : EngineStands s (t.useCheck line write) := by
  unfold State.useCheck
  dsimp only
  split <;> exact h.same

theorem dockErr (h : EngineStands s t) (line source : Nat) (uncorr : Bool) : EngineStands s (t.dockErr line source uncorr) :=
  EngineStands.ite (h.wr _ _ _ (by decide)) h

theorem touchLine (h : EngineStands s t) (source line : Nat) : EngineStands s (t.touchLine source line) := by
  have hread : EngineStands s ((t.wakeDock.useCheck line false).tally 0x40) := (h.wakeDock.useCheck line false).tally _ _
  exact EngineStands.ite ((hread.bump _ (by decide)).dockErr ..) (EngineStands.ite ((hread.bump _ (by decide)).dockErr ..) hread)

theorem dockRead (h : EngineStands s t) (source a n : Nat) : EngineStands s (t.dockRead source a n).1 := by
  have hlines := h.foldl (linesOf a n) (fun s l => s.touchLine source l) fun _ l hu => hu.touchLine source l
  unfold State.dockRead
  dsimp only
  split <;> exact hlines

theorem backInvalidate (h : EngineStands s t) (line : Nat) : EngineStands s (t.backInvalidate line) :=
  EngineStands.ite h.same h

theorem injectLine (h : EngineStands s t) (line : Nat) : EngineStands s (t.injectLine line) := by
  unfold State.injectLine
  split
  · exact (h.put F.DK_INJECT_ARM [] 0 (by decide)).same
  · exact h.same

theorem writeLine (h : EngineStands s t) (line a : Nat) (bs : List Byte) : EngineStands s (t.writeLine line a bs) := by
  have hwoken := h.wakeDock.backInvalidate line
  have hrepaired : EngineStands s (if bs.length < 64 then (t.wakeDock.backInvalidate line).repairLine line
      else t.wakeDock.backInvalidate line) := EngineStands.ite hwoken.same hwoken
  unfold State.writeLine
  dsimp only
  split
  · exact hwoken.dockErr ..
  · exact ((hrepaired.same.useCheck line true).injectLine line).tally ..

theorem dockWrite (h : EngineStands s t) (a : Nat) (bs : List Byte) : EngineStands s (t.dockWrite a bs) :=
  h.foldl _ _ fun _ l hu => hu.writeLine l ..

/-! ### The Warehouse and host memory (R219, R429) -/

theorem whRead (h : EngineStands s t) (a n : Nat) : EngineStands s (t.whRead a n).1 := by
  unfold State.whRead
  split
  · exact h
  · split
    · exact (h.bump F.WH_ERR_CNT_POISON (by decide)).same
    · exact h.same

theorem hostRead (h : EngineStands s t) (a n : Nat) : EngineStands s (t.hostRead a n).1 := by
  unfold State.hostRead
  repeat' split
  all_goals exact h

theorem hostWrite (h : EngineStands s t) (a : Nat) (bs : List Byte) : EngineStands s (t.hostWrite a bs) :=
  EngineStands.ite h (EngineStands.ite h.same h.same)

theorem memRead (h : EngineStands s t) (source space a n : Nat) : EngineStands s (t.memRead source space a n).1 := by
  unfold State.memRead
  split
  · exact h.dockRead ..
  · exact h.whRead ..
  · exact h.hostRead ..
  · exact h

theorem memWrite (h : EngineStands s t) (space a : Nat) (bs : List Byte) : EngineStands s (t.memWrite space a bs) := by
  unfold State.memWrite
  split
  · exact h.dockWrite ..
  · exact EngineStands.ite h.same h
  · exact h.hostWrite ..
  · exact h

theorem ptrRead (h : EngineStands s t) (source : Nat) (p : Word64) (len : Nat) : EngineStands s (t.ptrRead source p len).1 := by
  unfold State.ptrRead
  split
  · exact h
  · exact h.memRead ..

end EngineStands

/-! ### What is read does not depend on the commands -/

section
variable (s : State) (x : Rings) (source a n : Nat)

theorem State.dockRead_snd : (s.dockRead source a n).2 = ((linesOf a n).find? s.dockBad).elim
    (.ok ((List.range n).map fun i => s.dockByte (a + i))) fun l => .error (l * 64 - a) := by
  unfold State.dockRead
  dsimp only
  cases (linesOf a n).find? s.dockBad <;> rfl

theorem State.whRead_snd : (s.whRead a n).2 = if s.whReady = false then .error 0 else
    ((linesOf a n).find? fun l => Config.whPoison s.freeCtr (s.whKey (l * 64) / 64)).elim
      (.ok ((List.range n).map fun i => (cellAt s.wh (s.whKey (a + i))).getD (Config.whByte s.whEra (s.whKey (a + i)))))
      fun l => .error (l * 64 - a) := by
  unfold State.whRead
  cases s.whReady
  · rfl
  · cases (linesOf a n).find? fun l => Config.whPoison s.freeCtr (s.whKey (l * 64) / 64) <;> rfl

theorem State.hostRead_snd : (s.hostRead a n).2 = if s.up.linkUp = false then .error 0 else
    ((linesOf a n).find? s.hostMem.bad.contains).elim
      (.ok ((List.range n).map fun i => (cellAt s.hostMem.cells (a + i)).getD (Config.hostByte (a + i))))
      fun l => .error (l * 64 - a) := by
  unfold State.hostRead
  cases s.up.linkUp
  · rfl
  · cases (linesOf a n).find? s.hostMem.bad.contains <;> rfl

theorem State.memRead_withRings (space : Nat) :
    (({ s with rings := x } : State).memRead source space a n).2 = (s.memRead source space a n).2 := by
  unfold State.memRead
  split
  · exact (State.dockRead_snd ..).trans (State.dockRead_snd s source a n).symm
  · exact (State.whRead_snd ..).trans (State.whRead_snd s a n).symm
  · exact (State.hostRead_snd ..).trans (State.hostRead_snd s a n).symm
  · rfl

end

end Sys2Proof.Machine
end

section
/-! SUPPORT. A command accepted, and what every acceptance leaves of the commands before it (R101, R105, R107, R125). -/

namespace Sys2Proof.Machine

variable {s t u : State} {r : Nat} {bs : List Byte}

/-- A command is the same but for how far it has come: its ring, sequence number, slot and descriptor. -/
structure Cmd.Same (c d : Cmd) : Prop where
  ring : d.ring = c.ring
  seq : d.seq = c.seq
  slot : d.slot = c.slot
  desc : d.desc = c.desc

theorem Cmd.Same.refl (c : Cmd) : c.Same c := ⟨rfl, rfl, rfl, rfl⟩

theorem Cmd.Same.trans {c d e : Cmd} (h : c.Same d) (k : d.Same e) : c.Same e :=
  ⟨k.ring.trans h.ring, k.seq.trans h.seq, k.slot.trans h.slot, k.desc.trans h.desc⟩

/-- The command that a ring's head slot with the bytes `bs` holds, as it is accepted. -/
def State.slotCmd (s : State) (r : Nat) (bs : List Byte) : Cmd :=
  let words := (List.range 8).map fun i => word64At bs (8 * i)
  let c : Cmd := ⟨r, s.get F.WK_RING_SEQ_SEQ [r], s.get F.WK_RING_HEAD_HEAD [r], words, .met, .met, .waiting, 0, 0, 0, 0, 0, 0⟩
  { c with wait0 := if c.w0En then .pending else .met, wait1 := if c.w1En then .pending else .met }

/-- A command joins those accepted, and its ring's head moves past it. -/
def State.joined (s : State) (r : Nat) (c : Cmd) : State :=
  ((({ s with rings := { s.rings with cmds := s.rings.cmds ++ [c] } } : State).advanceHead r).showInflight r).tally 0x01

/-- What acceptance makes of a command that has joined: one with a bad header ends. -/
def State.headerChecked (s : State) (c : Cmd) : State :=
  match headerBadAt c with
  | some d => s.endCmd c.ring c.seq St.badDescriptor d (s.idleResult c) 0
  | none => s.stage1 c

/-- The ring whose head slot is read. -/
def State.turnTo (s : State) (r : Nat) : State := { s with rings := { s.rings with last := r } }

/-- What the read of a ring's head slot leaves, and what it gives. -/
def State.readHead (s : State) (r : Nat) : State × Except Nat (List Byte) :=
  (s.turnTo r).memRead 2 (s.cget F.WK_RING_BASE_SPACE [r]) (s.headAddr r) 64

theorem State.accept_ok (h : s.readHead r = (u, .ok bs)) : s.accept r = (u.joined r (u.slotCmd r bs)).headerChecked (u.slotCmd r bs) := by
  unfold State.accept
  dsimp only
  split
  · next heq => exact absurd (h.symm.trans heq) (by simp)
  · next heq =>
    obtain ⟨rfl, hbs⟩ := Prod.mk.inj (h.symm.trans heq)
    obtain rfl := Except.ok.inj hbs
    rfl

theorem State.accept_error {off : Nat} (h : s.readHead r = (u, .error off)) : (s.accept r).rings = u.rings := by
  unfold State.accept
  dsimp only
  split
  · next heq =>
    obtain ⟨rfl, -⟩ := Prod.mk.inj (h.symm.trans heq)
    split <;> rfl
  · next heq => exact absurd (h.symm.trans heq) (by simp)

theorem State.readHead_stands (s : State) (r : Nat) : EngineStands (s.turnTo r) (s.readHead r).1 := (EngineStands.refl _).memRead ..

/-! ### The commands after an acceptance -/

theorem State.advanceHead_rings (s : State) (r : Nat) : (s.advanceHead r).rings.cmds = s.rings.cmds ∧ (s.advanceHead r).rings.last = s.rings.last := by
  unfold State.advanceHead
  dsimp only
  split <;> exact ⟨rfl, rfl⟩

theorem State.joined_rings (s : State) (r : Nat) (c : Cmd) :
    (s.joined r c).rings.cmds = s.rings.cmds ++ [c] ∧ (s.joined r c).rings.last = s.rings.last :=
  State.advanceHead_rings { s with rings := { s.rings with cmds := s.rings.cmds ++ [c] } } r

theorem State.stage1_rings (s : State) (c : Cmd) : (s.stage1 c).rings = s.rings := by
  have hread := ((EngineStands.refl s).ptrRead 2 (c.word 5) (min c.moLen 65536)).rings
  unfold State.stage1
  split
  · exact hread
  · rfl

/-- The header's check changes how far commands have come, and nothing else of them. -/
theorem State.headerChecked_cmds (s : State) (c : Cmd) : ∃ f : Cmd → Cmd, (∀ d : Cmd, d.Same (f d)) ∧
    (s.headerChecked c).rings.cmds = s.rings.cmds.map f ∧ (s.headerChecked c).rings.last = s.rings.last := by
  unfold State.headerChecked
  split
  · refine ⟨_, fun d => ?_, rfl, rfl⟩
    dsimp only
    repeat' split
    all_goals exact ⟨rfl, rfl, rfl, rfl⟩
  · exact ⟨id, Cmd.Same.refl, by rw [State.stage1_rings, List.map_id], by rw [State.stage1_rings]⟩

/-- After an acceptance the commands are those before it and the one accepted, each as far as it has come. -/
theorem State.accept_cmds (h : s.readHead r = (u, .ok bs)) : ∃ f : Cmd → Cmd, (∀ d : Cmd, d.Same (f d)) ∧
    (s.accept r).rings.cmds = (s.rings.cmds ++ [u.slotCmd r bs]).map f ∧ (s.accept r).rings.last = r := by
  have hrings : u.rings = (s.turnTo r).rings := by simpa [h] using (s.readHead_stands r).rings
  obtain ⟨f, hf, hcmds, hlast⟩ := (u.joined r (u.slotCmd r bs)).headerChecked_cmds (u.slotCmd r bs)
  obtain ⟨hjoined, hturn⟩ := u.joined_rings r (u.slotCmd r bs)
  rw [State.accept_ok h]
  exact ⟨f, hf, by rw [hcmds, hjoined, hrings]; rfl, by rw [hlast, hturn, hrings]; rfl⟩

/-- No acceptance loses a command. -/
theorem State.accept_keeps {c : Cmd} (hc : c ∈ s.rings.cmds) (r : Nat) : ∃ d ∈ (s.accept r).rings.cmds, c.Same d := by
  cases h : s.readHead r with
  | mk u res =>
    cases res with
    | error off =>
      have hrings : u.rings = (s.turnTo r).rings := by simpa [h] using (s.readHead_stands r).rings
      exact ⟨c, by rw [State.accept_error h, hrings]; exact hc, Cmd.Same.refl c⟩
    | ok bs =>
      obtain ⟨f, hf, hcmds, -⟩ := State.accept_cmds h
      exact ⟨f c, hcmds ▸ List.mem_map_of_mem (List.mem_append_left _ hc), hf c⟩

/-! ### Acceptance of one ring's head (R101) -/

/-- The command in the slot is that of the ring's sequence number and head before the acceptance. -/
theorem State.accept_takes (hr : r < 256) (hread : (s.memRead 2 (s.cget F.WK_RING_BASE_SPACE [r]) (s.headAddr r) 64).2 = .ok bs) :
    (s.accept r).rings.last = r ∧ (s.accept r).rings.cmds.length = s.rings.cmds.length + 1 ∧
    ∃ c ∈ (s.accept r).rings.cmds, c.ring = r ∧ c.seq = s.get F.WK_RING_SEQ_SEQ [r] ∧ c.slot = s.get F.WK_RING_HEAD_HEAD [r] ∧
      c.desc = (List.range 8).map fun i => word64At bs (8 * i) := by
  obtain ⟨u, hu⟩ : ∃ u, s.readHead r = (u, .ok bs) := ⟨_, Prod.ext rfl ((State.memRead_withRings ..).trans hread)⟩
  have hstands : EngineStands (s.turnTo r) u := by simpa [hu] using s.readHead_stands r
  have hseq : u.get F.WK_RING_SEQ_SEQ [r] = s.get F.WK_RING_SEQ_SEQ [r] := hstands.get (by simp [F.WK_RING_SEQ_SEQ]; omega)
  have hslot : u.get F.WK_RING_HEAD_HEAD [r] = s.get F.WK_RING_HEAD_HEAD [r] := hstands.get (by simp [F.WK_RING_HEAD_HEAD]; omega)
  obtain ⟨f, hf, hcmds, hlast⟩ := State.accept_cmds hu
  obtain ⟨fring, fseq, fslot, fdesc⟩ := hf (u.slotCmd r bs)
  exact ⟨hlast, by simp [hcmds], f (u.slotCmd r bs), by simp [hcmds], fring, fseq.trans hseq, fslot.trans hslot, fdesc⟩

/-- One step of BACKSTOP_POLL. -/
def State.pollOne (s : State) (r : Nat) : State := if s.headReady r then s.accept r else s

theorem State.foldl_pollOne_keeps (l : List Nat) {c : Cmd} (hc : c ∈ s.rings.cmds) :
    ∃ d ∈ (l.foldl State.pollOne s).rings.cmds, c.Same d := by
  induction l generalizing s c with
  | nil => exact ⟨c, hc, Cmd.Same.refl c⟩
  | cons x l ih =>
    obtain ⟨d, hd, hsame⟩ : ∃ d ∈ (s.pollOne x).rings.cmds, c.Same d := by
      unfold State.pollOne
      split
      · exact State.accept_keeps hc x
      · exact ⟨c, hc, Cmd.Same.refl c⟩
    obtain ⟨e, he, hsame'⟩ := ih hd
    exact ⟨e, he, hsame.trans hsame'⟩

/-- Rings that are not ready leave a poll where it is until it comes to the one that is. -/
theorem State.foldl_pollOne_of_only (hr : s.headReady r = true) {l : List Nat} (hmem : r ∈ l) (hl : ∀ x ∈ l, x ≠ r → s.headReady x = false) :
    ∃ l' : List Nat, l.foldl State.pollOne s = l'.foldl State.pollOne (s.accept r) := by
  induction l with
  | nil => nomatch hmem
  | cons x l ih =>
    rw [List.forall_mem_cons] at hl
    by_cases hx : x = r
    · exact ⟨l, by rw [List.foldl_cons, hx, State.pollOne, if_pos hr]⟩
    · have hstays : s.pollOne x = s := if_neg (by simp [hl.1 hx])
      rw [List.foldl_cons, hstays]
      exact ih ((List.mem_cons.1 hmem).resolve_left (Ne.symm hx)) hl.2

section
variable (hr : r < 256) (hready : s.headReady r = true) (honly : ∀ x, x < 256 → x ≠ r → s.headReady x = false)
include hr hready honly

theorem exec_commandAcceptance_only : exec .commandAcceptance s = .next (s.accept r) := by
  obtain ⟨x, hx⟩ := Option.isSome_iff_exists.1 (List.find?_isSome.2 ⟨r, mem_ringOrder s hr, hready⟩)
  have hlt : x < 256 := by
    obtain ⟨i, -, rfl⟩ := List.mem_map.1 (List.mem_of_find?_eq_some hx)
    exact Nat.mod_lt _ (by decide)
  obtain rfl : x = r := by_contra fun hne => by simpa [honly x hlt hne] using List.find?_some hx
  rw [exec_commandAcceptance, State.acceptNext_some hx]

theorem exec_backstopPoll_only (hon : s.get F.WK_POLL_INTERVAL ≠ 0) :
    ∃ l : List Nat, exec .backstopPoll s = .next (l.foldl State.pollOne (s.accept r)) := by
  obtain ⟨l, hl⟩ := State.foldl_pollOne_of_only hready (mem_ringOrder s hr) fun x hx hne => by
    obtain ⟨i, -, rfl⟩ := List.mem_map.1 hx
    exact honly _ (Nat.mod_lt _ (by decide)) hne
  exact ⟨l, (exec_backstopPoll_on hon).trans (congrArg Host.Outcome.next hl)⟩

end

end Sys2Proof.Machine
end

section
/-! SUPPORT. Where the engine's own rows run to their effect (R101 to R111, R148, R389). -/

namespace Sys2Proof.Machine

variable {s t u : State} {r q : Nat} {c : Cmd}

/-! ### STRICT_ORDER (R148) -/

theorem State.strictWrite_idle (h : ∀ c ∈ s.mo.colls, c.live = []) (req : Requester) (v : Word64) :
    s.strictWrite req v = s.applyWrite req .GEN_CTRL [] v := by
  have hnone : (s.mo.colls.any fun c => !c.live.isEmpty) = false :=
    List.any_eq_false.2 fun c hc => by simp [h c hc]
  rw [State.strictWrite, hnone, Bool.and_false, if_neg (by decide)]

theorem exec_strictOrder_takes {req : Requester} {v : Word64} (hw : s.Writes req .GEN_CTRL []) (h : ∀ c ∈ s.mo.colls, c.live = []) :
    ∃ t, exec (.strictOrder req v) s = .next t ∧ t.get F.GEN_CTRL_STRICT_ORDER = bits v 0 1 ∧ t.mo = s.mo := by
  refine ⟨_, State.rowWrite_allowed hw _, ?_, ?_⟩
  · rw [State.strictWrite_idle h]
    exact (State.pcCount_get (Or.inl (by decide)) ..).trans
      (State.get_applyWrite_rw (f := F.GEN_CTRL_STRICT_ORDER) (by decide) rfl (by decide) (by decide) s req v)
  · obtain ⟨w, hword, -⟩ := State.applyWrite_free (r := .GEN_CTRL) (by decide) (by decide) s req [] v
    rw [State.strictWrite_idle h, hword]
    exact State.pcCount_mo ..

/-! ### Events read back (R110, R112) -/

theorem State.evVal_evSet (s : State) (e : Nat) (v : Word64) : (s.evSet e v.toNat).evVal e = v.toNat :=
  (State.get_put_self _ (by decide) _ _).trans (Nat.mod_eq_of_lt v.isLt)

theorem State.evVal_evFailTo (s : State) (e : Nat) (b : Bool) : (s.evFailTo e b).evVal e = s.evVal e :=
  State.get_put_ne _ F.WK_EVENT_VALUE _ (by simp [F.WK_EVENT_VALUE]; omega)

theorem State.evFail_evFailTo (s : State) (e : Nat) (b : Bool) : (s.evFailTo e b).evFail e = b := by
  have he : e % 64 < 64 := Nat.mod_lt _ (by decide)
  have hword : (s.evFailTo e b).rd .WK_EVFAIL [e / 64] = putBits (s.rd .WK_EVFAIL [e / 64]) (e % 64) 1 b.toNat := State.rd_wr_self ..
  rw [State.evFail, State.get]
  show (bits ((s.evFailTo e b).rd .WK_EVFAIL [e / 64]) 0 64).testBit (e % 64) = b
  rw [hword, testBit_bits, putBits_getLsbD (by omega)]
  cases b <;> simp [he]

theorem State.evVal_endCmd (s : State) (r q st d a b e : Nat) : (s.endCmd r q st d a b).evVal e = s.evVal e := rfl

theorem State.evFail_endCmd (s : State) (r q st d a b e : Nat) : (s.endCmd r q st d a b).evFail e = s.evFail e := rfl

/-! ### Commands that end -/

section
variable (hc : s.cmd? r q = some c)
include hc

theorem exec_waitResolve_meets (hstage : c.stage = .waiting) (h0 : c.wait0 = .pending) (h1 : c.wait1 = .met)
    (hfail : s.evFail (c.fld 1 0 16) = false) (hval : (c.word 2).toNat ≤ s.evVal (c.fld 1 0 16)) :
    ∃ t, exec (.waitResolve r q) s = .next t ∧ t.cmd? r q = some { c with wait0 := .met } := by
  have hw0 : s.lookAt c.wait0 c.w0Event (c.word 2) = .met := by simp [State.lookAt_eq, h0, Cmd.w0Event, hfail, hval]
  have hw1 : s.lookAt c.wait1 c.w1Event (c.word 3) = .met := by simp [State.lookAt_eq, h1]
  have hexec := exec_waitResolve_waiting hc hstage
  rw [hw0, hw1] at hexec
  refine ⟨_, hexec.trans (congrArg _ (if_neg (by decide))), ?_⟩
  rw [State.cmd?_mapCmd s r q (fun c => by constructor <;> rfl), hc, Option.map_some, h1]

theorem exec_waitResolve_fails (hstage : c.stage = .waiting) (h0 : c.wait0 = .pending)
    (hfail : s.evFail (c.fld 1 0 16) = true) (ht : c.type ≠ 5) :
    ∃ t d, exec (.waitResolve r q) s = .next t ∧ t.cmd? r q = some d ∧ d.stage = .ended ∧ d.status = 0x03 := by
  have hw0 : s.lookAt c.wait0 c.w0Event (c.word 2) = .failed := by simp [State.lookAt_eq, h0, Cmd.w0Event, hfail]
  have hexec := exec_waitResolve_waiting hc hstage
  rw [hw0] at hexec
  obtain ⟨rfl, rfl⟩ := State.cmd?_ids hc
  have hfound := State.cmd?_mapCmd s c.ring c.seq
    (f := fun d => { d with wait0 := .failed, wait1 := s.lookAt c.wait1 c.w1Event (c.word 3) }) fun d => by constructor <;> rfl
  rw [hc, Option.map_some] at hfound
  exact ⟨_, _, hexec.trans (congrArg _ ((if_pos (.inl rfl)).trans (State.stopCmd_waiting hstage ht _))),
    State.cmd?_endCmd hfound (by simp [hstage]) .., rfl, rfl⟩

end

/-- A command that has started and changed no command ends with OK. -/
theorem State.endCmd_running (hc : s.cmd? c.ring c.seq = some c) (hu : u.rings = (s.running c).rings) :
    ∃ d, (u.endCmd c.ring c.seq St.ok 0 0 0).cmd? c.ring c.seq = some d ∧ d.stage = .ended ∧ d.status = 0 := by
  have hfound := (State.cmd?_congr (congrArg Rings.cmds hu) _ _).trans (State.cmd?_running hc)
  exact ⟨_, State.cmd?_endCmd hfound Stage.noConfusion .., rfl, rfl⟩

/-- R108: a NOP that may start ends with OK, in every power state. -/
theorem exec_nop_ends (hc : s.cmd? r q = some c) (hs : s.startable c = true) (ht : c.type = 1) (h4 : c.word 4 = 0) (h5 : c.word 5 = 0)
    (h6 : c.word 6 = 0) (h7 : c.word 7 = 0) : ∃ t d, exec (.commandStart r q) s = .next t ∧ exec (.nop r q) s = .next t ∧
      t.cmd? r q = some d ∧ d.stage = .ended ∧ d.status = 0 := by
  obtain ⟨rfl, rfl⟩ := State.cmd?_ids hc
  have hstart : s.startCommand c = (s.running c).endCmd c.ring c.seq St.ok 0 0 0 :=
    (State.startCommand_nop ht).trans (State.startNop_ok h4 h5 h6 h7)
  obtain ⟨d, hd⟩ := State.endCmd_running hc (u := s.running c) rfl
  exact ⟨_, d, (exec_commandStart hc hs).trans (congrArg _ hstart),
    congrArg Host.Outcome.next ((State.startIf_starts (f := isType 1) hc hs (by simp [isType, ht])).trans hstart), hd⟩

/-- R108: an EVENT SET of one event. -/
theorem exec_eventSet_sets (hc : s.cmd? r q = some c) (hs : s.startable c = true) (ht : c.type = 10) (hsub : c.fld 4 0 16 = 0)
    (hone : c.fld 4 32 32 = 1) (h6 : c.word 6 = 0) (h7 : c.word 7 = 0) : ∃ t d, exec (.commandStart r q) s = .next t ∧
      exec (.eventSet r q) s = .next t ∧ t.evVal (c.fld 4 16 16) = (c.word 5).toNat ∧ t.evFail (c.fld 4 16 16) = false ∧
      t.cmd? r q = some d ∧ d.stage = .ended ∧ d.status = 0 := by
  obtain ⟨rfl, rfl⟩ := State.cmd?_ids hc
  have hfirst : c.evFirst < 2 ^ 16 := bits_lt ..
  have hrange : c.evRange = 1 ∧ c.fld 4 49 15 = 0 := by
    unfold Cmd.evRange Cmd.fld bits at *
    omega
  have hzero : c.subop = 0 ∧ c.fld 4 4 12 = 0 := by
    unfold Cmd.subop Cmd.fld bits at *
    omega
  have hstart : s.startCommand c =
      (((s.running c).evSet c.evFirst (c.word 5).toNat).evFailTo c.evFirst false).endCmd c.ring c.seq St.ok 0 0 0 := by
    rw [State.startCommand_event ht, State.startEvent_ok hzero.2 hrange.2 h6 h7 (by omega) (by omega), hrange.1, State.eventOne_set hzero.1]
    rfl
  obtain ⟨d, hd⟩ := State.endCmd_running hc (u := ((s.running c).evSet c.evFirst (c.word 5).toNat).evFailTo c.evFirst false) rfl
  refine ⟨_, d, (exec_commandStart hc hs).trans (congrArg _ hstart),
    congrArg Host.Outcome.next ((State.startIf_starts (f := isSub 10 0) hc hs (by simp [isSub, ht, hzero.1])).trans hstart), ?_, ?_, hd⟩
  · exact (State.evVal_endCmd ..).trans ((State.evVal_evFailTo ..).trans (State.evVal_evSet ..))
  · exact (State.evFail_endCmd ..).trans (State.evFail_evFailTo ..)

theorem State.stopPower_rings (s : State) (c : Cmd) (status : Nat) : (s.stopPower c status).rings =
    (s.endCmd c.ring c.seq status 0 (s.get F.PM_STATE_STATE) 0).rings := by
  unfold State.stopPower
  dsimp only
  split_ifs <;> rfl

/-- R107: a POWER past its limit. -/
theorem exec_timeout_power (hc : s.cmd? r q = some c) (ht : c.type = 11) (h : c.overdue s.now) :
    ∃ t d, exec (.timeout r q) s = .next t ∧ t.cmd? r q = some d ∧ d.stage = .ended ∧ d.status = 0x0B := by
  obtain ⟨rfl, rfl⟩ := State.cmd?_ids hc
  have hstop : s.stopCmd c St.timeout = s.stopPower c St.timeout := by simp [State.stopCmd, h.1, ht]
  refine ⟨_, _, (exec_timeout_overdue hc h).trans (congrArg _ hstop),
    (State.cmd?_congr (congrArg Rings.cmds (s.stopPower_rings c St.timeout)) _ _).trans (State.cmd?_endCmd hc (by simp [h.1]) ..), rfl, rfl⟩

/-! ### A record written (R101, R104) -/

theorem State.cqOf_lt (s : State) (r : Nat) : s.cget F.WK_RING_CFG_CQ [r] < 256 := bits_lt ..

theorem State.get_withRings (s : State) (g : Rings) (f : Fld) (ks : List Nat) : State.get { s with rings := g } f ks = s.get f ks := rfl

/-- A record in its slot: PROD has moved on by one, and the lap of the completion ring with it. -/
def State.recordPlaced (s : State) (c : Cmd) : State :=
  let q := s.cget F.WK_RING_CFG_CQ [c.ring]
  let n := s.cget F.WK_CQ_CFG_SLOTS [q]
  let prod := s.get F.WK_CQ_PROD_PROD [q]
  let lap := spGet 0 s.rings.cqLap q
  let t := (s.memWrite (s.cget F.WK_CQ_BASE_SPACE [q]) (s.cget F.WK_CQ_BASE_ADDR [q] + 32 * (prod % n))
    (s.recordBytes c (generation lap))).put F.WK_CQ_PROD_PROD [q] (prod + 1)
  { t with rings := { t.rings with cqLap := spPut 0 t.rings.cqLap q (if (prod + 1) % n = 0 then lap + 1 else lap) } }

theorem State.writeRecord_eq (s : State) (c : Cmd) : s.writeRecord c =
    if c.status = St.ok then (s.recordPlaced c).tally 0x02 else ((s.recordPlaced c).tally 0x02).tally 0x03 := rfl

theorem State.recordPlaced_cmds (s : State) (c : Cmd) : (s.recordPlaced c).rings.cmds = s.rings.cmds := by
  have hwrite : ∀ space a bs, (s.memWrite space a bs).rings.cmds = s.rings.cmds := fun space a bs =>
    congrArg Rings.cmds ((EngineStands.refl s).memWrite space a bs).rings
  exact hwrite ..

theorem State.writeRecord_cmds (s : State) (c : Cmd) : (s.writeRecord c).rings.cmds = s.rings.cmds := by
  rw [State.writeRecord_eq]
  split <;> exact s.recordPlaced_cmds c

theorem State.tally_prod {n : Nat} (hn : n < 256) (e : Nat) : (s.tally e).get F.WK_CQ_PROD_PROD [n] = s.get F.WK_CQ_PROD_PROD [n] :=
  State.get_put_ne F.TL_EVT_COUNT F.WK_CQ_PROD_PROD _ (by simp [F.TL_EVT_COUNT, F.WK_CQ_PROD_PROD]; omega)

theorem State.writeRecord_prod (s : State) (c : Cmd) :
    let q := s.cget F.WK_RING_CFG_CQ [c.ring]
    (s.writeRecord c).get F.WK_CQ_PROD_PROD [q] = (s.get F.WK_CQ_PROD_PROD [q] + 1) % 2 ^ 32 := by
  intro q
  have hq : q < 256 := s.cqOf_lt c.ring
  have hplaced : (s.recordPlaced c).get F.WK_CQ_PROD_PROD [q] = (s.get F.WK_CQ_PROD_PROD [q] + 1) % 2 ^ 32 := by
    simp only [State.recordPlaced, State.get_withRings]
    exact State.get_put_self F.WK_CQ_PROD_PROD (by decide) _ _
  rw [State.writeRecord_eq]
  split
  · rw [State.tally_prod hq, hplaced]
  · rw [State.tally_prod hq, State.tally_prod hq, hplaced]

theorem State.settleRing_cmds (s : State) (r : Nat) : (s.settleRing r).rings = s.rings := by
  unfold State.settleRing
  split <;> rfl

theorem State.settleRing_prod (s : State) (r n : Nat) : (s.settleRing r).get F.WK_CQ_PROD_PROD [n] = s.get F.WK_CQ_PROD_PROD [n] := by
  unfold State.settleRing
  split
  · exact State.get_put_ne F.WK_RING_CTRL_STATE F.WK_CQ_PROD_PROD _ (by simp [F.WK_RING_CTRL_STATE, F.WK_CQ_PROD_PROD]; omega)
  · rfl

theorem State.showInflight_prod (hr : r < 256) (n : Nat) :
    (s.showInflight r).get F.WK_CQ_PROD_PROD [n] = s.get F.WK_CQ_PROD_PROD [n] := by
  rw [State.showInflight, State.get_put_ne F.WK_STATUS_INFLIGHT F.WK_CQ_PROD_PROD _ (by simp [F.WK_STATUS_INFLIGHT, F.WK_CQ_PROD_PROD]; omega),
    State.get_put_ne F.WK_RING_HEAD_INFLIGHT F.WK_CQ_PROD_PROD _ (by simp [F.WK_RING_HEAD_INFLIGHT, F.WK_CQ_PROD_PROD]; omega)]

theorem State.signal_silent (hsig : c.sigEn = false) (hirq : c.irq = false) (ht : c.type ≠ 6) : s.signal c = s := by
  have hdurable : c.durable = false := by simp [Cmd.durable, ht]
  simp [State.signal_eq, State.rung, State.told, hsig, hirq, hdurable]

/-- The record of a command without signal or interrupt: the command goes, and PROD moves on by one. -/
theorem exec_completionRecord_silent (hc : s.rings.cmds.find? (fun c => c.ring = r) = some c) (hend : c.stage = .ended)
    (hawake : s.cqAwake r = true) (hroom : s.cqFull r = false) (hsig : c.sigEn = false) (hirq : c.irq = false) (ht : c.type ≠ 6)
    (hr : r < 256) :
    let q := s.cget F.WK_RING_CFG_CQ [r]
    ∃ t, exec (.completionRecord r) s = .next t ∧ t.rings.cmds = s.rings.cmds.filter (fun x => !(x.ring = r && x.seq = c.seq)) ∧
      t.get F.WK_CQ_PROD_PROD [q] = (s.get F.WK_CQ_PROD_PROD [q] + 1) % 2 ^ 32 := by
  intro q
  obtain rfl : c.ring = r := by simpa using List.find?_some hc
  refine ⟨_, exec_completionRecord_written hc hawake hend hroom, ?_, ?_⟩
  · rw [State.settleRing_cmds, State.signal_silent hsig hirq ht, ← State.writeRecord_cmds s c]
    rfl
  · rw [State.settleRing_prod, State.signal_silent hsig hirq ht, State.showInflight_prod hr]
    exact s.writeRecord_prod c

/-! ### A line of host memory (R389) -/

theorem exec_hostSnoop_apart (h : ∀ r, r < 256 → s.cget F.WK_RING_BASE_SPACE [r] ≠ 4) (line : Nat) (poison : Bool) (bytes : List Byte) :
    exec (.hostSnoop line poison bytes) s = .next { s with hostMem := s.hostMem.hostWrites line poison bytes } :=
  exec_hostSnoop_elsewhere fun ⟨r, hr, hspace, _⟩ => h r hr hspace

theorem HostMem.hostWrites_cells (m : HostMem) (line : Nat) (bytes : List Byte) {i : Nat} (hi : i < 64) (hlen : i < bytes.length) :
    cellAt (m.hostWrites line false bytes).cells (64 * line + i) = bytes[i]? := by
  have hcells : (m.hostWrites line false bytes).cells = putCells m.cells (64 * line) (bytes.take 64) := rfl
  rw [hcells, cellAt_putCells, if_pos (by rw [List.length_take]; omega), Nat.add_sub_cancel_left, List.getElem?_take_of_lt hi]

/-- Settles O56: each row has the lemma that says where it runs to. -/
theorem engineRowsComplete : Obligations.EngineRowsComplete := by
  refine ⟨fun s req v => exec_strictOrder_takes, fun s r bs hr hready honly hread => ?_, fun s r q c hc hstage h0 h1 =>
      ⟨exec_waitResolve_meets hc hstage h0 h1, exec_waitResolve_fails hc hstage h0⟩, fun s r q c hc hstage h0 h1 hserial => ?_,
    fun s r q c hc ht hstage hlimit hlate => exec_timeout_power hc ht ⟨hstage, hlimit, hlate⟩,
    fun s r c => exec_completionRecord_silent, fun s line bytes h =>
      ⟨⟨_, exec_hostSnoop_apart h line false bytes, fun i => s.hostMem.hostWrites_cells line bytes⟩,
        _, exec_hostSnoop_apart h line true bytes, List.mem_cons_self⟩⟩
  · intro taken
    obtain ⟨hlast, hlen, d, hd, hring, hseq, hslot, hdesc⟩ := State.accept_takes hr hread
    refine ⟨⟨_, exec_commandAcceptance_only hr hready honly, hlast, hlen, d, hd, hring, hseq, hslot, hdesc⟩, fun hon => ?_⟩
    obtain ⟨l, hl⟩ := exec_backstopPoll_only hr hready honly hon
    obtain ⟨e, he, hsame⟩ := State.foldl_pollOne_keeps l hd
    exact ⟨_, hl, e, he, hsame.ring.trans hring, hsame.seq.trans hseq, hsame.slot.trans hslot, hsame.desc.trans hdesc⟩
  · obtain ⟨hring, hseq⟩ := State.cmd?_ids hc
    have hs : c.type ≠ 9 → s.startable c = true := fun ht =>
      State.startable_iff.2 ⟨hstage, h0, h1, by rwa [hring, hseq], fun h => absurd h ht⟩
    exact ⟨fun ht => exec_nop_ends hc (hs (by simp [ht])) ht, fun ht => exec_eventSet_sets hc (hs (by simp [ht])) ht⟩

end Sys2Proof.Machine
end

section
/-! SUPPORT. CONTRIB: where a contribution is dropped, waits or lands (R17, R23, R139, R140, R145). -/

namespace Sys2Proof.Machine

variable {s : State} {p : Nat} {pkt : Packet}

/-! ### The packet (R138) -/

/-- Word `i` of a collective extension; its member, sequence number and granule entry. `extMoor` is its Mooring. -/
abbrev extWord (pkt : Packet) (i : Nat) : Word64 := word64At pkt.body (8 * i)
abbrev extMember (pkt : Packet) : Nat := bits (extWord pkt 0) 48 12
abbrev extPseq (pkt : Packet) : Nat := bits (extWord pkt 1) 0 32
abbrev extEntry (pkt : Packet) : Nat := bits (extWord pkt 1) 32 4

/-- A CONTRIB for an ACTIVE context. -/
def State.contribLive (s : State) (pkt : Packet) : Prop :=
  s.ctxState (extMoor pkt) = Cs.active ∧ bits (extWord pkt 0) 0 4 = 0

/-- A packet of the context's job and epoch. -/
def State.contribCurrent (s : State) (pkt : Packet) : Prop :=
  pkt.hdr.job = s.job (extMoor pkt) ∧ bits (extWord pkt 0) 4 12 = s.job (extMoor pkt) ∧
    bits (extWord pkt 0) 32 16 = s.epoch (extMoor pkt)

/-- A packet whose member its Mooring admits meets the parcel it names, or the gate. -/
def State.contribParcel (s : State) (p : Nat) (pkt : Packet) : State :=
  match s.findParcel (extMoor pkt) (extPseq pkt) with
  | some (c, x) => s.land p pkt c x (extWord pkt 0) (extWord pkt 1) (extWord pkt 2)
  | none =>
    if (s.gateNext (extMoor pkt) + 2 ^ 32 - 1 - extPseq pkt) % 2 ^ 32 < 2 ^ 31 then (s.unsteer p pkt).bump F.MO_DUP_COUNT
    else (s.unsteer p pkt).bump F.MO_DROP_UNGRANTED_COUNT

/-! ### Admission to a Mooring (R17, R23) -/

theorem exec_contrib_unknown (h : ¬s.contribLive pkt) :
    exec (.contrib p pkt) s = .next ((s.unsteer p pkt).unknownMooring p pkt.hdr.tc) := by
  refine congrArg Host.Outcome.next (if_pos ?_)
  simp only [ne_eq, Bool.or_eq_true, decide_eq_true_eq]
  exact not_and_or.1 h

section
variable (hlive : s.contribLive pkt)
include hlive

theorem exec_contrib_stale (h : ¬s.contribCurrent pkt) :
    exec (.contrib p pkt) s = .next ((s.unsteer p pkt).bump F.MO_DROP_STALE_COUNT) := by
  obtain ⟨hact, htype⟩ := hlive
  refine congrArg Host.Outcome.next ((if_neg (by simpa using ⟨hact, htype⟩)).trans (if_pos ?_))
  simp only [ne_eq, Bool.or_eq_true, decide_eq_true_eq, or_assoc]
  exact (not_and_or.1 h).imp_right not_and_or.1

section
variable (hcur : s.contribCurrent pkt)
include hcur

theorem exec_contrib_fenced (h : (s.ctx (extMoor pkt)).fenced (extMember pkt) = true) :
    exec (.contrib p pkt) s = .next ((s.unsteer p pkt).bump F.MO_DROP_FENCED_COUNT) := by
  obtain ⟨hact, htype⟩ := hlive
  obtain ⟨hjob, hjob', hepoch⟩ := hcur
  exact congrArg Host.Outcome.next ((if_neg (by simpa using ⟨hact, htype⟩)).trans
    ((if_neg (by simpa using ⟨⟨hjob, hjob'⟩, hepoch⟩)).trans (if_pos h)))

theorem exec_contrib_admitted (h : (s.ctx (extMoor pkt)).fenced (extMember pkt) = false) :
    exec (.contrib p pkt) s = .next (s.contribParcel p pkt) := by
  obtain ⟨hact, htype⟩ := hlive
  obtain ⟨hjob, hjob', hepoch⟩ := hcur
  exact congrArg Host.Outcome.next ((if_neg (by simpa using ⟨hact, htype⟩)).trans
    ((if_neg (by simpa using ⟨⟨hjob, hjob'⟩, hepoch⟩)).trans (if_neg (Bool.not_eq_true _ ▸ h))))

end
end

/-! ### No parcel, or the parcel it names (R140, R145) -/

section
variable (hnone : s.findParcel (extMoor pkt) (extPseq pkt) = none)
include hnone

theorem State.contribParcel_passed (h : (s.gateNext (extMoor pkt) + 2 ^ 32 - 1 - extPseq pkt) % 2 ^ 32 < 2 ^ 31) :
    s.contribParcel p pkt = (s.unsteer p pkt).bump F.MO_DUP_COUNT := by
  simp only [State.contribParcel, hnone, if_pos h]

theorem State.contribParcel_ungranted (h : 2 ^ 31 ≤ (s.gateNext (extMoor pkt) + 2 ^ 32 - 1 - extPseq pkt) % 2 ^ 32) :
    s.contribParcel p pkt = (s.unsteer p pkt).bump F.MO_DROP_UNGRANTED_COUNT := by
  simp only [State.contribParcel, hnone, if_neg (Nat.not_lt.2 h)]

end

section
variable {c : Coll} {x : Parcel}

/-- The bytes of a contribution to the packet's granule entry. -/
def State.contribBytes (s : State) (c : Coll) (x : Parcel) (pkt : Packet) : Nat :=
  contribLen c.inFmt (((s.granLens c x.k)[extEntry pkt]?).getD 0)

/-- The parcel can take the packet: an entry of its own, a contributor, the entry's granule, and a body of that length. -/
def State.contribFits (s : State) (c : Coll) (x : Parcel) (pkt : Packet) : Prop :=
  extEntry pkt < (s.granLens c x.k).length ∧ extMember pkt ∈ s.contributors c ∧
    bits (extWord pkt 2) 0 32 = s.granNo c x.k (extEntry pkt) % 2 ^ 32 ∧ bits (extWord pkt 1) 36 13 = s.contribBytes c x pkt ∧
    pkt.body.length = 24 + s.contribBytes c x pkt + scaleLen c.inFmt (((s.granElems c x.k)[extEntry pkt]?).getD 0)

/-- The model's test for a packet that the parcel cannot take. -/
def State.contribMisfit (s : State) (c : Coll) (x : Parcel) (pkt : Packet) : Bool :=
  (s.granLens c x.k).length ≤ extEntry pkt || !(s.contributors c).contains (extMember pkt) ||
    bits (extWord pkt 2) 0 32 ≠ s.granNo c x.k (extEntry pkt) % 2 ^ 32 || bits (extWord pkt 1) 36 13 ≠ s.contribBytes c x pkt ||
    pkt.body.length ≠ 24 + s.contribBytes c x pkt + scaleLen c.inFmt (((s.granElems c x.k)[extEntry pkt]?).getD 0)

theorem State.contribMisfit_iff : s.contribMisfit c x pkt = false ↔ s.contribFits c x pkt := by
  simp [State.contribMisfit, State.contribFits, and_assoc]

theorem State.contribParcel_admitted (h : s.findParcel (extMoor pkt) (extPseq pkt) = some (c, x)) :
    s.contribParcel p pkt = s.land p pkt c x (extWord pkt 0) (extWord pkt 1) (extWord pkt 2) := by
  simp only [State.contribParcel, h]

/-- The contribution that a packet carries, with its number among all landings. -/
def State.arrivalOf (s : State) (c : Coll) (x : Parcel) (pkt : Packet) (stamp : Nat) : Arrival :=
  ⟨extEntry pkt, extMember pkt, (pkt.body.drop 24).take (s.contribBytes c x pkt), pkt.body.drop (24 + s.contribBytes c x pkt), stamp⟩

/-- A contribution lands in its parcel. -/
def State.landed (s : State) (c : Coll) (x : Parcel) (a : Arrival) : State :=
  (({ s with mo := { s.mo with order := s.mo.order + 1 } } : State).mapParcel c.ring c.seq x.k fun x =>
    { x with arrivals := x.arrivals ++ [a] }).formReady c.ring c.seq x.k

theorem State.land_bad (h : ¬s.contribFits c x pkt) :
    s.land p pkt c x (extWord pkt 0) (extWord pkt 1) (extWord pkt 2) = (s.unsteer p pkt).bump F.MO_DROP_BAD_COUNT :=
  if_pos (Bool.not_eq_false _ ▸ mt State.contribMisfit_iff.1 h)

section
variable (hfits : s.contribFits c x pkt)
include hfits

/-- A packet that fits is judged by what has landed. -/
theorem State.land_fits : s.land p pkt c x (extWord pkt 0) (extWord pkt 1) (extWord pkt 2) =
    if (x.arrival (extEntry pkt) (extMember pkt)).isSome then (s.unsteer p pkt).bump F.MO_DUP_COUNT
    else if s.berthsFull c x (extEntry pkt) then s
    else (s.unsteer p pkt).landed c x (s.arrivalOf c x pkt (s.unsteer p pkt).mo.order) :=
  if_neg (by rw [Bool.not_eq_true]; exact State.contribMisfit_iff.2 hfits)

theorem State.land_duplicate (h : x.arrival (extEntry pkt) (extMember pkt) ≠ none) :
    s.land p pkt c x (extWord pkt 0) (extWord pkt 1) (extWord pkt 2) = (s.unsteer p pkt).bump F.MO_DUP_COUNT := by
  rw [State.land_fits hfits, if_pos (Option.isSome_iff_ne_none.2 h)]

section
variable (hfirst : x.arrival (extEntry pkt) (extMember pkt) = none)
include hfirst

theorem State.land_waits (h : s.berthsFull c x (extEntry pkt) = true) :
    s.land p pkt c x (extWord pkt 0) (extWord pkt 1) (extWord pkt 2) = s := by
  rw [State.land_fits hfits, if_neg (by simp [hfirst]), if_pos h]

theorem State.land_lands (h : s.berthsFull c x (extEntry pkt) = false) :
    s.land p pkt c x (extWord pkt 0) (extWord pkt 1) (extWord pkt 2) =
      (s.unsteer p pkt).landed c x (s.arrivalOf c x pkt (s.unsteer p pkt).mo.order) := by
  rw [State.land_fits hfits, if_neg (by simp [hfirst]), if_neg (by simp [h])]

end
end
end

/-- Settles O33: the checks of a contribution, one after the other. -/
theorem contributions : Obligations.Contributions := by
  intro s p pkt w m i pseq e t dropped live mine
  refine ⟨exec_contrib_unknown, exec_contrib_stale, exec_contrib_fenced, fun hlive hcur hopen => ?_⟩
  have hexec : exec (.contrib p pkt) s = .next (s.contribParcel p pkt) := exec_contrib_admitted hlive hcur hopen
  refine ⟨fun hnone => ⟨fun h => ?_, fun h => ?_⟩, fun c x hfind => ?_⟩
  · exact hexec.trans (congrArg _ (State.contribParcel_passed hnone h))
  · exact hexec.trans (congrArg _ (State.contribParcel_ungranted hnone h))
  · rw [hexec, State.contribParcel_admitted hfind]
    exact ⟨fun h => congrArg _ (State.land_bad h), fun h hdup => congrArg _ (State.land_duplicate h hdup),
      fun h hfirst hfull => congrArg _ (State.land_waits h hfirst hfull),
      fun h hfirst hfull => ⟨_, rfl, rfl, rfl, rfl, congrArg _ (State.land_lands h hfirst hfull)⟩⟩

end Sys2Proof.Machine
end

section
/-! SUPPORT. Admission, re-requests, the floor, verdicts and the gate, each case by its own equation (R141 to R155). -/

namespace Sys2Proof.Machine

variable {s : State} {m : Nat}

/-! ### Admission (R144) -/

theorem mem_after {last : Nat} {l : List Nat} : m ∈ after last l ↔ m ∈ l := by
  simp only [after, List.mem_append, List.mem_filter, decide_eq_true_eq, ← and_or_left]
  exact and_iff_left (Nat.lt_or_ge last m)

theorem State.fitsFloor_iff : s.fitsFloor m = true ↔ s.floorBusy m = false ∧ s.waitingCharge m ≤ s.get F.MO_CTX_SLIP_FLOOR [m] := by
  simp [State.fitsFloor]

theorem State.fitsShare_iff : s.fitsShare m = true ↔
    s.sharedHeld m + s.waitingCharge m ≤ s.sharedPool / s.waitingMoors.length ∧ s.waitingCharge m ≤ s.sharedBerths := by
  simp [State.fitsShare]

theorem find?_after_none {f : Nat → Bool} {last : Nat} {l : List Nat} (h : (after last l).find? f = none) : ∀ n ∈ l, f n = false :=
  fun n hn => by simpa using List.find?_eq_none.1 h n (mem_after.2 hn)

/-- The three classes of a candidate. -/
theorem State.candidate_cases {cls : Nat} (h : s.candidate = some (m, cls)) :
    (cls = 1 ∧ m ∈ s.waitingMoors ∧ s.fitsFloor m = true) ∨
    (cls = 2 ∧ m ∈ s.waitingMoors ∧ (∀ n ∈ s.waitingMoors, s.fitsFloor n = false) ∧ s.fitsShare m = true) ∨
    (cls = 3 ∧ s.mo.overflow.head? = some m ∧ s.waitingCharge m ≤ s.sharedBerths ∧
      ∀ n ∈ s.waitingMoors, s.fitsFloor n = false ∧ s.fitsShare n = false) := by
  unfold State.candidate at h
  dsimp only at h
  cases hfloor : (after s.mo.lastFloor s.waitingMoors).find? s.fitsFloor with
  | some a =>
    obtain ⟨rfl, rfl⟩ : a = m ∧ 1 = cls := by simpa [hfloor] using h
    exact .inl ⟨rfl, mem_after.1 (List.mem_of_find?_eq_some hfloor), List.find?_some hfloor⟩
  | none =>
    have hnofloor := find?_after_none hfloor
    cases hfair : (after s.mo.lastFair s.waitingMoors).find? s.fitsShare with
    | some a =>
      obtain ⟨rfl, rfl⟩ : a = m ∧ 2 = cls := by simpa [hfloor, hfair] using h
      exact .inr (.inl ⟨rfl, mem_after.1 (List.mem_of_find?_eq_some hfair), hnofloor, List.find?_some hfair⟩)
    | none =>
      have hnoshare := find?_after_none hfair
      cases hover : s.mo.overflow with
      | nil => simp [hfloor, hfair, hover] at h
      | cons a rest =>
        obtain ⟨hfits, rfl, rfl⟩ : s.waitingCharge a ≤ s.sharedBerths ∧ a = m ∧ 3 = cls := by simpa [hfloor, hfair, hover] using h
        exact .inr (.inr ⟨rfl, rfl, hfits, fun n hn => ⟨hnofloor n hn, hnoshare n hn⟩⟩)

theorem exec_parcelAdmission_none (h : s.candidate = none) : exec .parcelAdmission s = .next s.joinOverflow := by
  show execParcelAdmission s = _
  simp only [execParcelAdmission, h]

theorem exec_parcelAdmission_some {cls : Nat} (h : s.candidate = some (m, cls)) :
    exec .parcelAdmission s = .next (s.takeIn m cls).joinOverflow := by
  show execParcelAdmission s = _
  simp only [execParcelAdmission, h]

/-! ### Re-requests (R141) -/

section
variable {pseq e i : Nat}

theorem exec_rereq_none (h : s.findParcel m pseq = none) : exec (.rereq m pseq e i) s = .next s := by
  show execRereq m pseq e i s = _
  simp only [execRereq, h]

variable {c : Coll} {x : Parcel} (h : s.findParcel m pseq = some (c, x))
include h

/-- A re-request goes to a contributor of an entry of the parcel, where it is due. -/
theorem exec_rereq_eq : exec (.rereq m pseq e i) s =
    .next (if e < (s.granLens c x.k).length && (s.contributors c).contains i && s.due c x e i then s.askAgain c x e i else s) := by
  show execRereq m pseq e i s = _
  simp only [execRereq, h]

end

theorem State.due_iff {c : Coll} {x : Parcel} {e i : Nat} : s.due c x e i = true ↔ s.get F.MO_REREQ_INTERVAL ≠ 0 ∧ x.arrival e i = none ∧
    (s.ctx c.moor).fenced i = false ∧ spGet x.grantedAt x.asked (4096 * e + i) + 500 * s.get F.MO_REREQ_INTERVAL ≤ s.now := by
  simp only [State.due, Bool.and_eq_true, Option.isNone_iff_eq_none, Bool.not_eq_true', ne_eq, decide_eq_true_iff, and_assoc]
  exact Iff.rfl

/-! ### The floor's berths (R143) -/

section
variable {req : Requester} {v : Word64} (hw : s.Writes req .MO_SLIP_CFG [])
include hw

theorem exec_floorBerths : exec (.floorBerths req v) s = (s.floorBerths (v.toNat % 2 ^ 16)).written req .MO_SLIP_CFG [] := by
  rw [← bits_low v 16]
  exact State.rowWrite_allowed hw _

end

theorem State.floorBerths_refused {fb : Nat} (h : 32768 < fb ∨
    (fb ≠ s.get F.MO_SLIP_CFG_FLOOR_BERTHS ∧ (s.ctxsIn Cs.active ≠ [] ∨ s.engineBusy = true))) :
    s.floorBerths fb = s.put F.MO_STATUS_CFG_REFUSED [] 1 :=
  if_pos (by simpa using h)

theorem State.floorBerths_taken {fb : Nat} (hfb : fb ≤ 32768) (hidle : s.ctxsIn Cs.active = []) (hbusy : s.engineBusy = false) :
    s.floorBerths fb = (s.put F.MO_SLIP_CFG_FLOOR_BERTHS [] fb).put F.MO_SLIP_STATUS_SHARED_FREE []
      (s.put F.MO_SLIP_CFG_FLOOR_BERTHS [] fb).sharedBerths :=
  if_neg (by simp [hidle, hbusy, hfb])

/-! ### Verdicts (R155) -/

/-- The lease of a member of an ACTIVE context has passed, since its port's last beacon and since its bit was set. -/
def State.leaseOver (s : State) (m i : Nat) : Prop :=
  s.ctxState m = Cs.active ∧ (s.ctx m).bitmap.testBit i = true ∧
    s.beaconAt ((s.ctx m).portOf i) + 500000 * (s.ctx m).leaseMs ≤ s.now ∧ (s.ctx m).since + 500000 * (s.ctx m).leaseMs ≤ s.now

theorem exec_memberDead_eq (i : Nat) : ∃ b : Bool, (b = true ↔ s.leaseOver m i) ∧ exec (.memberDead m i) s =
    .next (if b then (s.fence m i true).memberGone m ((s.ctx m).endpoint i) else s) := by
  refine ⟨_, ?_, rfl⟩
  simp only [State.leaseOver, Bool.and_eq_true, decide_eq_true_eq, and_assoc]
  refine and_congr_right fun _ => and_congr_right fun _ => ?_
  unfold us
  omega

/-! ### The gate (R150) -/

theorem exec_gatePassage_none (h : s.findParcel m (s.gateNext m) = none) (b : Option Nat) : exec (.gatePassage m b) s = .next s := by
  show execGatePassage m b s = _
  simp only [execGatePassage, h]

section
variable {c : Coll} {x : Parcel} (h : s.findParcel m (s.gateNext m) = some (c, x))

theorem State.passable_parcelDone (hpass : s.passable c x = true) : s.parcelDone c x = true := by
  simp only [State.passable, Bool.and_eq_true] at hpass
  exact hpass.1.1

include h

theorem exec_gatePassage_waits (hpass : s.passable c x = false) (b : Option Nat) : exec (.gatePassage m b) s = .next s := by
  show execGatePassage m b s = _
  simp only [execGatePassage, h, hpass, Bool.not_false, if_true]

variable (hpass : s.passable c x = true)
include hpass

theorem exec_gatePassage_bad {b : Nat} (hb : b < (s.granLens c x.k).length) :
    exec (.gatePassage m (some b)) s = .next (s.granuleReset c.ring c.seq x.k b) := by
  show execGatePassage m (some b) s = _
  simp [execGatePassage, h, hpass, hb]

theorem exec_gatePassage_kernel (hkid : c.kid ≠ none) :
    exec (.gatePassage m none) s = .next (s.passGate c x (s.kernelOut c x) []) := by
  show execGatePassage m none s = _
  simp [execGatePassage, h, hpass, Option.isSome_iff_ne_none.2 hkid]

section
variable (hkid : c.kid = none)
include hkid

theorem exec_gatePassage_builtin (hop : c.op ≠ 8) :
    exec (.gatePassage m none) s = .next ((s.countXrange c x).passGate c x (s.builtinOut c x) []) := by
  show execGatePassage m none s = _
  simp [execGatePassage, h, hpass, hkid, hop]

theorem exec_gatePassage_update (hop : c.op = 8) {sh : Shard} (hsh : s.shard c.shard = some sh) {u : State} {l : List OutGran} {st : Staged}
    (hall : s.updateAll c x sh = (u, .ok (l, st))) :
    exec (.gatePassage m none) s = .next ((u.countXrange c x).passGate c x l st) := by
  show execGatePassage m none s = _
  simp [execGatePassage, h, hpass, hkid, hop, hsh, hall]

end
end

/-! ### STRICT_ORDER (R148) -/

/-- A parcel is in progress. -/
theorem State.anyLive_iff : (s.mo.colls.any fun c => !c.live.isEmpty) = true ↔ ∃ c ∈ s.mo.colls, c.live ≠ [] := by
  simp

section
variable {req : Requester} {v : Word64}

theorem State.strictWrite_refused (hchanges : (v.getLsbD 0).toNat ≠ s.get F.GEN_CTRL_STRICT_ORDER) (hgoing : ∃ c ∈ s.mo.colls, c.live ≠ []) :
    s.strictWrite req v = s.put F.GEN_STATUS_STRICT_REFUSED [] 1 :=
  if_pos (by rw [bits_one, State.anyLive_iff.2 hgoing]; simpa using hchanges)

theorem State.strictWrite_taken (h : ¬(v.getLsbD 0).toNat ≠ s.get F.GEN_CTRL_STRICT_ORDER ∨ ¬∃ c ∈ s.mo.colls, c.live ≠ []) :
    s.strictWrite req v = s.applyWrite req .GEN_CTRL [] v := by
  refine if_neg fun hrefused => ?_
  rw [Bool.and_eq_true, State.anyLive_iff, bits_one, decide_eq_true_iff] at hrefused
  exact h.elim (absurd hrefused.1) (absurd hrefused.2)

end

/-- Settles O34: each of the seven rows has its equations. -/
theorem admissionAndGate : Obligations.AdmissionAndGate := by
  refine ⟨fun s => ⟨exec_parcelAdmission_none, fun m cls hcand => ?_⟩, fun s m pseq e i => ⟨exec_rereq_none, fun c x hfind => ?_⟩,
    fun s req v hw => State.rowWrite_allowed hw _, fun s req v hw => ?_, fun s m i => ?_,
    fun s m => ⟨exec_gatePassage_none, fun c x hfind => ⟨State.passable_parcelDone, exec_gatePassage_waits hfind, fun hpass b =>
      exec_gatePassage_bad hfind hpass, exec_gatePassage_kernel hfind, exec_gatePassage_builtin hfind,
      fun hpass hkid hop _ _ _ _ hsh hall => exec_gatePassage_update hfind hpass hkid hop hsh hall⟩⟩, fun s req v hw => ?_⟩
  · refine ⟨exec_parcelAdmission_some hcand, ?_⟩
    obtain ⟨rfl, hwaits, hfits⟩ | ⟨rfl, hwaits, hnone, hfits⟩ | ⟨rfl, hhead, hfits, hnone⟩ := State.candidate_cases hcand
    · exact ⟨fun _ => ⟨hwaits, State.fitsFloor_iff.1 hfits⟩, nofun, nofun, .inl rfl⟩
    · exact ⟨nofun, fun _ => ⟨hwaits, hnone, State.fitsShare_iff.1 hfits⟩, nofun, .inr (.inl rfl)⟩
    · exact ⟨nofun, nofun, fun _ => ⟨hhead, hfits, hnone⟩, .inr (.inr rfl)⟩
  · intro due
    have hdue : due ↔ (e < (s.granLens c x.k).length && (s.contributors c).contains i && s.due c x e i) = true := by
      simp [due, State.due_iff, and_assoc]
    rw [exec_rereq_eq hfind]
    exact ⟨fun h => congrArg _ (if_pos (hdue.1 h)), fun h => congrArg _ (if_neg (mt hdue.2 h))⟩
  · intro fb
    rw [exec_floorBerths hw]
    exact ⟨fun h => by rw [State.floorBerths_refused (.inl h)], fun hne h => by rw [State.floorBerths_refused (.inr ⟨hne, h⟩)],
      fun hfb hidle hbusy => by rw [State.floorBerths_taken hfb hidle hbusy]⟩
  · obtain ⟨b, hb, hexec⟩ := exec_memberDead_eq (s := s) (m := m) i
    exact ⟨fun h => hexec.trans (congrArg _ (if_pos (hb.2 h))), fun h => hexec.trans (congrArg _ (if_neg (mt hb.1 h)))⟩
  · have hexec : exec (.strictOrder req v) s = (s.strictWrite req v).written req .GEN_CTRL [] := State.rowWrite_allowed hw _
    rw [hexec]
    exact ⟨fun hchanges hgoing => by rw [State.strictWrite_refused hchanges hgoing], fun h => by rw [State.strictWrite_taken h]⟩

end Sys2Proof.Machine
end

section
/-! SUPPORT. What the engines around a context leave of it (R123 to R130, R150, R156): its entry, its identity and what the engine judged. -/

namespace Sys2Proof.Machine

variable {s t u : State} {m : Nat}

/-! ### Where the registers of contexts lie -/

/-- The registers of one context, and the place of each in the context's window. -/
def ctxRegs : List Reg := [.MO_CTX_STATE, .MO_CTX_SEQ, .MO_CTX_SLIP, .MO_CTX_LIVE]

def ctxPlace : Reg → Nat
  | .MO_CTX_STATE => 0
  | .MO_CTX_SEQ => 8
  | .MO_CTX_SLIP => 16
  | _ => 24

theorem regAddr_ctx {r : Reg} (hr : r ∈ ctxRegs) (i : Nat) : regAddr r [i] = 0x280000 + 0x20 * i + ctxPlace r := by
  simp only [ctxRegs, List.mem_cons, List.not_mem_nil, or_false] at hr
  obtain rfl | rfl | rfl | rfl := hr
  · exact show 0x280000 + 0x20 * i = _ by rfl
  · exact show 0x280008 + 0x20 * i = _ by simp only [ctxPlace]; omega
  · exact show 0x280010 + 0x20 * i = _ by simp only [ctxPlace]; omega
  · exact show 0x280018 + 0x20 * i = _ by simp only [ctxPlace]; omega

theorem ctxPlace_spec : (∀ r, ctxPlace r ≤ 24) ∧ ∀ r ∈ ctxRegs, ∀ q ∈ ctxRegs, ctxPlace r = ctxPlace q → r = q := by
  refine ⟨fun r => ?_, by decide⟩
  unfold ctxPlace
  split <;> decide

/-- The registers of one context, and registers of different contexts, do not meet. -/
theorem regAddr_ctx_ne {r q : Reg} (hr : r ∈ ctxRegs) (hq : q ∈ ctxRegs) {i j : Nat} (h : r ≠ q ∨ i ≠ j) :
    regAddr r [i] ≠ regAddr q [j] := by
  have hplace := ctxPlace_spec.2 r hr q hq
  have hr24 := ctxPlace_spec.1 r
  have hq24 := ctxPlace_spec.1 q
  rw [regAddr_ctx hr, regAddr_ctx hq]
  intro heq
  obtain hne | hne := h
  · exact hne (hplace (by omega))
  · exact hne (by omega)

theorem regAddr_ctx_window {r : Reg} (hr : r ∈ ctxRegs) (hm : m < 16384) : 0x280000 ≤ regAddr r [m] ∧ regAddr r [m] < 0x300000 := by
  have h24 := ctxPlace_spec.1 r
  rw [regAddr_ctx hr]
  omega

@[simp] theorem regAddr_MO_FENCE_MAP (i : Nat) : regAddr .MO_FENCE_MAP [i] = 0x200100 + 0x8 * i := rfl
@[simp] theorem regAddr_BW_SPAN_STATUS (i : Nat) : regAddr .BW_SPAN_STATUS [i] = 0xB03000 + 0x8 * i := rfl

/-- The registers of a shard that show it, beyond the windows of the contexts. -/
def shardRegs : List Reg := [.BH_SH_STATE, .BH_SH_EPOCH, .BH_SH_PROG]

theorem regAddr_shard {r : Reg} (hr : r ∈ shardRegs) (i : Nat) : 0x300000 ≤ regAddr r [i] := by
  simp only [shardRegs, List.mem_cons, List.not_mem_nil, or_false] at hr
  obtain rfl | rfl | rfl := hr
  · exact show 0x300000 ≤ 0x380000 + 0x20 * i by omega
  · exact show 0x300000 ≤ 0x380008 + 0x20 * i by omega
  · exact show 0x300000 ≤ 0x380010 + 0x20 * i by omega

/-- A field of a context's register and another, of a context too, that shares no bit with it. -/
theorem State.get_put_ctx {f g : Fld} (hf : f.reg ∈ ctxRegs) (hg : g.reg ∈ ctxRegs) (hfits : f.Fits) (h : f.reg = g.reg → f.Apart g)
    (i v : Nat) : (s.put f [i] v).get g [m] = s.get g [m] := by
  by_cases hreg : f.reg = g.reg
  · by_cases hi : i = m
    · subst hi
      exact State.get_put_reg f g hfits hreg (h hreg) [i] v
    · exact State.get_put_ne f g v (regAddr_ctx_ne hf hg (.inr hi))
  · exact State.get_put_ne f g v (regAddr_ctx_ne hf hg (.inl hreg))

/-! ### The fields that only the context engine and fences change -/

/-- What a context is: its state, epoch, job tag, sequence numbers and floor. -/
def ctxOwn : List Fld := [F.MO_CTX_STATE_STATE, F.MO_CTX_STATE_RETAIN, F.MO_CTX_STATE_EPOCH, F.MO_CTX_STATE_JOB, F.MO_CTX_SEQ_PSEQ_NEXT,
  F.MO_CTX_SEQ_GATE_NEXT, F.MO_CTX_SLIP_FLOOR]

/-- Whose verdict its first fence came from, and that there was one. -/
def ctxFirst : List Fld := [F.MO_CTX_STATE_FENCE_BY_VERDICT, F.MO_CTX_LIVE_FIRST_VALID]

/-- What the registers of a context show of the parcels and fences of the moment. -/
def ctxShown : List Fld := [F.MO_CTX_SLIP_SHARED_HELD, F.MO_CTX_SLIP_ADMITTED, F.MO_CTX_SLIP_FLOOR_BUSY, F.MO_CTX_SLIP_QUEUED,
  F.MO_CTX_LIVE_FENCED, F.MO_CTX_STATE_FENCE_ANY]

theorem ctxFields_reg : ∀ f ∈ ctxOwn ++ ctxFirst, f.reg ∈ ctxRegs := by decide

theorem ctxShown_apart : ∀ f ∈ ctxShown, f.reg ∈ ctxRegs ∧ f.Fits ∧ ∀ g ∈ ctxOwn ++ ctxFirst, f.reg = g.reg → f.Apart g := by
  unfold Fld.Fits Fld.Apart
  decide

/-- From `s` to `t` the contexts stand, with the fields of context `m` that only the context engine and fences change, and so do the cycle
and what the context engine has queued, staged and judged. -/
structure CtxStands (m : Nat) (s t : State) : Prop where
  now : t.now = s.now
  ctx : t.mo.ctx = s.mo.ctx
  queue : t.mo.queue = s.mo.queue
  floor : t.mo.floor = s.mo.floor
  staging : t.mo.staging = s.mo.staging
  get : ∀ f ∈ ctxOwn ++ ctxFirst, t.get f [m] = s.get f [m]

namespace CtxStands

theorem refl (s : State) : CtxStands m s s := ⟨rfl, rfl, rfl, rfl, rfl, fun _ _ => rfl⟩

theorem trans (h : CtxStands m s t) (k : CtxStands m t u) : CtxStands m s u :=
  ⟨k.now.trans h.now, k.ctx.trans h.ctx, k.queue.trans h.queue, k.floor.trans h.floor, k.staging.trans h.staging,
    fun f hf => (k.get f hf).trans (h.get f hf)⟩

/-- A change of neither the cycle nor the Moorings nor a register. -/
theorem same (h : CtxStands m s t) (hnow : u.now = t.now := by rfl) (hmo : u.mo = t.mo := by rfl) (hregs : u.regs = t.regs := by rfl) :
    CtxStands m s u :=
  h.trans ⟨hnow, by rw [hmo], by rw [hmo], by rw [hmo], by rw [hmo], fun f _ => by rw [State.get, State.rd, hregs, State.get, State.rd]⟩

theorem withColls (h : CtxStands m s t) (colls : List Coll) (overflow : List Nat) :
    CtxStands m s { t with mo := { t.mo with colls := colls, overflow := overflow } } :=
  h.trans ⟨rfl, rfl, rfl, rfl, rfl, fun _ _ => rfl⟩

theorem ite {c : Prop} [Decidable c] (ht : CtxStands m s t) (hu : CtxStands m s u) : CtxStands m s (if c then t else u) := by
  split <;> assumption

theorem foldl {β : Type} (l : List β) (f : State → β → State) (h : CtxStands m s t)
    (hf : ∀ x ∈ l, ∀ u, CtxStands m s u → CtxStands m s (f u x)) : CtxStands m s (l.foldl f t) := by
  induction l generalizing t with
  | nil => exact h
  | cons x l ih =>
    rw [List.forall_mem_cons] at hf
    exact ih (hf.1 t h) hf.2

/-- A field that the registers of a context show of the moment, of any context. -/
theorem putShown (h : CtxStands m s t) {f : Fld} (hf : f ∈ ctxShown) (i v : Nat) : CtxStands m s (t.put f [i] v) := by
  obtain ⟨hreg, hfits, hapart⟩ := ctxShown_apart f hf
  exact h.trans ⟨rfl, rfl, rfl, rfl, rfl, fun g hg => State.get_put_ctx hreg (ctxFields_reg g hg) hfits (hapart g hg) i v⟩

section
variable (hm : m < 16384)
include hm

/-- A register outside the windows of the contexts. -/
theorem wr (h : CtxStands m s t) (r : Reg) (idx : List Nat) (v : Word64) (ha : regAddr r idx < 0x280000 ∨ 0x300000 ≤ regAddr r idx) :
    CtxStands m s (t.wr r idx v) :=
  h.trans ⟨rfl, rfl, rfl, rfl, rfl, fun g hg => State.get_wr_ne g v (by have := regAddr_ctx_window (ctxFields_reg g hg) hm; omega)⟩

theorem put (h : CtxStands m s t) (f : Fld) (idx : List Nat) (v : Nat) (ha : regAddr f.reg idx < 0x280000 ∨ 0x300000 ≤ regAddr f.reg idx) :
    CtxStands m s (t.put f idx v) := wr hm h _ _ _ ha

theorem tally (h : CtxStands m s t) (e n : Nat) : CtxStands m s (t.tally e n) :=
  put hm h _ _ _ (.inr (by simp [F.TL_EVT_COUNT]; omega))

/-! ### Dock's writes of the context store (R126, R207) -/

theorem wakeDock (h : CtxStands m s t) : CtxStands m s t.wakeDock := ite (put hm h.same _ _ _ (.inr (by decide))) h.same

theorem injectLine (h : CtxStands m s t) (line : Nat) : CtxStands m s (t.injectLine line) := by
  unfold State.injectLine
  split
  · exact same (put hm h F.DK_INJECT_ARM [] 0 (.inr (by decide)))
  · exact h.same

omit hm in
theorem useCheck (h : CtxStands m s t) (line : Nat) (write : Bool) : CtxStands m s (t.useCheck line write) := by
  unfold State.useCheck
  dsimp only
  split <;> exact h.same

theorem storeWrite (h : CtxStands m s t) (a n : Nat) : CtxStands m s (t.storeWrite a n) := by
  have hlines := foldl (linesOf a n) (fun s l => ((s.wakeDock.useCheck l true).injectLine l).tally 0x41) h
    fun l _ u hu => tally hm (injectLine hm (useCheck (wakeDock hm hu) l true) l) 0x41 1
  exact ite hlines hlines.same

theorem storeCtx (h : CtxStands m s t) (pages : List Nat) : CtxStands m s (t.storeCtx pages) :=
  foldl _ _ h fun _ _ _ hu => storeWrite hm (storeWrite hm hu ..) ..

/-! ### What is shown -/

theorem showMoor (h : CtxStands m s t) (i : Nat) : CtxStands m s (t.showMoor i) := by
  unfold State.showMoor
  have hslip (a b c d : Nat) := (((h.putShown (f := F.MO_CTX_SLIP_SHARED_HELD) (by decide) i a).putShown (f := F.MO_CTX_SLIP_ADMITTED)
    (by decide) i b).putShown (f := F.MO_CTX_SLIP_FLOOR_BUSY) (by decide) i c).putShown (f := F.MO_CTX_SLIP_QUEUED) (by decide) i d
  have hblock (u : State) (hu : CtxStands m s u) (a b c d : Nat) := put hm (put hm (put hm (put hm hu F.MO_SLIP_STATUS_SHARED_FREE [] a
    (.inl (by decide))) F.MO_SLIP_STATUS_QUEUED [] b (.inl (by decide))) F.MO_SLIP_STATUS_ADMITTED [] c (.inl (by decide)))
    F.MO_SLIP_STATUS_FLOOR_RESERVED [] d (.inl (by decide))
  exact hblock _ (hslip ..) ..

theorem showCtxs (h : CtxStands m s t) : CtxStands m s t.showCtxs :=
  put hm (put hm (put hm h _ _ _ (.inl (by decide))) _ _ _ (.inl (by decide))) _ _ _ (.inl (by decide))

theorem showFences (h : CtxStands m s t) (i : Nat) : CtxStands m s (t.showFences i) := by
  have hshown := (h.putShown (f := F.MO_CTX_LIVE_FENCED) (by decide) i (popcount 4096 (t.ctx i).fences)).putShown
    (f := F.MO_CTX_STATE_FENCE_ANY) (by decide) i (popcount 4096 (t.ctx i).fences ≠ 0 : Bool).toNat
  exact foldl _ _ hshown fun k hk u hu => put hm hu _ _ _ (.inl (by
    have hk64 := List.mem_range.1 hk
    simp [F.MO_FENCE_MAP_FENCED]
    omega))

theorem showShard (h : CtxStands m s t) (n : Nat) : CtxStands m s (t.showShard n) := by
  have hput (u : State) (hu : CtxStands m s u) (f : Fld) (v : Nat) (hf : f.reg ∈ shardRegs) : CtxStands m s (u.put f [n] v) :=
    put hm hu _ _ _ (.inr (regAddr_shard hf n))
  have hhead := hput _ (hput _ h F.BH_SH_STATE_MOORING ((t.shardMoor n).getD 0) (by decide)) F.BH_SH_STATE_MOORING_VALID
    (t.shardMoor n).isSome.toNat (by decide)
  unfold State.showShard
  dsimp only
  split
  · exact hput _ (wr hm hhead _ _ _ (.inr (regAddr_shard (by decide) n))) _ _ (by decide)
  · have hall := fun a b c d e f g => hput _ (hput _ (hput _ (hput _ (hput _ (hput _ (hput _ hhead F.BH_SH_STATE_OPTIMIZER a (by decide))
      F.BH_SH_STATE_DURABLE b (by decide)) F.BH_SH_STATE_K c (by decide)) F.BH_SH_STATE_M d (by decide)) F.BH_SH_EPOCH_DURABLE_EPOCH e
      (by decide)) F.BH_SH_EPOCH_SLOT_A f (by decide)) F.BH_SH_EPOCH_SLOT_B g (by decide)
    split
    · exact hput _ (hall ..) _ _ (by decide)
    · exact hall ..

theorem showSpanOf (h : CtxStands m s t) (i : Nat) : CtxStands m s (t.showSpanOf i) := by
  unfold State.showSpanOf
  split
  · exact put hm h _ _ _ (.inr (by simp [F.BW_SPAN_STATUS_WAITING]; omega))
  · exact h

/-! ### A COLLECTIVE stops (R156, R357) -/

theorem setPvState (h : CtxStands m s t) (n st : Nat) : CtxStands m s (t.setPvState n st) := by
  have hrun : CtxStands m s (t.put F.PV_RUN_STATE [n] st) := put hm h _ _ _ (.inr (by simp [F.PV_RUN_STATE]; omega))
  unfold State.setPvState State.showPv
  exact put hm (put hm (put hm (put hm hrun.same _ _ _ (.inr (by decide))) _ _ _ (.inr (by decide))) _ _ _ (.inr (by decide))) _ _ _
    (.inr (by decide))

theorem stopKern (h : CtxStands m s t) (n : Nat) : CtxStands m s (t.stopKern n) :=
  ite (setPvState hm (put hm h.same _ _ _ (.inr (by simp [F.PV_RUN_MOORING_VALID]; omega))) n _) h

theorem dropColl (h : CtxStands m s t) (c : Coll) : CtxStands m s (t.dropColl c) := by
  have hkerns := foldl (t.kernsWhere fun k => k.bound && k.ring = c.ring && k.seq = c.seq) (fun s n => s.stopKern n) h
    fun n _ u hu => stopKern hm hu n
  unfold State.dropColl
  dsimp only
  exact showSpanOf hm (showMoor hm (hkerns.withColls _ _) _) _

theorem stopColl (h : CtxStands m s t) (ring seq status detail : Nat) (member : Option Nat) :
    CtxStands m s (t.stopColl ring seq status detail member) := by
  unfold State.stopColl
  split
  · exact h.same
  · exact same (dropColl hm h _)

theorem stopMoor (h : CtxStands m s t) (i status : Nat) (member : Option Nat) : CtxStands m s (t.stopMoor i status member) :=
  foldl _ _ h fun _ _ _ hu => stopColl hm hu ..

end

end CtxStands

end Sys2Proof.Machine
end

section
/-! SUPPORT. The start of a COLLECTIVE (R133 to R137, R156, R158, R208): its checks, one after the other, and how it enters. -/

namespace Sys2Proof.Machine

variable {s u g : State} {c : Cmd} {m r q : Nat}

/-! ### The context read first (R208) -/

theorem State.stopMoor_now (m status : Nat) (member : Option Nat) : (s.stopMoor m status member).now = s.now :=
  ((CtxStands.refl s).stopMoor (m := 0) (by decide) m status member).now

theorem State.readCtxLine_now (line : Nat) : (s.readCtxLine line).1.now = s.now := by
  have htouch (s : State) (line : Nat) : (s.touchLine 3 line).now = s.now := congrArg Prod.fst (s.touchLine_time 3 line)
  have hstore (s : State) (a n : Nat) : (s.storeWrite a n).now = s.now := ((CtxStands.refl s).storeWrite (m := 0) (by decide) a n).now
  unfold State.readCtxLine
  dsimp only
  split
  · exact htouch ..
  · split
    · rw [htouch, htouch]
    · rw [hstore, htouch, htouch]

theorem State.readCtx_now (m : Nat) : (s.readCtx m).now = s.now := by
  have hlines (l : List Nat) (a : State × Bool) : (l.foldl (fun (a : State × Bool) l =>
      let (s, bad) := a.1.readCtxLine l
      (s, a.2 || bad)) a).1.now = a.1.now := by
    induction l generalizing a with
    | nil => rfl
    | cons line l ih => exact (ih _).trans (State.readCtxLine_now line)
  unfold State.readCtx
  dsimp only
  split
  · exact hlines ..
  · exact hlines ..

theorem State.useCtx_now (m : Nat) : (s.useCtx m).now = s.now := by
  unfold State.useCtx
  dsimp only
  split
  · rw [State.stopMoor_now, State.readCtx_now]
  · exact State.readCtx_now m

/-! ### The checks of the descriptor -/

theorem minOpt_none {a b : Option Nat} : minOpt a b = none ↔ a = none ∧ b = none := by
  cases a <;> cases b <;> simp [minOpt]

theorem lowestBad_none {l : List (Nat × Bool)} (h : lowestBad l = none) : ∀ p ∈ l, p.2 = false := by
  have hfrom : ∀ (l : List (Nat × Bool)) (acc : Option Nat), l.foldl (fun acc p => if p.2 then
      some (match acc with | none => p.1 | some a => min a p.1) else acc) acc = none → acc = none ∧ ∀ p ∈ l, p.2 = false := by
    intro l
    induction l with
    | nil => exact fun acc h => ⟨h, nofun⟩
    | cons p l ih =>
      intro acc h
      obtain ⟨hacc, hl⟩ := ih _ h
      cases hp : p.2 with
      | true => simp [hp] at hacc
      | false => exact ⟨by simpa [hp] using hacc, List.forall_mem_cons.2 ⟨hp, hl⟩⟩
  exact (hfrom l none h).2

/-- A descriptor without a bad field (R133 to R137). -/
structure State.CollGood (g : State) (c : Cmd) : Prop where
  active : g.ctxState c.coMoor = Cs.active
  op : c.coOp ≤ 8
  pseq : c.coPseq = g.pseqNext c.coMoor
  offset : c.coOffset % 4096 = 0
  barrier : c.coOp = 7 → c.coLen = 0
  root : c.coOp = 0 ∨ c.coOp = 4 → (g.ctx c.coMoor).bitmap.testBit (g.ctx c.coMoor).root = true
  shard : c.coOp = 8 → (g.ctx c.coMoor).shard ≠ 0xFFFF ∧ g.shardState (g.ctx c.coMoor).shard = Sh.live
  exact_ : c.coOp ≤ 2 → c.coKind = 1 → c.fld 4 24 4 ≠ 3 ∧ c.fld 4 24 4 ≠ 4
  formats : ∃ i o, Fmt.ofCode (c.fld 4 24 4) = some i ∧ Fmt.ofCode (c.fld 4 28 4) = some o

theorem kindOk_exact {op kind code : Nat} (hop : op ≤ 2) (hkind : kind = 1) (h : kindOk op kind ((Fmt.ofCode code).getD .fp32) = true) :
    code ≠ 3 ∧ code ≠ 4 := by
  have hred : opReduces op = true := by simp [opReduces, hop]
  have hne : op ≠ 8 := by omega
  constructor <;> rintro rfl <;> simp [kindOk, hred, hne, hkind, Fmt.ofCode, Fmt.isInt] at h

theorem State.collDesc_good (h : g.collDesc c = none) : g.CollGood c := by
  have hfields := (minOpt_none.1 h).2
  split at hfields
  · simp at hfields
  · next hactive =>
    have hall := lowestBad_none hfields
    simp only [List.forall_mem_cons, Bool.or_eq_false_iff, Bool.and_eq_false_imp, Bool.not_eq_false', Bool.or_eq_true,
      decide_eq_false_iff_not, decide_eq_true_eq, ne_eq, not_not, Nat.not_lt, gt_iff_lt] at hall
    obtain ⟨⟨hop, hkind⟩, hroot, hshard, -, -, ⟨⟨hin, hout⟩, -⟩, -, -, hlen, hoffset, -, hpseq, -⟩ := hall
    obtain ⟨i, hi⟩ := Option.ne_none_iff_exists'.1 (Option.isNone_eq_false_iff.1 hin |> Option.isSome_iff_ne_none.1)
    obtain ⟨o, ho⟩ := Option.ne_none_iff_exists'.1 (Option.isNone_eq_false_iff.1 hout |> Option.isSome_iff_ne_none.1)
    exact ⟨not_not.1 hactive, hop, hpseq, hoffset, fun h7 => by simpa [h7] using hlen, hroot, hshard,
      fun hle h1 => kindOk_exact hle h1 hkind, i, o, hi, ho⟩

/-! ### The start (R158) -/

/-- A COLLECTIVE whose context has been read is running. -/
def State.collGo (s : State) (c : Cmd) : State :=
  (s.useCtx c.coMoor).mapCmd c.ring c.seq fun d => { d with stage := .running, startedAt := s.now }

/-- The job under which a ring's last COLLECTIVE on a Mooring started. -/
def State.collJob (g : State) (c : Cmd) : State :=
  { g with bh := { g.bh with lastJob := spIns g.bh.lastJob (16384 * c.ring + c.coMoor) (g.job c.coMoor) } }

/-- Whether the span of a Mooring, if it has one, has a dead peer. -/
def State.spanDead (s : State) (m : Nat) : Bool :=
  match s.spanOf m with
  | some j => s.get F.BW_SPAN_STATUS_DEAD [j] ≠ 0
  | none => false

theorem State.spanDead_iff : s.spanDead m = true ↔ ∃ j, s.spanOf m = some j ∧ s.get F.BW_SPAN_STATUS_DEAD [j] ≠ 0 := by
  unfold State.spanDead
  cases s.spanOf m <;> simp

theorem State.startColl_badField {d : Nat} (h : (s.collGo c).collDesc c = some d) :
    s.startColl c = (s.collGo c).endCmd c.ring c.seq St.badDescriptor d 0 0 := by
  unfold State.startColl
  dsimp only
  rw [← State.collGo, h]

section
variable (h : (s.collGo c).collDesc c = none)
include h

theorem State.startColl_lost (hlost : ((s.collGo c).ctx c.coMoor).lost = true) :
    s.startColl c = (s.collGo c).endCmd c.ring c.seq St.dataError 0 0 0 := by
  unfold State.startColl
  dsimp only
  rw [← State.collGo, h]
  exact if_pos hlost

variable (hkept : ((s.collGo c).ctx c.coMoor).lost = false)
include hkept

theorem State.startColl_stale (hepoch : c.coEpoch ≠ (s.collGo c).epoch c.coMoor) :
    s.startColl c = (s.collGo c).endCmd c.ring c.seq St.epochStale 0 0 0 := by
  unfold State.startColl
  dsimp only
  rw [← State.collGo, h]
  exact (if_neg (Bool.eq_false_iff.1 hkept)).trans (if_pos hepoch)

/-- The hyperparameters that an UPDATE reads (R171), none for another OP. -/
def State.collHyper (g : State) (c : Cmd) : State × Except Nat (List Byte) :=
  match c.coOp, g.shard (g.ctx c.coMoor).shard with
  | 8, some y => g.dockRead 1 y.hyper 256
  | _, _ => (g, .ok [])

/-- A COLLECTIVE enters, and stops where its hyperparameters could not be read (R208). -/
def State.collEnters (u : State) (c : Cmd) (h : Except Nat (List Byte)) : State :=
  match h with
  | .error _ => (u.enterColl c []).stopColl c.ring c.seq St.dataError 0 none
  | .ok h => u.enterColl c h

/-- A COLLECTIVE of the current epoch is judged by the fences, the span and its length, and then runs. -/
def State.collFrom (g : State) (c : Cmd) : State :=
  if (g.ctx c.coMoor).fences ≠ 0 then
    g.endCmd c.ring c.seq (g.fenceStatus c.coMoor).1 0 0 (collResult2 0 (g.fenceStatus c.coMoor).2)
  else if opReduces c.coOp && g.spanDead c.coMoor then g.endCmd c.ring c.seq St.memberLost 0 0 0
  else if c.coLen = 0 && c.coOp ≠ 7 then g.endCmd c.ring c.seq St.ok 0 0 0
  else
    (g.collHyper c).1.collEnters c (g.collHyper c).2

theorem State.startColl_current (hepoch : c.coEpoch = (s.collGo c).epoch c.coMoor) :
    s.startColl c = ((s.collGo c).collJob c).collFrom c := by
  unfold State.startColl
  dsimp only
  rw [← State.collGo, h]
  exact (if_neg (Bool.eq_false_iff.1 hkept)).trans (if_neg (not_not.2 hepoch))

end

/-! ### A COLLECTIVE of the current epoch (R133, R137, R156) -/

theorem State.collFrom_fenced (hfences : (g.ctx c.coMoor).fences ≠ 0) : g.collFrom c =
    g.endCmd c.ring c.seq (g.fenceStatus c.coMoor).1 0 0 (collResult2 0 (g.fenceStatus c.coMoor).2) := if_pos hfences

section
variable (hopen : (g.ctx c.coMoor).fences = 0)
include hopen

theorem State.collFrom_spanDead (hred : opReduces c.coOp = true) (hdead : g.spanDead c.coMoor = true) :
    g.collFrom c = g.endCmd c.ring c.seq St.memberLost 0 0 0 := by
  rw [State.collFrom, if_neg (not_not.2 hopen), if_pos (by rw [hred, hdead]; rfl)]

variable (hspan : (opReduces c.coOp && g.spanDead c.coMoor) = false)
include hspan

theorem State.collFrom_empty (hlen : c.coLen = 0) (hop : c.coOp ≠ 7) : g.collFrom c = g.endCmd c.ring c.seq St.ok 0 0 0 := by
  rw [State.collFrom, if_neg (not_not.2 hopen), if_neg (by rw [hspan]; decide), if_pos (by simp [hlen, hop])]

variable (hrun : c.coLen ≠ 0 ∨ c.coOp = 7)
include hrun

theorem State.collFrom_runs : g.collFrom c = (g.collHyper c).1.collEnters c (g.collHyper c).2 := by
  rw [State.collFrom, if_neg (not_not.2 hopen), if_neg (by rw [hspan]; decide), if_neg (by simpa [or_iff_not_imp_left] using hrun)]

end

theorem State.collHyper_none (hop : c.coOp ≠ 8) : g.collHyper c = (g, .ok []) := by
  unfold State.collHyper
  split
  · next h _ => exact absurd h hop
  · rfl

theorem State.collHyper_update (hop : c.coOp = 8) {y : Shard} (hy : g.shard (g.ctx c.coMoor).shard = some y) :
    g.collHyper c = g.dockRead 1 y.hyper 256 := by
  simp only [State.collHyper, hop, hy]

/-! ### The rows -/

theorem exec_collRow : ∀ row ∈ collRows, ∀ (r q : Nat) (s : State), exec (row.1 r q) s = .next (s.startIf r q (isOp row.2)) := by
  simp only [collRows, List.forall_mem_cons, List.not_mem_nil, false_imp_iff, implies_true, and_true]
  and_intros <;> exact fun _ _ _ => rfl

theorem State.startCommand_coll (hp : s.get F.PM_STATE_STATE < 2) (ht : c.type = 2) : s.startCommand c = s.startColl c := by
  simp [State.startCommand, ht, Nat.not_le.2 hp]

theorem opReduces_iff {op : Nat} : opReduces op = true ↔ op ≤ 2 ∨ op = 8 := by
  simp [opReduces]

theorem State.fenceStatus_result2 (s : State) (m : Nat) : collResult2 0 (s.fenceStatus m).2 =
    if s.get F.MO_CTX_LIVE_FIRST_VALID [m] = 1 then s.get F.MO_CTX_LIVE_FIRST_FENCED [m] * 2 ^ 32 + 2 ^ 44 else 0 := by
  by_cases h : s.get F.MO_CTX_LIVE_FIRST_VALID [m] = 1 <;> simp [State.fenceStatus, collResult2, h]

/-- Settles O22: the start's checks in their order, each with its own equation. -/
theorem collectiveStarts : Obligations.CollectiveStarts := by
  intro s r q c hc hs hp ht row hrow hop m len go x go2 reduces dead enters
  obtain ⟨rfl, rfl⟩ := State.cmd?_ids hc
  have hop' : c.coOp = row.2 := hop
  have hexec : exec (row.1 c.ring c.seq) s = .next (s.startColl c) := by
    rw [exec_collRow row hrow, State.startIf_starts hc hs (by simp [isOp, ht, hop']), State.startCommand_coll hp ht]
  have hgo : s.collGo c = go := by
    show State.mapCmd .. = State.mapCmd ..
    rw [State.useCtx_now]
    rfl
  have hjob : (s.collGo c).collJob c = go2 := by rw [hgo]; rfl
  have hctx : go2.ctx m = x := rfl
  clear_value go2
  have hlen : c.coLen = len := bits_all _
  have henters (u : State) (h : List Byte) : enters u h (u.enterColl c h) := by
    have hparcels : (u.newColl c h).parcels = if row.2 = 7 then 1 else
        (len + 4096 * u.parcelGr m - 1) / (4096 * u.parcelGr m) := by rw [← hop', ← hlen]; rfl
    refine ⟨u.newColl c h, rfl, rfl, rfl, hop, rfl, rfl, rfl, hlen, bits_all _, rfl, rfl, hparcels, rfl, rfl, rfl, rfl, rfl, rfl, rfl, rfl,
      rfl, ?_⟩
    dsimp only
    rw [← hparcels]
    rfl
  have hred : opReduces c.coOp = true ↔ reduces := by rw [hop', opReduces_iff]
  have hdead : go2.spanDead m = true ↔ dead := State.spanDead_iff
  rw [hexec, ← hgo]
  refine ⟨fun d hd => congrArg _ (State.startColl_badField hd), fun hdesc => ⟨?_, fun hlost => congrArg _ (State.startColl_lost hdesc hlost),
    fun hkept hepoch => congrArg _ (State.startColl_stale hdesc hkept hepoch), fun hkept hepoch => ?_⟩⟩
  · have hgood := State.collDesc_good hdesc
    exact ⟨hgood.active, hop' ▸ hgood.op, hgood.pseq, (congrArg (· % 4096) (bits_all _)).symm.trans hgood.offset,
      fun h7 => hlen ▸ hgood.barrier (hop'.trans h7), fun h => hgood.root (hop'.symm ▸ h), fun h => hgood.shard (hop'.trans h),
      fun h => hgood.exact_ (hop'.symm ▸ h), hgood.formats⟩
  · have hcur : s.startColl c = go2.collFrom c := by rw [State.startColl_current hdesc hkept hepoch, hjob]
    have hopen : ¬(reduces ∧ dead) → (opReduces c.coOp && go2.spanDead m) = false := fun h => by
      rw [Bool.eq_false_iff, ne_eq, Bool.and_eq_true, hred, hdead]
      exact h
    rw [hcur]
    rw [← hctx]
    refine ⟨fun hfences => ?_, fun hfences hr hd => congrArg _ (State.collFrom_spanDead hfences (hred.2 hr) (hdead.2 hd)),
      fun hfences hspan hzero h7 => congrArg _ (State.collFrom_empty hfences (hopen hspan) (hlen.trans hzero) (hop'.symm ▸ h7)),
      fun hfences hspan hrun => ?_⟩
    · rw [State.collFrom_fenced hfences, State.fenceStatus_result2]
      rfl
    · rw [State.collFrom_runs hfences (hopen hspan) (by rwa [hlen, hop'])]
      refine ⟨fun h8 => ?_, fun h8 y hy u => ⟨fun h hread => ?_, fun a hread => ?_⟩⟩
      · rw [State.collHyper_none (hop'.symm ▸ h8)]
        exact ⟨_, rfl, henters go2 []⟩
      · rw [State.collHyper_update (hop'.trans h8) hy, hread]
        exact ⟨_, rfl, henters u h⟩
      · rw [State.collHyper_update (hop'.trans h8) hy, hread]
        exact ⟨_, rfl, henters u []⟩

end Sys2Proof.Machine
end

section
/-! SUPPORT. The changes of a context that the engine makes (R123, R127 to R130), and the fences of verdicts (R155, R360). -/

namespace Sys2Proof.Machine

variable {s t u : State} {m : Nat}

/-! ### A context made ACTIVE -/

theorem bits_ofNat (n lo width : Nat) : bits (BitVec.ofNat 64 n) lo width = n % 2 ^ 64 / 2 ^ lo % 2 ^ width := by
  rw [bits, BitVec.toNat_ofNat, Nat.shiftRight_eq_div_pow]

theorem bits_zero (lo width : Nat) : bits (0 : Word64) lo width = 0 := by simp [bits]

theorem State.get_wr_self (f : Fld) (idx : List Nat) (v : Word64) : (s.wr f.reg idx v).get f idx = bits v f.lo f.width := by
  rw [State.get, State.rd_wr_self]

/-- A context as the engine forms it at `now`, without fences. -/
def Ctx.formed (x : Ctx) (now : Nat) (pages : List Nat) : Ctx := { x with fences := 0, since := now, pages := pages }

/-- The word of MO_CTX_STATE of a context made ACTIVE. -/
def activeWord (bs : List Byte) (epoch job : Nat) : Word64 :=
  BitVec.ofNat 64 (Cs.active + (imgRetain bs).toNat * 2 ^ 2 + epoch % 2 ^ 16 * 2 ^ 16 + job * 2 ^ 32 + imgCount bs * 2 ^ 44)

/-- The registers of a context as its image gives them, before what they show is brought up to date. -/
def State.writeCtx (s : State) (m : Nat) (bs : List Byte) (epoch job : Nat) : State :=
  let s := s.wr .MO_CTX_STATE [m] (activeWord bs epoch job)
  let s := s.wr .MO_CTX_SEQ [m] (BitVec.ofNat 64 (imgPseq bs + imgPseq bs * 2 ^ 32))
  (s.wr .MO_CTX_LIVE [m] 0).put F.MO_CTX_SLIP_FLOOR [m] s.mo.floor

theorem State.writeCtx_mo (s : State) (m : Nat) (bs : List Byte) (epoch job : Nat) : (s.writeCtx m bs epoch job).mo = s.mo := by
  unfold State.writeCtx
  dsimp only
  rw [State.put_mo, State.wr_mo, State.wr_mo, State.wr_mo]

/-- The context in its pages, and its registers. -/
def State.formCtx (s : State) (m : Nat) (x : Ctx) (bs : List Byte) (epoch job : Nat) (pages : List Nat) : State :=
  ((s.setCtx m (some (x.formed s.now pages))).storeCtx pages).writeCtx m bs epoch job

variable {x : Ctx} {bs : List Byte} {epoch job : Nat} {pages : List Nat}

/-- What the engine shows after it has formed a context. -/
theorem State.activate_stands (hm : m < 16384) : ∃ pages, CtxStands m (s.formCtx m x bs epoch job pages) (s.activate m x bs epoch job) := by
  refine ⟨if x.pages.isEmpty then freePages (s.pagesUsed m) 98304 0 (x.store / 4096) else x.pages, ?_⟩
  generalize hu : s.formCtx m x bs epoch job _ = u
  have hshown : CtxStands m u ((u.showMoor m).showCtxs.showFences m) := (((CtxStands.refl u).showMoor hm m).showCtxs hm).showFences hm m
  have hold := CtxStands.ite (c := (s.ctx m).shard < 4096) (hshown.showShard hm (s.ctx m).shard) hshown
  have hnew := CtxStands.ite (c := x.shard < 4096) (hold.showShard hm x.shard) hold
  rw [← hu] at hnew ⊢
  exact hnew

/-- An ACTIVE context with its epoch, job tag, sequence numbers and floor. -/
structure State.Active (t : State) (m e j p berths : Nat) : Prop where
  active : t.ctxState m = Cs.active
  epoch : t.epoch m = e
  job : t.job m = j
  pseq : t.pseqNext m = p
  gate : t.gateNext m = p
  floor : t.get F.MO_CTX_SLIP_FLOOR [m] = berths

theorem State.Active.of_own {p berths : Nat} (h : s.Active m epoch job p berths) (hown : ∀ f ∈ ctxOwn, t.get f [m] = s.get f [m]) :
    t.Active m epoch job p berths :=
  ⟨(hown _ (by decide)).trans h.active, (hown _ (by decide)).trans h.epoch, (hown _ (by decide)).trans h.job,
    (hown _ (by decide)).trans h.pseq, (hown _ (by decide)).trans h.gate, (hown _ (by decide)).trans h.floor⟩

/-- A field of MO_CTX_STATE of a context just formed. -/
theorem State.writeCtx_state {f : Fld} (hf : f.reg = .MO_CTX_STATE) :
    (s.writeCtx m bs epoch job).get f [m] = bits (activeWord bs epoch job) f.lo f.width := by
  have hreg : f.reg ∈ ctxRegs := by rw [hf]; decide
  unfold State.writeCtx
  dsimp only
  rw [State.get_put_ne _ _ _ (regAddr_ctx_ne (by decide) hreg (.inl (by rw [hf]; decide))),
    State.get_wr_ne _ _ (regAddr_ctx_ne (by decide) hreg (.inl (by rw [hf]; decide))),
    State.get_wr_ne _ _ (regAddr_ctx_ne (by decide) hreg (.inl (by rw [hf]; decide))), ← hf, State.get_wr_self]

theorem State.writeCtx_seq {f : Fld} (hf : f.reg = .MO_CTX_SEQ) :
    (s.writeCtx m bs epoch job).get f [m] = bits (BitVec.ofNat 64 (imgPseq bs + imgPseq bs * 2 ^ 32)) f.lo f.width := by
  have hreg : f.reg ∈ ctxRegs := by rw [hf]; decide
  unfold State.writeCtx
  dsimp only
  rw [State.get_put_ne _ _ _ (regAddr_ctx_ne (by decide) hreg (.inl (by rw [hf]; decide))),
    State.get_wr_ne _ _ (regAddr_ctx_ne (by decide) hreg (.inl (by rw [hf]; decide))), ← hf, State.get_wr_self]

theorem State.writeCtx_firstValid : (s.writeCtx m bs epoch job).get F.MO_CTX_LIVE_FIRST_VALID [m] = 0 := by
  unfold State.writeCtx
  dsimp only
  rw [State.get_put_ne _ _ _ (regAddr_ctx_ne (by decide) (by decide) (.inl (by decide)))]
  exact (State.get_wr_self F.MO_CTX_LIVE_FIRST_VALID _ _).trans (bits_zero ..)

theorem State.writeCtx_floor : (s.writeCtx m bs epoch job).get F.MO_CTX_SLIP_FLOOR [m] = s.mo.floor % 2 ^ 16 := by
  unfold State.writeCtx
  dsimp only
  rw [State.get_put_self F.MO_CTX_SLIP_FLOOR (by decide), State.wr_mo, State.wr_mo]
  rfl

theorem State.writeCtx_active (hjob : job < 2 ^ 12) :
    (s.writeCtx m bs epoch job).Active m (epoch % 2 ^ 16) job (imgPseq bs) (s.mo.floor % 2 ^ 16) := by
  have hretain : (imgRetain bs).toNat ≤ 1 := Bool.toNat_le _
  have hcount : imgCount bs < 2 ^ 13 := bits_lt ..
  have hpseq : imgPseq bs < 2 ^ 32 := bits_lt ..
  have hword : imgPseq bs + imgPseq bs * 2 ^ 32 < 2 ^ 64 := by omega
  have hhigh : (imgPseq bs + imgPseq bs * 2 ^ 32) / 2 ^ 32 = imgPseq bs := by
    rw [Nat.add_mul_div_right _ _ (by decide), Nat.div_eq_of_lt hpseq, Nat.zero_add]
  refine ⟨(State.writeCtx_state (f := F.MO_CTX_STATE_STATE) rfl).trans ((bits_ofNat ..).trans ?_),
    (State.writeCtx_state (f := F.MO_CTX_STATE_EPOCH) rfl).trans ((bits_ofNat ..).trans ?_),
    (State.writeCtx_state (f := F.MO_CTX_STATE_JOB) rfl).trans ((bits_ofNat ..).trans ?_),
    (State.writeCtx_seq (f := F.MO_CTX_SEQ_PSEQ_NEXT) rfl).trans ((bits_ofNat ..).trans ?_),
    (State.writeCtx_seq (f := F.MO_CTX_SEQ_GATE_NEXT) rfl).trans ((bits_ofNat ..).trans ?_),
    State.writeCtx_floor⟩
  · simp only [F.MO_CTX_STATE_STATE, Cs.active]
    omega
  · simp only [F.MO_CTX_STATE_EPOCH, Cs.active]
    omega
  · simp only [F.MO_CTX_STATE_JOB, Cs.active]
    omega
  · simp only [F.MO_CTX_SEQ_PSEQ_NEXT]
    omega
  · simp only [F.MO_CTX_SEQ_GATE_NEXT]
    rw [Nat.mod_eq_of_lt hword, hhigh, Nat.mod_eq_of_lt hpseq]

theorem State.setCtx_queue (s : State) (m : Nat) (c : Option Ctx) : (s.setCtx m c).mo.queue = s.mo.queue := rfl

section
variable (hm : m < 16384)
include hm

theorem State.formCtx_stands : CtxStands m (s.setCtx m (some (x.formed s.now pages)))
    ((s.setCtx m (some (x.formed s.now pages))).storeCtx pages) := (CtxStands.refl _).storeCtx hm pages

theorem State.formCtx_ctx : (s.formCtx m x bs epoch job pages).ctx m = x.formed s.now pages := by
  rw [State.formCtx, State.ctx, State.writeCtx_mo, (State.formCtx_stands hm).ctx]
  exact State.ctx_setCtx_self m _

theorem State.formCtx_queue : (s.formCtx m x bs epoch job pages).mo.queue = s.mo.queue := by
  rw [State.formCtx, State.writeCtx_mo, (State.formCtx_stands hm).queue]
  exact State.setCtx_queue ..

theorem State.formCtx_active (hjob : job < 2 ^ 12) :
    (s.formCtx m x bs epoch job pages).Active m (epoch % 2 ^ 16) job (imgPseq bs) (s.mo.floor % 2 ^ 16) := by
  have h := State.writeCtx_active (m := m) (s := (s.setCtx m (some (x.formed s.now pages))).storeCtx pages) (bs := bs) (epoch := epoch) hjob
  rw [(State.formCtx_stands hm).floor] at h
  exact h

end

/-! ### Fences by verdict (R155, R360) -/

/-- The first fence of the context, where there is one, came from a verdict, and there is one where a member is fenced. -/
structure State.ByVerdict (s : State) (m : Nat) : Prop where
  verdict : s.get F.MO_CTX_LIVE_FIRST_VALID [m] ≠ 0 → s.get F.MO_CTX_STATE_FENCE_BY_VERDICT [m] = 1
  valid : ∀ i, (s.ctx m).fenced i = true → s.get F.MO_CTX_LIVE_FIRST_VALID [m] ≠ 0

/-- From `s` to `t` members `l` of context `m` are fenced by verdict, those of its bitmap. -/
structure FencedFrom (m : Nat) (s t : State) (l : List Nat) : Prop where
  own : ∀ f ∈ ctxOwn, t.get f [m] = s.get f [m]
  queue : t.mo.queue = s.mo.queue
  bitmap : (t.ctx m).bitmap = (s.ctx m).bitmap
  fenced : ∀ i, (t.ctx m).fenced i = true ↔ (s.ctx m).fenced i = true ∨ (i ∈ l ∧ (s.ctx m).bitmap.testBit i = true)
  verdict : t.ByVerdict m

namespace FencedFrom

variable {l : List Nat} {i : Nat}

theorem nil (h : s.ByVerdict m) : FencedFrom m s s [] := ⟨fun _ _ => rfl, rfl, rfl, fun _ => by simp, h⟩

theorem trans {k : List Nat} (h : FencedFrom m s t l) (g : FencedFrom m t u k) : FencedFrom m s u (l ++ k) where
  own f hf := (g.own f hf).trans (h.own f hf)
  queue := g.queue.trans h.queue
  bitmap := g.bitmap.trans h.bitmap
  fenced j := by rw [g.fenced, h.fenced, h.bitmap, List.mem_append, or_assoc, ← or_and_right]
  verdict := g.verdict

/-- What is shown and stopped afterwards changes nothing of it. -/
theorem stands (h : FencedFrom m s t l) (k : CtxStands m t u) : FencedFrom m s u l := by
  have hctx : u.ctx m = t.ctx m := by rw [State.ctx, k.ctx, State.ctx]
  have hvalid := k.get F.MO_CTX_LIVE_FIRST_VALID (by decide)
  have hby := k.get F.MO_CTX_STATE_FENCE_BY_VERDICT (by decide)
  exact ⟨fun f hf => (k.get f (List.mem_append_left _ hf)).trans (h.own f hf), k.queue.trans h.queue, hctx ▸ h.bitmap, hctx ▸ h.fenced,
    ⟨by rw [hvalid, hby]; exact h.verdict.verdict, by rw [hvalid, hctx]; exact h.verdict.valid⟩⟩

end FencedFrom

/-- A context with member `i` fenced by a verdict at `now`, the first of its members where `first`. -/
def Ctx.verdictOn (c : Ctx) (now i : Nat) (first : Prop) [Decidable first] : Ctx :=
  { c with fences := c.fences ||| 2 ^ i, fencedAt := if first then now else c.fencedAt, verdictAt := now,
           verdicts := (if c.verdictAt = now then c.verdicts else 0) ||| 2 ^ i }

/-- The first fence of a context is recorded, a verdict's. -/
def State.recordFirst (s : State) (m i : Nat) : State :=
  ((s.put F.MO_CTX_LIVE_FIRST_FENCED [m] i).put F.MO_CTX_LIVE_FIRST_VALID [m] 1).put F.MO_CTX_STATE_FENCE_BY_VERDICT [m] 1

/-- The state in which a member's fence has been recorded, before it is shown and the commands stop. -/
def State.recordFence (s : State) (m i : Nat) : State :=
  let first := s.get F.MO_CTX_LIVE_FIRST_VALID [m] = 0
  let t := s.setCtx m (some ((s.ctx m).verdictOn s.now i first))
  if first then t.recordFirst m i else t

theorem State.fence_out {i : Nat} (v : Bool) (h : (s.ctx m).bitmap.testBit i = false) : s.fence m i v = s := if_pos (by simp [h])

section
variable {i : Nat} (hact : s.ctxState m = Cs.active) (hbit : (s.ctx m).bitmap.testBit i = true)
include hact hbit

theorem State.fence_fenced (hfenced : (s.ctx m).fenced i = true) : s.fence m i true = s ∨ s.fence m i true = s.fenceByVerdict m := by
  unfold State.fence
  dsimp only
  rw [if_neg (by simp [hact, hbit]), if_pos hfenced]
  split
  · exact .inr rfl
  · exact .inl rfl

theorem State.fence_stands (hm : m < 16384) (hfenced : (s.ctx m).fenced i = false) : CtxStands m (s.recordFence m i) (s.fence m i true) := by
  have hshown := ((CtxStands.refl (s.recordFence m i)).showFences hm m).stopMoor hm m
    (((s.recordFence m i).showFences m).fenceStatus m).1 (((s.recordFence m i).showFences m).fenceStatus m).2
  unfold State.fence
  dsimp only
  rw [if_neg (by simp [hact, hbit]), if_neg (by simp [hfenced])]
  exact hshown

end

/-! The fields of the first fence. -/

theorem ctxFirst_apart : ∀ f ∈ [F.MO_CTX_LIVE_FIRST_FENCED, F.MO_CTX_LIVE_FIRST_VALID, F.MO_CTX_STATE_FENCE_BY_VERDICT],
    f.reg ∈ ctxRegs ∧ f.Fits ∧ ∀ g ∈ ctxOwn, f.reg = g.reg → f.Apart g := by
  unfold Fld.Fits Fld.Apart
  decide

theorem State.recordFirst_own {f : Fld} (hf : f ∈ ctxOwn) (i : Nat) : (s.recordFirst m i).get f [m] = s.get f [m] := by
  have hput {g : Fld} (hg : g ∈ [F.MO_CTX_LIVE_FIRST_FENCED, F.MO_CTX_LIVE_FIRST_VALID, F.MO_CTX_STATE_FENCE_BY_VERDICT]) (s : State) (v : Nat) :
      (s.put g [m] v).get f [m] = s.get f [m] := by
    obtain ⟨hreg, hfits, hapart⟩ := ctxFirst_apart g hg
    exact State.get_put_ctx hreg (ctxFields_reg f (List.mem_append_left _ hf)) hfits (hapart f hf) m v
  rw [State.recordFirst, hput (by decide), hput (by decide), hput (by decide)]

theorem State.recordFirst_verdict (i : Nat) : (s.recordFirst m i).get F.MO_CTX_STATE_FENCE_BY_VERDICT [m] = 1 :=
  State.get_put_self F.MO_CTX_STATE_FENCE_BY_VERDICT (by decide) [m] 1

theorem State.recordFirst_valid (i : Nat) : (s.recordFirst m i).get F.MO_CTX_LIVE_FIRST_VALID [m] = 1 :=
  (State.get_put_ctx (by decide) (by decide) (by unfold Fld.Fits; decide) (by unfold Fld.Apart; decide) m 1).trans
    (State.get_put_self F.MO_CTX_LIVE_FIRST_VALID (by decide) [m] 1)

theorem State.recordFirst_mo (i : Nat) : (s.recordFirst m i).mo = s.mo := by
  rw [State.recordFirst, State.put_mo, State.put_mo, State.put_mo]

theorem State.fenceByVerdict_own {f : Fld} (hf : f ∈ ctxOwn) : (s.fenceByVerdict m).get f [m] = s.get f [m] := by
  obtain ⟨hreg, hfits, hapart⟩ := ctxFirst_apart F.MO_CTX_STATE_FENCE_BY_VERDICT (by decide)
  exact State.get_put_ctx hreg (ctxFields_reg f (List.mem_append_left _ hf)) hfits (hapart f hf) m 1

theorem State.fenceByVerdict_verdict : (s.fenceByVerdict m).get F.MO_CTX_STATE_FENCE_BY_VERDICT [m] = 1 :=
  State.get_put_self F.MO_CTX_STATE_FENCE_BY_VERDICT (by decide) [m] 1

theorem State.fenceByVerdict_valid : (s.fenceByVerdict m).get F.MO_CTX_LIVE_FIRST_VALID [m] = s.get F.MO_CTX_LIVE_FIRST_VALID [m] :=
  State.get_put_ctx (by decide) (by decide) (by unfold Fld.Fits; decide) (by unfold Fld.Apart; decide) m 1

theorem Ctx.verdictOn_fenced {c : Ctx} {now i : Nat} {first : Prop} [Decidable first] (j : Nat) :
    (c.verdictOn now i first).fenced j = true ↔ c.fenced j = true ∨ j = i := by
  rw [Ctx.fenced, Ctx.verdictOn, Nat.testBit_or, Nat.testBit_two_pow, Bool.or_eq_true, decide_eq_true_iff, eq_comm (a := i)]
  rfl

/-- A fence by verdict on a member that stands fenced changes none but the verdict of the first. -/
theorem FencedFrom.of_fenced {i : Nat} (hv : s.ByVerdict m) (hfenced : (s.ctx m).fenced i = true)
    (ht : t = s ∨ t = s.fenceByVerdict m) : FencedFrom m s t [i] := by
  have hset (j : Nat) : (s.ctx m).fenced j = true ↔ (s.ctx m).fenced j = true ∨ (j ∈ [i] ∧ (s.ctx m).bitmap.testBit j = true) := by
    rw [List.mem_singleton]
    exact ⟨.inl, (Or.elim · id fun h => h.1 ▸ hfenced)⟩
  obtain rfl | rfl := ht
  · exact ⟨fun _ _ => rfl, rfl, rfl, hset, hv⟩
  · exact ⟨fun f hf => State.fenceByVerdict_own hf, rfl, rfl, hset, fun _ => State.fenceByVerdict_verdict,
      fun j hj => by rw [State.fenceByVerdict_valid]; exact hv.valid j hj⟩

/-- A fence by verdict on a member of the bitmap. -/
theorem FencedFrom.record {i : Nat} (hv : s.ByVerdict m) (hbit : (s.ctx m).bitmap.testBit i = true) :
    FencedFrom m s (s.recordFence m i) [i] := by
  unfold State.recordFence
  dsimp only
  generalize hx : (s.ctx m).verdictOn s.now i (s.get F.MO_CTX_LIVE_FIRST_VALID [m] = 0) = x
  have hbitmap : x.bitmap = (s.ctx m).bitmap := by rw [← hx]; rfl
  have hset (j : Nat) : x.fenced j = true ↔ (s.ctx m).fenced j = true ∨ (j ∈ [i] ∧ (s.ctx m).bitmap.testBit j = true) := by
    rw [← hx, Ctx.verdictOn_fenced, List.mem_singleton]
    exact or_congr_right ⟨fun h => ⟨h, h ▸ hbit⟩, And.left⟩
  have hctx : (s.setCtx m (some x)).ctx m = x := State.ctx_setCtx_self m x
  split
  · have hmo := State.recordFirst_mo (s := s.setCtx m (some x)) (m := m) i
    have hctx' : ((s.setCtx m (some x)).recordFirst m i).ctx m = x := by rw [State.ctx, hmo]; exact hctx
    refine ⟨fun f hf => State.recordFirst_own hf i, (congrArg Moorings.queue hmo).trans rfl, by rwa [hctx'], by rwa [hctx'],
      fun _ => State.recordFirst_verdict i, fun _ _ => ?_⟩
    rw [State.recordFirst_valid]
    decide
  · next hnext => exact ⟨fun _ _ => rfl, rfl, by rwa [hctx], by rwa [hctx], hv.verdict, fun _ _ => hnext⟩

/-- A fence by verdict, of a member in the bitmap or out of it. -/
theorem FencedFrom.fence (hm : m < 16384) (hact : s.ctxState m = Cs.active) (hv : s.ByVerdict m) (i : Nat) :
    FencedFrom m s (s.fence m i true) [i] := by
  cases hbit : (s.ctx m).bitmap.testBit i with
  | false =>
    rw [State.fence_out true hbit]
    refine ⟨fun _ _ => rfl, rfl, rfl, fun j => ⟨.inl, (Or.elim · id fun h => ?_)⟩, hv⟩
    obtain ⟨hj, hin⟩ := h
    rw [List.mem_singleton.1 hj, hbit] at hin
    contradiction
  | true =>
    cases hfenced : (s.ctx m).fenced i with
    | false => exact (FencedFrom.record hv hbit).stands (State.fence_stands hact hbit hm hfenced)
    | true => exact FencedFrom.of_fenced hv hfenced (State.fence_fenced hact hbit hfenced)

theorem FencedFrom.fences (hm : m < 16384) (hact : s.ctxState m = Cs.active) (hv : s.ByVerdict m) (l : List Nat) :
    FencedFrom m s (l.foldl (fun s i => s.fence m i true) s) l := by
  induction l generalizing s with
  | nil => exact FencedFrom.nil hv
  | cons i l ih =>
    have hfirst := FencedFrom.fence hm hact hv i
    exact hfirst.trans (ih ((hfirst.own F.MO_CTX_STATE_STATE (by decide)).trans hact) hfirst.verdict)

end Sys2Proof.Machine
end

section
/-! SUPPORT. MOORING commands and the context engine (R123 to R130): what each start and each change gives. -/

namespace Sys2Proof.Machine

variable {s t u : State} {m : Nat} {c : Cmd}

/-! ### The fields of a command -/

theorem Cmd.moMoor_lt (c : Cmd) : c.moMoor < 16384 := bits_lt ..

theorem Cmd.moEpoch_mod (c : Cmd) : c.moEpoch % 2 ^ 16 = c.moEpoch := Nat.mod_eq_of_lt (bits_lt ..)

theorem Cmd.moJob_lt (c : Cmd) : c.moJob < 2 ^ 12 := bits_lt ..

theorem State.job_lt (s : State) (m : Nat) : s.job m < 2 ^ 12 := bits_lt ..

/-! ### A context made ACTIVE -/

/-- From the queue of `s`, a context is ACTIVE as judged and without fences. -/
structure Activated (m : Nat) (s t : State) (epoch job p berths : Nat) : Prop where
  queue : t.mo.queue = s.mo.queue
  active : t.Active m epoch job p berths
  open_ : (t.ctx m).fences = 0
  verdict : t.ByVerdict m

theorem State.activate_activated {x : Ctx} {bs : List Byte} {epoch job : Nat} (hm : m < 16384) (hjob : job < 2 ^ 12) :
    Activated m s (s.activate m x bs epoch job) (epoch % 2 ^ 16) job (imgPseq bs) (s.mo.floor % 2 ^ 16) := by
  obtain ⟨pages, hst⟩ := State.activate_stands (s := s) (x := x) (bs := bs) (epoch := epoch) (job := job) hm
  have hctx : (s.activate m x bs epoch job).ctx m = x.formed s.now pages := by
    rw [State.ctx, hst.ctx]
    exact State.formCtx_ctx hm
  have hvalid : (s.activate m x bs epoch job).get F.MO_CTX_LIVE_FIRST_VALID [m] = 0 :=
    (hst.get F.MO_CTX_LIVE_FIRST_VALID (by decide)).trans State.writeCtx_firstValid
  refine ⟨hst.queue.trans (State.formCtx_queue hm), (State.formCtx_active hm hjob).of_own fun f hf =>
    hst.get f (List.mem_append_left _ hf), by rw [hctx]; rfl, fun h => absurd hvalid h, fun i hi => ?_⟩
  have hnone : (x.formed s.now pages).fenced i = false := Nat.zero_testBit i
  rw [hctx, hnone] at hi
  contradiction

/-! ### A context retired (R128, R130) -/

/-- A context that stays RETAINED, without a floor. -/
def State.retain (s : State) (m : Nat) : State := (s.put F.MO_CTX_STATE_STATE [m] Cs.retained).put F.MO_CTX_SLIP_FLOOR [m] 0

/-- A context that is forgotten, with its registers. -/
def State.forget (s : State) (m : Nat) : State :=
  ((((s.setCtx m none).wr .MO_CTX_STATE [m] 0).wr .MO_CTX_SEQ [m] 0).wr .MO_CTX_SLIP [m] 0).wr .MO_CTX_LIVE [m] 0

theorem State.retireCtx_stands (hm : m < 16384) :
    CtxStands m (if s.ctxState m = Cs.active && s.get F.MO_CTX_STATE_RETAIN [m] = 1 then s.retain m else s.forget m) (s.retireCtx m) := by
  generalize hu : (if s.ctxState m = Cs.active && s.get F.MO_CTX_STATE_RETAIN [m] = 1 then s.retain m else s.forget m) = u
  have hshown : CtxStands m u ((u.showMoor m).showCtxs) := ((CtxStands.refl u).showMoor hm m).showCtxs hm
  have hmap (v : State) (hv : CtxStands m u v) : CtxStands m u ((List.range 64).foldl (fun s k => s.wr .MO_FENCE_MAP [k] 0) v) :=
    CtxStands.foldl _ _ hv fun k hk w hw => hw.wr hm .MO_FENCE_MAP [k] 0 (.inl (by
      have hk64 := List.mem_range.1 hk
      rw [regAddr_MO_FENCE_MAP]
      omega))
  have hfences := CtxStands.ite (c := (u.showMoor m).showCtxs.ctxState m = Cs.active) (hshown.showFences hm m)
    (CtxStands.ite (c := (u.showMoor m).showCtxs.get F.MO_FENCE_SEL_MOORING = m) (hmap _ hshown) hshown)
  have hshard := CtxStands.ite (c := (s.ctx m).shard < 4096) (hfences.showShard hm (s.ctx m).shard) hfences
  rw [← hu] at hshard ⊢
  exact hshard

theorem State.retain_state : (s.retain m).ctxState m = Cs.retained :=
  (State.get_put_ctx (by decide) (by decide) (by unfold Fld.Fits; decide) (by unfold Fld.Apart; decide) m 0).trans
    (State.get_put_self F.MO_CTX_STATE_STATE (by decide) [m] Cs.retained)

theorem State.retain_epoch : (s.retain m).epoch m = s.epoch m :=
  (State.get_put_ctx (by decide) (by decide) (by unfold Fld.Fits; decide) (by unfold Fld.Apart; decide) m 0).trans
    (State.get_put_ctx (by decide) (by decide) (by unfold Fld.Fits; decide) (by unfold Fld.Apart; decide) m Cs.retained)

theorem State.retain_floor : (s.retain m).get F.MO_CTX_SLIP_FLOOR [m] = 0 := State.get_put_self F.MO_CTX_SLIP_FLOOR (by decide) [m] 0

theorem State.retain_mo : (s.retain m).mo = s.mo := by rw [State.retain, State.put_mo, State.put_mo]

theorem State.forget_mo : (s.forget m).mo = (s.setCtx m none).mo := by
  rw [State.forget, State.wr_mo, State.wr_mo, State.wr_mo, State.wr_mo]

theorem State.forget_ctx : (s.forget m).ctx m = Ctx.none := by
  rw [State.ctx, State.forget_mo, State.setCtx, spGet_spPut_self]
  rfl

/-- The fields of MO_CTX_STATE of a context forgotten. -/
theorem State.forget_get {f : Fld} (hf : f.reg = .MO_CTX_STATE) : (s.forget m).get f [m] = 0 := by
  have hreg : f.reg ∈ ctxRegs := by rw [hf]; decide
  have hne {r : Reg} (hr : r ∈ ctxRegs) (h : r ≠ .MO_CTX_STATE) (u : State) : (u.wr r [m] 0).get f [m] = u.get f [m] :=
    State.get_wr_ne f 0 (regAddr_ctx_ne hr hreg (.inl (by rwa [hf])))
  rw [State.forget, hne (by decide) (by decide), hne (by decide) (by decide), hne (by decide) (by decide), ← hf, State.get_wr_self, bits_zero]

/-- What RETIRE leaves: the queue, and a context RETAINED or forgotten. -/
structure Retired (m : Nat) (s t : State) : Prop where
  queue : t.mo.queue = s.mo.queue
  kept : s.ctxState m = Cs.active → s.get F.MO_CTX_STATE_RETAIN [m] = 1 →
    t.ctxState m = Cs.retained ∧ t.epoch m = s.epoch m ∧ t.get F.MO_CTX_SLIP_FLOOR [m] = 0
  forgotten : s.ctxState m ≠ Cs.active ∨ s.get F.MO_CTX_STATE_RETAIN [m] ≠ 1 → t.ctxState m = Cs.free ∧ t.ctx m = Ctx.none ∧ t.epoch m = 0

theorem State.retireCtx_retired (hm : m < 16384) : Retired m s (s.retireCtx m) := by
  have hst := State.retireCtx_stands (s := s) hm
  by_cases hkept : s.ctxState m = Cs.active ∧ s.get F.MO_CTX_STATE_RETAIN [m] = 1
  · rw [if_pos (by simp [hkept])] at hst
    refine ⟨hst.queue.trans (congrArg Moorings.queue State.retain_mo), fun _ _ =>
      ⟨(hst.get F.MO_CTX_STATE_STATE (by decide)).trans State.retain_state,
        (hst.get F.MO_CTX_STATE_EPOCH (by decide)).trans State.retain_epoch,
        (hst.get F.MO_CTX_SLIP_FLOOR (by decide)).trans State.retain_floor⟩, fun h => ?_⟩
    exact h.elim (absurd hkept.1) (absurd hkept.2)
  · rw [if_neg (by simpa using hkept)] at hst
    refine ⟨hst.queue.trans ((congrArg Moorings.queue State.forget_mo).trans rfl), fun h1 h2 => absurd ⟨h1, h2⟩ hkept, fun _ =>
      ⟨(hst.get F.MO_CTX_STATE_STATE (by decide)).trans (State.forget_get (f := F.MO_CTX_STATE_STATE) rfl), ?_,
        (hst.get F.MO_CTX_STATE_EPOCH (by decide)).trans (State.forget_get (f := F.MO_CTX_STATE_EPOCH) rfl)⟩⟩
    rw [State.ctx, hst.ctx]
    exact State.forget_ctx

/-! ### The change of a command (R127 to R130) -/

/-- The members that verdicts of this very cycle name (R360). -/
def State.deadNow (s : State) (m : Nat) : List Nat :=
  if (s.ctx m).verdictAt = s.now then (List.range 4096).filter (s.ctx m).verdicts.testBit else []

theorem State.changeCtx_create (h : c.subop = 0) :
    s.changeCtx c = (s.activate c.moMoor (s.newCtx c) (c.image s) c.moEpoch c.moJob, c.moEpoch) := by
  simp only [State.changeCtx, h]

theorem State.changeCtx_reform (h : c.subop = 2) (hu : s.stopMoor c.moMoor St.epochStale none = u) :
    s.changeCtx c = ((s.deadNow c.moMoor).foldl (fun s i => s.fence c.moMoor i true)
      (u.activate c.moMoor (u.newCtx c) (c.image u) ((s.epoch c.moMoor + 1) % 2 ^ 16) (u.job c.moMoor)), (s.epoch c.moMoor + 1) % 2 ^ 16) := by
  simp only [State.changeCtx, h, hu, State.deadNow]

theorem State.changeCtx_adopt (h : c.subop = 3) : s.changeCtx c =
    (s.activate c.moMoor (s.newCtx c) (c.image s) ((s.epoch c.moMoor + 1) % 2 ^ 16) c.moJob, (s.epoch c.moMoor + 1) % 2 ^ 16) := by
  simp only [State.changeCtx, h]

theorem State.changeCtx_retire (h : c.subop = 4) : s.changeCtx c = (s.retireCtx c.moMoor, s.epoch c.moMoor) := by
  simp only [State.changeCtx, h]

/-- From the queue of `s`, a context is ACTIVE as judged, with the members `l` of its bitmap fenced by verdict. -/
structure Formed (m : Nat) (s t : State) (l : List Nat) (epoch job p berths : Nat) : Prop where
  queue : t.mo.queue = s.mo.queue
  active : t.Active m epoch job p berths
  fenced : ∀ i, (t.ctx m).fenced i = true ↔ i ∈ l ∧ (t.ctx m).bitmap.testBit i = true
  verdict : ∀ i, (t.ctx m).fenced i = true → t.get F.MO_CTX_STATE_FENCE_BY_VERDICT [m] = 1

theorem Activated.formed {l : List Nat} {epoch job p berths : Nat} (h : Activated m s t epoch job p berths) (k : FencedFrom m t u l) :
    Formed m s u l epoch job p berths := by
  refine ⟨k.queue.trans h.queue, h.active.of_own k.own, fun i => ?_, fun i hi => k.verdict.verdict (k.verdict.valid i hi)⟩
  have hopen : (t.ctx m).fenced i = false := by rw [Ctx.fenced, h.open_, Nat.zero_testBit]
  rw [k.fenced, hopen, k.bitmap]
  simp

theorem Formed.no_fences {epoch job p berths : Nat} (h : Formed m s t [] epoch job p berths) : (t.ctx m).fences = 0 :=
  Nat.zero_of_testBit_eq_false fun i => Bool.eq_false_iff.2 fun hi => List.not_mem_nil ((h.fenced i).1 hi).1

/-- The members that a change fences: those of REFORM whose verdicts fall in its cycle (R360). -/
def State.fencesDue (s : State) (c : Cmd) : List Nat := if c.subop = 2 then s.deadNow c.moMoor else []

theorem State.mem_fencesDue {i : Nat} (h2 : c.subop = 2) (hnow : (s.ctx c.moMoor).verdictAt = s.now) (hi : i < 4096) :
    i ∈ s.fencesDue c ↔ (s.ctx c.moMoor).verdicts.testBit i = true := by
  simp [State.fencesDue, State.deadNow, h2, hnow, hi]

theorem State.fencesDue_nil (h : c.subop ≠ 2 ∨ (s.ctx c.moMoor).verdictAt ≠ s.now) : s.fencesDue c = [] := by
  obtain h | h := h <;> simp [State.fencesDue, State.deadNow, h]

/-- The epoch and the job tag that a command gives its context (R123, R127, R129). -/
def State.nextEpoch (s : State) (c : Cmd) : Nat := if c.subop = 0 then c.moEpoch else (s.epoch c.moMoor + 1) % 2 ^ 16

def State.nextJob (s : State) (c : Cmd) : Nat := if c.subop = 2 then s.job c.moMoor else c.moJob

theorem State.changeCtx_formed (h3 : c.subop ≤ 3) (h1 : c.subop ≠ 1) :
    Formed c.moMoor s (s.changeCtx c).1 (s.fencesDue c) (s.nextEpoch c) (s.nextJob c) (imgPseq (c.image s)) (s.mo.floor % 2 ^ 16) ∧
      (s.changeCtx c).2 = s.nextEpoch c := by
  have hm := c.moMoor_lt
  obtain h | h | h : c.subop = 0 ∨ c.subop = 2 ∨ c.subop = 3 := by omega
  · rw [State.changeCtx_create h, State.fencesDue, State.nextEpoch, State.nextJob, if_neg (by omega), if_pos h, if_neg (by omega)]
    have hact := State.activate_activated (s := s) (x := s.newCtx c) (bs := c.image s) (epoch := c.moEpoch) hm c.moJob_lt
    rw [c.moEpoch_mod] at hact
    exact ⟨hact.formed (.nil hact.verdict), rfl⟩
  · have hst := (CtxStands.refl s).stopMoor hm c.moMoor St.epochStale none
    generalize hu : s.stopMoor c.moMoor St.epochStale none = u at hst
    have himage : c.image u = c.image s := by rw [Cmd.image, State.staged, hst.staging]; rfl
    have hjob : u.job c.moMoor = s.job c.moMoor := hst.get F.MO_CTX_STATE_JOB (by decide)
    rw [State.changeCtx_reform h hu, State.fencesDue, State.nextEpoch, State.nextJob, if_pos h, if_neg (by omega), if_pos h, himage, hjob,
      ← hst.floor]
    have hact := State.activate_activated (s := u) (x := u.newCtx c) (bs := c.image s) (epoch := (s.epoch c.moMoor + 1) % 2 ^ 16) hm
      (s.job_lt c.moMoor)
    rw [Nat.mod_mod] at hact
    have hformed := hact.formed (.fences hm hact.active.active hact.verdict (s.deadNow c.moMoor))
    exact ⟨{ hformed with queue := hformed.queue.trans hst.queue }, rfl⟩
  · rw [State.changeCtx_adopt h, State.fencesDue, State.nextEpoch, State.nextJob, if_neg (by omega), if_neg (by omega), if_neg (by omega)]
    have hact := State.activate_activated (s := s) (x := s.newCtx c) (bs := c.image s) (epoch := (s.epoch c.moMoor + 1) % 2 ^ 16) hm
      c.moJob_lt
    rw [Nat.mod_mod] at hact
    exact ⟨hact.formed (.nil hact.verdict), rfl⟩

/-! ### The engine (R125) -/

theorem State.takeUp_busy (n : Nat) (h : s.mo.engine ≠ none) : State.takeUp n s = s := by
  cases n with
  | zero => rfl
  | succ n =>
    rw [State.takeUp]
    split
    · next hidle _ => exact absurd hidle h
    · rfl

/-- A command that the engine takes up, its context read: it fails, fences its member at once, or occupies the engine. -/
def State.takes (u : State) (c : Cmd) : State :=
  match u.mooringCheck c with
  | some f => u.mooringFail c f
  | none =>
    if c.subop = 1 then (u.changeCtx c).1.endMooring c St.ok 0 (u.changeCtx c).2 0
    else
      ({ u with mo := { u.mo with engine := some (c.ring, c.seq),
                                  floor := u.planCharge (u.newCtx c) (imgCount (c.image u)) false } } : State).mapCmd c.ring c.seq fun c =>
        { c with stage := .running, startedAt := u.now }

theorem State.startMooring_busy (hbusy : s.mo.engine ≠ none) (hnew : s.mo.queue.contains (c.ring, c.seq) = false) :
    s.startMooring c = { s with mo := { s.mo with queue := s.mo.queue ++ [(c.ring, c.seq)] } } := by
  rw [State.startMooring]
  exact (if_neg (by rw [hnew]; decide)).trans (State.takeUp_busy _ hbusy)

theorem State.takeUp_one (hidle : t.mo.engine = none) (hq : t.mo.queue = [(c.ring, c.seq)])
    (ht : ({ t with mo := { t.mo with queue := [] } } : State) = s) (hc : s.cmd? c.ring c.seq = some c) :
    State.takeUp 1 t = (s.useCtx c.moMoor).takes c := by
  rw [State.takeUp]
  split
  · next r q rest _ hqueue =>
    obtain ⟨⟨rfl, rfl⟩, rfl⟩ : (c.ring = r ∧ c.seq = q) ∧ [] = rest := by simpa [hq] using hqueue
    rw [ht]
    simp only [hc, State.takeUp]
    rfl
  · next hno => exact absurd hq (hno _ _ _ hidle)

theorem State.startMooring_idle (hc : s.cmd? c.ring c.seq = some c) (hidle : s.mo.engine = none) (hq : s.mo.queue = []) :
    s.startMooring c = (s.useCtx c.moMoor).takes c := by
  have hs : ({ s with mo := { s.mo with queue := [] } } : State) = s := by rw [← hq]
  rw [State.startMooring, hq]
  exact State.takeUp_one (t := { s with mo := { s.mo with queue := [(c.ring, c.seq)] } }) hidle rfl hs hc

theorem State.takes_fails {f : CheckFail} (h : u.mooringCheck c = some f) : u.takes c = u.endMooring c f.status f.detail
    (if f.status = St.badDescriptor ∧ f.detail = 0x28 then 0 else u.epoch c.moMoor) f.result2 := by
  simp [State.takes, h, State.mooringFail]

theorem State.takes_evict (h : u.mooringCheck c = none) (hop : c.subop = 1) :
    u.takes c = (u.fence c.moMoor c.moMember false).endMooring c St.ok 0 (u.epoch c.moMoor) 0 := by
  simp [State.takes, h, hop, State.changeCtx]

theorem State.takes_occupies (h : u.mooringCheck c = none) (hop : c.subop ≠ 1) : u.takes c =
    ({ u with mo := { u.mo with engine := some (c.ring, c.seq),
                                floor := u.planCharge (u.newCtx c) (imgCount (c.image u)) false } } : State).mapCmd c.ring c.seq fun c =>
      { c with stage := .running, startedAt := u.now } := by
  rw [State.takes, h]
  exact if_neg hop

/-! ### The rows -/

theorem exec_mooringRow : ∀ row ∈ mooringRows, ∀ (r q : Nat) (s : State), exec (row.1 r q) s = .next (s.startIf r q (isSub 5 row.2)) := by
  simp only [mooringRows, List.forall_mem_cons, List.not_mem_nil, false_imp_iff, implies_true, and_true]
  and_intros <;> exact fun _ _ _ => rfl

theorem State.startCommand_mooring (hp : s.get F.PM_STATE_STATE < 2) (ht : c.type = 5) : s.startCommand c = s.startMooring c := by
  simp [State.startCommand, ht, Nat.not_le.2 hp]

/-- The engine without a command. -/
def State.freeEngine (u : State) : State := { u with mo := { u.mo with engine := none } }

theorem State.freeEngine_queue (u : State) (status detail result result2 : Nat) :
    (u.freeEngine.endMooring c status detail result result2).mo.queue = u.mo.queue := rfl

theorem exec_contextChange_other (hc : s.cmd? c.ring c.seq = some c) (h : s.mo.engine ≠ some (c.ring, c.seq)) :
    exec (.contextChange c.ring c.seq) s = .next s := by
  show execContextChange c.ring c.seq s = _
  simp only [execContextChange, hc, h, ne_eq, not_false_eq_true, if_true]

theorem exec_contextChange_last {result : Nat} (hc : s.cmd? c.ring c.seq = some c) (h : s.mo.engine = some (c.ring, c.seq))
    (hu : s.changeCtx c = (u, result)) (hq : u.mo.queue = []) :
    exec (.contextChange c.ring c.seq) s = .next (u.freeEngine.endMooring c St.ok 0 result 0) := by
  have hend : State.takeUp (u.freeEngine.endMooring c St.ok 0 result 0).mo.queue.length (u.freeEngine.endMooring c St.ok 0 result 0) =
      u.freeEngine.endMooring c St.ok 0 result 0 := by
    rw [State.freeEngine_queue, hq]
    rfl
  show execContextChange c.ring c.seq s = _
  unfold execContextChange
  simp only [hc, hu]
  rw [if_neg (not_not.2 h)]
  exact congrArg _ hend

/-- Settles O23: the start by what the engine does with the command, CONTEXT_CHANGE by what the change forms or retires. -/
theorem mooringCommands : Obligations.MooringCommands := by
  intro s r q c hc m e img ended
  obtain ⟨rfl, rfl⟩ := State.cmd?_ids hc
  refine ⟨fun hs hp ht hnew row hrow hop => ?_, exec_contextChange_other hc, fun _ heng hq hsub h1 => ?_⟩
  · have hexec : exec (row.1 c.ring c.seq) s = .next (s.startMooring c) := by
      rw [exec_mooringRow row hrow, State.startIf_starts hc hs (by simp [isSub, ht, Cmd.subop, hop]), State.startCommand_mooring hp ht]
    rw [hexec]
    refine ⟨fun hbusy => congrArg _ (State.startMooring_busy hbusy hnew), fun hidle hq => ?_⟩
    rw [State.startMooring_idle hc hidle hq]
    exact ⟨fun f hf => congrArg _ (State.takes_fails hf), fun hok h1 => congrArg _ (State.takes_evict hok (hop.trans h1)),
      fun hok h1 => congrArg _ (State.takes_occupies hok (hop.trans_ne h1))⟩
  · rcases hu : s.changeCtx c with ⟨u, result⟩
    by_cases h4 : c.subop = 4
    · obtain ⟨hret, hresult⟩ : Retired m s u ∧ result = e := by
        have hchange := (State.changeCtx_retire (s := s) h4).symm.trans hu
        rw [Prod.mk.injEq] at hchange
        exact ⟨hchange.1 ▸ State.retireCtx_retired c.moMoor_lt, hchange.2.symm⟩
      exact ⟨_, u.freeEngine, result, exec_contextChange_last hc heng hu (hret.queue.trans hq), rfl, rfl, hresult.trans (if_pos h4).symm,
        fun _ h3 => absurd h4 (by unfold Cmd.subop; omega), fun h2 => absurd (h2.symm.trans h4) (by decide),
        fun h3 => absurd h4 (by unfold Cmd.subop; omega), fun _ => hret.kept, fun _ => hret.forgotten⟩
    · obtain ⟨hform, hresult⟩ := State.changeCtx_formed (s := s) (c := c) (by unfold Cmd.subop at *; omega) h1
      rw [hu] at hform hresult
      dsimp only at hform hresult
      refine ⟨_, u.freeEngine, result, exec_contextChange_last hc heng hu (hform.queue.trans hq), rfl, rfl, ?_, fun h _ => ?_,
        fun h2 hnow i hi => ⟨(hform.fenced i).trans ?_, hform.verdict i⟩, fun _ => ⟨hform.active.active, hform.active.epoch,
          hform.active.job, hform.active.pseq, hform.active.gate, hform.active.floor⟩, fun h => absurd h h4, fun h => absurd h h4⟩
      · exact hresult.trans (hform.active.epoch.symm.trans (if_neg h4).symm)
      · exact (State.fencesDue_nil h ▸ hform).no_fences
      · exact and_congr_left' (State.mem_fencesDue h2 hnow hi)

end Sys2Proof.Machine
end

section
/-! SUPPORT. Boathouse packets as they are taken (R188 to R200): acceptance, and what each BTYPE does with what it names. -/

namespace Sys2Proof.Machine

variable {s u v : State} {p b : Nat} {pkt : Packet} {x : BhExt} {bs : List Byte}

/-! ### Acceptance (R188) -/

/-- The state in which an accepted packet is handled: taken from those that wait, with what it answers awaited no longer. -/
def State.bhTaken (s : State) (p : Nat) (pkt : Packet) : State := (s.takeBh p pkt).answered pkt.hdr.src (parseBh pkt.body)

/-- The payload that follows the extension. -/
def bhPayload (pkt : Packet) : List Byte := (pkt.body.drop 32).take (parseBh pkt.body).len

/-- A packet as long as its extension, whose peer's entry has its source and job tags. -/
def State.bhAccepts (s : State) (pkt : Packet) : Prop := 32 ≤ pkt.body.length ∧ s.peerOk pkt (parseBh pkt.body) = true

section
variable {f : State → BhExt → List Byte → State}

theorem State.boathouse_refused (h : ¬s.bhAccepts pkt) : s.boathouse b p pkt f = (s.takeBh p pkt).bump F.BH_DROP_PEER := by
  have hbad : (decide (pkt.body.length < 32) || !s.peerOk pkt (parseBh pkt.body)) = true := by
    rw [State.bhAccepts, Decidable.not_and_iff_or_not] at h
    simpa using h
  exact if_pos hbad

theorem State.boathouse_accepted (h : s.bhAccepts pkt) : s.boathouse b p pkt f =
    if 8 ≤ (parseBh pkt.body).btype then s.takeBh p pkt
    else if (parseBh pkt.body).btype ≠ b then s else f (s.bhTaken p pkt) (parseBh pkt.body) (bhPayload pkt) := by
  have hgood : ¬(decide (pkt.body.length < 32) || !s.peerOk pkt (parseBh pkt.body)) = true := by
    simpa [h.2] using h.1
  exact if_neg hgood

/-- The row of a BTYPE handles the packets of that BTYPE. -/
theorem exec_bhRow : ∀ row ∈ bhRows, ∀ (p : Nat) (pkt : Packet), ∃ f : State → BhExt → List Byte → State,
    ∀ s, exec (row.1 p pkt) s = .next (s.boathouse row.2 p pkt f) := by
  simp only [bhRows, List.forall_mem_cons, List.not_mem_nil, false_imp_iff, implies_true, and_true]
  and_intros <;> exact fun _ _ => ⟨_, fun _ => rfl⟩

/-- A packet is accepted, and handled in `u` by its extension `x` and payload `bs`. -/
structure BhTakes (s : State) (p : Nat) (pkt : Packet) (u : State) (x : BhExt) (bs : List Byte) : Prop where
  accepts : s.bhAccepts pkt
  state : s.bhTaken p pkt = u
  ext : parseBh pkt.body = x
  payload : bhPayload pkt = bs

theorem BhTakes.handled {i : Instr} (h : BhTakes s p pkt u x bs) (hb : x.btype = b) (hi : exec i s = .next (s.boathouse b p pkt f))
    (hlt : b < 8 := by decide) : exec i s = .next (f u x bs) := by
  rw [hi, State.boathouse_accepted h.accepts, h.ext, h.state, h.payload, if_neg (by omega), if_neg (not_not.2 hb)]

end

theorem epochOlder_self (e : Nat) : epochOlder e e = false := by simp [epochOlder]

/-! ### ANNOUNCE (R189) -/

/-- The fragment that an ANNOUNCE names, of as many rows as the free value says (the packet does not carry its size). -/
def State.announced (u : State) (o : Nat) (x : BhExt) : Fragment :=
  ⟨o, x.shard, x.fidx, x.epoch, x.sdigest, [], (Config.freeValue u.freeCtr).toNat % 2 ^ 28 + 1, false, 0⟩

/-- The lowest free place of the fragment store that has room for a fragment. -/
def State.fragPlace (u : State) (f : Fragment) : Option Nat :=
  lowestGap (u.cget F.BH_FSTORE_BASE_ADDR) (u.cget F.BH_FSTORE_BASE_ADDR + u.cget F.BH_FSTORE_LEN_BYTES) f.size 64
    (u.bh.frags.map fun g => (g.place, g.size))

/-- The store after an ANNOUNCE: with the fragment where it has a place. -/
def State.reserve (u : State) (f : Fragment) : Option Nat → State
  | some a => u.setFrags (u.bh.frags ++ [{ f with place := a }])
  | none => u.setFrags u.bh.frags

theorem State.whReady_withFree (u : State) (k : Nat) : ({ u with freeCtr := k } : State).whReady = u.whReady := rfl

theorem State.cget_withFree (u : State) (k : Nat) (f : Fld) (idx : List Nat) :
    ({ u with freeCtr := k } : State).cget f idx = u.cget f idx := rfl

/-- An ANNOUNCE of a fragment not held is answered by whether it has a place, which takes the Warehouse in service. -/
theorem BhTakes.announce (h : BhTakes s p pkt u x bs) (hb : x.btype = 0)
    (hnew : ∀ f ∈ u.bh.frags, f.is pkt.hdr.src x.shard x.fidx = false) {place : Option Nat}
    (hplace : (if u.whReady then u.fragPlace (u.announced pkt.hdr.src x) else none) = place) :
    exec (.announce p pkt) s = .next ((({ u with freeCtr := u.freeCtr + 1 } : State).reserve (u.announced pkt.hdr.src x) place).sendBh
      pkt.hdr.src ⟨Bt.ack, 0, x.shard, x.epoch, x.fidx, if place.isSome then 0 else 1, 0, 0, 0, x.sdigest⟩ []) := by
  have hmine : (u.bh.frags.filter fun f => f.is pkt.hdr.src x.shard x.fidx) = [] :=
    List.filter_eq_nil_iff.2 fun f hf => by simp [hnew f hf]
  have hkeep : (u.bh.frags.filter fun f => !(f.is pkt.hdr.src x.shard x.fidx && !f.whole)) = u.bh.frags :=
    List.filter_eq_self.2 fun f hf => by simp [hnew f hf]
  refine (h.handled hb rfl).trans (congrArg _ ?_)
  unfold State.fragPlace State.announced at hplace
  simp only [hmine, List.any_nil, Bool.false_eq_true, if_false, State.fresh, hkeep, State.whReady_withFree, State.cget_withFree, hplace]
  cases place <;> rfl

/-! ### FRAG (R189, R191) -/

theorem BhTakes.frag_bad (h : BhTakes s p pkt u x bs) (hb : x.btype = 2) (hbad : granuleDigest bs ≠ x.digest) :
    exec (.frag p pkt) s = .next ((u.bump F.BH_BAD_CHUNK_COUNT).askBh pkt.hdr.src
      ⟨Bt.fget, 0, x.shard, x.epoch, x.fidx, 0, x.seq, 0, 0, x.sdigest⟩ []) :=
  (h.handled hb rfl).trans (congrArg _ (if_pos hbad))

theorem BhTakes.frag_rebuild {r : Rebuild} (h : BhTakes s p pkt u x bs) (hb : x.btype = 2) (hgood : granuleDigest bs = x.digest)
    (hr : u.rebuildOf pkt.hdr.src x = some r) (he : x.epoch = (manShard r.manifest r.shard).epoch)
    (hd : x.sdigest = (manShard r.manifest r.shard).sdigest) :
    exec (.frag p pkt) s = .next ((u.mapRebuild r.ring r.seq fun r =>
      { r with got := spIns r.got (32 * x.seq + x.fidx) bs }).advanceRebuild r.ring r.seq) := by
  refine (h.handled hb rfl).trans (congrArg _ ?_)
  simp only [ne_eq, hgood, not_true_eq_false, if_false, hr, ← he, ← hd, epochOlder_self, Bool.false_eq_true, decide_false, Bool.or_self]

theorem BhTakes.frag_hold (h : BhTakes s p pkt u x bs) (hb : x.btype = 2) (hgood : granuleDigest bs = x.digest)
    (hr : u.rebuildOf pkt.hdr.src x = none) : exec (.frag p pkt) s = .next (u.holdRow pkt.hdr.src x bs) := by
  refine (h.handled hb rfl).trans (congrArg _ ?_)
  simp only [ne_eq, hgood, not_true_eq_false, if_false, hr]

theorem State.holdRow_unannounced {o : Nat} (hnew : ∀ f ∈ u.bh.frags, f.is o x.shard x.fidx = false) :
    u.holdRow o x bs = u.sendFack o x 3 0 0 := by
  have hstale : (u.bh.frags.any fun f => f.is o x.shard x.fidx && epochOlder x.epoch f.epoch) = false :=
    List.any_eq_false.2 fun f hf => by simp [hnew f hf]
  have hfind : (u.bh.frags.find? fun f => f.is o x.shard x.fidx && !f.whole) = none :=
    List.find?_eq_none.2 fun f hf => by simp [hnew f hf]
  simp only [State.holdRow, hstale, Bool.false_eq_true, if_false, hfind]

theorem State.holdRow_kept {o : Nat} {f : Fragment} (hf : (u.bh.frags.find? fun f => f.is o x.shard x.fidx && !f.whole) = some f)
    (he : f.epoch = x.epoch) (hd : f.sdigest = x.sdigest) (hseq : x.seq < f.total)
    (hstale : ∀ g ∈ u.bh.frags, g.is o x.shard x.fidx = true → epochOlder x.epoch g.epoch = false)
    (hlast : (spIns f.rows x.seq bs).length < f.total) :
    u.holdRow o x bs = u.setFrags ((u.bh.frags.filter fun g => g ≠ f) ++ [{ f with rows := spIns f.rows x.seq bs }]) := by
  have hany : (u.bh.frags.any fun f => f.is o x.shard x.fidx && epochOlder x.epoch f.epoch) = false :=
    List.any_eq_false.2 fun g hg => by
      rw [Bool.and_eq_true]
      exact fun ⟨hown, hold⟩ => absurd (hstale g hg hown) (by simp [hold])
  simp only [State.holdRow, hany, Bool.false_eq_true, if_false, hf, he, hd, ne_eq, not_true_eq_false, decide_false, Bool.false_or,
    Nat.not_le.2 hseq, hlast, if_true]

/-! ### FACK (R184) -/

theorem BhTakes.fack (h : BhTakes s p pkt u x bs) (hb : x.btype = 3) (hr : u.rebuildOf pkt.hdr.src x = none) :
    exec (.fack p pkt) s = .next (u.fragmentAck pkt x) := by
  refine (h.handled hb rfl).trans (congrArg _ ?_)
  simp only [hr]

/-- Nothing is being sent again of a shard. -/
theorem State.resendAnswer_none (h : ∀ r ∈ u.bh.resends, r.shard ≠ x.shard) (o stage : Nat) (good : Resend → Bool) :
    u.resendAnswer o x stage good = u := by
  have hfind : (u.bh.resends.find? fun r => r.shard = x.shard && r.epoch = x.epoch && r.fidx = x.fidx && r.endpoint = o && r.stage = stage) =
      none := List.find?_eq_none.2 fun r hr => by simp [h r hr]
  simp only [State.resendAnswer, hfind]

section
variable {sh : Shard} {f : Freeze} {t : Stripe} (hresend : ∀ r ∈ u.bh.resends, r.shard ≠ x.shard) (hsh : u.shard x.shard = some sh)
  (hf : sh.freeze = some f) (ht : f.stripe = some t) (he : x.epoch = f.epoch)
  (hholder : (t.holders[x.fidx]?).map (·.1) = some pkt.hdr.src) (hwait : x.fidx ∈ f.awaitFack)
include hresend hsh hf ht he hholder hwait

theorem State.fragmentAck_refused (hcode : x.code ≠ 0) : u.fragmentAck pkt x = u.holderLost x.shard x.fidx := by
  have hcontains : f.awaitFack.contains x.fidx = true := by simpa using hwait
  simp only [State.fragmentAck, State.resendAnswer_none hresend, hsh, hf, Option.bind_some, ht, he, epochOlder_self, Bool.false_eq_true,
    if_false, hholder, ne_eq, not_true_eq_false, decide_false, Bool.or_self, hcontains, Bool.not_true, hcode, not_false_eq_true, if_true]

theorem State.fragmentAck_whole (hcode : x.code = 0) (hseq : (((fragmentsOf t (f.image sh.blocks))[x.fidx]?).getD []).length / 4096 ≤ x.seq)
    (hdigest : x.digest = granuleDigest (((fragmentsOf t (f.image sh.blocks))[x.fidx]?).getD [])) : u.fragmentAck pkt x =
      (u.mapShard x.shard fun y => { y with freeze := some { f with awaitFack := f.awaitFack.erase x.fidx } }).checkDurable x.shard := by
  have hcontains : f.awaitFack.contains x.fidx = true := by simpa using hwait
  simp only [State.fragmentAck, State.resendAnswer_none hresend, hsh, hf, Option.bind_some, ht, he, epochOlder_self, Bool.false_eq_true,
    if_false, hholder, ne_eq, not_true_eq_false, decide_false, Bool.or_self, hcontains, Bool.not_true, hcode, Nat.not_lt.2 hseq, ← hdigest]

end

/-! ### FGET (R191) -/

/-- Whether a fragment is the one, of that epoch and digest and whole, that a packet names. -/
def Fragment.answers (f : Fragment) (x : BhExt) : Bool :=
  f.shard = x.shard && f.fidx = x.fidx && f.epoch = x.epoch && f.sdigest = x.sdigest && f.whole

theorem BhTakes.fget_held {f : Fragment} {row : List Byte} (h : BhTakes s p pkt u x bs) (hb : x.btype = 4)
    (hf : u.bh.frags.find? (·.answers x) = some f) (hseq : x.seq < f.total) (hrow : u.stowAt f.place x.seq = (v, some row)) (hmove : v.fragsMove = true) :
    exec (.fget p pkt) s = .next (v.sendBh pkt.hdr.src ⟨Bt.frag, 0, x.shard, x.epoch, x.fidx, 0, x.seq, 0, 0, x.sdigest⟩ row) := by
  unfold Fragment.answers at hf
  refine (h.handled hb rfl).trans (congrArg _ ?_)
  simp only [hf, Nat.not_le.2 hseq, if_false, hrow, hmove, if_true]

/-- A module that neither holds nor sends a fragment answers by whether it holds a newer one. -/
theorem BhTakes.fget_missing (h : BhTakes s p pkt u x bs) (hb : x.btype = 4) (hf : ∀ f ∈ u.bh.frags, f.answers x = false)
    (hsh : u.shard x.shard = none) (hresend : ∀ r ∈ u.bh.resends, r.shard ≠ x.shard) :
    exec (.fget p pkt) s = .next
      (if u.bh.frags.any fun f => (f.shard = x.shard && f.fidx = x.fidx) && epochOlder x.epoch f.epoch then u.bump F.BH_DROP_STALE
        else u.sendFack pkt.hdr.src x 3 0 0) := by
  have hfind : u.bh.frags.find? (·.answers x) = none := List.find?_eq_none.2 fun f hm => by simp [hf f hm]
  have hown : u.ownRow pkt.hdr.src x = none := by simp only [State.ownRow, hsh]
  have hsent : (u.bh.resends.find? fun r => r.shard = x.shard && r.epoch = x.epoch && r.fidx = x.fidx && r.endpoint = pkt.hdr.src &&
      r.stage = 2) = none := List.find?_eq_none.2 fun r hr => by simp [hresend r hr]
  unfold Fragment.answers at hfind
  refine (h.handled hb rfl).trans (congrArg _ ?_)
  simp only [hfind, hown, hsent]

/-! ### Packets of a broadcast (R198 to R200) -/

section
variable (h : BhTakes s p pkt u x bs)
include h

section
variable (hr : u.restoreOf x = none)
include hr

theorem BhTakes.chunk_idle (hb : x.btype = 5) : exec (.chunk p pkt) s = .next u := by
  refine (h.handled hb rfl).trans (congrArg _ ?_)
  simp only [hr]

theorem BhTakes.done_idle (hb : x.btype = 7) : exec (.done p pkt) s = .next u := by
  refine (h.handled hb rfl).trans (congrArg _ ?_)
  simp only [hr]

theorem BhTakes.gap_idle (hserved : ∀ r ∈ u.bh.served, r.shard ≠ x.shard) (hb : x.btype = 6) : exec (.gap p pkt) s = .next u := by
  have hfind : (u.bh.served.find? fun r => r.shard = x.shard) = none := List.find?_eq_none.2 fun r hr => by simp [hserved r hr]
  refine (h.handled hb rfl).trans (congrArg _ ?_)
  simp only [hr, Option.orElse_none, hfind]

end

section
variable {r : Restore} (hr : u.restoreOf x = some r) (he : r.epoch = x.epoch)
include hr he

omit h hr in
theorem Restore.epoch_met : epochOlder x.epoch r.epoch = false ∧ (x.epoch ≠ r.epoch) = False :=
  ⟨he ▸ epochOlder_self _, eq_false (not_not.2 he.symm)⟩

/-- A RESTORE that has heard from a node: its parent's chunks are timed. -/
def Restore.heard (r : Restore) (o now : Nat) : Restore := if r.endpointOf r.parent = some o then { r with lastChunk := now } else r

omit h hr he in
theorem Restore.heard_keeps (r : Restore) (o now : Nat) : (r.heard o now).ring = r.ring ∧ (r.heard o now).seq = r.seq ∧
    (r.heard o now).held = r.held ∧ (r.heard o now).verified = r.verified := by
  unfold Restore.heard
  split <;> exact ⟨rfl, rfl, rfl, rfl⟩

section
variable (hb : x.btype = 5) (hn : r.node ≠ 0) (hseq : x.seq < r.chunks)
include hb hn hseq

theorem BhTakes.chunk_bad (hbad : granuleDigest bs ≠ x.digest) :
    exec (.chunk p pkt) s = .next (((u.mapRestore r.ring r.seq fun _ => r.heard pkt.hdr.src u.now).bump F.BH_BAD_CHUNK_COUNT).sendBh
      pkt.hdr.src ⟨Bt.gap, 0, x.shard, x.epoch, 0, 0, x.seq, 0, 0, x.sdigest⟩ []) := by
  obtain ⟨hring, hq, -⟩ := r.heard_keeps pkt.hdr.src u.now
  rw [← hring, ← hq]
  refine (h.handled hb rfl).trans (congrArg _ ?_)
  simp only [hr, Restore.epoch_met he, Bool.false_eq_true, if_false, decide_false, hn, Nat.not_le.2 hseq, Bool.or_self]
  exact if_pos hbad

theorem BhTakes.chunk_good (hgood : granuleDigest bs = x.digest) (hnew : ∀ c ∈ r.held, c.1 ≠ x.seq) {r' : Restore}
    
    (hr' : r' = u.trimHeld { r.heard pkt.hdr.src u.now with held := spIns r.held x.seq bs, verified := r.verified + 1 }) :
    exec (.chunk p pkt) s = .next (((r'.children.foldl (fun t n => t.sendChunk r' n x.seq bs)
      (u.mapRestore r.ring r.seq fun _ => r')).sendDone r').restoreDone r.ring r.seq) := by
  obtain ⟨hring, hq, hheld, hverified⟩ := r.heard_keeps pkt.hdr.src u.now
  have hany : ((r.heard pkt.hdr.src u.now).held.any fun c => c.1 = x.seq) = false :=
    List.any_eq_false.2 fun c hc => by simpa using hnew c (hheld ▸ hc)
  rw [← hheld, ← hverified] at hr'
  rw [← hring, ← hq]
  refine (h.handled hb rfl).trans (congrArg _ ?_)
  simp only [hr, Restore.epoch_met he, Bool.false_eq_true, if_false, decide_false, hn, Nat.not_le.2 hseq, Bool.or_self]
  subst hr'
  exact (if_neg (not_not.2 hgood)).trans (if_neg (Bool.eq_false_iff.1 hany))

end

theorem BhTakes.gap_stranger (hb : x.btype = 6) (hout : ∀ t ∈ r.tree, t.endpoint ≠ pkt.hdr.src) : exec (.gap p pkt) s = .next u := by
  have hfind : (r.tree.findIdx? fun t => t.endpoint = pkt.hdr.src) = none := List.findIdx?_eq_none_iff.2 fun t ht => by simp [hout t ht]
  refine (h.handled hb rfl).trans (congrArg _ ?_)
  simp only [hr, Option.orElse_some, Restore.epoch_met he, Bool.false_eq_true, if_false, hfind]

/-- A child of a relay that keeps every chunk is sent those it asks for. -/
theorem BhTakes.gap_relay {n : Nat} (hb : x.btype = 6) (hn : r.node ≠ 0) (hheld : ∀ c ∈ r.held, c.2 ≠ [])
    (hfind : (r.tree.findIdx? fun t => t.endpoint = pkt.hdr.src) = some n) (hchild : r.child n = true) :
    exec (.gap p pkt) s = .next ((u.mapRestore r.ring r.seq fun _ => r).serveGap r n x.seq) := by
  have hgone : (((List.range r.chunks).drop x.seq).filter fun c => r.held.any fun y => y.1 = c && y.2.isEmpty) = [] :=
    List.filter_eq_nil_iff.2 fun c _ => by
      simp only [List.any_eq_true, Bool.and_eq_true, List.isEmpty_iff, not_exists]
      exact fun y ⟨hy, _, hempty⟩ => hheld y hy hempty
  refine (h.handled hb rfl).trans (congrArg _ ?_)
  simp only [hr, Option.orElse_some, Restore.epoch_met he, Bool.false_eq_true, if_false, hfind, hn, hgone, hchild,
    if_true, List.foldl_nil]

theorem BhTakes.done_kept (hb : x.btype = 7) (hnode : r.endpointOf (bits x.digest 0 12) = some pkt.hdr.src) {r' : Restore}
    (hr' : r' = { r with reported := spPut 0 r.reported (bits x.digest 0 12) (max x.seq (spGet 0 r.reported (bits x.digest 0 12))) }) :
    exec (.done p pkt) s = .next (((u.mapRestore r.ring r.seq fun _ => r').sendDone r').restoreDone r.ring r.seq) := by
  refine (h.handled hb rfl).trans (congrArg _ ?_)
  subst hr'
  simp only [hr, Restore.epoch_met he, Bool.false_eq_true, if_false, decide_false, hnode, ne_eq, not_true_eq_false, Bool.or_self]

end

end

theorem State.serveGap_relay {r : Restore} (hn : r.node ≠ 0) (n from_ : Nat) :
    u.serveGap r n from_ = ((List.range r.chunks).drop from_).foldl (fun t c =>
      if (spGet [] r.held c).isEmpty then t else t.sendChunk r n c (spGet [] r.held c)) u := if_neg hn

/-- Settles O29: the checks of acceptance once for every row, then each BTYPE's handler at its case. -/
theorem boathousePackets : Obligations.BoathousePackets := by
  refine ⟨fun s p pkt row hrow => ?_, fun s p pkt => ?_⟩
  · intro x short
    obtain ⟨f, hf⟩ := exec_bhRow row hrow p pkt
    have hshort : short ↔ ¬s.bhAccepts pkt := by
      rw [State.bhAccepts, not_and_or, Nat.not_le, Bool.not_eq_true]
    rw [hf, hshort, not_not]
    refine ⟨fun h => by rw [State.boathouse_refused h], fun h h8 => ?_, fun h h8 hne => ?_⟩
    · rw [State.boathouse_accepted h, if_pos h8]
    · rw [State.boathouse_accepted h, if_neg (Nat.not_le.2 h8), if_pos hne]
  · intro x o u payload ext answer hlen hpeer
    have h : BhTakes s p pkt u x payload := ⟨⟨hlen, hpeer⟩, rfl, rfl, rfl⟩
    clear_value payload u x
    refine ⟨fun hb hnew => ?_, fun hb hbad => h.frag_bad hb hbad, fun hb hgood => ⟨fun r hr he hd =>
      h.frag_rebuild hb hgood hr he hd, fun hr => ⟨fun hnew => ?_, fun f hf he hd hseq hstale hlast => ?_⟩⟩,
      fun hb hr hresend sh t f hsh hf ht he hholder hwait => ?_, fun hb => ⟨fun f v bs hf hseq hrow hmove =>
      h.fget_held hb hf hseq hrow hmove, fun hf hsh hresend => ?_⟩, fun hr hserved => ?_, fun r hr he => ?_⟩
    · intro rows v f base place
      refine ⟨fun a hwh hplace => ?_, fun hno => ?_⟩
      · exact h.announce hb hnew (place := some a) ((if_pos hwh).trans hplace)
      · refine h.announce hb hnew (place := none) ?_
        split
        · next hwh => exact hno.resolve_left (by simp [hwh])
        · rfl
    · exact (h.frag_hold hb hgood hr).trans (congrArg _ (State.holdRow_unannounced hnew))
    · exact (h.frag_hold hb hgood hr).trans (congrArg _ (State.holdRow_kept hf he hd hseq hstale hlast))
    · rw [h.fack hb hr]
      exact ⟨fun hcode => congrArg _ (State.fragmentAck_refused hresend hsh hf ht he hholder hwait hcode), fun hcode hseq hdigest =>
        congrArg _ (State.fragmentAck_whole hresend hsh hf ht he hholder hwait hcode hseq hdigest)⟩
    · rw [h.fget_missing hb hf hsh hresend]
      refine ⟨fun hnewer => congrArg _ (if_pos ?_), fun hnewer => congrArg _ (if_neg ?_)⟩
      · simpa [and_assoc] using hnewer
      · simpa [and_assoc] using hnewer
    · have hnone : u.restoreOf x = none := List.find?_eq_none.2 fun r hm => by simp [hr r hm]
      exact ⟨h.chunk_idle hnone, h.gap_idle hnone hserved, h.done_idle hnone⟩
    · refine ⟨fun hb hn hseq => ?_, fun hb hout => h.gap_stranger hr he hb hout, fun hb hn hheld n hfind hchild => ?_, fun hb hnode => ?_⟩
      · intro r0
        exact ⟨fun hbad => h.chunk_bad hr he hb hn hseq hbad, fun hgood hnew => ⟨_, rfl, h.chunk_good hr he hb hn hseq hgood hnew rfl⟩⟩
      · rw [h.gap_relay hr he hb hn hheld hfind hchild, State.serveGap_relay hn]
      · exact h.done_kept hr he hb hnode rfl

end Sys2Proof.Machine
end

section
/-! SUPPORT. Shards and their registers (R162 to R164): what bringing the registers up to date leaves, and a shard's state as it moves. -/

namespace Sys2Proof.Machine

variable {s t u : State} {n : Nat}

/-! ### Bytes as numbers -/

theorem leNat_drop (bs : List Byte) (i : Nat) : leNat (bs.drop i) = leNat bs / 256 ^ i := by
  induction i generalizing bs with
  | zero => simp
  | succ i ih =>
    cases bs with
    | nil => simp [leNat]
    | cons b bs =>
      have hb := b.isLt
      rw [List.drop_succ_cons, ih, leNat, pow_succ', ← Nat.div_div_eq_div_mul]
      congr 1
      omega

theorem leNat_take (bs : List Byte) (k : Nat) : leNat (bs.take k) = leNat bs % 256 ^ k := by
  induction k generalizing bs with
  | zero => simp [leNat, Nat.mod_one]
  | succ k ih =>
    cases bs with
    | nil => simp [leNat]
    | cons b bs =>
      have hb := b.isLt
      rw [List.take_succ_cons, leNat, ih, leNat, pow_succ', Nat.mod_mul]
      congr 1
      · omega
      · congr 2
        omega

/-- Bits 32 to 47 of a structure's first word are its bytes 4 and 5. -/
theorem bits_word64At_epoch (bs : List Byte) : bits (word64At bs 0) 32 16 = leNat ((bs.drop 4).take 2) := by
  rw [word64At, List.drop_zero, bits_ofNat, leNat_take, leNat_take, leNat_drop]
  omega

/-! ### Where the registers of shards lie -/

@[simp] theorem regAddr_BH_STATUS : regAddr .BH_STATUS [] = 0x300018 := rfl
@[simp] theorem regAddr_BH_SH_STATE (i : Nat) : regAddr .BH_SH_STATE [i] = 0x380000 + 0x20 * i := rfl
@[simp] theorem regAddr_BH_SH_EPOCH (i : Nat) : regAddr .BH_SH_EPOCH [i] = 0x380008 + 0x20 * i := rfl
@[simp] theorem regAddr_BH_SH_PROG (i : Nat) : regAddr .BH_SH_PROG [i] = 0x380010 + 0x20 * i := rfl
@[simp] theorem regAddr_BH_SH_FAULT (i : Nat) : regAddr .BH_SH_FAULT [i] = 0x380018 + 0x20 * i := rfl

/-- The registers of one shard, and the place of each in the shard's window. -/
def shRegs : List Reg := [.BH_SH_STATE, .BH_SH_EPOCH, .BH_SH_PROG, .BH_SH_FAULT]

def shPlace : Reg → Nat
  | .BH_SH_STATE => 0
  | .BH_SH_EPOCH => 8
  | .BH_SH_PROG => 16
  | _ => 24

theorem regAddr_sh {r : Reg} (hr : r ∈ shRegs) (i : Nat) : regAddr r [i] = 0x380000 + 0x20 * i + shPlace r := by
  simp only [shRegs, List.mem_cons, List.not_mem_nil, or_false] at hr
  obtain rfl | rfl | rfl | rfl := hr
  all_goals
    simp only [regAddr_BH_SH_STATE, regAddr_BH_SH_EPOCH, regAddr_BH_SH_PROG, regAddr_BH_SH_FAULT, shPlace]
    omega

theorem shPlace_inj : ∀ r ∈ shRegs, ∀ q ∈ shRegs, shPlace r = shPlace q → r = q := by decide

theorem regAddr_sh_ne {r q : Reg} (hr : r ∈ shRegs) (hq : q ∈ shRegs) (h : r ≠ q) : regAddr r [n] ≠ regAddr q [n] := by
  rw [regAddr_sh hr, regAddr_sh hq]
  exact fun heq => h (shPlace_inj r hr q hq (by omega))

/-! ### What is shown, and what is the shard's own -/

/-- A shard's state, its committed epoch and its lost holders. -/
def shOwn : List Fld := [F.BH_SH_STATE_STATE, F.BH_SH_EPOCH_COMMITTED, F.BH_SH_FAULT_LOST]

/-- What the registers of a shard show besides. -/
def shShown : List Fld := [F.BH_SH_STATE_OPTIMIZER, F.BH_SH_STATE_MOORING, F.BH_SH_STATE_MOORING_VALID, F.BH_SH_STATE_DURABLE, F.BH_SH_STATE_K,
  F.BH_SH_STATE_M, F.BH_SH_EPOCH_DURABLE_EPOCH, F.BH_SH_EPOCH_SLOT_A, F.BH_SH_EPOCH_SLOT_B, F.BH_SH_PROG_DONE]

theorem shOwn_reg : ∀ f ∈ shOwn, f.reg ∈ shRegs ∧ f.Fits := by
  unfold Fld.Fits
  decide

theorem shShown_apart : ∀ f ∈ shShown, f.reg ∈ shRegs ∧ f.Fits ∧ ∀ g ∈ shOwn, f.reg = g.reg → f.Apart g := by
  unfold Fld.Fits Fld.Apart
  decide

/-- From `s` to `t` neither Boathouse nor a ring changes, and of the registers of shard `n` the fields `l` stand. -/
structure ShStands (l : List Fld) (n : Nat) (s t : State) : Prop where
  bh : t.bh = s.bh
  rings : t.rings = s.rings
  get : ∀ f ∈ l, t.get f [n] = s.get f [n]

namespace ShStands

variable {l : List Fld}

theorem refl (s : State) : ShStands l n s s := ⟨rfl, rfl, fun _ _ => rfl⟩

theorem trans (h : ShStands l n s t) (k : ShStands l n t u) : ShStands l n s u :=
  ⟨k.bh.trans h.bh, k.rings.trans h.rings, fun f hf => (k.get f hf).trans (h.get f hf)⟩

/-- A register that holds none of the fields. -/
theorem wr (h : ShStands l n s t) (r : Reg) (idx : List Nat) (v : Word64) (ha : ∀ f ∈ l, regAddr r idx ≠ regAddr f.reg [n]) :
    ShStands l n s (t.wr r idx v) :=
  h.trans ⟨rfl, rfl, fun f hf => State.get_wr_ne f v (ha f hf)⟩

/-- Another register of the shard. -/
theorem wrShard (h : ShStands l n s t) (hl : ∀ f ∈ l, f ∈ shOwn) {r : Reg} (hr : r ∈ shRegs) (v : Word64) (hne : ∀ f ∈ l, r ≠ f.reg) :
    ShStands l n s (t.wr r [n] v) :=
  h.wr _ _ _ fun f hf => regAddr_sh_ne hr (shOwn_reg f (hl f hf)).1 (hne f hf)

theorem putShown (h : ShStands l n s t) (hl : ∀ f ∈ l, f ∈ shOwn) {f : Fld} (v : Nat) (hf : f ∈ shShown) :
    ShStands l n s (t.put f [n] v) := by
  obtain ⟨hreg, hfits, hapart⟩ := shShown_apart f hf
  refine h.trans ⟨rfl, rfl, fun g hg => ?_⟩
  by_cases hrg : f.reg = g.reg
  · exact State.get_put_reg f g hfits hrg (hapart g (hl g hg) hrg) [n] v
  · exact State.get_put_ne f g v (regAddr_sh_ne hreg (shOwn_reg g (hl g hg)).1 hrg)

theorem putStatus (h : ShStands l n s t) (hl : ∀ f ∈ l, f ∈ shOwn) {f : Fld} (v : Nat) (hf : f.reg = .BH_STATUS) :
    ShStands l n s (t.put f [] v) :=
  h.wr _ _ _ fun g hg => by
    rw [hf, regAddr_BH_STATUS, regAddr_sh (shOwn_reg g (hl g hg)).1]
    omega

theorem showShards (h : ShStands l n s t) (hl : ∀ f ∈ l, f ∈ shOwn) : ShStands l n s t.showShards :=
  (((h.putStatus hl _ rfl).putStatus hl _ rfl).putStatus hl _ rfl).putStatus hl _ rfl

/-- The registers of a shard brought up to date; of one that is FREE its epoch becomes 0. -/
theorem showShard (h : ShStands l n s t) (hl : ∀ f ∈ l, f ∈ shOwn) (hx : t.shard n = none → F.BH_SH_EPOCH_COMMITTED ∉ l) :
    ShStands l n s (t.showShard n) := by
  have hhead := (h.putShown hl ((t.shardMoor n).getD 0) (f := F.BH_SH_STATE_MOORING) (by decide)).putShown hl (t.shardMoor n).isSome.toNat
    (f := F.BH_SH_STATE_MOORING_VALID) (by decide)
  unfold State.showShard
  dsimp only
  split
  · next hnone =>
    refine (hhead.wrShard hl (by decide) _ fun f hf heq => hx hnone ?_).putShown hl _ (by decide)
    have hown : ∀ f ∈ shOwn, .BH_SH_EPOCH = f.reg → f = F.BH_SH_EPOCH_COMMITTED := by decide
    exact hown f (hl f hf) heq ▸ hf
  · have hall := fun a b c d e f g => ((((((hhead.putShown hl a (f := F.BH_SH_STATE_OPTIMIZER) (by decide)).putShown hl b
      (f := F.BH_SH_STATE_DURABLE) (by decide)).putShown hl c (f := F.BH_SH_STATE_K) (by decide)).putShown hl d (f := F.BH_SH_STATE_M)
      (by decide)).putShown hl e (f := F.BH_SH_EPOCH_DURABLE_EPOCH) (by decide)).putShown hl f (f := F.BH_SH_EPOCH_SLOT_A)
      (by decide)).putShown hl g (f := F.BH_SH_EPOCH_SLOT_B) (by decide)
    split
    · exact (hall ..).putShown hl _ (by decide)
    · exact hall ..

theorem shardState (h : ShStands l n s t) (hl : F.BH_SH_STATE_STATE ∈ l) : t.shardState n = s.shardState n := h.get _ hl

theorem shard (h : ShStands l n s t) (m : Nat) : t.shard m = s.shard m := by rw [State.shard, h.bh, State.shard]

end ShStands

/-! ### A shard's state moves -/

/-- A state that is moved to, with all that stands. -/
structure ShardMoved (n st : Nat) (s t : State) : Prop where
  bh : t.bh = s.bh
  rings : t.rings = s.rings
  state : t.shardState n = st
  committed : s.shard n ≠ none → t.committed n = s.committed n

theorem State.setShardState_moved {st : Nat} (hst : st < 8) : ShardMoved n st s (s.setShardState n st) := by
  have hput : (s.put F.BH_SH_STATE_STATE [n] st).shardState n = st :=
    (State.get_put_self F.BH_SH_STATE_STATE (by decide) [n] st).trans (Nat.mod_eq_of_lt hst)
  have hshow : ShStands [F.BH_SH_STATE_STATE] n (s.put F.BH_SH_STATE_STATE [n] st) (s.setShardState n st) :=
    ((ShStands.refl _).showShard (by decide) fun _ => by decide).showShards (by decide)
  refine ⟨hshow.bh, hshow.rings, (hshow.shardState (by decide)).trans hput, fun hx => ?_⟩
  have hall : ShStands shOwn n (s.put F.BH_SH_STATE_STATE [n] st) (s.setShardState n st) :=
    ((ShStands.refl (s.put F.BH_SH_STATE_STATE [n] st)).showShard (fun _ => id) fun hnone => absurd hnone hx).showShards fun _ => id
  exact (hall.get _ (by decide)).trans (State.get_put_ne F.BH_SH_STATE_STATE F.BH_SH_EPOCH_COMMITTED st
    (regAddr_sh_ne (by decide) (by decide) (by decide)))

end Sys2Proof.Machine
end

section
/-! SUPPORT. SHARD CREATE, DELETE and STRIPE, INIT loads and RESTORE away from the root (R162, R163, R186, R194, R436). -/

namespace Sys2Proof.Machine

variable {s u v : State} {c : Cmd} {bs : List Byte} {r q n : Nat}

/-! ### The start of a command -/

theorem State.startCommand_restore (hp : s.get F.PM_STATE_STATE < 2) (ht : c.type = 7) : s.startCommand c = s.startRestore c := by
  simp [State.startCommand, ht, Nat.not_le.2 hp]

theorem State.startIf_shard (hc : s.cmd? r q = some c) (hs : s.startable c = true) (hp : s.get F.PM_STATE_STATE < 2) {op : Nat} (ht : c.type = 8)
    (hop : c.subop = op) : s.startIf r q (isSub 8 op) = s.startShard c := by
  rw [State.startIf_starts hc hs (by simp [isSub, ht, hop])]
  simp [State.startCommand, ht, Nat.not_le.2 hp]

/-- A command that runs, wherever its rings stand since, ends with what it is ended with. -/
theorem State.endCmd_endedWith (hc : s.cmd? c.ring c.seq = some c) {t : State} (ht : t.rings = (s.running c).rings) (status result result2 : Nat) :
    endedWith (t.endCmd c.ring c.seq status 0 result result2) c.ring c.seq status result result2 := by
  have hrun : t.cmd? c.ring c.seq = some { c with stage := .running, startedAt := s.now } :=
    (State.cmd?_congr (by rw [ht]) ..).trans (State.cmd?_running hc)
  exact ⟨_, State.cmd?_endCmd hrun (by simp) .., rfl, rfl, rfl, rfl⟩

/-! ### The structure that a SHARD command points to -/

/-- What the checks of a SHARD command have seen where its structure is there. -/
structure State.ItemRead (g : State) (c : Cmd) (bad : Bool) (u : State) : Prop where
  desc : g.shardDesc c bad = none
  rings : u.rings = g.rings

theorem State.shardItem_ok {len : Nat → Bool} {bad : Bool} (h : s.shardItem c len bad = (u, .ok bs)) : s.ItemRead c bad u := by
  unfold State.shardItem at h
  split at h
  · simp at h
  · next hdesc =>
    refine ⟨hdesc, ?_⟩
    split at h
    · simp at h
    · split at h
      · simp at h
      · have hread := ((EngineStands.refl s).ptrRead 1 (c.word 5) c.shLen).rings
        rcases hp : s.ptrRead 1 (c.word 5) c.shLen with ⟨v, e | b⟩
        · simp [hp] at h
        · simp only [hp, Prod.mk.injEq] at h hread
          rw [← h.1, hread]

theorem State.shardDesc_number {bad : Bool} (h : s.shardDesc c bad = none) : c.shardNo < 4096 := by
  have hlow := lowestBad_none (minOpt_none.1 h).2 (0x22, c.shardNo > 4095 || bad) (by simp)
  simp only [Bool.or_eq_false_iff, decide_eq_false_iff_not] at hlow
  omega

/-! ### CREATE (R163) -/

/-- A new shard described at its place in the manifest store, with its initial epoch committed. -/
def State.describe (u : State) (n : Nat) (x : Shard) (a epoch : Nat) : State :=
  (((u.setShard n (some { x with msBase := a })).wr .BH_SH_FAULT [n] 0).wr .BH_SH_EPOCH [n] 0).put F.BH_SH_EPOCH_COMMITTED [n] epoch

@[simp] theorem State.shard_setShard_self (x : Option Shard) : (u.setShard n x).shard n = x := spGet_spPut_self _ _ _ _

theorem State.describe_shard (x : Shard) (a epoch : Nat) : (u.describe n x a epoch).shard n = some { x with msBase := a } := by
  rw [State.shard, State.describe, State.put_bh, State.wr_bh, State.wr_bh, ← State.shard, State.shard_setShard_self]

theorem State.describe_committed (x : Shard) (a epoch : Nat) : (u.describe n x a epoch).committed n = epoch % 2 ^ 16 :=
  State.get_put_self F.BH_SH_EPOCH_COMMITTED (by decide) [n] epoch

theorem State.describe_loads (x : Shard) (a epoch : Nat) : (u.describe n x a epoch).bh.loads = u.bh.loads := rfl

theorem State.describe_rings (x : Shard) (a epoch : Nat) : (u.describe n x a epoch).rings = u.rings := rfl

/-- A load that is to run. -/
def State.withLoad (u : State) (l : Nat × Nat × Nat) : State := { u with bh := { u.bh with loads := u.bh.loads ++ [l] } }

section
variable (hitem : (s.running c).shardItem c (· = 64) (s.shardState c.shardNo ≠ Sh.free) = (u, .ok bs)) (hfault : u.shardFault bs = none)
  (hparams : (parseShard bs).params ≠ 0) (hplanes : ¬((parseShard bs).optimizer = 15 ∧ (parseShard bs).planes = 0))
  (hroom : u.bh.shards.length < 4096) {a : Nat} (hplace : u.manifestPlace (parseShard bs) = some a)
include hitem hfault hparams hplanes hroom hplace

theorem State.startShardCreate_good : s.startShardCreate c =
    if (parseShard bs).initKind = 0 then
      ((u.describe c.shardNo (parseShard bs) a (bits (word64At bs 0) 32 16)).setShardState c.shardNo Sh.empty).endCmd c.ring c.seq St.ok 0 0 0
    else ((u.describe c.shardNo (parseShard bs) a (bits (word64At bs 0) 32 16)).withLoad (c.ring, c.seq, c.shardNo)).setShardState
      c.shardNo Sh.loading := by
  have hread : (s.running c).shardItem c (· = 64) ((s.running c).shardState c.shardNo ≠ Sh.free) = (u, .ok bs) := hitem
  have hzero : (decide ((parseShard bs).params = 0) || (decide ((parseShard bs).optimizer = 15) && decide ((parseShard bs).planes = 0))) =
      false := by simpa [hparams] using hplanes
  have hfits : decide (u.bh.shards.length ≥ 4096) = false := by simpa using hroom
  simp only [State.startShardCreate, hread, hfault, hzero, hfits, hplace, Option.isNone_some, Bool.or_self, Bool.false_eq_true, if_false,
    Option.getD_some]
  rfl

end

/-! ### DELETE (R162) -/

/-- A shard that is forgotten, with what Boathouse keeps of it and its registers. -/
def State.forgetShard (s : State) (n : Nat) : State :=
  let t : State := { s with bh := { s.bh with
    served := s.bh.served.filter (·.shard ≠ n), resends := s.bh.resends.filter (·.shard ≠ n) } }
  (((t.setShard n none).wr .BH_SH_FAULT [n] 0).wr .BH_SH_STATE [n] 0)

theorem State.forgetShard_shard : (s.forgetShard n).shard n = none := by
  rw [State.shard, State.forgetShard, State.wr_bh, State.wr_bh, ← State.shard, State.shard_setShard_self]

theorem State.forgetShard_state : (s.forgetShard n).shardState n = Sh.free :=
  (State.get_wr_self F.BH_SH_STATE_STATE [n] 0).trans (bits_zero ..)

theorem State.startShardDelete_good (hdesc : (s.running c).shardDesc c false = none) (hlen : c.shLen = 0)
    (hstate : (s.running c).shardState c.shardNo = Sh.empty ∨ (s.running c).shardState c.shardNo = Sh.live)
    (hmoor : (s.running c).shardMoor c.shardNo = none) (hfreeze : ∀ x, (s.running c).shard c.shardNo = some x → x.freeze = none) :
    s.startShardDelete c =
      ((((s.running c).forgetShard c.shardNo).showShard c.shardNo).showShards).endCmd c.ring c.seq St.ok 0 0 0 := by
  have hmayState : (decide ((s.running c).shardState c.shardNo = Sh.empty) || decide ((s.running c).shardState c.shardNo = Sh.live)) = true := by
    simpa using hstate
  have hzero : lowestBad [(0x30, decide (c.shLen ≠ 0))] = none := by simp [lowestBad, hlen]
  cases hx : (s.running c).shard c.shardNo with
  | none =>
    simp only [State.startShardDelete, hx, hmayState, hmoor, Bool.not_true, Option.isSome_none, Bool.or_self, hdesc, hzero]
    rfl
  | some x =>
    simp only [State.startShardDelete, hx, hfreeze x hx, hmayState, hmoor, Bool.not_true, Option.isSome_none, Bool.or_self, hdesc, hzero]
    rfl

/-! ### STRIPE (R186) -/

/-- A shard with a new stripe, none of its holders lost or DEAD. -/
def State.restripe (u : State) (n : Nat) (st : Stripe) : State :=
  (((u.revive st).mapShard n fun x => { x with stripe := some st }).put F.BH_SH_FAULT_LOST [n] 0).showShard n

theorem State.mapShard_some {x : Shard} (hx : u.shard n = some x) (f : Shard → Shard) : u.mapShard n f = u.setShard n (some (f x)) := by
  simp only [State.mapShard, hx]

theorem State.revive_dead (st : Stripe) : ∀ h ∈ st.holders, h.1 ∉ (u.revive st).bh.deadPeers := by
  intro h hh
  simp only [State.revive, List.mem_filter, Bool.not_eq_true', List.any_eq_false, decide_eq_true_eq, not_and, not_forall]
  exact fun _ => ⟨h, hh, fun hne => hne rfl⟩

/-- What a new stripe leaves of a shard. -/
theorem State.restripe_stands {x : Shard} (hx : u.shard n = some x) (st : Stripe) :
    ShStands shOwn n (((u.revive st).setShard n (some { x with stripe := some st })).put F.BH_SH_FAULT_LOST [n] 0) (u.restripe n st) := by
  have hx' : (u.revive st).shard n = some x := hx
  rw [State.restripe, State.mapShard_some hx']
  refine (ShStands.refl _).showShard (fun _ => id) fun hnone => ?_
  rw [State.shard, State.put_bh, ← State.shard, State.shard_setShard_self] at hnone
  exact absurd hnone (by simp)

section
variable {st : Stripe} {p : Word64} {bad : Bool}
  (hitem : (s.running c).shardItem c (fun l => 16 ≤ l && l % 16 = 0) bad = (u, .ok bs))
  (hk : st.k ≠ 0) (hlen : c.shLen = 16 + 16 * (st.k + st.m))
include hitem hk hlen

theorem State.startStripe_good (hbad : bad = decide ((s.running c).shardState c.shardNo = Sh.free)) (hst : parseStripe bs = (st, false, p))
    (hfault : u.stripeFault bs false = none) : s.startStripe c = (u.restripe c.shardNo st).endCmd c.ring c.seq St.ok 0 0 0 := by
  subst hbad
  simp only [State.startStripe, hitem, hst, hfault, hk, if_false, hlen, ne_eq, not_true_eq_false]
  refine congrArg (fun t : State => t.endCmd c.ring c.seq St.ok 0 0 0) ?_
  split
  · contradiction
  · rfl

end

/-! ### INIT loads (R436) -/

theorem State.writeBlock_eq (x : Shard) (b : Nat) : s.writeBlock x b bs = (s.dockWrite (x.dockBase + b * (4096 * x.planes + x.side)) bs).dockWrite
    (x.dockBase + x.blocks * (4096 * x.planes + x.side) + 8 * b) (leBytes (granuleDigest bs).toNat 8) := rfl

/-- A fold that nothing stops. -/
theorem foldl_unstopped (f : State → Nat → State) (l : List Nat) (s : State) :
    l.foldl (fun (acc : State × Bool) b => if acc.2 = true then acc else (f acc.1 b, false)) (s, false) = (l.foldl f s, false) := by
  induction l generalizing s with
  | nil => rfl
  | cons b l ih => exact ih (f s b)

/-- A load of zeros meets no bad source. -/
theorem exec_initLoad_zeros {x : Shard} (hl : (s.bh.loads.find? fun l => l.2.2 = n) = some (r, q, n)) (hx : s.shard n = some x)
    (hkind : x.initKind = 1) : exec (.initLoadComplete n) s = .next ((((List.range x.blocks).foldl (fun t b =>
      t.writeBlock x b (List.replicate x.blockBytes 0)) (s.dropLoad n)).setShardState n Sh.live).endCmd r q St.ok 0 0 0) := by
  show execInitLoadComplete n s = _
  simp only [execInitLoadComplete, hl, hx, hkind, if_true, foldl_unstopped fun t b => State.writeBlock t x b (List.replicate x.blockBytes 0),
    Bool.false_eq_true, if_false]

/-! ### RESTORE (R194) -/

theorem State.restoreDesc_format {st : Nat} {tree : List TreeNode} (h : s.restoreDesc c st tree = none) :
    ∃ f, Fmt.ofCode (c.fld 4 36 4) = some f := by
  by_contra hno
  have hnone : Fmt.ofCode (c.fld 4 36 4) = none := Option.eq_none_iff_forall_not_mem.2 fun f hf => hno ⟨f, hf⟩
  have hlow := lowestBad_none (minOpt_none.1 h).2
  simp [hnone] at hlow

/-- The nodes of a tree whose endpoints are DEAD. -/
def State.deadNodes (v : State) (tree : List TreeNode) : List Nat :=
  (List.range tree.length).filter fun i => match tree[i]? with | some t => v.bh.deadPeers.contains t.endpoint | none => false

/-- A RESTORE that a node has joined, with nothing held. -/
def State.relay (v : State) (c : Cmd) (f : Fmt) (m : List Byte) (tree : List TreeNode) (node parent : Nat) : Restore :=
  ⟨c.ring, c.seq, c.rsShard, c.rsEpoch, c.rsMoor, f, m, tree, node, parent, (manShard m c.rsShard).bdt.length, [], 0, [], v.deadNodes tree,
    [], 0, v.now, []⟩

/-- A RESTORE joins those that run, and takes the place of an ended one of its shard. -/
def State.joinRestore (v : State) (x : Restore) : State :=
  { v with bh := { v.bh with restores := v.bh.restores ++ [x], served := v.bh.served.filter (·.shard ≠ x.shard) } }

section
variable {m : List Byte} {node : Nat} {t0 : TreeNode} {f : Fmt} (hptr : (s.running c).ptrOk (c.word 5) c.rsLen = true)
  (hread : (s.running c).ptrRead 1 (c.word 5) c.rsLen = (u, .ok bs))
  (hdesc : u.restoreDesc c ((s.running c).shardState c.rsShard) (parseTree bs) = none)
  (hlen : c.rsLen ≠ 0) (htree : parseTree bs ≠ []) (hfault : u.treeFault bs = none)
  (hown : ((parseTree bs).findIdx? fun t => u.isOwn t.endpoint) = some node) (hroot : node ≠ 0) (hnode : (parseTree bs)[node]? = some t0)
  (hman : u.readManifest (c.word 7) c.rsShard none = (v, .ok m)) (hepoch : (manShard m c.rsShard).epoch = c.rsEpoch)
  (hfmt : Fmt.ofCode (c.fld 4 36 4) = some f)
include hptr hread hdesc hlen htree hfault hown hroot hnode hman hepoch hfmt

theorem State.startRestore_relay : s.startRestore c = v.joinRestore (v.relay c f m (parseTree bs) node t0.parent) := by
  have hnotRoot : (some node = some 0) = False := eq_false fun h => hroot (Option.some.inj h)
  have hnonempty : (parseTree bs).isEmpty = false := by simpa using htree
  simp only [State.startRestore, hptr, if_true, hread, hdesc, hlen, ne_eq, not_false_eq_true, decide_true, hnonempty, Bool.not_false, Bool.true_and,
    hfault, Option.isSome_none, Bool.false_eq_true, if_false, hown, hnotRoot, decide_false, hman, Bool.or_self, hepoch, not_true_eq_false,
    Bool.false_and, hfmt, Option.getD_some, hnode]
  rfl

end

end Sys2Proof.Machine
end

section
/-! SUPPORT. What a packet of this module leaves of Boathouse and of its registers (R188, R235). -/

namespace Sys2Proof.Machine

variable {s t u : State}

@[simp] theorem regAddr_HB_STATUS (i : Nat) : regAddr .HB_STATUS [i] = 0x600008 + 0x40000 * i := rfl
@[simp] theorem regAddr_HB_LEARN_PROD (i : Nat) : regAddr .HB_LEARN_PROD [i] = 0x600040 + 0x40000 * i := rfl
@[simp] theorem regAddr_HB_LEARN_LOST (i : Nat) : regAddr .HB_LEARN_LOST [i] = 0x600050 + 0x40000 * i := rfl
@[simp] theorem regAddr_HB_PAR_ERR (i : Nat) : regAddr .HB_PAR_ERR [i] = 0x600058 + 0x40000 * i := rfl
@[simp] theorem regAddr_BS_BUF_USED (i : Nat) : regAddr .BS_BUF_USED [i] = 0x500048 + 0x8 * i := rfl

/-- Boathouse stands from `s` to `t`, and with it every register below the Pavilions' block, Boathouse's among them. -/
structure BhStands (s t : State) : Prop where
  bh : t.bh = s.bh
  rd : ∀ r idx, regAddr r idx < 0x400000 → t.rd r idx = s.rd r idx

namespace BhStands

theorem refl (s : State) : BhStands s s := ⟨rfl, fun _ _ _ => rfl⟩

theorem trans (h : BhStands s t) (k : BhStands t u) : BhStands s u :=
  ⟨k.bh.trans h.bh, fun r idx ha => (k.rd r idx ha).trans (h.rd r idx ha)⟩

/-- A change of neither Boathouse nor a register. -/
theorem same (h : BhStands s t) (hbh : u.bh = t.bh := by rfl) (hregs : u.regs = t.regs := by rfl) : BhStands s u :=
  h.trans ⟨hbh, fun _ _ _ => by rw [State.rd, hregs, State.rd]⟩

theorem withBasin (h : BhStands s t) (b : Basin) : BhStands s { t with basin := b } := h.same

theorem withDock (h : BhStands s t) (d : DockMem) : BhStands s { t with dock := d } := h.same

theorem wr (h : BhStands s t) (r : Reg) (idx : List Nat) (v : Word64) (ha : 0x400000 ≤ regAddr r idx) : BhStands s (t.wr r idx v) :=
  h.trans ⟨rfl, fun _ _ hr => State.rd_wr_ne _ (by omega)⟩

theorem put (h : BhStands s t) (f : Fld) (idx : List Nat) (v : Nat) (ha : 0x400000 ≤ regAddr f.reg idx) : BhStands s (t.put f idx v) :=
  h.wr _ _ _ ha

theorem bump (h : BhStands s t) (f : Fld) (idx : List Nat) (ha : 0x400000 ≤ regAddr f.reg idx) : BhStands s (t.bump f idx) := h.put _ _ _ ha

theorem tally (h : BhStands s t) (e n : Nat) : BhStands s (t.tally e n) := h.put _ _ _ (by simp [F.TL_EVT_COUNT]; omega)

theorem ite {c : Prop} [Decidable c] (ht : BhStands s t) (hu : BhStands s u) : BhStands s (if c then t else u) := by
  split <;> assumption

theorem foldl {β : Type} (l : List β) (f : State → β → State) (h : BhStands s t) (hf : ∀ u x, BhStands s u → BhStands s (f u x)) :
    BhStands s (l.foldl f t) := by
  induction l generalizing t with
  | nil => exact h
  | cons x l ih => exact ih (hf t x h)

/-! ### Dock's writes (R207 to R211) -/

theorem wakeDock (h : BhStands s t) : BhStands s t.wakeDock := ite (h.same.put _ _ _ (by decide)) h.same

theorem useCheck (h : BhStands s t) (line : Nat) (write : Bool) : BhStands s (t.useCheck line write) := by
  unfold State.useCheck
  dsimp only
  split <;> exact h.same

theorem dockErr (h : BhStands s t) (line source : Nat) (uncorr : Bool) : BhStands s (t.dockErr line source uncorr) :=
  ite (h.wr _ _ _ (by decide)) h

theorem injectLine (h : BhStands s t) (line : Nat) : BhStands s (t.injectLine line) := by
  unfold State.injectLine
  split
  · exact (h.put F.DK_INJECT_ARM [] 0 (by decide)).same
  · exact h.same

theorem writeLine (h : BhStands s t) (line a : Nat) (bs : List Byte) : BhStands s (t.writeLine line a bs) := by
  have hwoken : BhStands s (t.wakeDock.backInvalidate line) := ite h.wakeDock.same h.wakeDock
  have hrepaired : BhStands s (if bs.length < 64 then (t.wakeDock.backInvalidate line).repairLine line
      else t.wakeDock.backInvalidate line) := ite (hwoken.withDock _) hwoken
  unfold State.writeLine
  dsimp only
  split
  · exact hwoken.dockErr ..
  · exact (((hrepaired.withDock _).useCheck line true).injectLine line).tally ..

theorem dockWrite (h : BhStands s t) (a : Nat) (bs : List Byte) : BhStands s (t.dockWrite a bs) := h.foldl _ _ fun _ l hu => hu.writeLine l ..

/-! ### The Harbour's tables (R250 to R255) -/

theorem hShow (h : BhStands s t) (pipe : Nat) : BhStands s (t.hShow pipe) := by
  have hstatus (u : State) (hu : BhStands s u) (f : Fld) (v : Nat) (hf : f.reg = .HB_STATUS) : BhStands s (u.put f [pipe] v) :=
    hu.put f [pipe] v (by rw [hf, regAddr_HB_STATUS]; omega)
  exact hstatus _ (hstatus _ (hstatus _ h _ _ rfl) _ _ rfl) _ _ rfl

theorem hSet (h : BhStands s t) (pipe i : Nat) (e : Option HEntry) : BhStands s (t.hSet pipe i e) := hShow h.same pipe

theorem notify (h : BhStands s t) (pipe key port reason index : Nat) : BhStands s (t.notify pipe key port reason index) := by
  unfold State.notify
  dsimp only
  refine ite h (ite (h.bump _ _ ?_) ((h.dockWrite ..).put _ _ _ ?_))
  · simp [F.HB_LEARN_LOST_COUNT]
    omega
  · simp [F.HB_LEARN_PROD_PROD]
    omega

theorem parityError (h : BhStands s t) (pipe i key : Nat) : BhStands s (t.parityError pipe i key) := by
  have hcounted : BhStands s ((t.hSet pipe i none).bump F.HB_PAR_ERR_COUNT [pipe]) :=
    (h.hSet pipe i none).bump _ _ (by simp [F.HB_PAR_ERR_COUNT]; omega)
  exact (hcounted.put F.HB_PAR_ERR_LAST_INDEX [pipe] i (by simp [F.HB_PAR_ERR_LAST_INDEX]; omega)).notify ..

theorem hLookup (h : BhStands s t) (pipe key : Nat) : BhStands s (t.hLookup pipe key).2 := by
  have hfound : BhStands s ((t.tally 0x18).hFind pipe key).2 := foldl _ _ (h.tally ..) fun _ _ hu => hu.parityError ..
  unfold State.hLookup
  dsimp only
  split
  · exact hfound
  · exact hfound.hSet ..

theorem destTarget (h : BhStands s t) (pipe port : Nat) (x : Header) : BhStands s (t.destTarget pipe port x).2.2 := by
  have hlook := h.hLookup pipe (hKey x.dst x.tc x.job)
  unfold State.destTarget
  dsimp only
  split
  · exact hlook
  · split
    · split <;> exact hlook
    · split <;> exact hlook.notify ..

/-! ### Queues (R236 to R247) -/

theorem pcCount (h : BhStands s t) (kind : Nat) (pass : State → Nat → Bool) (pos n : Nat) : BhStands s (t.pcCount kind pass pos n) :=
  foldl _ _ h fun _ k hu => ite (hu.put _ _ _ (by simp [F.TL_PC_VAL_COUNT]; omega)) hu

theorem dropDown (h : BhStands s t) (p cls : Nat) : BhStands s (t.dropDown p cls) := by
  unfold State.dropDown State.countDrop
  exact (h.bump F.BS_DROP_DOWN_COUNT [] (by decide)).pcCount ..

theorem dropBuf (h : BhStands s t) (p cls : Nat) : BhStands s ((t.bump F.BS_DROP_BUF_COUNT).countDrop p cls) := by
  unfold State.countDrop
  exact (h.bump F.BS_DROP_BUF_COUNT [] (by decide)).pcCount ..

theorem useCells (h : BhStands s t) (die n : Nat) : BhStands s (t.useCells die n) := by
  have hused := h.put F.BS_BUF_USED_USED [die] (t.get F.BS_BUF_USED_USED [die] + n) (by simp [F.BS_BUF_USED_USED]; omega)
  exact ite (hused.put F.BS_BUF_USED_PEAK [die] _ (by simp [F.BS_BUF_USED_PEAK]; omega)) hused

theorem pairHead (h : BhStands s t) (quay e c : Nat) (empty : Bool) : BhStands s (t.pairHead quay e c empty) := ite h h.same

theorem countEnqueue (h : BhStands s t) (ingress egress : Nat) (pkt : Packet) : BhStands s (t.countEnqueue ingress egress pkt) :=
  (((h.pcCount ..).pcCount ..).pcCount ..).pcCount ..

theorem toVoq (h : BhStands s t) (x : BPkt) (egress : Nat) : BhStands s (t.toVoq x egress) := by
  unfold State.toVoq
  dsimp only
  have hin (pkt : Packet) : BhStands s ((t.useCells (dieOf x.port) x.pkt.cells).countEnqueue x.port egress pkt) := (h.useCells ..).countEnqueue ..
  exact ite ((hin _).withBasin _) (pairHead ((hin _).withBasin _) ..)

theorem queueTo (h : BhStands s t) (x : BPkt) (egress : Nat) : BhStands s (t.queueTo x egress) := by
  unfold State.queueTo
  dsimp only
  exact ite (h.dropDown ..) (ite (toVoq (ite h h.same) ..) (h.dropBuf ..))

theorem pickMember (h : BhStands s t) (b : Nat) (x : Header) : BhStands s (t.pickMember b x).2 := by
  unfold State.pickMember
  dsimp only
  split
  · exact h
  · split
    · exact tally h.same ..
    · exact h

theorem deliver (h : BhStands s t) (x : BPkt) (target : Target) : BhStands s (t.deliver x target) := by
  cases target with
  | port p => exact h.queueTo ..
  | bundle b =>
    have hpick := h.pickMember b x.pkt.hdr
    unfold State.deliver
    dsimp only
    split
    · exact hpick.queueTo ..
    · exact hpick.dropDown ..
  | hm => exact ite h.same (h.dropBuf ..)
  | drop =>
    unfold State.deliver State.countDrop
    exact (h.bump F.BS_DROP_MISS_COUNT [] (by decide)).pcCount ..

theorem sendTo (h : BhStands s t) (pkt : Packet) : BhStands s (t.sendTo pkt) := by
  have htarget := h.destTarget 0 0 pkt.hdr
  unfold State.sendTo
  dsimp only
  exact htarget.deliver ..

/-- A Boathouse packet that leaves. -/
theorem sendBh (h : BhStands s t) (ep : Nat) (x : BhExt) (payload : List Byte) : BhStands s (t.sendBh ep x payload) := by
  unfold State.sendBh State.build State.fresh
  dsimp only
  exact sendTo h.same _

end BhStands

end Sys2Proof.Machine
end

section
/-! SUPPORT. REBUILD from a stripe (R191): the first rows that are asked of its holders. -/

namespace Sys2Proof.Machine

variable {s t u v : State} {r r' r'' : Rebuild} {x : Shard} {key : Nat}

/-! ### Rows asked for -/

/-- From `s` and `r` rows have been asked for: nothing else of Boathouse's rebuilds, and no register of its, changes. -/
structure Asks (s : State) (r : Rebuild) (t : State) (r' : Rebuild) : Prop where
  rebuilds : t.bh.rebuilds = s.bh.rebuilds
  rd : ∀ q idx, regAddr q idx < 0x400000 → t.rd q idx = s.rd q idx
  same : r' = { r with asked := r'.asked }
  asked : ∀ k ∈ r.asked, k ∈ r'.asked

theorem Asks.refl (s : State) (r : Rebuild) : Asks s r s r := ⟨rfl, fun _ _ _ => rfl, rfl, fun _ => id⟩

theorem Asks.trans (h : Asks s r t r') (k : Asks t r' u r'') : Asks s r u r'' := by
  refine ⟨k.rebuilds.trans h.rebuilds, fun q idx ha => (k.rd q idx ha).trans (h.rd q idx ha), ?_, fun key hk => k.asked key (h.asked key hk)⟩
  have hk := k.same
  rw [h.same] at hk
  exact hk

/-- An FGET adds to what awaits an answer only. -/
theorem State.askBh_rebuilds (s : State) (ep : Nat) (x : BhExt) (payload : List Byte) :
    (s.askBh ep x payload).bh.rebuilds = s.bh.rebuilds ∧ ∀ q idx, regAddr q idx < 0x400000 → (s.askBh ep x payload).rd q idx = s.rd q idx := by
  have hsent := (BhStands.refl s).sendBh ep x payload
  have hrebuilds : (s.sendBh ep x payload).bh.rebuilds = s.bh.rebuilds := congrArg Boathouse.rebuilds hsent.bh
  unfold State.askBh
  dsimp only
  split <;> exact ⟨hrebuilds, hsent.rd⟩

theorem State.askRow_asks (s : State) (r : Rebuild) (key : Nat) : Asks s r (s.askRow r key).1 (s.askRow r key).2 := by
  unfold State.askRow
  split
  · split
    · exact .refl s r
    · obtain ⟨hrebuilds, hrd⟩ := State.askBh_rebuilds s _ _ _
      exact ⟨hrebuilds, hrd, rfl, fun _ => List.mem_cons_of_mem _⟩
  · exact .refl s r

theorem State.askRows_asks (keys : List Nat) (s : State) (r : Rebuild) : Asks s r (s.askRows r keys).1 (s.askRows r keys).2 := by
  induction keys generalizing s r with
  | nil => exact .refl s r
  | cons key keys ih => exact (s.askRow_asks r key).trans (ih _ _)

/-! ### The first row -/

/-- A rebuild that has received nothing and asked for rows 0 only. -/
structure Rebuild.First (r : Rebuild) : Prop where
  got : r.got = []
  asked : ∀ k ∈ r.asked, k < 32

/-- Row 0 of a fragment that has a holder is asked for, unless it was. -/
theorem State.askRow_first (hr : r.First) (hkey : key < 32) (hholder : (r.stripe.holders[key]?).isSome) :
    key ∈ (s.askRow r key).2.asked ∧ (s.askRow r key).2.First := by
  obtain ⟨h, hh⟩ := Option.isSome_iff_exists.1 hholder
  have hmod : key % 32 = key := Nat.mod_eq_of_lt hkey
  by_cases hasked : key ∈ r.asked
  · have hsame : s.askRow r key = (s, r) := by simp [State.askRow, hmod, hh, hasked]
    rw [hsame]
    exact ⟨hasked, hr⟩
  · have hhas : r.has key = false := by simp [Rebuild.has, hr.got]
    have hflight : r.inFlight key = 0 := by
      refine List.length_eq_zero_iff.2 (List.filter_eq_nil_iff.2 fun k hk => ?_)
      have hne : k % 32 ≠ key := by
        rw [Nat.mod_eq_of_lt (hr.asked k hk)]
        exact fun heq => hasked (heq ▸ hk)
      simp [hne]
    have hopen : ¬s.rowWindow ≤ 0 := by
      unfold State.rowWindow
      omega
    have hnew : (s.askRow r key).2 = { r with asked := key :: r.asked } := by
      simp [State.askRow, hmod, hh, hhas, hasked, hflight, hopen]
    rw [hnew]
    exact ⟨List.mem_cons_self, hr.got, List.forall_mem_cons.2 ⟨hkey, hr.asked⟩⟩

theorem State.askRows_first {keys : List Nat} (hr : r.First) (hkeys : ∀ k ∈ keys, k < 32 ∧ (r.stripe.holders[k]?).isSome) :
    ∀ k ∈ keys, k ∈ (s.askRows r keys).2.asked := by
  induction keys generalizing s r with
  | nil => exact nofun
  | cons key keys ih =>
    rw [List.forall_mem_cons] at hkeys
    obtain ⟨hasked, hfirst⟩ := State.askRow_first (s := s) hr hkeys.1.1 hkeys.1.2
    have hstripe : (s.askRow r key).2.stripe = r.stripe := by rw [(s.askRow_asks r key).same]
    have hstep : s.askRows r (key :: keys) = (s.askRow r key).1.askRows (s.askRow r key).2 keys := rfl
    rw [hstep]
    refine List.forall_mem_cons.2 ⟨(State.askRows_asks keys _ _).asked key hasked, ih hfirst ?_⟩
    rw [hstripe]
    exact hkeys.2

theorem State.askRows_append (s : State) (r : Rebuild) (keys rest : List Nat) :
    s.askRows r (keys ++ rest) = (s.askRows r keys).1.askRows (s.askRows r keys).2 rest := List.foldl_append

/-! ### A rebuild goes on (R191) -/

/-- A rebuild of a whole image that has asked for nothing, from fragments that have holders. -/
structure Rebuild.Fresh (r : Rebuild) : Prop where
  got : r.got = []
  asked : r.asked = []
  todo : r.todo = []
  next : r.nextRow = 0
  some : r.stripe.k ≠ 0
  chosen : r.chosen ≠ []
  holder : ∀ f ∈ r.chosen, f < 32 ∧ (r.stripe.holders[f]?).isSome

theorem Rebuild.Fresh.first (h : r.Fresh) : r.First := ⟨h.got, by rw [h.asked]; exact nofun⟩

theorem Rebuild.Fresh.rows_pos (h : r.Fresh) {image : Nat} (hi : image ≠ 0) : 0 < r.rows image := by
  have hk := h.some
  have hblock : 0 < 4096 * r.stripe.k := by omega
  rw [Rebuild.rows, fragBytes, Nat.mul_div_cancel_left _ (by decide)]
  exact Nat.div_pos (by omega) hblock

/-- Nothing is decoded before the first row is there. -/
theorem Rebuild.Fresh.decodeRows (h : r.Fresh) (s : State) (x : Shard) (k : Nat) : s.decodeRows x k r = (s, r) := by
  obtain ⟨f, hf⟩ := List.exists_mem_of_ne_nil _ h.chosen
  cases k with
  | zero => rfl
  | succ k =>
    have hlack : (r.chosen.all fun f => r.has (32 * r.nextRow + f)) = false :=
      List.all_eq_false.2 ⟨f, hf, by simp [Rebuild.has, h.got]⟩
    simp only [State.decodeRows, hlack, Bool.and_false, Bool.false_eq_true, if_false]

/-- The rows that a rebuild with nothing decoded asks for. -/
def State.firstKeys (s : State) (r : Rebuild) (image : Nat) : List Nat :=
  ((List.range (r.rows image)).take s.rowWindow).flatMap fun row => r.chosen.map fun f => 32 * row + f

theorem State.firstKeys_eq (hrows : 0 < r.rows x.imageBytes) : ∃ rest, s.firstKeys r x.imageBytes = r.chosen ++ rest := by
  obtain ⟨k, hk⟩ := Nat.exists_eq_succ_of_ne_zero hrows.ne'
  obtain ⟨w, hw⟩ : ∃ w, s.rowWindow = w + 1 := ⟨s.rowWindow - 1, by unfold State.rowWindow; omega⟩
  rw [State.firstKeys, hk, hw, List.range_succ_eq_map, List.take_succ_cons, List.flatMap_cons]
  simp

/-- What is shown of a rebuild that goes on before its first row. -/
def State.showRebuild (s : State) (ring seq : Nat) (r : Rebuild) (x : Shard) : State :=
  ((s.mapRebuild ring seq fun _ => r).put F.BH_SH_PROG_DONE [r.shard] r.nextRow).mapRestore ring seq fun q => { q with verified := r.good x }

section
variable {ring seq : Nat} (h : r.Fresh) (hfind : s.rebuild? ring seq = some r) (hx : s.shard r.shard = some x) (himage : x.imageBytes ≠ 0)
include h hfind hx himage

theorem State.advanceRebuild_fresh : s.advanceRebuild ring seq =
    (((s.showRebuild ring seq r x).askRows r ((s.showRebuild ring seq r x).firstKeys r x.imageBytes)).1.mapRebuild ring seq fun _ =>
      ((s.showRebuild ring seq r x).askRows r ((s.showRebuild ring seq r x).firstKeys r x.imageBytes)).2) := by
  have hrecover : s.recoverBlocks x r = (s, r, false) := by
    simp only [State.recoverBlocks, h.todo, List.foldl_nil]
  have hmore : ¬(0 = r.rows x.imageBytes) := (h.rows_pos himage).ne
  have hkeys : (s.showRebuild ring seq r x).firstKeys r x.imageBytes = (((List.range (r.rows x.imageBytes)).drop r.nextRow |>.take
      (s.showRebuild ring seq r x).rowWindow).flatMap fun row => r.chosen.map fun f => 32 * row + f) := by
    rw [h.next, List.drop_zero]
    rfl
  rw [hkeys]
  simp only [State.advanceRebuild, hfind, hx, h.decodeRows, hrecover, Bool.false_eq_true, if_false]
  rw [if_neg (by simp [h.next, hmore])]
  rfl

/-- A fresh rebuild asks for the first row of every fragment chosen, among others. -/
theorem State.advanceRebuild_asks : ∃ (a : State) (y : Rebuild), s.advanceRebuild ring seq = a.mapRebuild ring seq (fun _ => y) ∧
    Asks (s.showRebuild ring seq r x) r a y ∧ ∀ f ∈ r.chosen, f ∈ y.asked := by
  obtain ⟨rest, hkeys⟩ := (s.showRebuild ring seq r x).firstKeys_eq (h.rows_pos himage)
  refine ⟨_, _, State.advanceRebuild_fresh h hfind hx himage, State.askRows_asks _ _ _, fun f hf => ?_⟩
  rw [hkeys, State.askRows_append]
  exact (State.askRows_asks rest _ _).asked f (State.askRows_first h.first h.holder f hf)

end

/-! ### A rebuild begins (R191) -/

/-- A change of a rebuild that leaves its command alone is found in the rebuild changed. -/
theorem State.rebuild?_mapRebuild {ring seq : Nat} (hring : r'.ring = ring) (hseq : r'.seq = seq) :
    (s.mapRebuild ring seq fun _ => r').rebuild? ring seq = (s.rebuild? ring seq).map fun _ => r' := by
  have hkey : ((fun y : Rebuild => decide (y.ring = ring) && decide (y.seq = seq)) ∘
      fun y => if decide (y.ring = ring) && decide (y.seq = seq) then r' else y) = fun y => decide (y.ring = ring) && decide (y.seq = seq) := by
    funext y
    simp only [Function.comp_apply]
    split
    · next h => rw [h, hring, hseq]; simp
    · rfl
  rw [State.rebuild?, State.mapRebuild, List.find?_map, hkey, State.rebuild?]
  exact Option.map_congr fun y hy => if_pos (List.find?_some hy)

theorem State.showRebuild_found {ring seq : Nat} (hring : r.ring = ring) (hseq : r.seq = seq) :
    (s.showRebuild ring seq r x).rebuild? ring seq = (s.rebuild? ring seq).map fun _ => r := State.rebuild?_mapRebuild hring hseq

theorem State.showRebuild_state (ring seq n : Nat) : (s.showRebuild ring seq r x).shardState n = s.shardState n := by
  have hne : regAddr F.BH_SH_PROG_DONE.reg [r.shard] ≠ regAddr F.BH_SH_STATE_STATE.reg [n] := by
    simp [F.BH_SH_PROG_DONE, F.BH_SH_STATE_STATE]
    omega
  have hput : ((s.mapRebuild ring seq fun _ => r).put F.BH_SH_PROG_DONE [r.shard] r.nextRow).get F.BH_SH_STATE_STATE [n] =
      (s.mapRebuild ring seq fun _ => r).get F.BH_SH_STATE_STATE [n] := State.get_put_ne _ _ _ hne
  exact hput

variable {c : Cmd} {n : Nat} {m : List Byte} {st : Stripe}

/-- A rebuild of a whole image from the fragments chosen, before anything has come. -/
def Cmd.rebuildFrom (c : Cmd) (n : Nat) (m : List Byte) (st : Stripe) (chosen : List Nat) : Rebuild :=
  ⟨c.ring, c.seq, n, m, st, [], [], chosen, [], [], 0, [], false⟩

/-- A rebuild joins those that run. -/
def State.withRebuild (s : State) (r : Rebuild) : State := { s with bh := { s.bh with rebuilds := s.bh.rebuilds ++ [r] } }

theorem State.beginRebuild_whole (hx : s.shard n = some x) {us : List Nat} (hus : s.usableFrags (c.rebuildFrom n m st []) = us)
    (hk : st.k ≤ us.length) : s.beginRebuild c n st m none = (((s.withRebuild (c.rebuildFrom n m st (us.take st.k))).put F.BH_SH_PROG_DONE
      [n] 0).setShardState n Sh.loading).advanceRebuild c.ring c.seq := by
  unfold Cmd.rebuildFrom at hus
  simp only [State.beginRebuild, hx, Option.isSome_none, hus, Bool.false_eq_true, if_false, Option.getD_none, List.map_nil, Nat.not_lt.2 hk]
  rfl

theorem State.usableFrags_holder {f : Nat} (hf : f ∈ s.usableFrags r) : f < r.stripe.k + r.stripe.m ∧ (r.stripe.holders[f]?).isSome := by
  rw [State.usableFrags, List.mem_filter, List.mem_range] at hf
  refine ⟨hf.1, ?_⟩
  cases hh : r.stripe.holders[f]? with
  | none => simp [hh] at hf
  | some h => rfl

/-- A shard that loads from the fragments chosen, the first row of each asked for. -/
structure State.Rebuilding (t : State) (c : Cmd) (n : Nat) (m : List Byte) (st : Stripe) (chosen : List Nat) (y : Rebuild) : Prop where
  loading : t.shardState n = Sh.loading
  found : t.rebuild? c.ring c.seq = some y
  same : y = { c.rebuildFrom n m st chosen with asked := y.asked }
  asked : ∀ f ∈ chosen, f ∈ y.asked

theorem Cmd.rebuildFrom_fresh (hk0 : st.k ≠ 0) (hsize : st.k + st.m ≤ 32) (hk : st.k ≤ (s.usableFrags (c.rebuildFrom n m st [])).length) :
    (c.rebuildFrom n m st ((s.usableFrags (c.rebuildFrom n m st [])).take st.k)).Fresh := by
  refine ⟨rfl, rfl, rfl, rfl, hk0, List.ne_nil_of_length_pos ?_, fun f hf => ?_⟩
  · rw [Cmd.rebuildFrom, List.length_take]
    omega
  · obtain ⟨hlt, hholder⟩ := State.usableFrags_holder (List.mem_of_mem_take hf)
    exact ⟨lt_of_lt_of_le hlt hsize, hholder⟩

/-- The state in which a rebuild begins: it is found, and its shard is LOADING. -/
structure State.Begun (w : State) (n : Nat) (x : Shard) (r : Rebuild) : Prop where
  loading : w.shardState n = Sh.loading
  found : w.rebuild? r.ring r.seq = some r
  shard : w.shard n = some x

theorem State.withRebuild_begun (hx : s.shard n = some x) (hnone : s.rebuild? r.ring r.seq = none) :
    (((s.withRebuild r).put F.BH_SH_PROG_DONE [n] 0).setShardState n Sh.loading).Begun n x r := by
  have hmoved := State.setShardState_moved (s := (s.withRebuild r).put F.BH_SH_PROG_DONE [n] 0) (n := n) (st := Sh.loading) (by decide)
  refine ⟨hmoved.state, ?_, ?_⟩
  · rw [State.rebuild?, hmoved.bh, State.put_bh, State.withRebuild, List.find?_append, ← State.rebuild?, hnone]
    simp
  · rw [State.shard, hmoved.bh]
    exact hx

/-- From where a rebuild begins to where it has asked. -/
theorem State.Begun.rebuilding {w a : State} {y : Rebuild} {chosen : List Nat} (h : w.Begun n x (c.rebuildFrom n m st chosen)) (hn : n < 4096)
    (hasks : Asks (w.showRebuild c.ring c.seq (c.rebuildFrom n m st chosen) x) (c.rebuildFrom n m st chosen) a y)
    (hasked : ∀ f ∈ chosen, f ∈ y.asked) : (a.mapRebuild c.ring c.seq fun _ => y).Rebuilding c n m st chosen y := by
  have hshownState := State.showRebuild_state (s := w) (r := c.rebuildFrom n m st chosen) (x := x) c.ring c.seq n
  have hstate : a.shardState n = (w.showRebuild c.ring c.seq (c.rebuildFrom n m st chosen) x).shardState n :=
    State.get_congr F.BH_SH_STATE_STATE (hasks.rd _ _ (by simp [F.BH_SH_STATE_STATE]; omega))
  have hshown : (w.showRebuild c.ring c.seq (c.rebuildFrom n m st chosen) x).rebuild? c.ring c.seq = some (c.rebuildFrom n m st chosen) := by
    rw [State.showRebuild_found (ring := c.ring) (seq := c.seq) (r := c.rebuildFrom n m st chosen) rfl rfl,
      show w.rebuild? c.ring c.seq = _ from h.found]
    rfl
  have hfound : a.rebuild? c.ring c.seq = some (c.rebuildFrom n m st chosen) := by
    rw [State.rebuild?, hasks.rebuilds, ← State.rebuild?, hshown]
  have hring : y.ring = c.ring := congrArg Rebuild.ring hasks.same
  have hseq : y.seq = c.seq := congrArg Rebuild.seq hasks.same
  exact ⟨hstate.trans (hshownState.trans h.loading), by rw [State.rebuild?_mapRebuild hring hseq, hfound]; rfl, hasks.same, hasked⟩

theorem State.beginRebuild_rebuilding (hn : n < 4096) (hx : s.shard n = some x) (himage : x.imageBytes ≠ 0)
    (hnone : s.rebuild? c.ring c.seq = none) (hk0 : st.k ≠ 0) (hsize : st.k + st.m ≤ 32)
    (hk : st.k ≤ (s.usableFrags (c.rebuildFrom n m st [])).length) :
    ∃ y, (s.beginRebuild c n st m none).Rebuilding c n m st ((s.usableFrags (c.rebuildFrom n m st [])).take st.k) y := by
  have hbegun := State.withRebuild_begun (r := c.rebuildFrom n m st ((s.usableFrags (c.rebuildFrom n m st [])).take st.k)) hx hnone
  obtain ⟨a, y, hadv, hasks, hasked⟩ := State.advanceRebuild_asks (Cmd.rebuildFrom_fresh hk0 hsize hk) hbegun.found hbegun.shard himage
  rw [State.beginRebuild_whole hx rfl hk]
  exact ⟨y, hadv ▸ hbegun.rebuilding hn hasks hasked⟩

/-! ### The command (R191) -/

theorem stripeFault_size {u : State} {bs : List Byte} {again : Bool} {p : Word64} {b : Bool} (hst : parseStripe bs = (st, again, p))
    (h : u.stripeFault bs b = none) : st.k + st.m ≤ 32 := by
  rw [State.stripeFault, hst] at h
  have hlow := lowestBad_none (minOpt_none.1 (minOpt_none.1 h).1).2
  simp only [List.forall_mem_cons, decide_eq_false_iff_not, Nat.not_lt] at hlow
  omega

theorem State.startRebuild_good {bs : List Byte} {again : Bool} {p : Word64} (hitem : (s.running c).shardItem c (fun l => 16 ≤ l && l % 16 = 0)
    ((s.running c).shardState c.shardNo ≠ Sh.empty) = (u, .ok bs)) (hst : parseStripe bs = (st, again, p))
    (hfault : u.stripeFault bs true = none) (hk : st.k ≠ 0) (hlen : c.shLen = 16 + 16 * (st.k + st.m)) (hptr : u.ptrOk p 64 = true)
    (hman : u.readManifest p c.shardNo (u.shard c.shardNo) = (v, .ok m)) :
    s.startRebuild c = ((v.revive st).put F.BH_SH_FAULT_LOST [c.shardNo] 0).beginRebuild c c.shardNo st m none := by
  simp only [State.startRebuild, hitem, hst, hfault, hlen, ne_eq, not_true_eq_false, decide_false, Bool.and_false, Bool.false_eq_true, if_false,
    hptr, Bool.not_true, hman, hk]

end Sys2Proof.Machine
end

section
/-! SUPPORT. The commands of a shard's life, each that fails no check (R162 to R194). -/

namespace Sys2Proof.Machine

variable {s u v : State} {c : Cmd} {bs : List Byte} {m : List Byte} {st : Stripe} {p : Word64} {x : Shard}

theorem Cmd.shLen_eq (c : Cmd) : c.shLen = (c.word 6).toNat := bits_all _

theorem Cmd.rsLen_eq (c : Cmd) : c.rsLen = (c.word 6).toNat := bits_all _

theorem State.get_endCmd (f : Fld) (idx : List Nat) (r q status d a b : Nat) : (s.endCmd r q status d a b).get f idx = s.get f idx :=
  State.get_congr f (by rw [State.rd, State.endCmd_regs, State.rd])

/-! ### Which command a SHARD command is -/

theorem State.startShard_create (h : c.subop = 0) : s.startShard c = s.startShardCreate c := by simp only [State.startShard, h]

theorem State.startShard_delete (h : c.subop = 1) : s.startShard c = s.startShardDelete c := by simp only [State.startShard, h]

theorem State.startShard_stripe (h : c.subop = 2) : s.startShard c = s.startStripe c := by simp only [State.startShard, h]

theorem State.startShard_rebuild (h : c.subop = 3) : s.startShard c = s.startRebuild c := by simp only [State.startShard, h]

/-! ### CREATE -/

section
variable (hc : s.cmd? c.ring c.seq = some c)
  (hitem : (s.running c).shardItem c (· = 64) (s.shardState c.shardNo ≠ Sh.free) = (u, .ok bs)) (hfault : u.shardFault bs = none)
  (hparams : (parseShard bs).params ≠ 0) (hplanes : ¬((parseShard bs).optimizer = 15 ∧ (parseShard bs).planes = 0))
  (hroom : u.bh.shards.length < 4096) {a : Nat} (hplace : u.manifestPlace (parseShard bs) = some a)
include hc hitem hfault hparams hplanes hroom hplace

theorem State.startShardCreate_creates : ∃ t, s.startShardCreate c = t ∧ t.shard c.shardNo = some { parseShard bs with msBase := a } ∧
    t.committed c.shardNo = leNat ((bs.drop 4).take 2) ∧
    ((parseShard bs).initKind = 0 → t.shardState c.shardNo = Sh.empty ∧ endedWith t c.ring c.seq St.ok 0 0) ∧
    ((parseShard bs).initKind ≠ 0 → t.shardState c.shardNo = Sh.loading ∧ t.bh.loads = u.bh.loads ++ [(c.ring, c.seq, c.shardNo)]) := by
  have hgood := State.startShardCreate_good hitem hfault hparams hplanes hroom hplace
  generalize he : bits (word64At bs 0) 32 16 = epoch at hgood
  have hepoch : epoch % 2 ^ 16 = leNat ((bs.drop 4).take 2) := by
    rw [← he, Nat.mod_eq_of_lt (bits_lt _ 32 16), bits_word64At_epoch]
  have hshard := State.describe_shard (u := u) (n := c.shardNo) (parseShard bs) a epoch
  have hcommitted := (State.describe_committed (u := u) (n := c.shardNo) (parseShard bs) a epoch).trans hepoch
  have hloads := State.describe_loads (u := u) (n := c.shardNo) (parseShard bs) a epoch
  have hrings := (State.describe_rings (u := u) (n := c.shardNo) (parseShard bs) a epoch).trans (State.shardItem_ok hitem).rings
  generalize u.describe c.shardNo (parseShard bs) a epoch = d at hgood hshard hcommitted hloads hrings
  rw [hgood]
  refine ⟨_, rfl, ?_⟩
  by_cases hinit : (parseShard bs).initKind = 0
  · have hmoved := State.setShardState_moved (s := d) (n := c.shardNo) (st := Sh.empty) (by decide)
    rw [if_pos hinit]
    have hended := State.endCmd_endedWith hc (hmoved.rings.trans hrings) St.ok 0 0
    refine ⟨?_, ?_, fun _ => ⟨(State.get_endCmd ..).trans hmoved.state, hended⟩, fun h => absurd hinit h⟩
    · rw [State.shard, State.endCmd_bh, hmoved.bh]
      exact hshard
    · rw [State.committed, State.get_endCmd]
      exact (hmoved.committed (by rw [hshard]; exact nofun)).trans hcommitted
  · have hmoved := State.setShardState_moved (s := d.withLoad (c.ring, c.seq, c.shardNo)) (n := c.shardNo) (st := Sh.loading) (by decide)
    rw [if_neg hinit]
    have hshard' : (d.withLoad (c.ring, c.seq, c.shardNo)).shard c.shardNo = some { parseShard bs with msBase := a } := hshard
    refine ⟨?_, ?_, fun h => absurd h hinit, fun _ => ⟨hmoved.state, ?_⟩⟩
    · rw [State.shard, hmoved.bh]
      exact hshard
    · exact (hmoved.committed (by rw [hshard']; exact nofun)).trans hcommitted
    · rw [hmoved.bh, State.withLoad, hloads]

end

/-! ### DELETE -/

theorem State.startShardDelete_forgets (hc : s.cmd? c.ring c.seq = some c) (hdesc : (s.running c).shardDesc c false = none) (hlen : c.shLen = 0)
    (hstate : s.shardState c.shardNo = Sh.empty ∨ s.shardState c.shardNo = Sh.live) (hmoor : s.shardMoor c.shardNo = none)
    (hfreeze : ∀ x, s.shard c.shardNo = some x → x.freeze = none) :
    ∃ t, s.startShardDelete c = t ∧ t.shard c.shardNo = none ∧ t.shardState c.shardNo = Sh.free ∧ endedWith t c.ring c.seq St.ok 0 0 := by
  have hstands : ShStands [F.BH_SH_STATE_STATE] c.shardNo ((s.running c).forgetShard c.shardNo)
      (((s.running c).forgetShard c.shardNo).showShard c.shardNo).showShards :=
    ((ShStands.refl _).showShard (by decide) fun _ => by decide).showShards (by decide)
  have hshard := (hstands.shard c.shardNo).trans State.forgetShard_shard
  have hfree := (hstands.shardState (by decide)).trans State.forgetShard_state
  have hrings : (((s.running c).forgetShard c.shardNo).showShard c.shardNo).showShards.rings = (s.running c).rings := hstands.rings
  rw [State.startShardDelete_good hdesc hlen hstate hmoor hfreeze]
  generalize (((s.running c).forgetShard c.shardNo).showShard c.shardNo).showShards = w at hshard hfree hrings
  refine ⟨_, rfl, ?_, (State.get_endCmd ..).trans hfree, State.endCmd_endedWith hc hrings St.ok 0 0⟩
  rw [State.shard, State.endCmd_bh]
  exact hshard

/-! ### STRIPE -/

theorem State.startStripe_restripes (hc : s.cmd? c.ring c.seq = some c)
    (hitem : (s.running c).shardItem c (fun l => 16 ≤ l && l % 16 = 0) (s.shardState c.shardNo = Sh.free) = (u, .ok bs))
    (hst : parseStripe bs = (st, false, p)) (hfault : u.stripeFault bs false = none) (hk : st.k ≠ 0)
    (hlen : c.shLen = 16 + 16 * (st.k + st.m)) (hx : u.shard c.shardNo = some x) :
    ∃ t, s.startStripe c = t ∧ t.shard c.shardNo = some { x with stripe := some st } ∧ t.get F.BH_SH_FAULT_LOST [c.shardNo] = 0 ∧
      (∀ h ∈ st.holders, h.1 ∉ t.bh.deadPeers) ∧ endedWith t c.ring c.seq St.ok 0 0 := by
  have hstands := State.restripe_stands hx st
  have hshard : (u.restripe c.shardNo st).shard c.shardNo = some { x with stripe := some st } := by
    rw [hstands.shard, State.shard, State.put_bh, ← State.shard, State.shard_setShard_self]
  have hlost : (u.restripe c.shardNo st).get F.BH_SH_FAULT_LOST [c.shardNo] = 0 :=
    (hstands.get _ (by decide)).trans (State.get_put_self F.BH_SH_FAULT_LOST (by decide) _ 0)
  have hdead : ∀ h ∈ st.holders, h.1 ∉ (u.restripe c.shardNo st).bh.deadPeers := by
    rw [hstands.bh, State.put_bh]
    exact State.revive_dead st
  have hrings : (u.restripe c.shardNo st).rings = (s.running c).rings := hstands.rings.trans (State.shardItem_ok hitem).rings
  rw [State.startStripe_good hitem hk hlen rfl hst hfault]
  generalize u.restripe c.shardNo st = w at hshard hlost hdead hrings
  refine ⟨_, rfl, ?_, (State.get_endCmd ..).trans hlost, ?_, State.endCmd_endedWith hc hrings St.ok 0 0⟩
  · rw [State.shard, State.endCmd_bh]
    exact hshard
  · rw [State.endCmd_bh]
    exact hdead

/-! ### REBUILD -/

theorem State.startRebuild_rebuilds {again : Bool}
    (hitem : (s.running c).shardItem c (fun l => 16 ≤ l && l % 16 = 0) (s.shardState c.shardNo ≠ Sh.empty) = (u, .ok bs))
    (hst : parseStripe bs = (st, again, p)) (hfault : u.stripeFault bs true = none) (hk : st.k ≠ 0)
    (hlen : c.shLen = 16 + 16 * (st.k + st.m)) (hptr : u.ptrOk p 64 = true)
    (hman : u.readManifest p c.shardNo (u.shard c.shardNo) = (v, .ok m)) (hx : v.shard c.shardNo = some x) (himage : x.imageBytes ≠ 0)
    (hnone : v.rebuild? c.ring c.seq = none)
    (husable : st.k ≤ ((v.revive st).usableFrags (c.rebuildFrom c.shardNo m st [])).length) :
    ∃ y, (s.startRebuild c).Rebuilding c c.shardNo m st (((v.revive st).usableFrags (c.rebuildFrom c.shardNo m st [])).take st.k) y := by
  rw [State.startRebuild_good hitem hst hfault hk hlen hptr hman]
  have husableFrags : ((v.revive st).put F.BH_SH_FAULT_LOST [c.shardNo] 0).usableFrags (c.rebuildFrom c.shardNo m st []) =
      (v.revive st).usableFrags (c.rebuildFrom c.shardNo m st []) := rfl
  have hbegins := State.beginRebuild_rebuilding (s := (v.revive st).put F.BH_SH_FAULT_LOST [c.shardNo] 0) (c := c) (m := m) (st := st)
    (State.shardDesc_number (State.shardItem_ok hitem).desc) hx himage hnone hk (stripeFault_size hst hfault)
  rw [husableFrags] at hbegins
  exact hbegins husable

/-! ### The obligation -/

/-- Settles O27, a command of a shard's life at a time. -/
theorem shardCommands : Obligations.ShardCommands := by
  unfold Obligations.ShardCommands
  refine ⟨fun s r q c hwf hc hs hp => ?_, fun s n r q x hl hx hkind => exec_initLoad_zeros hl hx hkind, fun s x b bs => State.writeBlock_eq x b⟩
  obtain ⟨rfl, rfl⟩ := State.cmd?_ids hc
  intro go n len
  have hshLen : c.shLen = len := c.shLen_eq
  refine ⟨?_, ?_, ?_, ?_, ?_⟩
  · intro ht hop u bs hitem hfault x hparams hplanes hroom a hplace
    obtain ⟨t, hstart, hcreated⟩ := State.startShardCreate_creates hc hitem hfault hparams hplanes hroom hplace
    refine ⟨t, congrArg Host.Outcome.next ?_, hcreated⟩
    rw [State.startIf_shard hc hs hp ht hop, State.startShard_create hop, hstart]
  · intro ht hop hdesc hlen hstate hmoor hfreeze
    obtain ⟨t, hstart, hforgot⟩ := State.startShardDelete_forgets hc hdesc (hshLen.trans hlen) hstate hmoor hfreeze
    refine ⟨t, congrArg Host.Outcome.next ?_, hforgot⟩
    rw [State.startIf_shard hc hs hp ht hop, State.startShard_delete hop, hstart]
  · intro ht hop u bs x st p hitem hst hfault hk hlen hx
    obtain ⟨t, hstart, hstriped⟩ := State.startStripe_restripes hc hitem hst hfault hk (hshLen.trans hlen) hx
    refine ⟨t, congrArg Host.Outcome.next ?_, hstriped⟩
    rw [State.startIf_shard hc hs hp ht hop, State.startShard_stripe hop, hstart]
  · intro ht hop u v bs x st again p m hitem hst hfault hk hlen hptr hman hx himage hnone us husable
    obtain ⟨y, hloading, hfound, hsame, hasked⟩ :=
      State.startRebuild_rebuilds hitem hst hfault hk (hshLen.trans hlen) hptr hman hx himage hnone husable
    have hchosen : y.chosen = us.take st.k := congrArg Rebuild.chosen hsame
    refine ⟨s.startRebuild c, y, congrArg Host.Outcome.next ?_, hloading, hfound, congrArg Rebuild.shard hsame, congrArg Rebuild.manifest hsame,
      congrArg Rebuild.stripe hsame, hchosen, congrArg Rebuild.nextRow hsame, hchosen ▸ hasked⟩
    rw [State.startIf_shard hc hs hp ht hop, State.startShard_rebuild hop]
  · intro ht u v bs m node t0 hptr hread tree hdesc hlen htree hfault hown hroot hnode hman hepoch dead
    obtain ⟨f, hfmt⟩ := State.restoreDesc_format hdesc
    have hrsLen : c.rsLen = len := c.rsLen_eq
    have hrelay := State.startRestore_relay (hrsLen ▸ hptr) (hrsLen ▸ hread) hdesc (hrsLen ▸ hlen) htree hfault hown hroot hnode hman
      hepoch hfmt
    refine ⟨f, hfmt, congrArg Host.Outcome.next ?_⟩
    rw [State.startIf_starts hc hs (by simp [isType, ht]), State.startCommand_restore hp ht, hrelay]
    rfl

end Sys2Proof.Machine
end

section
/-! SUPPORT. The lines of Dock (R205 to R210): what an access leaves of their contents, and a line written back as it decodes. -/

namespace Sys2Proof.Machine

variable {s t u : State} {fs : List Fld} {line a : Nat}

/-! ### What a line reads as -/

/-- What the decoder makes of a line depends on Dock's bytes, its errors and which of it has been written, and on nothing else. -/
theorem State.dockBad_congr (hcells : t.dock.cells = s.dock.cells) (hfilled : t.dock.filled = s.dock.filled)
    (herrs : t.dock.errs = s.dock.errs) (hresets : t.resets = s.resets) : t.dockBad = s.dockBad := by
  funext l
  rw [State.dockBad, DockMem.lineErrs, DockMem.written, hcells, hfilled, herrs, hresets]
  rfl

theorem State.dockWeak_congr (herrs : t.dock.errs = s.dock.errs) : t.dockWeak = s.dockWeak := by
  funext l
  simp only [State.dockWeak, DockMem.lineErrs, herrs]

theorem State.dockStored_congr (hcells : t.dock.cells = s.dock.cells) (hresets : t.resets = s.resets) : t.dockStored = s.dockStored := by
  funext a
  simp only [State.dockStored, hcells, hresets]

theorem State.dockByte_congr (hstored : t.dockStored a = s.dockStored a)
    (herrs : t.dock.lineErrs (a / 64) = s.dock.lineErrs (a / 64)) : t.dockByte a = s.dockByte a := by
  simp only [State.dockByte, herrs, hstored]

theorem State.dockByte_clean (h : s.dock.lineErrs (a / 64) = []) : s.dockByte a = s.dockStored a := by
  simp only [State.dockByte, h]

theorem State.dockByte_corrected (h : residualAt (s.dock.lineErrs (a / 64)) (a % 64 / 2) = 0) : s.dockByte a = s.dockStored a := by
  unfold State.dockByte
  split
  · rfl
  · next hne => rw [h]; simp

/-- A range within one line touches that line alone. -/
theorem linesOf_within {n : Nat} (hn : n ≠ 0) (h : a % 64 + n ≤ 64) : linesOf a n = [a / 64] := by
  have hone : (a + n - 1) / 64 - a / 64 + 1 = 1 := by omega
  simp [linesOf, hn, hone]

/-! ### What an access leaves -/

/-- A hardware write of `f` at `idx` leaves each of the fields `fs` as it is: another register, or other bits of it. -/
def Fld.spares (f : Fld) (idx : List Nat) (fs : List Fld) : Bool :=
  fs.all fun g => regAddr f.reg idx ≠ regAddr g.reg [] ||
    (f.reg = g.reg && idx.isEmpty && decide (f.lo + f.width ≤ 64) && decide (f.lo + f.width ≤ g.lo ∨ g.lo + g.width ≤ f.lo))

theorem State.get_put_spares {f g : Fld} {idx : List Nat} (h : f.spares idx fs = true) (hg : g ∈ fs) (v : Nat) :
    (s.put f idx v).get g = s.get g := by
  have hspare := List.all_eq_true.1 h g hg
  by_cases haddr : regAddr f.reg idx = regAddr g.reg []
  · obtain ⟨⟨⟨hreg, rfl⟩, hfits⟩, hapart⟩ : ((f.reg = g.reg ∧ idx = []) ∧ f.lo + f.width ≤ 64) ∧
        (f.lo + f.width ≤ g.lo ∨ g.lo + g.width ≤ f.lo) := by
      simpa [haddr] using hspare
    exact State.get_put_reg f g hfits hreg hapart [] v
  · exact State.get_put_ne f g v haddr

/-- The contents of Dock stand from `s` to `t`, and with them the place of the scrubber, the host's side, what has been sent and the
fields `fs`. -/
structure DockStands (fs : List Fld) (s t : State) : Prop where
  cells : t.dock.cells = s.dock.cells
  filled : t.dock.filled = s.dock.filled
  errs : t.dock.errs = s.dock.errs
  scrub : t.dock.scrub = s.dock.scrub
  resets : t.resets = s.resets
  freeCtr : t.freeCtr = s.freeCtr
  up : t.up = s.up
  sent : t.sent = s.sent
  get : ∀ f ∈ fs, t.get f = s.get f

/-- The fields that no access of Dock moves: DK_STATUS.SCRUB_PASSES and DK_INJECT. -/
def steadyFields : List Fld := [F.DK_STATUS_SCRUB_PASSES, F.DK_INJECT_ADDR, F.DK_INJECT_KIND, F.DK_INJECT_ARM]

/-- Those, and the error counters, which only a line's errors move. -/
def dockFields : List Fld := F.DK_ERR_CNT_CORRECTED :: F.DK_ERR_CNT_UNCORRECTED :: steadyFields

namespace DockStands

theorem refl (fs : List Fld) (s : State) : DockStands fs s s := ⟨rfl, rfl, rfl, rfl, rfl, rfl, rfl, rfl, fun _ _ => rfl⟩

theorem trans (h : DockStands fs s t) (k : DockStands fs t u) : DockStands fs s u :=
  ⟨k.cells.trans h.cells, k.filled.trans h.filled, k.errs.trans h.errs, k.scrub.trans h.scrub, k.resets.trans h.resets,
    k.freeCtr.trans h.freeCtr, k.up.trans h.up, k.sent.trans h.sent, fun f hf => (k.get f hf).trans (h.get f hf)⟩

theorem dockBad (h : DockStands fs s t) : t.dockBad = s.dockBad := State.dockBad_congr h.cells h.filled h.errs h.resets

theorem dockWeak (h : DockStands fs s t) : t.dockWeak = s.dockWeak := State.dockWeak_congr h.errs

theorem lineErrs (h : DockStands fs s t) : t.dock.lineErrs = s.dock.lineErrs := by
  funext l
  simp only [DockMem.lineErrs, h.errs]

theorem dockStored (h : DockStands fs s t) : t.dockStored = s.dockStored := State.dockStored_congr h.cells h.resets

theorem dockByte (h : DockStands fs s t) : t.dockByte = s.dockByte := by
  funext a
  exact State.dockByte_congr (congrFun h.dockStored a) (congrFun h.lineErrs _)

theorem steady (h : DockStands dockFields s t) : DockStands steadyFields s t :=
  { h with get := fun f hf => h.get f (List.mem_cons_of_mem _ (List.mem_cons_of_mem _ hf)) }

theorem put (h : DockStands fs s t) {f : Fld} {idx : List Nat} (hf : f.spares idx fs = true) (v : Nat) :
    DockStands fs s (t.put f idx v) :=
  { h with get := fun g hg => (State.get_put_spares hf hg v).trans (h.get g hg) }

theorem wr (h : DockStands fs s t) {r : Reg} (hr : ∀ f ∈ fs, regAddr r [] ≠ regAddr f.reg []) (v : Word64) :
    DockStands fs s (t.wr r [] v) :=
  { h with get := fun f hf => (State.get_wr_ne f v (hr f hf)).trans (h.get f hf) }

theorem dockErr (h : DockStands fs s t) (hfs : ∀ f ∈ fs, regAddr .DK_ERR_LAST [] ≠ regAddr f.reg [])
    (line source : Nat) (uncorr : Bool) : DockStands fs s (t.dockErr line source uncorr) := by
  unfold State.dockErr
  split
  · exact h.wr hfs _
  · exact h

theorem wakeDock (h : DockStands dockFields s t) : DockStands dockFields s t.wakeDock := by
  have hnow : DockStands dockFields s { t with dockAt := t.now } := { h with }
  unfold State.wakeDock
  dsimp only
  split
  · exact hnow.put (by decide) 2
  · exact hnow

theorem useCheck (h : DockStands fs s t) (line : Nat) (write : Bool) : DockStands fs s (t.useCheck line write) := by
  unfold State.useCheck
  dsimp only
  split <;> exact { h with }

theorem pcCount (h : DockStands dockFields s t) (kind : Nat) (pass : State → Nat → Bool) (pos m : Nat) :
    DockStands dockFields s (t.pcCount kind pass pos m) := by
  have hbelow : ∀ f ∈ dockFields, regAddr f.reg [] < 0xF02000 := by decide
  have hrest : ∀ {α : Type} (g : State → α), (∀ (s : State) (j v : Nat), g (s.put F.TL_PC_VAL_COUNT [j] v) = g s) →
      g (t.pcCount kind pass pos m) = g t := fun g hg => State.pcCount_congr g (fun s j v _ => hg s j v) ..
  have hdock := hrest State.dock fun _ _ _ => rfl
  exact ⟨by rw [hdock, h.cells], by rw [hdock, h.filled], by rw [hdock, h.errs], by rw [hdock, h.scrub],
    (hrest State.resets fun _ _ _ => rfl).trans h.resets, (hrest State.freeCtr fun _ _ _ => rfl).trans h.freeCtr,
    (hrest State.up fun _ _ _ => rfl).trans h.up, (hrest State.sent fun _ _ _ => rfl).trans h.sent,
    fun f hf => (State.pcCount_get (.inl (hbelow f hf)) ..).trans (h.get f hf)⟩

theorem tally (h : DockStands fs s t) {e : Nat} (he : F.TL_EVT_COUNT.spares [e] fs = true) : DockStands fs s (t.tally e) := h.put he _

theorem bump (h : DockStands fs s t) {f : Fld} (hf : f.spares [] fs = true) : DockStands fs s (t.bump f) := h.put hf _

end DockStands

/-! ### A line read (R208) -/

section
variable (s : State) (source line : Nat)

/-- A line read is counted, and recorded where the decoder finds an error. -/
theorem State.touchLine_eq : ∃ u, DockStands dockFields s u ∧ s.touchLine source line =
    if s.dockBad line = true then (u.bump F.DK_ERR_CNT_UNCORRECTED).dockErr line source true
    else if s.dockWeak line = true then (u.bump F.DK_ERR_CNT_CORRECTED).dockErr line source false else u := by
  have hcounted : DockStands dockFields s ((s.wakeDock.useCheck line false).tally 0x40) :=
    ((DockStands.refl dockFields s).wakeDock.useCheck line false).tally (by decide)
  refine ⟨_, hcounted, ?_⟩
  rw [← hcounted.dockBad, ← hcounted.dockWeak]
  rfl

theorem State.touchLine_stands : DockStands steadyFields s (s.touchLine source line) := by
  obtain ⟨u, hu, heq⟩ := s.touchLine_eq source line
  rw [heq]
  split
  · exact (hu.steady.bump (by decide)).dockErr (by decide) ..
  · split
    · exact (hu.steady.bump (by decide)).dockErr (by decide) ..
    · exact hu.steady

theorem State.get_dockErr {f : Fld} (hf : f ∈ dockFields) (uncorr : Bool) : (s.dockErr line source uncorr).get f = s.get f :=
  ((DockStands.refl dockFields s).dockErr (by decide) line source uncorr).get f hf

/-- A counter field holds at most its largest value. -/
theorem State.get_saturated (f : Fld) : min (s.get f + 0) (2 ^ f.width - 1) = s.get f :=
  min_eq_left (Nat.le_sub_one_of_lt (bits_lt _ _ _))

theorem State.touchLine_uncorrected : (s.touchLine source line).get F.DK_ERR_CNT_UNCORRECTED =
    min (s.get F.DK_ERR_CNT_UNCORRECTED + if s.dockBad line = true then 1 else 0) (2 ^ F.DK_ERR_CNT_UNCORRECTED.width - 1) := by
  obtain ⟨u, hu, heq⟩ := s.touchLine_eq source line
  have hbefore : u.get F.DK_ERR_CNT_UNCORRECTED = s.get F.DK_ERR_CNT_UNCORRECTED := hu.get _ (by decide)
  rw [heq]
  split
  · rw [State.get_dockErr _ _ _ (by decide), State.get_bump_self _ (by decide), hbefore]
  · rw [State.get_saturated, ← hbefore]
    split
    · rw [State.get_dockErr _ _ _ (by decide)]
      exact State.get_put_spares (fs := [F.DK_ERR_CNT_UNCORRECTED]) (by decide) (by decide) _
    · rfl

theorem State.touchLine_corrected : (s.touchLine source line).get F.DK_ERR_CNT_CORRECTED =
    min (s.get F.DK_ERR_CNT_CORRECTED + if s.dockBad line = false ∧ s.dockWeak line = true then 1 else 0)
      (2 ^ F.DK_ERR_CNT_CORRECTED.width - 1) := by
  obtain ⟨u, hu, heq⟩ := s.touchLine_eq source line
  have hbefore : u.get F.DK_ERR_CNT_CORRECTED = s.get F.DK_ERR_CNT_CORRECTED := hu.get _ (by decide)
  rw [heq]
  split
  · next hbad =>
    rw [if_neg (by simp [hbad]), State.get_saturated, ← hbefore, State.get_dockErr _ _ _ (by decide)]
    exact State.get_put_spares (fs := [F.DK_ERR_CNT_CORRECTED]) (by decide) (by decide) _
  · next hbad =>
    split
    · next hweak =>
      rw [if_pos ⟨Bool.eq_false_of_not_eq_true hbad, hweak⟩, State.get_dockErr _ _ _ (by decide),
        State.get_bump_self _ (by decide), hbefore]
    · next hclean => rw [if_neg (by simp [hclean]), State.get_saturated, hbefore]

/-- A read of one whole line of Dock gives its bytes as they decode, where they do. -/
theorem State.dockRead_line : s.dockRead source (line * 64) 64 = (s.touchLine source line,
    if s.dockBad line = true then .error 0 else .ok ((List.range 64).map fun i => s.dockByte (line * 64 + i))) := by
  have hlines : linesOf (line * 64) 64 = [line] := by rw [linesOf_within (by decide) (by omega), Nat.mul_div_cancel _ (by decide)]
  unfold State.dockRead
  cases hbad : s.dockBad line <;> simp [hlines, hbad]

end

/-! ### A line written back as it decodes (R208 to R210) -/

section
variable (s : State) (line : Nat)

theorem State.repairLine_lineErrs (l : Nat) : (s.repairLine line).dock.lineErrs l = if l = line then [] else s.dock.lineErrs l := by
  simp only [State.repairLine, DockMem.lineErrs, spGet_spPut, eq_comm]

theorem State.repairLine_scrub : (s.repairLine line).dock.scrub = s.dock.scrub := rfl

theorem State.repairLine_regs : (s.repairLine line).regs = s.regs := rfl

theorem State.repairLine_get (f : Fld) : (s.repairLine line).get f = s.get f :=
  State.get_congr f (by rw [State.rd, State.repairLine_regs, State.rd])

theorem State.repairLine_dockStored (a : Nat) :
    (s.repairLine line).dockStored a = if a / 64 = line then s.dockByte a else s.dockStored a := by
  by_cases hclean : ((List.range 32).all fun i => residualAt (s.dock.lineErrs line) i = 0) = true
  · have hstored : (s.repairLine line).dockStored a = s.dockStored a := by
      simp only [State.dockStored, State.repairLine, if_pos hclean]
    rw [hstored]
    split
    · next hline =>
      refine (State.dockByte_corrected ?_).symm
      rw [hline]
      simpa using List.all_eq_true.1 hclean (a % 64 / 2) (List.mem_range.2 (by omega))
    · rfl
  · have hcells : (s.repairLine line).dock.cells =
        putCells s.dock.cells (line * 64) ((List.range 64).map fun i => s.dockByte (line * 64 + i)) := if_neg hclean
    rw [State.dockStored, hcells, cellAt_putCells]
    by_cases hline : a / 64 = line
    · have hoff : a - line * 64 < 64 := by omega
      rw [if_pos (by simp; omega), if_pos hline]
      simp [hoff, show line * 64 + (a - line * 64) = a by omega]
    · rw [if_neg (by simp; omega), if_neg hline]
      rfl

/-- A line written back as it decodes reads as before. -/
theorem State.repairLine_dockByte (a : Nat) : (s.repairLine line).dockByte a = s.dockByte a := by
  by_cases hline : a / 64 = line
  · rw [State.dockByte_clean (by rw [State.repairLine_lineErrs, if_pos hline]), State.repairLine_dockStored, if_pos hline]
  · exact State.dockByte_congr (by rw [State.repairLine_dockStored, if_neg hline]) (by rw [State.repairLine_lineErrs, if_neg hline])

end

end Sys2Proof.Machine
end

section
/-! SUPPORT. The Dock scrubber, the write-back of corrected lines and self-refresh (R207, R208, R210, R211). -/

namespace Sys2Proof.Machine

variable {s t u : State}

/-! ### A step of the scrubber (R210) -/

/-- A line passed by the scrubber: every byte reads as before, and neither the scrubber's place nor its passes have moved. -/
structure Scrubbed (s t : State) : Prop where
  bytes : ∀ a, t.dockByte a = s.dockByte a
  scrub : t.dock.scrub = s.dock.scrub
  passes : t.get F.DK_STATUS_SCRUB_PASSES = s.get F.DK_STATUS_SCRUB_PASSES

theorem Scrubbed.trans (h : Scrubbed s t) (k : Scrubbed t u) : Scrubbed s u :=
  ⟨fun a => (k.bytes a).trans (h.bytes a), k.scrub.trans h.scrub, k.passes.trans h.passes⟩

/-- The scrubber reads a data line, and writes it back unless it is uncorrectable. -/
theorem State.scrubData_eq (s : State) (line : Nat) : s.scrubData line =
    if s.dockBad line = true then s.touchLine 5 line else (s.touchLine 5 line).repairLine line := by
  rw [State.scrubData, (s.touchLine_stands 5 line).dockBad]

theorem State.scrubData_scrubbed (s : State) (line : Nat) : Scrubbed s (s.scrubData line) := by
  have hread := s.touchLine_stands 5 line
  have htouched : Scrubbed s (s.touchLine 5 line) :=
    ⟨congrFun hread.dockByte, hread.scrub, hread.get _ (by decide)⟩
  rw [State.scrubData_eq]
  split
  · exact htouched
  · exact htouched.trans ⟨State.repairLine_dockByte _ line, State.repairLine_scrub .., State.repairLine_get ..⟩

theorem State.scrubData_lineErrs (s : State) (line l : Nat) : (s.scrubData line).dock.lineErrs l =
    if l = line ∧ s.dockBad line = false then [] else s.dock.lineErrs l := by
  have hread := congrFun (s.touchLine_stands 5 line).lineErrs l
  rw [State.scrubData_eq]
  cases s.dockBad line
  · simp [State.repairLine_lineErrs, hread]
  · simp [hread]

/-- The write-back moves no register. -/
theorem State.scrubData_get (s : State) (line : Nat) (f : Fld) : (s.scrubData line).get f = (s.touchLine 5 line).get f := by
  rw [State.scrubData_eq]
  split
  · rfl
  · exact State.repairLine_get ..

theorem State.scrubChecks_scrubbed (s : State) (device group : Nat) : Scrubbed s (s.scrubChecks device group) := by
  unfold State.scrubChecks
  refine List.foldlRecOn (motive := Scrubbed s) _ _ ⟨fun _ => rfl, rfl, rfl⟩ fun u hu j _ => ?_
  dsimp only
  split
  · split
    · exact hu.trans (u.scrubData_scrubbed _)
    · exact hu
  · exact hu

theorem State.scrubAt_scrubbed (s : State) (p : Nat) : Scrubbed s (s.scrubAt p) := by
  unfold State.scrubAt
  dsimp only
  split
  · exact s.scrubChecks_scrubbed ..
  · exact s.scrubData_scrubbed _

theorem State.scrubAt_data {p : Nat} (h : p % 17 ≠ 16) :
    s.scrubAt p = s.scrubData (lineAt (p / (17 * deviceGroups)) (p % (17 * deviceGroups) / 17) (p % 17)) := by
  rw [Nat.mul_comm 17 deviceGroups]
  exact if_neg h

/-- The next line of a pass, or the next pass. -/
theorem State.scrubNext_place (s : State) :
    s.scrubNext.dock.scrub = (if s.dock.scrub + 1 < 17 * deviceGroups * dockDevices then s.dock.scrub + 1 else 0) ∧
    s.scrubNext.get F.DK_STATUS_SCRUB_PASSES = (s.get F.DK_STATUS_SCRUB_PASSES +
      if s.dock.scrub + 1 < 17 * deviceGroups * dockDevices then 0 else 1) % 2 ^ F.DK_STATUS_SCRUB_PASSES.width := by
  have hlines : deviceLines = 17 * deviceGroups * dockDevices := rfl
  rw [← hlines, State.scrubNext]
  split
  · exact ⟨rfl, (Nat.mod_eq_of_lt (bits_lt _ _ _)).symm⟩
  · exact ⟨rfl, State.get_advance_self _ (by decide) [] 1⟩

/-- Going on to the next line moves nothing else of Dock, and no counter of its errors. -/
theorem State.scrubNext_stands (s : State) : s.scrubNext.dockByte = s.dockByte ∧ s.scrubNext.dock.lineErrs = s.dock.lineErrs ∧
    s.scrubNext.get F.DK_ERR_CNT_UNCORRECTED = s.get F.DK_ERR_CNT_UNCORRECTED ∧
    s.scrubNext.get F.DK_ERR_CNT_CORRECTED = s.get F.DK_ERR_CNT_CORRECTED := by
  rw [State.scrubNext]
  split
  · exact ⟨rfl, rfl, rfl, rfl⟩
  · exact ⟨rfl, rfl, State.get_put_spares (fs := dockFields.take 2) (by decide) (by decide) _,
      State.get_put_spares (fs := dockFields.take 2) (by decide) (by decide) _⟩

/-! ### The rows -/

theorem exec_dockScrub_due (hen : s.get F.DK_CTRL_SCRUB_EN = 1) (hpower : s.get F.DK_STATUS_POWER = 0) (hdue : s.scrubDue = true) :
    exec (.dockScrub (s.dock.scrub / (17 * deviceGroups))) s = .next (s.scrubAt s.dock.scrub).scrubNext := by
  have hplace : deviceGroups * 17 = 17 * deviceGroups := Nat.mul_comm ..
  simp [exec, execDockScrub, hen, hpower, hdue, hplace]

theorem exec_dockScrub_idle {device : Nat} (h : s.get F.DK_CTRL_SCRUB_EN = 0 ∨ s.get F.DK_STATUS_POWER ≠ 0 ∨ s.scrubDue = false ∨
    device ≠ s.dock.scrub / (17 * deviceGroups)) : exec (.dockScrub device) s = .next s := by
  have hplace : deviceGroups * 17 = 17 * deviceGroups := Nat.mul_comm ..
  refine congrArg Host.Outcome.next (if_pos ?_)
  rw [hplace]
  obtain h | h | h | h := h
  · simp [h]
  · simp [h]
  · simp [h]
  · simp [Ne.symm h]

theorem exec_correctedWriteBack_weak {line : Nat} (hwb : s.get F.DK_CTRL_WB_CORRECTED = 1) (hweak : s.dockWeak line = true)
    (hbad : s.dockBad line = false) : exec (.correctedWriteBack line) s = .next ((s.repairLine line).tally 0x41) := by
  simp [exec, execCorrectedWriteBack, hwb, hweak, hbad]

/-! ### Self-refresh (R207, R211) -/

/-- Dock may enter self-refresh: no record is due in WINTER and STANDBY, or it has been left alone for 1 ms in QUIET. -/
def State.dockStill (s : State) : Prop :=
  (2 ≤ s.get F.PM_STATE_STATE ∧ s.recordsDue none = false) ∨
    (s.get F.PM_STATE_STATE = 1 ∧ s.get F.DK_CTRL_QUIET_SR = 1 ∧ s.dockAt + us 1000 ≤ s.now)

theorem exec_selfRefreshEntry_still (h : s.get F.DK_STATUS_POWER = 0 ∧ s.dockStill) :
    exec .selfRefreshEntry s = .next (s.flushChecks.put F.DK_STATUS_POWER [] 1) := by
  refine congrArg Host.Outcome.next (if_pos ?_)
  simpa [State.dockStill, and_assoc] using h

theorem exec_selfRefreshEntry_not (h : ¬(s.get F.DK_STATUS_POWER = 0 ∧ s.dockStill)) : exec .selfRefreshEntry s = .next s := by
  refine congrArg Host.Outcome.next (if_neg ?_)
  simpa [State.dockStill, and_assoc] using h

theorem State.flushChecks_clean (s : State) : ∀ x ∈ s.flushChecks.dock.cached, ∀ g ∈ x.2, g.2 = false := by
  intro x hx g hg
  obtain ⟨y, -, rfl⟩ := List.mem_map.1 hx
  obtain ⟨z, -, rfl⟩ := List.mem_map.1 hg
  rfl

theorem exec_selfRefreshExit_eq : exec .selfRefreshExit s =
    .next (if s.get F.DK_STATUS_POWER = 2 then s.put F.DK_STATUS_POWER [] 0 else s) := rfl
end Sys2Proof.Machine
end

section
/-! SUPPORT. A write within one line of Dock (R209), and DK_INJECT (R213). -/

namespace Sys2Proof.Machine

variable {s : State} {line a d : Nat} {bs : List Byte}

/-! ### The bytes of a line with those of a write put in -/

/-- A line with the bytes `bs` put in at `a`: a part of it is merged with what the line reads as. -/
def State.merge (s : State) (line a : Nat) (bs : List Byte) : State :=
  let s := if bs.length < 64 then s.repairLine line else s
  let cells := if bs.length < 64 && !lineWritten s.dock.cells line
    then putCells (putCells s.dock.cells (line * 64) ((List.range 64).map fun i => s.dockStored (line * 64 + i))) a bs
    else putCells s.dock.cells a bs
  { s with dock := { s.dock with cells := cells } }

/-- Bytes listed as they are stored are stored as before. -/
theorem State.putCells_dockStored (s : State) (line x : Nat) :
    (cellAt (putCells s.dock.cells (line * 64) ((List.range 64).map fun i => s.dockStored (line * 64 + i))) x).getD
      (Config.dockByte s.resets x) = s.dockStored x := by
  rw [cellAt_putCells]
  split
  · next h =>
    have hoff : x - line * 64 < 64 := by
      rw [List.length_map, List.length_range] at h
      omega
    simp [hoff, show line * 64 + (x - line * 64) = x by omega]
  · rfl

theorem State.merge_dockStored_of (s : State) (line a : Nat) (bs : List Byte) (x : Nat) : (s.merge line a bs).dockStored x =
    if a ≤ x ∧ x < a + bs.length then bs.getD (x - a) 0
    else (if bs.length < 64 then s.repairLine line else s).dockStored x := by
  unfold State.merge
  generalize (if bs.length < 64 then s.repairLine line else s) = u
  have hput (m : List Host.Cell) (hm : (cellAt m x).getD (Config.dockByte u.resets x) = u.dockStored x) :
      (cellAt (putCells m a bs) x).getD (Config.dockByte u.resets x) =
        if a ≤ x ∧ x < a + bs.length then bs.getD (x - a) 0 else u.dockStored x := by
    rw [cellAt_putCells]
    split
    · rw [List.getElem?_eq_getElem (by omega), List.getD_eq_getElem _ _ (by omega), Option.getD_some]
    · exact hm
  rw [State.dockStored]
  dsimp only
  split
  · exact hput _ (u.putCells_dockStored line x)
  · exact hput _ rfl

/-- In a line the bytes written, and around them what it reads as; other lines keep theirs. -/
theorem State.merge_dockStored (hline : a / 64 = line) (hfit : a % 64 + bs.length ≤ 64) (x : Nat) : (s.merge line a bs).dockStored x =
    if a ≤ x ∧ x < a + bs.length then bs.getD (x - a) 0 else if x / 64 = line then s.dockByte x else s.dockStored x := by
  rw [State.merge_dockStored_of]
  split
  · rfl
  · split
    · exact s.repairLine_dockStored line x
    · rw [if_neg (by omega)]

theorem State.merge_lineErrs {l : Nat} (hl : l ≠ line) : (s.merge line a bs).dock.lineErrs l = s.dock.lineErrs l := by
  show (if bs.length < 64 then s.repairLine line else s).dock.lineErrs l = _
  split
  · rw [State.repairLine_lineErrs, if_neg hl]
  · rfl

theorem State.merge_get (f : Fld) : (s.merge line a bs).get f = s.get f := by
  have hregs : (s.merge line a bs).regs = s.regs := by
    show (if bs.length < 64 then s.repairLine line else s).regs = _
    split
    · exact s.repairLine_regs line
    · rfl
  exact State.get_congr f (by rw [State.rd, hregs, State.rd])

theorem State.merge_freeCtr : (s.merge line a bs).freeCtr = s.freeCtr := by
  show (if bs.length < 64 then s.repairLine line else s).freeCtr = _
  split <;> rfl

/-! ### The errors of a line just written (R213) -/

/-- DK_INJECT is armed for a line. -/
def State.armedFor (s : State) (line : Nat) : Prop := s.get F.DK_INJECT_ARM = 1 ∧ s.get F.DK_INJECT_ADDR / 64 = line

theorem State.injectLine_armed (h : s.armedFor line) (l : Nat) : (s.injectLine line).dock.lineErrs l =
    if l = line then injected (s.get F.DK_INJECT_KIND) (Config.freeValue s.freeCtr) else s.dock.lineErrs l := by
  rw [State.injectLine, if_pos (by simpa [State.armedFor] using h)]
  simp only [State.fresh, DockMem.lineErrs, spGet_spPut, eq_comm]
  rfl

theorem State.injectLine_unarmed (h : ¬s.armedFor line) (l : Nat) : (s.injectLine line).dock.lineErrs l =
    if l = line then [] else s.dock.lineErrs l := by
  rw [State.injectLine, if_neg (by simpa [State.armedFor] using h)]
  simp only [DockMem.lineErrs, spGet_spPut, eq_comm]

theorem State.injectLine_dockStored (s : State) (line : Nat) : (s.injectLine line).dockStored = s.dockStored := by
  unfold State.injectLine
  split <;> rfl

/-! ### The write -/

/-- From `s` to `u` the bytes `bs` are put in at `d`, of one line whose errors are still to be decided. -/
structure LineMerged (s : State) (d : Nat) (bs : List Byte) (u : State) : Prop where
  stored : ∀ x, u.dockStored x =
    if d ≤ x ∧ x < d + bs.length then bs.getD (x - d) 0 else if x / 64 = d / 64 then s.dockByte x else s.dockStored x
  lineErrs : ∀ l, l ≠ d / 64 → u.dock.lineErrs l = s.dock.lineErrs l
  get : ∀ f ∈ dockFields, u.get f = s.get f
  freeCtr : u.freeCtr = s.freeCtr

theorem LineMerged.armedFor {u : State} (h : LineMerged s d bs u) : u.armedFor line ↔ s.armedFor line := by
  rw [State.armedFor, h.get _ (by decide), h.get _ (by decide), State.armedFor]

theorem State.writeLine_eq (s : State) (line a : Nat) (bs : List Byte) : s.writeLine line a bs =
    if bs.length < 64 && (s.wakeDock.backInvalidate line).dockBad line then (s.wakeDock.backInvalidate line).dockErr line 6 true
    else ((((s.wakeDock.backInvalidate line).merge line a bs).useCheck line true).injectLine line).tally 0x41 := rfl

/-- No line of the host's is called back where none is tracked. -/
theorem State.dockWrite_within (hsnoop : s.up.snoop = []) (hbs : bs ≠ []) (hfit : d % 64 + bs.length ≤ 64) : s.dockWrite d bs =
    if bs.length < 64 ∧ s.dockBad (d / 64) = true then s.wakeDock.dockErr (d / 64) 6 true
    else (((s.wakeDock.merge (d / 64) d bs).useCheck (d / 64) true).injectLine (d / 64)).tally 0x41 := by
  have hlines : linesOf d bs.length = [d / 64] := linesOf_within (by simpa using hbs) hfit
  have hslice : sliceOf d bs (d / 64) = (d, bs) := by
    have hlo : max d (d / 64 * 64) = d := by omega
    simp only [sliceOf, hlo, Nat.sub_self, List.drop_zero, Prod.mk.injEq, true_and]
    exact List.take_of_length_le (by omega)
  have hwoken := (DockStands.refl dockFields s).wakeDock
  have hback : s.wakeDock.backInvalidate (d / 64) = s.wakeDock := by simp [State.backInvalidate, hwoken.up, hsnoop]
  rw [State.dockWrite, hlines, List.foldl_cons, List.foldl_nil, hslice]
  rw [State.writeLine_eq, hback, hwoken.dockBad]
  exact if_congr (by simp) rfl rfl

/-- A write that is taken puts its bytes in, and then the line's errors are what DK_INJECT says. -/
theorem State.dockWrite_taken (hsnoop : s.up.snoop = []) (hbs : bs ≠ []) (hfit : d % 64 + bs.length ≤ 64)
    (htaken : bs.length = 64 ∨ s.dockBad (d / 64) = false) :
    ∃ u, LineMerged s d bs u ∧ s.dockWrite d bs = (u.injectLine (d / 64)).tally 0x41 := by
  have hwoken := (DockStands.refl dockFields s).wakeDock
  have hused := (DockStands.refl dockFields (s.wakeDock.merge (d / 64) d bs)).useCheck (d / 64) true
  have hkept : ¬(bs.length < 64 ∧ s.dockBad (d / 64) = true) := by
    obtain h | h := htaken <;> simp [h]
  refine ⟨_, ⟨fun x => ?_, fun l hl => ?_, fun f hf => ?_, ?_⟩, (State.dockWrite_within hsnoop hbs hfit).trans (if_neg hkept)⟩
  · rw [hused.dockStored, State.merge_dockStored rfl hfit, hwoken.dockByte, hwoken.dockStored]
  · rw [hused.lineErrs, State.merge_lineErrs hl, hwoken.lineErrs]
  · rw [hused.get f hf, State.merge_get, hwoken.get f hf]
  · rw [hused.freeCtr, State.merge_freeCtr, hwoken.freeCtr]

/-- From `s` to `t` the bytes `bs` are written at `d`, of one line: a part of a line that reads as uncorrectable is dropped, and what is
injected is what DK_INJECT says before the write. -/
structure LineStored (s : State) (d : Nat) (bs : List Byte) (t : State) : Prop where
  bytes : bs.length = 64 ∨ s.dockBad (d / 64) = false → ∀ a, t.dockStored a =
    if d ≤ a ∧ a < d + bs.length then bs.getD (a - d) 0 else if a / 64 = d / 64 then s.dockByte a else s.dockStored a
  clean : bs.length = 64 ∨ s.dockBad (d / 64) = false → ¬s.armedFor (d / 64) → ∀ l, t.dock.lineErrs l =
    if l = d / 64 then [] else s.dock.lineErrs l
  armed : bs.length = 64 ∨ s.dockBad (d / 64) = false → s.armedFor (d / 64) → ∀ l, t.dock.lineErrs l =
    if l = d / 64 then injected (s.get F.DK_INJECT_KIND) (Config.freeValue s.freeCtr) else s.dock.lineErrs l
  dropped : ¬(bs.length = 64 ∨ s.dockBad (d / 64) = false) → t.dock.cells = s.dock.cells ∧ t.dock.errs = s.dock.errs

theorem State.dockWrite_stored (hsnoop : s.up.snoop = []) (hbs : bs ≠ []) (hfit : d % 64 + bs.length ≤ 64) :
    LineStored s d bs (s.dockWrite d bs) where
  bytes htaken a := by
    obtain ⟨u, hu, heq⟩ := State.dockWrite_taken hsnoop hbs hfit htaken
    rw [heq, ← hu.stored, ← u.injectLine_dockStored (d / 64)]
    rfl
  clean htaken harmed l := by
    obtain ⟨u, hu, heq⟩ := State.dockWrite_taken hsnoop hbs hfit htaken
    rw [heq, State.tally_dock, State.injectLine_unarmed (hu.armedFor.not.2 harmed)]
    exact ite_congr rfl (fun _ => rfl) (hu.lineErrs l)
  armed htaken harmed l := by
    obtain ⟨u, hu, heq⟩ := State.dockWrite_taken hsnoop hbs hfit htaken
    rw [heq, State.tally_dock, State.injectLine_armed (hu.armedFor.2 harmed), hu.get _ (by decide), hu.freeCtr]
    exact ite_congr rfl (fun _ => rfl) (hu.lineErrs l)
  dropped hnot := by
    have hbad : bs.length < 64 ∧ s.dockBad (d / 64) = true :=
      ⟨by omega, by simpa using fun h => hnot (.inr h)⟩
    have hstands := (DockStands.refl dockFields s).wakeDock.dockErr (by decide) (d / 64) 6 true
    rw [State.dockWrite_within hsnoop hbs hfit, if_pos hbad]
    exact ⟨hstands.cells, hstands.errs⟩

/-- A write is the same from any state with Dock's contents and DK_INJECT. -/
theorem LineStored.of_stands {t u : State} (h : LineStored u d bs t) (hs : DockStands dockFields s u) : LineStored s d bs t := by
  have harmed : u.armedFor (d / 64) ↔ s.armedFor (d / 64) := by
    rw [State.armedFor, hs.get _ (by decide), hs.get _ (by decide), State.armedFor]
  obtain ⟨hbytes, hclean, hinjected, hdropped⟩ := h
  rw [hs.dockBad] at hbytes hclean hinjected hdropped
  rw [hs.dockByte, hs.dockStored] at hbytes
  rw [harmed, hs.lineErrs] at hclean
  rw [harmed, hs.lineErrs, hs.get _ (by decide), hs.freeCtr] at hinjected
  rw [hs.cells, hs.errs] at hdropped
  exact ⟨hbytes, hclean, hinjected, hdropped⟩

end Sys2Proof.Machine
end

section
/-! SUPPORT. The host's windows onto Dock (R211, R214, R215, R387, R388). -/

namespace Sys2Proof.Machine

variable {s : State} {addr n base d : Nat} {bytes : List Byte}

/-! ### What a window maps (R214) -/

theorem State.windowMaps_iff {off : Nat} :
    s.windowMaps n off = true ↔ s.cget F.DK_WIN_BASE_VALID [n] = 1 ∧ off < s.cget F.DK_WIN_SIZE_SIZE [n] * 2 ^ 28 := by
  simp [State.windowMaps]

theorem State.windowMaps_false_iff {off : Nat} :
    s.windowMaps n off = false ↔ s.cget F.DK_WIN_BASE_VALID [n] = 0 ∨ s.cget F.DK_WIN_SIZE_SIZE [n] * 2 ^ 28 ≤ off := by
  have hvalid : s.cget F.DK_WIN_BASE_VALID [n] < 2 := bits_lt _ _ _
  rw [← Bool.not_eq_true, State.windowMaps_iff]
  omega

/-! ### The line that the host may cache (R388) -/

/-- The state with the snoop filter `snoop`, that has sent `pre` besides. -/
def State.tracking (s : State) (snoop : List Nat) (pre : List Sent) : State :=
  { s with up := { s.up with snoop := snoop }, sent := s.sent ++ pre }

/-- The oldest line makes room in a full snoop filter. -/
theorem State.track_eq (s : State) (line : Nat) : ∃ snoop pre, s.track line = s.tracking snoop pre ∧ line ∈ snoop ∧
    (s.up.snoop.length < 2097152 → pre = []) := by
  unfold State.track
  dsimp only
  split
  · next hheld => exact ⟨s.up.snoop, [], by rw [State.tracking, List.append_nil], by simpa using hheld, fun _ => rfl⟩
  · split
    · exact ⟨s.up.snoop ++ [line], [], by rw [State.tracking, List.append_nil], by simp, fun _ => rfl⟩
    · next hfull =>
      cases hsnoop : s.up.snoop with
      | nil => exact ⟨[line], [], by simp [State.tracking, hsnoop], by simp, fun _ => rfl⟩
      | cons o rest => exact ⟨rest ++ [line], [.biSnpInv o], rfl, by simp, fun hroom => absurd (hsnoop ▸ hroom) hfull⟩

/-- An access through a window is counted and its line tracked; Dock stands. -/
theorem State.countTrack_stands (s : State) (acc d line : Nat) : ∃ snoop pre,
    DockStands dockFields (s.tracking snoop pre) ((s.countMem acc d).track line) ∧ line ∈ snoop ∧
    (s.up.snoop.length < 2097152 → pre = []) := by
  have hc : DockStands dockFields s (s.countMem acc d) := (DockStands.refl dockFields s).pcCount ..
  generalize s.countMem acc d = c at hc
  obtain ⟨snoop, pre, heq, hmem, hpre⟩ := c.track_eq line
  refine ⟨snoop, pre, ?_, hmem, hc.up ▸ hpre⟩
  rw [heq]
  exact { hc with up := congrArg (fun u => { u with snoop := snoop }) hc.up, sent := congrArg (· ++ pre) hc.sent }

/-! ### HOST_WINDOW_READ -/

section
variable (hlink : s.up.linkUp = true) (hdec : s.decoderOf addr = some (n, base))
include hlink hdec

theorem exec_hostWindowRead_unmapped (h : s.windowMaps n (addr - base) = false) :
    exec (.hostWindowRead addr) s = .next (s.send (.memRead addr none)) := by
  simp [exec, execHostWindowRead, hlink, hdec, h]

variable (hmaps : s.windowMaps n (addr - base) = true)
include hmaps

theorem exec_hostWindowRead_asleep (h : 2 ≤ s.get F.PM_STATE_STATE ∧ s.get F.DK_STATUS_POWER ≠ 0) :
    exec (.hostWindowRead addr) s = .next ((s.put F.DK_STATUS_SR_ACCESS [] 1).send (.memRead addr none)) := by
  simp [exec, execHostWindowRead, hlink, hdec, hmaps, h]

/-- The line is read as it decodes, or as poison. -/
theorem exec_hostWindowRead_awake (h : ¬(2 ≤ s.get F.PM_STATE_STATE ∧ s.get F.DK_STATUS_POWER ≠ 0))
    (hd : s.cget F.DK_WIN_BASE_BASE [n] + (addr - base) = d) : exec (.hostWindowRead addr) s =
      .next ((((s.countMem 0 d).track (d / 64)).touchLine 4 (d / 64)).send (.memRead addr
        (if ((s.countMem 0 d).track (d / 64)).dockBad (d / 64) = true then none
         else some ((List.range 64).map fun i => ((s.countMem 0 d).track (d / 64)).dockByte (d / 64 * 64 + i))))) := by
  cases hbad : ((s.countMem 0 d).track (d / 64)).dockBad (d / 64) <;>
    simp [exec, execHostWindowRead, hlink, hdec, hmaps, h, hd, State.dockRead_line, hbad]

theorem exec_hostWindowRead_served (h : ¬(2 ≤ s.get F.PM_STATE_STATE ∧ s.get F.DK_STATUS_POWER ≠ 0))
    (hd : s.cget F.DK_WIN_BASE_BASE [n] + (addr - base) = d) : ∃ t pre, exec (.hostWindowRead addr) s = .next t ∧
      t.sent = s.sent ++ pre ++ [.memRead addr (if s.dockBad (d / 64) = true then none
        else some ((List.range 64).map fun i => s.dockByte (d / 64 * 64 + i)))] ∧
      (s.up.snoop.length < 2097152 → pre = []) ∧ t.dock.cells = s.dock.cells ∧ t.dock.errs = s.dock.errs ∧
      d / 64 ∈ t.up.snoop := by
  obtain ⟨snoop, pre, htracked, hmem, hpre⟩ := s.countTrack_stands 0 d (d / 64)
  have hread := htracked.steady.trans (State.touchLine_stands _ 4 (d / 64))
  have hexec := exec_hostWindowRead_awake hlink hdec hmaps h hd
  rw [htracked.dockBad, htracked.dockByte] at hexec
  generalize ((s.countMem 0 d).track (d / 64)).touchLine 4 (d / 64) = x at hread hexec
  refine ⟨_, pre, hexec, ?_, hpre, hread.cells, hread.errs, ?_⟩
  · exact congrArg (· ++ _) hread.sent
  · rwa [State.send_up, hread.up]

end

/-! ### HOST_WINDOW_WRITE -/

/-- A write of Dock for which no line is called back from the host. -/
def State.hostStore (s : State) (d : Nat) (bs : List Byte) : State :=
  let t := ({ s with up := { s.up with snoop := [] } } : State).dockWrite d bs
  { t with up := { t.up with snoop := s.up.snoop } }

/-- The bytes of a write that fall in the line of its first. -/
theorem take_line (hbytes : bytes ≠ []) (d : Nat) :
    bytes.take (64 - d % 64) ≠ [] ∧ d % 64 + (bytes.take (64 - d % 64)).length ≤ 64 := by
  have hlen : (bytes.take (64 - d % 64)).length ≤ 64 - d % 64 := List.length_take_le ..
  refine ⟨?_, by omega⟩
  rw [ne_eq, List.take_eq_nil_iff, not_or]
  exact ⟨by omega, hbytes⟩

section
variable {bs : List Byte} {u : State}

theorem State.hostStore_snoop : (s.hostStore d bs).up.snoop = s.up.snoop := rfl

/-- From any state that differs in what is tracked and sent, the write stores its bytes. -/
theorem State.hostStore_stored {snoop : List Nat} {pre : List Sent} (hbs : bs ≠ []) (hfit : d % 64 + bs.length ≤ 64)
    (h : DockStands dockFields (s.tracking snoop pre) u) : LineStored (s.tracking [] pre) d bs (u.hostStore d bs) := by
  have hstands : DockStands dockFields (s.tracking [] pre) { u with up := { u.up with snoop := [] } } :=
    { h with up := congrArg (fun u => { u with snoop := [] }) h.up }
  have hstored := (State.dockWrite_stored (s := { u with up := { u.up with snoop := [] } }) rfl hbs hfit).of_stands hstands
  exact ⟨hstored.bytes, hstored.clean, hstored.armed, hstored.dropped⟩

end

section
variable {bs : List Byte} (hlink : s.up.linkUp = true) (hbytes : bytes ≠ []) (hdec : s.decoderOf addr = some (n, base))
  (hd : s.cget F.DK_WIN_BASE_BASE [n] + (addr - base) = d) (hbs : bytes.take (64 - d % 64) = bs)
include hlink hbytes hdec hd hbs

theorem exec_hostWindowWrite_barred (h : s.windowMaps n (addr - base) = false ∨ s.cget F.DK_WIN_BASE_WRITE [n] = 0 ∨
    s.protects d bs.length = true) : exec (.hostWindowWrite addr bytes) s = .next ((s.deny .host 2 d).countMem 2 d) := by
  have hbarred : (!s.windowMaps n (addr - base) || decide (s.cget F.DK_WIN_BASE_WRITE [n] = 0) || s.protects d bs.length) = true := by
    obtain h | h | h := h <;> simp [h]
  simp only [exec, execHostWindowWrite, hlink, hdec, hd, hbs, hbarred]
  simp [hbytes]

variable (hopen : ¬(s.windowMaps n (addr - base) = false ∨ s.cget F.DK_WIN_BASE_WRITE [n] = 0 ∨ s.protects d bs.length = true))
include hopen

theorem exec_hostWindowWrite_open : exec (.hostWindowWrite addr bytes) s = .next
    (if 2 ≤ s.get F.PM_STATE_STATE ∧ s.get F.DK_STATUS_POWER ≠ 0 then s.put F.DK_STATUS_SR_ACCESS [] 1
     else ((s.countMem 1 d).track (d / 64)).hostStore d bs) := by
  have hfree : (!s.windowMaps n (addr - base) || decide (s.cget F.DK_WIN_BASE_WRITE [n] = 0) || s.protects d bs.length) = false := by
    simpa [not_or, and_assoc] using hopen
  simp only [exec, execHostWindowWrite, hlink, hdec, hd, hbs, hfree]
  simp [hbytes, State.hostStore]

theorem exec_hostWindowWrite_stores (h : ¬(2 ≤ s.get F.PM_STATE_STATE ∧ s.get F.DK_STATUS_POWER ≠ 0)) :
    ∃ t, exec (.hostWindowWrite addr bytes) s = .next t ∧ d / 64 ∈ t.up.snoop ∧ LineStored s d bs t := by
  have hfits : bs ≠ [] ∧ d % 64 + bs.length ≤ 64 := hbs ▸ take_line hbytes d
  obtain ⟨snoop, pre, htracked, hmem, -⟩ := s.countTrack_stands 1 d (d / 64)
  refine ⟨_, (exec_hostWindowWrite_open hlink hbytes hdec hd hbs hopen).trans (congrArg _ (if_neg h)), ?_, ?_⟩
  · rwa [State.hostStore_snoop, htracked.up]
  · have hstored := State.hostStore_stored hfits.1 hfits.2 htracked
    exact ⟨hstored.bytes, hstored.clean, hstored.armed, hstored.dropped⟩

end

/-! ### HDM_DECODER_COMMIT (R387) -/

section
variable {size : Nat} (hp : s.powered = true) (hn : n < 8)
include hp hn

theorem exec_hdmDecoderCommit_taken
    (h : size = 0 ∨ (s.cget F.DK_WIN_BASE_VALID [n] = 1 ∧ size = s.cget F.DK_WIN_SIZE_SIZE [n] * 2 ^ 28)) :
    exec (.hdmDecoderCommit n base size) s =
      .next { s with up := { s.up with decoders := s.up.decoders.set n (base, size, true, false) } } := by
  have hin : ¬8 ≤ n := by omega
  simp [-Nat.reducePow, exec, execHdmDecoderCommit, hp, hin, h]

theorem exec_hdmDecoderCommit_refused
    (h : ¬(size = 0 ∨ (s.cget F.DK_WIN_BASE_VALID [n] = 1 ∧ size = s.cget F.DK_WIN_SIZE_SIZE [n] * 2 ^ 28))) :
    exec (.hdmDecoderCommit n base size) s =
      .next { s with up := { s.up with decoders := s.up.decoders.set n (base, size, false, true) } } := by
  have hin : ¬8 ≤ n := by omega
  simp [-Nat.reducePow, exec, execHdmDecoderCommit, hp, hin, h]

end

end Sys2Proof.Machine
end

section
/-! SUPPORT. The Warehouse's root ports (R216, R219), and Dock, its windows and the Warehouse together. -/

namespace Sys2Proof.Machine

variable {s : State} {port : Nat}

/-! ### WAREHOUSE_LINK_LOSS (R219) -/

/-- A root port that is lost, counted where it was up. -/
def State.losePort (s : State) (port : Nat) : State :=
  (if s.get F.WH_PORT_STATE [port] = 2 || s.get F.WH_PORT_STATE [port] = 3 then s.bump F.WH_ERR_CNT_LINK_DOWN else s).put
    F.WH_PORT_STATE [port] 4

/-- The Warehouse fails: the fragments held are lost, and the copies that run fail. -/
def State.failWarehouse (s : State) : State :=
  let u := (s.put F.WH_STATUS_STATE [] 2).setFrags []
  (u.bh.shards.map (·.1)).foldl (fun v n => if v.copying n = true then v.copyFail n else v) u

/-- A port serves the Warehouse where it is READY and the port is in the committed mask. -/
def State.portServes (s : State) (port : Nat) : Prop :=
  s.get F.WH_STATUS_STATE = 1 ∧ (s.cget F.WH_CFG_PORT_MASK).testBit port = true

/-- WH_STATUS is not a root port's register. -/
theorem regAddr_WH_PORT_ne (i : Nat) : regAddr .WH_PORT [i] ≠ regAddr .WH_STATUS [] := by
  show 0xD00100 + 0x8 * i ≠ 0xD00010
  omega

theorem State.losePort_serves (s : State) (port : Nat) : (s.losePort port).portServes port ↔ s.portServes port := by
  have hstatus : (s.losePort port).get F.WH_STATUS_STATE = s.get F.WH_STATUS_STATE := by
    rw [State.losePort, State.get_put_ne _ _ _ (regAddr_WH_PORT_ne port)]
    split
    · exact State.get_put_ne _ _ _ (by decide)
    · rfl
  have hmask : (s.losePort port).cget F.WH_CFG_PORT_MASK = s.cget F.WH_CFG_PORT_MASK := by
    rw [State.losePort, State.put_cget]
    split <;> rfl
  rw [State.portServes, hstatus, hmask, State.portServes]

theorem exec_warehouseLinkLoss_eq (hp : s.powered = true) (hport : port < 4) : exec (.warehouseLinkLoss port) s = .next
    (if (s.losePort port).get F.WH_STATUS_STATE = 1 && ((s.losePort port).cget F.WH_CFG_PORT_MASK).testBit port
     then (s.losePort port).failWarehouse else s.losePort port) :=
  congrArg Host.Outcome.next (if_neg (by simp [hp, hport]))

theorem exec_warehouseLinkLoss_idle (hp : s.powered = true) (hport : port < 4) (h : ¬s.portServes port) :
    exec (.warehouseLinkLoss port) s = .next (s.losePort port) := by
  rw [exec_warehouseLinkLoss_eq hp hport, if_neg]
  simpa [State.portServes] using (s.losePort_serves port).not.2 h

theorem exec_warehouseLinkLoss_serving (hp : s.powered = true) (hport : port < 4) (h : s.portServes port) :
    exec (.warehouseLinkLoss port) s = .next (s.losePort port).failWarehouse := by
  rw [exec_warehouseLinkLoss_eq hp hport, if_pos]
  simpa [State.portServes] using (s.losePort_serves port).2 h

/-! ### WAREHOUSE_LINK_UP (R216) -/

/-- The state of a root port that has trained: ready, degraded or refused. -/
def trainedState (width gts : Nat) (fit : Bool) (cap : Nat) : Nat :=
  if !fit || cap < 384 then 5
  else if width = 16 && gts = 64 then 2
  else if (width = 8 && gts = 64) || (width = 16 && gts = 32) then 3
  else 5

section
variable {width gts cap : Nat} {fit : Bool}

theorem trainedState_ready (hfit : fit = true ∧ 384 ≤ cap) (hwidth : width = 16) (hgts : gts = 64) :
    trainedState width gts fit cap = 2 := by
  simp [trainedState, hfit, hwidth, hgts]

theorem trainedState_degraded (hfit : fit = true ∧ 384 ≤ cap) (h : (width = 8 ∧ gts = 64) ∨ (width = 16 ∧ gts = 32)) :
    trainedState width gts fit cap = 3 := by
  obtain ⟨rfl, rfl⟩ | ⟨rfl, rfl⟩ := h <;> simp [trainedState, hfit]

theorem trainedState_refused (h : ¬(fit = true ∧ 384 ≤ cap) ∨
    ¬((width = 16 ∧ gts = 64) ∨ (width = 8 ∧ gts = 64) ∨ (width = 16 ∧ gts = 32))) : trainedState width gts fit cap = 5 := by
  unfold trainedState
  split
  · rfl
  · next hfit =>
    obtain h | h := h
    · exact absurd (by simpa using hfit) h
    · simp only [not_or] at h
      obtain ⟨hready, hhalf, hslow⟩ := h
      simp [hready, hhalf, hslow]

end

theorem trainedState_lt (width gts : Nat) (fit : Bool) (cap : Nat) : trainedState width gts fit cap < 2 ^ 3 := by
  unfold trainedState
  repeat' split
  all_goals decide

theorem capacity_lt (st cap : Nat) : (if st = 5 then 0 else min cap 4096) < 2 ^ 13 := by
  split <;> omega

/-- A root port's register with what it has trained to. -/
def State.trainPort (s : State) (port st width gts lopt cap ide : Nat) : State :=
  (((((s.put F.WH_PORT_STATE [port] st).put F.WH_PORT_WIDTH [port] width).put F.WH_PORT_GTS [port] gts).put
    F.WH_PORT_LOPT [port] lopt).put F.WH_PORT_CAP_256M [port] cap).put F.WH_PORT_IDE_ON [port] ide

/-- The fields of WH_PORT share no bit. -/
theorem State.trainPort_get (s : State) (port lopt : Nat) {st width gts cap ide : Nat} (hst : st < 2 ^ 3) (hwidth : width < 2 ^ 5)
    (hgts : gts < 2 ^ 7) (hcap : cap < 2 ^ 13) (hide : ide < 2 ^ 1) :
    let t := s.trainPort port st width gts lopt cap ide
    t.get F.WH_PORT_STATE [port] = st ∧ t.get F.WH_PORT_WIDTH [port] = width ∧ t.get F.WH_PORT_GTS [port] = gts ∧
      t.get F.WH_PORT_CAP_256M [port] = cap ∧ t.get F.WH_PORT_IDE_ON [port] = ide := by
  simp (disch := decide) only [State.trainPort, State.get_put_self, State.get_put_reg]
  exact ⟨Nat.mod_eq_of_lt hst, Nat.mod_eq_of_lt hwidth, Nat.mod_eq_of_lt hgts, Nat.mod_eq_of_lt hcap, Nat.mod_eq_of_lt hide⟩

theorem exec_warehouseLinkUp_eq (hp : s.powered = true) (hport : port < 4) (width gts cap : Nat) (lopt fit : Bool) :
    exec (.warehouseLinkUp port width gts lopt fit cap) s = .next (s.trainPort port (trainedState width gts fit cap) width gts lopt.toNat
      (if trainedState width gts fit cap = 5 then 0 else min cap 4096)
      (trainedState width gts fit cap ≠ 5 && (s.cget F.WH_CFG_IDE_EN).testBit port : Bool).toNat) := by
  have hin : (!s.powered || decide (4 ≤ port)) = false := by simp [hp, hport]
  simp only [exec, execWarehouseLinkUp, hin, State.put_cget]
  rfl

theorem exec_warehouseLinkUp_trains (hp : s.powered = true) (hport : port < 4) {width gts : Nat} (hwidth : width < 2 ^ 5)
    (hgts : gts < 2 ^ 7) (cap : Nat) (lopt fit : Bool) : ∃ t, exec (.warehouseLinkUp port width gts lopt fit cap) s = .next t ∧
      t.get F.WH_PORT_STATE [port] = trainedState width gts fit cap ∧ t.get F.WH_PORT_WIDTH [port] = width ∧
      t.get F.WH_PORT_GTS [port] = gts ∧
      t.get F.WH_PORT_CAP_256M [port] = (if trainedState width gts fit cap = 5 then 0 else min cap 4096) ∧
      t.get F.WH_PORT_IDE_ON [port] = (trainedState width gts fit cap ≠ 5 && (s.cget F.WH_CFG_IDE_EN).testBit port : Bool).toNat :=
  ⟨_, exec_warehouseLinkUp_eq hp hport width gts cap lopt fit,
    s.trainPort_get port lopt.toNat (trainedState_lt width gts fit cap) hwidth hgts (capacity_lt _ cap) (Bool.toNat_lt _)⟩

/-! ### The obligation -/

/-- The Warehouse's part: the port's own change, and what the loss of a serving port takes with it. -/
theorem warehouseLinks : claimWarehouseLinks := by
  refine fun s port hp hport => ⟨?_, fun width gts cap lopt fit _ hwidth hgts => ?_⟩
  · exact ⟨s.losePort port, fun hwas => congrArg (State.put · _ _ _) (if_pos (by simpa using hwas)),
      fun hwas => congrArg (State.put · _ _ _) (if_neg (by simpa using hwas)),
      exec_warehouseLinkLoss_idle hp hport, fun h => ⟨rfl, exec_warehouseLinkLoss_serving hp hport h⟩⟩
  · obtain ⟨t, hexec, hstate, hw, hg, hcap, hide⟩ := exec_warehouseLinkUp_trains hp hport hwidth hgts cap lopt fit
    refine ⟨t, hexec, hw, hg, fun hfit hw16 hg64 => ?_, fun hfit hwg => ?_, fun hbad => ?_⟩
    · rw [hstate, hcap, trainedState_ready hfit hw16 hg64]
      exact ⟨rfl, if_neg (by decide)⟩
    · rw [hstate, hcap, trainedState_degraded hfit hwg]
      exact ⟨rfl, if_neg (by decide)⟩
    · rw [hstate, hcap, hide, trainedState_refused hbad]
      exact ⟨rfl, rfl, rfl⟩

/-- Settles O35: each row's effect by what an access leaves of Dock's contents, and a line is written back as it decodes. -/
theorem dockAndWindows : Obligations.DockAndWindows := by
  refine ⟨⟨fun s hen hpower hdue => ?_, fun s device => exec_dockScrub_idle, fun s line hwb hweak hbad => ?_, fun s => ?_,
    fun s addr n base hlink hdec => ?_, fun s addr n base bytes _ hlink hdec hbytes => ?_,
    fun s n base size hp hn => ?_⟩, warehouseLinks⟩
  · intro p line
    have hscrubbed := s.scrubAt_scrubbed p
    obtain ⟨hplace, hpasses⟩ := (s.scrubAt p).scrubNext_place
    obtain ⟨hbytes, herrs, huncorrected, hcorrected⟩ := (s.scrubAt p).scrubNext_stands
    rw [hscrubbed.scrub] at hplace hpasses
    rw [hscrubbed.passes] at hpasses
    refine ⟨_, exec_dockScrub_due hen hpower hdue, hplace, fun _ => hpasses, fun _ a => (congrFun hbytes a).trans (hscrubbed.bytes a),
      fun hdata => ?_⟩
    rw [herrs, huncorrected, hcorrected, State.scrubAt_data hdata]
    exact ⟨s.scrubData_lineErrs line, fun _ => ⟨(s.scrubData_get line _).trans (s.touchLine_uncorrected 5 line),
      (s.scrubData_get line _).trans (s.touchLine_corrected 5 line)⟩⟩
  · exact ⟨_, exec_correctedWriteBack_weak hwb hweak hbad, s.repairLine_lineErrs line, fun _ => s.repairLine_dockByte line⟩
  · refine ⟨fun hpower hstill => ⟨exec_selfRefreshEntry_still ⟨hpower, hstill⟩, s.flushChecks_clean⟩, exec_selfRefreshEntry_not,
      fun h => ?_, fun h => ?_⟩
    · rw [exec_selfRefreshExit_eq, if_pos h]
    · rw [exec_selfRefreshExit_eq, if_neg h]
  · intro d mapped asleep
    have hopen : mapped ↔ s.windowMaps n (addr - base) = true := State.windowMaps_iff.symm
    rw [hopen, Bool.not_eq_true]
    exact ⟨exec_hostWindowRead_unmapped hlink hdec, exec_hostWindowRead_asleep hlink hdec,
      fun hmaps hawake => exec_hostWindowRead_served hlink hdec hmaps hawake rfl⟩
  · intro d bs barred asleep taken armed
    have hbarred : barred ↔ s.windowMaps n (addr - base) = false ∨ s.cget F.DK_WIN_BASE_WRITE [n] = 0 ∨
        s.protects d bs.length = true := by
      rw [State.windowMaps_false_iff, or_assoc]
    rw [hbarred]
    refine ⟨exec_hostWindowWrite_barred hlink hbytes hdec rfl rfl, fun hopen hasleep => ?_, fun hopen hawake => ?_⟩
    · rw [exec_hostWindowWrite_open hlink hbytes hdec rfl rfl hopen, if_pos hasleep]
    · obtain ⟨t, hexec, hmem, hstored⟩ := exec_hostWindowWrite_stores hlink hbytes hdec rfl rfl hopen hawake
      exact ⟨t, hexec, hmem, hstored.bytes, hstored.clean, hstored.armed, hstored.dropped⟩
  · intro ok
    exact ⟨exec_hdmDecoderCommit_taken hp hn, exec_hdmDecoderCommit_refused hp hn⟩

end Sys2Proof.Machine
end

section
/-! SUPPORT. What the Basin's shared operations leave alone (R236 to R255): a count touches registers alone, a queue the Basin's queues
and registers, and forwarding neither the ports nor the lists nor the registers of their blocks. -/

namespace Sys2Proof.Machine

variable {s t u : State}

@[simp] theorem regAddr_QY_PORT_STATUS (q i : Nat) : regAddr .QY_PORT_STATUS [q, i] = 0x900108 + 0x4000 * q + 0x100 * i := rfl
@[simp] theorem regAddr_LG_PORT (i : Nat) : regAddr .LG_PORT [i] = 0xE82000 + 0x8 * i := rfl
@[simp] theorem regAddr_LH_CIRCUIT (q k : Nat) : regAddr .LH_CIRCUIT [q, k] = 0xA10300 + 0x800 * q + 0x8 * k := rfl

/-! ### Counts -/

/-- From `s` to `t` registers alone have changed. -/
def RegsOnly (s t : State) : Prop := ∃ regs, t = { s with regs := regs }

namespace RegsOnly

theorem refl (s : State) : RegsOnly s s := ⟨s.regs, rfl⟩

theorem trans (h : RegsOnly s t) (k : RegsOnly t u) : RegsOnly s u := by
  obtain ⟨_, rfl⟩ := h
  obtain ⟨_, rfl⟩ := k
  exact ⟨_, rfl⟩

theorem put (h : RegsOnly s t) (f : Fld) (idx : List Nat) (v : Nat) : RegsOnly s (t.put f idx v) := h.trans ⟨_, rfl⟩

theorem bump (h : RegsOnly s t) (f : Fld) (idx : List Nat) (n : Nat) : RegsOnly s (t.bump f idx n) := h.put ..

theorem tally (h : RegsOnly s t) (e n : Nat) : RegsOnly s (t.tally e n) := h.put ..

theorem ite {c : Prop} [Decidable c] (ht : RegsOnly s t) (hu : RegsOnly s u) : RegsOnly s (if c then t else u) := by
  split <;> assumption

theorem foldl {β : Type} (l : List β) (f : State → β → State) (h : RegsOnly s t) (hf : ∀ u x, RegsOnly s u → RegsOnly s (f u x)) :
    RegsOnly s (l.foldl f t) := by
  induction l generalizing t with
  | nil => exact h
  | cons x l ih => exact ih (hf t x h)

theorem pcCount (h : RegsOnly s t) (kind : Nat) (pass : State → Nat → Bool) (pos n : Nat) : RegsOnly s (t.pcCount kind pass pos n) :=
  foldl _ _ h fun _ _ hu => ite (hu.put ..) hu

theorem countDrop (h : RegsOnly s t) (p cls : Nat) : RegsOnly s (t.countDrop p cls) := h.pcCount ..

theorem dropDown (h : RegsOnly s t) (p cls : Nat) : RegsOnly s (t.dropDown p cls) := (h.bump ..).countDrop ..

theorem useCells (h : RegsOnly s t) (die n : Nat) : RegsOnly s (t.useCells die n) := ite ((h.put ..).put ..) (h.put ..)

theorem freeCells (h : RegsOnly s t) (die n : Nat) : RegsOnly s (t.freeCells die n) := h.put ..

theorem countEnqueue (h : RegsOnly s t) (ingress egress : Nat) (pkt : Packet) : RegsOnly s (t.countEnqueue ingress egress pkt) :=
  (((h.pcCount ..).pcCount ..).pcCount ..).pcCount ..

section
variable (h : RegsOnly s t)
include h

theorem basin : t.basin = s.basin := by obtain ⟨_, rfl⟩ := h; rfl

end

end RegsOnly

/-! ### Queues -/

/-- From `s` to `t` nothing has changed but registers, the virtual output queues and the tags of their pairs. -/
def VoqsOnly (s t : State) : Prop :=
  ∃ regs voqs tags, t = { s with regs := regs, basin := { s.basin with voqs := voqs, pairTag := tags } }

theorem RegsOnly.voqs (h : RegsOnly s t) : VoqsOnly s t := by
  obtain ⟨_, rfl⟩ := h
  exact ⟨_, _, _, rfl⟩

namespace VoqsOnly

theorem refl (s : State) : VoqsOnly s s := (RegsOnly.refl s).voqs

theorem trans (h : VoqsOnly s t) (k : VoqsOnly t u) : VoqsOnly s u := by
  obtain ⟨_, _, _, rfl⟩ := h
  obtain ⟨_, _, _, rfl⟩ := k
  exact ⟨_, _, _, rfl⟩

theorem ite {c : Prop} [Decidable c] (ht : VoqsOnly s t) (hu : VoqsOnly s u) : VoqsOnly s (if c then t else u) := by
  split <;> assumption

theorem foldl {β : Type} (l : List β) (f : State → β → State) (h : VoqsOnly s t) (hf : ∀ u x, VoqsOnly s u → VoqsOnly s (f u x)) :
    VoqsOnly s (l.foldl f t) := by
  induction l generalizing t with
  | nil => exact h
  | cons x l ih => exact ih (hf t x h)

theorem withVoqs (h : VoqsOnly s t) (voqs : List Voq) : VoqsOnly s { t with basin := { t.basin with voqs := voqs } } :=
  h.trans ⟨_, _, _, rfl⟩

theorem pairHead (h : VoqsOnly s t) (quay e c : Nat) (empty : Bool) : VoqsOnly s (t.pairHead quay e c empty) :=
  ite h (h.trans ⟨_, _, _, rfl⟩)

theorem toVoq (h : VoqsOnly s t) (x : BPkt) (egress : Nat) : VoqsOnly s (t.toVoq x egress) := by
  have hin (pkt : Packet) : VoqsOnly s ((t.useCells (dieOf x.port) x.pkt.cells).countEnqueue x.port egress pkt) :=
    h.trans (((RegsOnly.refl t).useCells ..).countEnqueue ..).voqs
  exact ite ((hin _).withVoqs _) (pairHead ((hin _).withVoqs _) ..)

theorem mirrorTo (h : VoqsOnly s t) (k p : Nat) (x : BPkt) : VoqsOnly s (t.mirrorTo k p x) :=
  ite (h.toVoq ..) (h.trans ((RegsOnly.refl t).bump ..).voqs)

theorem mirrorPort (h : VoqsOnly s t) (source p : Nat) (x : BPkt) : VoqsOnly s (t.mirrorPort source p x) :=
  foldl _ _ h fun _ k hu => ite (hu.mirrorTo k p x) hu

end VoqsOnly

/-! ### Ports and lists -/

/-- The addresses of the blocks from the scheduler to Breakwater, the power manager's and the Lodge's. -/
abbrev portBlock (a : Nat) : Prop := 0x700000 ≤ a ∧ a < 0xC00000 ∨ 0xE00000 ≤ a ∧ a < 0xF00000

/-- From `s` to `t` the ports, the committed sets, the gate lists and the cycle stand, and so does every register of the ports' blocks. -/
structure PortsStand (s t : State) : Prop where
  cregs : t.cregs = s.cregs
  sched : t.sched = s.sched
  quays : t.quays = s.quays
  now : t.now = s.now
  rd : ∀ r idx, portBlock (regAddr r idx) → t.rd r idx = s.rd r idx

namespace PortsStand

theorem refl (s : State) : PortsStand s s := ⟨rfl, rfl, rfl, rfl, fun _ _ _ => rfl⟩

theorem trans (h : PortsStand s t) (k : PortsStand t u) : PortsStand s u :=
  ⟨k.cregs.trans h.cregs, k.sched.trans h.sched, k.quays.trans h.quays, k.now.trans h.now,
    fun r idx ha => (k.rd r idx ha).trans (h.rd r idx ha)⟩

/-- A change of what the relation does not speak of. -/
theorem same (h : PortsStand s t) (hcregs : u.cregs = t.cregs := by rfl) (hsched : u.sched = t.sched := by rfl)
    (hquays : u.quays = t.quays := by rfl) (hnow : u.now = t.now := by rfl) (hregs : u.regs = t.regs := by rfl) : PortsStand s u :=
  h.trans ⟨hcregs, hsched, hquays, hnow, fun _ _ _ => by rw [State.rd, hregs, State.rd]⟩

theorem wr (h : PortsStand s t) (r : Reg) (idx : List Nat) (v : Word64) (ha : ¬portBlock (regAddr r idx)) : PortsStand s (t.wr r idx v) :=
  h.trans ⟨rfl, rfl, rfl, rfl, fun _ _ hr => State.rd_wr_ne v fun heq => ha (heq ▸ hr)⟩

theorem put (h : PortsStand s t) (f : Fld) (idx : List Nat) (v : Nat) (ha : ¬portBlock (regAddr f.reg idx)) : PortsStand s (t.put f idx v) :=
  h.wr _ _ _ ha

theorem bump (h : PortsStand s t) (f : Fld) (idx : List Nat) (n : Nat) (ha : ¬portBlock (regAddr f.reg idx)) :
    PortsStand s (t.bump f idx n) := h.put _ _ _ ha

theorem tally (h : PortsStand s t) (e n : Nat) : PortsStand s (t.tally e n) :=
  h.put _ _ _ (by simp only [F.TL_EVT_COUNT, regAddr_TL_EVT, portBlock]; omega)

theorem ite {c : Prop} [Decidable c] (ht : PortsStand s t) (hu : PortsStand s u) : PortsStand s (if c then t else u) := by
  split <;> assumption

theorem foldl {β : Type} (l : List β) (f : State → β → State) (h : PortsStand s t) (hf : ∀ x ∈ l, ∀ u, PortsStand s u → PortsStand s (f u x)) :
    PortsStand s (l.foldl f t) := by
  induction l generalizing t with
  | nil => exact h
  | cons x l ih =>
    rw [List.forall_mem_cons] at hf
    exact ih (hf.1 t h) hf.2

/-! What stands. -/

theorem get (h : PortsStand s t) {f : Fld} {idx : List Nat} (ha : portBlock (regAddr f.reg idx)) : t.get f idx = s.get f idx :=
  State.get_congr f (h.rd _ _ ha)

theorem cget (h : PortsStand s t) (f : Fld) (idx : List Nat) : t.cget f idx = s.cget f idx := by
  rw [State.cget, State.crd, h.cregs, State.cget, State.crd]

theorem linkUp (h : PortsStand s t) {p : Nat} (hp : p < 512) : t.linkUp p = s.linkUp p := by
  rw [State.linkUp, State.stage, pidx,
    h.get (by simp only [F.QY_PORT_STATUS_STAGE, regAddr_QY_PORT_STATUS, portBlock]; omega)]
  rfl

theorem lhPort (h : PortsStand s t) (p : Nat) : t.lhPort p = s.lhPort p := by rw [State.lhPort, h.cget, State.lhPort]

theorem channel (h : PortsStand s t) (q : Nat) : t.channel q = s.channel q := by rw [State.channel, h.quays, State.channel]

theorem gateEntries (h : PortsStand s t) (p : Nat) : t.gateEntries p = s.gateEntries p := by
  rw [State.gateEntries, h.cget, h.sched, State.gateEntries]

theorem shutCircuit (h : PortsStand s t) {p : Nat} (hp : p < 512) (e : Word64) : t.shutCircuit p e = s.shutCircuit p e := by
  unfold State.shutCircuit
  by_cases hc : gateCsel e < 64
  · rw [h.get (by simp only [F.LH_CIRCUIT_STATE, regAddr_LH_CIRCUIT, portBlock]; omega)]
  · simp only [hc, decide_false, Bool.false_and]

theorem blockedAt (h : PortsStand s t) {p : Nat} (hp : p < 512) (c : Nat) : t.blockedAt p c = s.blockedAt p c := by
  simp only [State.blockedAt, h.gateEntries, h.lhPort, h.channel, funext (h.shutCircuit hp)]

theorem slotOf (h : PortsStand s t) (p : Nat) : t.slotOf p = s.slotOf p := by
  have hvalid : t.slotValid = s.slotValid := funext fun i => by rw [State.slotValid, h.cget, State.slotValid]
  have hport : t.slotPort = s.slotPort := funext fun i => by rw [State.slotPort, h.cget, State.slotPort]
  rw [State.slotOf, hvalid, hport, State.slotOf]

theorem usable (h : PortsStand s t) {p : Nat} (hp : p < 512) : t.usable p = s.usable p := by
  have hsuspect : t.get F.LG_PORT_SUSPECT [p] = s.get F.LG_PORT_SUSPECT [p] :=
    h.get (by simp only [F.LG_PORT_SUSPECT, regAddr_LG_PORT, portBlock]; omega)
  rw [State.usable, h.linkUp hp, hsuspect, h.slotOf, State.usable]
  cases hslot : s.slotOf p with
  | none => rfl
  | some i =>
    have hi : i < 32 := List.mem_range.1 (List.mem_of_find?_eq_some hslot)
    have hstate : t.slotState i = s.slotState i :=
      h.get (by simp only [F.BW_LH_STATUS_STATE, regAddr_BW_LH_STATUS, portBlock]; omega)
    simp only [hstate]

/-! Counts of the Basin. -/

theorem pcCount (h : PortsStand s t) (kind : Nat) (pass : State → Nat → Bool) (pos n : Nat) : PortsStand s (t.pcCount kind pass pos n) :=
  foldl _ _ h fun _ _ _ hu => ite (hu.put _ _ _ (by simp only [F.TL_PC_VAL_COUNT, regAddr_TL_PC_VAL, portBlock]; omega)) hu

theorem countDrop (h : PortsStand s t) (p cls : Nat) : PortsStand s (t.countDrop p cls) := h.pcCount ..

theorem dropDown (h : PortsStand s t) (p cls : Nat) : PortsStand s (t.dropDown p cls) :=
  (h.bump F.BS_DROP_DOWN_COUNT [] 1 (by decide)).countDrop ..

theorem dropBuf (h : PortsStand s t) (p cls : Nat) : PortsStand s ((t.bump F.BS_DROP_BUF_COUNT).countDrop p cls) :=
  (h.bump F.BS_DROP_BUF_COUNT [] 1 (by decide)).countDrop ..

theorem dieUsed (f : Fld) (hf : f.reg = .BS_BUF_USED) (p : Nat) : ¬portBlock (regAddr f.reg [dieOf p]) := by
  simp only [hf, regAddr_BS_BUF_USED, portBlock, dieOf]
  omega

theorem useCells (h : PortsStand s t) (p n : Nat) : PortsStand s (t.useCells (dieOf p) n) := by
  have hused := h.put F.BS_BUF_USED_USED [dieOf p] (t.get F.BS_BUF_USED_USED [dieOf p] + n) (dieUsed _ rfl p)
  exact ite (hused.put F.BS_BUF_USED_PEAK [dieOf p] _ (dieUsed _ rfl p)) hused

theorem freeCells (h : PortsStand s t) (p n : Nat) : PortsStand s (t.freeCells (dieOf p) n) := h.put _ _ _ (dieUsed _ rfl p)

theorem countEnqueue (h : PortsStand s t) (ingress egress : Nat) (pkt : Packet) : PortsStand s (t.countEnqueue ingress egress pkt) :=
  (((h.pcCount ..).pcCount ..).pcCount ..).pcCount ..

/-! Queues. -/

theorem withBasin (h : PortsStand s t) (b : Basin) : PortsStand s { t with basin := b } := h.same

theorem pairHead (h : PortsStand s t) (quay e c : Nat) (empty : Bool) : PortsStand s (t.pairHead quay e c empty) := ite h h.same

theorem toVoq (h : PortsStand s t) (x : BPkt) (egress : Nat) : PortsStand s (t.toVoq x egress) := by
  have hin (pkt : Packet) : PortsStand s ((t.useCells (dieOf x.port) x.pkt.cells).countEnqueue x.port egress pkt) :=
    (h.useCells ..).countEnqueue ..
  exact ite ((hin _).withBasin _) (pairHead ((hin _).withBasin _) ..)

theorem queueTo (h : PortsStand s t) (x : BPkt) (egress : Nat) : PortsStand s (t.queueTo x egress) :=
  ite (h.dropDown ..) (ite (toVoq (ite h h.same) ..) (h.dropBuf ..))

theorem mirrorTo (h : PortsStand s t) (k p : Nat) (x : BPkt) : PortsStand s (t.mirrorTo k p x) :=
  ite (h.toVoq ..) (h.bump F.BS_DROP_MIRROR_COUNT [] 1 (by decide))

theorem pickMember (h : PortsStand s t) (b : Nat) (x : Header) : PortsStand s (t.pickMember b x).2 := by
  unfold State.pickMember
  dsimp only
  split
  · exact h
  · split
    · exact tally h.same ..
    · exact h

/-- A packet re-pathed over a bundle. -/
theorem deliverBundle (h : PortsStand s t) (x : BPkt) (b : Nat) : PortsStand s (t.deliver x (.bundle b)) := by
  have hpick := h.pickMember b x.pkt.hdr
  unfold State.deliver
  dsimp only
  split
  · exact hpick.queueTo ..
  · exact hpick.dropDown ..

/-! Notifications, which Dock takes, and lookups. -/

theorem wakeDock (h : PortsStand s t) : PortsStand s t.wakeDock := ite (h.same.put _ _ _ (by decide)) h.same

theorem useCheck (h : PortsStand s t) (line : Nat) (write : Bool) : PortsStand s (t.useCheck line write) := by
  unfold State.useCheck
  dsimp only
  split <;> exact h.same

theorem dockErr (h : PortsStand s t) (line source : Nat) (uncorr : Bool) : PortsStand s (t.dockErr line source uncorr) :=
  ite (h.wr _ _ _ (by decide)) h

theorem injectLine (h : PortsStand s t) (line : Nat) : PortsStand s (t.injectLine line) := by
  unfold State.injectLine
  split
  · exact (h.put F.DK_INJECT_ARM [] 0 (by decide)).same
  · exact h.same

theorem writeLine (h : PortsStand s t) (line a : Nat) (bs : List Byte) : PortsStand s (t.writeLine line a bs) := by
  have hwoken : PortsStand s (t.wakeDock.backInvalidate line) := ite h.wakeDock.same h.wakeDock
  have hrepaired : PortsStand s (if bs.length < 64 then (t.wakeDock.backInvalidate line).repairLine line
      else t.wakeDock.backInvalidate line) := ite hwoken.same hwoken
  exact ite (hwoken.dockErr ..) ((((hrepaired.same).useCheck line true).injectLine line).tally ..)

section
variable {pipe : Nat} (hpipe : pipe < 4)
include hpipe

theorem pipeRegister {f : Fld} (hf : f.reg ∈ [Reg.HB_STATUS, .HB_LEARN_LOST, .HB_LEARN_PROD, .HB_PAR_ERR]) :
    ¬portBlock (regAddr f.reg [pipe]) := by
  simp only [List.mem_cons, List.not_mem_nil, or_false] at hf
  unfold portBlock
  obtain h | h | h | h := hf
  all_goals
    simp only [h, regAddr_HB_STATUS, regAddr_HB_LEARN_LOST, regAddr_HB_LEARN_PROD, regAddr_HB_PAR_ERR]
    omega

theorem hSet (h : PortsStand s t) (i : Nat) (e : Option HEntry) : PortsStand s (t.hSet pipe i e) := by
  have hput (u : State) (hu : PortsStand s u) (f : Fld) (v : Nat) (hf : f.reg = .HB_STATUS) : PortsStand s (u.put f [pipe] v) :=
    hu.put f [pipe] v (pipeRegister hpipe (by simp [hf]))
  exact hput _ (hput _ (hput _ h.same _ _ rfl) _ _ rfl) _ _ rfl

theorem notify (h : PortsStand s t) (key port reason index : Nat) : PortsStand s (t.notify pipe key port reason index) :=
  ite h (ite (h.bump _ _ _ (pipeRegister hpipe (by decide)))
    ((h.foldl _ _ fun _ _ _ hu => hu.writeLine ..).put _ _ _ (pipeRegister hpipe (by decide))))

theorem hLookup (h : PortsStand s t) (key : Nat) : PortsStand s (t.hLookup pipe key).2 := by
  have hfound : PortsStand s ((t.tally 0x18).hFind pipe key).2 := foldl _ _ (h.tally ..) fun _ _ u hu =>
    notify hpipe (((hSet hpipe hu ..).bump _ _ _ (pipeRegister hpipe (by decide))).put _ _ _ (pipeRegister hpipe (by decide))) ..
  unfold State.hLookup
  dsimp only
  split
  · exact hfound
  · exact hSet hpipe hfound ..

theorem destTarget (h : PortsStand s t) (port : Nat) (x : Header) : PortsStand s (t.destTarget pipe port x).2.2 := by
  have hlook := hLookup hpipe h (hKey x.dst x.tc x.job)
  unfold State.destTarget
  dsimp only
  split
  · exact hlook
  · split
    · split <;> exact hlook
    · split <;> exact notify hpipe hlook ..

theorem learnSource (h : PortsStand s t) (x : BPkt) : PortsStand s (t.learnSource pipe x).2 := by
  have hlook := hLookup hpipe h (hKey x.pkt.hdr.src x.pkt.hdr.tc x.pkt.hdr.job)
  unfold State.learnSource
  dsimp only
  split
  · exact notify hpipe hlook ..
  · split
    · exact ite hlook (notify hpipe hlook ..)
    · exact ite hlook (notify hpipe hlook ..)
    · exact notify hpipe hlook ..

end

end PortsStand

end Sys2Proof.Machine
end

section
/-! SUPPORT. PACKET_ARRIVAL (R232 to R242): the checks one after the other, and where a packet that passes them goes. -/

namespace Sys2Proof.Machine

variable {s t : State} {port : Nat} {pkt q : Packet} {x : BPkt}

theorem headerBad_eq_false_iff : headerBad pkt = false ↔ pkt.hdr.hcrc = pkt.hdr.crc ∧ pkt.hdr.ver = 1 ∧ pkt.hdr.kind ≤ 3 ∧
    pkt.hdr.len ≤ 9216 ∧ pkt.hdr.len = pkt.body.length ∧ (pkt.hdr.kind = 1 → 24 ≤ pkt.hdr.len) ∧ (pkt.hdr.kind = 2 → 32 ≤ pkt.hdr.len) ∧
    (pkt.hdr.mc = true → (pkt.hdr.kind = 0 ∨ pkt.hdr.kind = 3) ∧ pkt.hdr.dst < 4096) := by
  simp only [headerBad, Bool.or_eq_false_iff, Bool.and_eq_false_iff, decide_eq_false_iff_not, ne_eq, not_not, gt_iff_lt, ge_iff_le, not_lt,
    not_le, and_assoc]
  refine and_congr_right fun _ => and_congr_right fun _ => and_congr_right fun _ => and_congr_right fun _ => and_congr_right fun _ =>
    and_congr imp_iff_not_or.symm (and_congr imp_iff_not_or.symm ?_)
  cases pkt.hdr.mc <;> simp

/-! ### Credits granted again leave the Basin alone (R236) -/

@[simp] theorem State.setLink_basin (p : Nat) (l : Link) : (s.setLink p l).basin = s.basin := by
  unfold State.setLink
  split
  · split <;> rfl
  · rfl

@[simp] theorem State.grantBack_basin (p c : Nat) : (s.grantBack p c).basin = s.basin := by
  unfold State.grantBack
  dsimp only
  split
  · exact (State.setLink_basin ..).trans (State.setLink_basin ..)
  · rfl

@[simp] theorem State.grantAll_basin : s.grantAll.basin = s.basin := by
  refine foldl_unchanged (g := State.basin) (fun x _ u => ?_) s
  split
  · exact foldl_unchanged (g := State.basin) (fun _ _ _ => State.grantBack_basin ..) u
  · rfl

theorem State.police_basin (p : Nat) (lossless : Bool) : (s.police p lossless pkt).2.basin = s.basin := by
  unfold State.police
  dsimp only
  split
  · rfl
  · split
    · rfl
    · split <;> rfl

theorem State.noteEvent_basin (p : Nat) (egress : Bool) (stamp : Int) : (s.noteEvent p egress pkt stamp).basin = s.basin := by
  unfold State.noteEvent State.noteFrame
  split
  · split <;> rfl
  · rfl

/-! ### The packet at the Basin's door -/

/-- The packet as the Quay has handed it over, or hands it over now. -/
def State.came (s : State) (port : Nat) (pkt : Packet) : BPkt :=
  (s.basin.handed.find? fun x => x.port = port && x.pkt = pkt).getD
    ⟨pkt, port, s.ingressStamp port, false, s.lossless port pkt.hdr.tc, none⟩

/-- The state in which the packet has been taken from the Quay and its bytes are counted. -/
def State.takenIn (s : State) (port : Nat) (pkt : Packet) : State :=
  { s with
    basin := { s.basin with handed := s.basin.handed.erase (s.came port pkt) }
    tal := { s.tal with rxBytes := spPut 0 s.tal.rxBytes port (spGet 0 s.tal.rxBytes port + pkt.size) } }

theorem State.came_spec (s : State) (port : Nat) (pkt : Packet) : (s.came port pkt).port = port ∧ (s.came port pkt).pkt = pkt := by
  unfold State.came
  cases h : s.basin.handed.find? fun x => x.port = port && x.pkt = pkt with
  | none => exact ⟨rfl, rfl⟩
  | some x => simpa using List.find?_some h

theorem exec_packetArrival_eq : exec (.packetArrival port pkt) s = .next
    (({ s with basin := { s.basin with handed := s.basin.handed.erase (s.came port pkt) } } : State).arrive (s.came port pkt)).grantAll := by
  simp only [exec, execPacketArrival]
  cases h : s.basin.handed.find? fun x => x.port = port && x.pkt = pkt with
  | some x => simp only [State.came, h, Option.getD_some]
  | none =>
    have hcame : s.came port pkt = s.entering port pkt := by simp only [State.came, h, Option.getD_none, State.entering]
    have hfresh : s.entering port pkt ∉ s.basin.handed := fun hmem => by
      have hno := List.find?_eq_none.1 h _ hmem
      simp [State.entering] at hno
    rw [hcame, List.erase_of_not_mem hfresh]

/-- What the checks make of a packet (R232, R265), in the state in which its bytes are counted. -/
theorem State.arrive_eq (s : State) (x : BPkt) :
    let u : State := { s with tal := { s.tal with rxBytes := spPut 0 s.tal.rxBytes x.port (spGet 0 s.tal.rxBytes x.port + x.pkt.size) } }
    let r := (u.noteEvent x.port false x.pkt x.stamp).police x.port x.lossless x.pkt
    s.arrive x = if headerBad x.pkt then (u.bump F.BS_DROP_HDR_COUNT).countDrop x.port x.pkt.hdr.tc
      else match r.1 with
        | none => r.2.countDrop x.port x.pkt.hdr.tc
        | some q => (r.2.mirrorPort 1 x.port { x with pkt := q }).dispose { x with pkt := q } := by
  unfold State.arrive
  rfl

theorem exec_packetArrival_bad (hbad : headerBad pkt = true) : exec (.packetArrival port pkt) s =
    .next (((s.takenIn port pkt).bump F.BS_DROP_HDR_COUNT).countDrop port pkt.hdr.tc).grantAll := by
  obtain ⟨hport, hpkt⟩ := s.came_spec port pkt
  rw [exec_packetArrival_eq, State.arrive_eq, hport, hpkt, if_pos hbad, State.takenIn]

section
variable {v : State} (hbad : headerBad pkt = false)
include hbad

theorem exec_packetArrival_metered
    (h : ((s.takenIn port pkt).noteEvent port false pkt (s.came port pkt).stamp).police port (s.came port pkt).lossless pkt = (none, v)) :
    exec (.packetArrival port pkt) s = .next (v.countDrop port pkt.hdr.tc).grantAll := by
  obtain ⟨hport, hpkt⟩ := s.came_spec port pkt
  rw [State.takenIn] at h
  rw [exec_packetArrival_eq, State.arrive_eq, hport, hpkt, h, if_neg (by simp [hbad])]

theorem exec_packetArrival_passed
    (h : ((s.takenIn port pkt).noteEvent port false pkt (s.came port pkt).stamp).police port (s.came port pkt).lossless pkt = (some q, v)) :
    exec (.packetArrival port pkt) s = .next ((v.mirrorPort 1 port { s.came port pkt with pkt := q }).dispose
      { s.came port pkt with pkt := q }).grantAll := by
  obtain ⟨hport, hpkt⟩ := s.came_spec port pkt
  rw [State.takenIn] at h
  rw [exec_packetArrival_eq, State.arrive_eq]
  simp only [hport, hpkt, h, hbad, Bool.false_eq_true, if_false]

end

/-- A packet that its meter lets pass finds the Basin as it came, but for the packet itself and its mirror copies. -/
theorem exec_packetArrival_basin {v : State}
    (h : ((s.takenIn port pkt).noteEvent port false pkt (s.came port pkt).stamp).police port (s.came port pkt).lossless pkt = (some q, v)) :
    ∃ handed voqs tags, (v.mirrorPort 1 port { s.came port pkt with pkt := q }).basin =
      { s.basin with handed := handed, voqs := voqs, pairTag := tags } := by
  obtain ⟨regs, voqs, tags, hmirror⟩ := (VoqsOnly.refl v).mirrorPort 1 port { s.came port pkt with pkt := q }
  have hv : v.basin = (s.takenIn port pkt).basin := by
    have hpolice := State.police_basin (s := (s.takenIn port pkt).noteEvent port false pkt (s.came port pkt).stamp) (pkt := pkt) port
      (s.came port pkt).lossless
    rw [h] at hpolice
    exact hpolice.trans (State.noteEvent_basin ..)
  rw [hmirror, hv]
  exact ⟨_, _, _, rfl⟩

/-! ### Disposition of a packet of this module's own (R233) -/

section
variable (hmc : x.pkt.hdr.mc = false) (hown : s.isOwn x.pkt.hdr.dst = true)
include hmc hown

theorem State.dispose_toLocal (hk1 : x.pkt.hdr.kind ≠ 1) (hk2 : x.pkt.hdr.kind ≠ 2)
    (hfit : (s.basin.localQ.foldl (fun n p => n + p.size) 0) + x.pkt.size ≤ 4194304) :
    (s.dispose x).basin.localQ = s.basin.localQ ++ [x.pkt] := by
  have hkind : s.dispose x = s.toLocal x.port x.pkt := by
    simp only [State.dispose, hmc, hown, Bool.false_eq_true, if_false, if_true]
  rw [hkind, State.toLocal, if_pos hfit]

theorem State.dispose_toBoathouse (hk : x.pkt.hdr.kind = 2) (hawake : s.wintering = false) :
    (s.dispose x).basin.toBoathouse = s.basin.toBoathouse ++ [(x.port, x.pkt)] := by
  simp only [State.dispose, hmc, hown, hk, hawake, Bool.false_eq_true, if_false, if_true]

section
variable (hk : x.pkt.hdr.kind = 1) (hawake : s.wintering = false) (hactive : s.get F.MO_CTX_STATE_STATE [extMoor x.pkt] = 1)
  (hcontrib : bits (word64At x.pkt.body 0) 0 4 = 0)
include hk hawake hactive hcontrib

theorem State.dispose_steer : s.dispose x = if !x.lossless && !s.fits x.port x.pkt.hdr.tc x.pkt.cells then
      (s.bump F.BS_DROP_BUF_COUNT).countDrop x.port x.pkt.hdr.tc
    else { s.useCells (dieOf x.port) x.pkt.cells with basin := { s.basin with steered := s.basin.steered ++ [(x.port, x.pkt)] } } := by
  simp only [State.dispose, hmc, hown, hk, State.steer, hawake, hactive, hcontrib, Bool.false_eq_true, if_false, if_true, ne_eq,
    not_true_eq_false, decide_false, Bool.or_self]

theorem State.dispose_steered (hroom : x.lossless = true ∨ s.fits x.port x.pkt.hdr.tc x.pkt.cells = true) :
    (s.dispose x).basin.steered = s.basin.steered ++ [(x.port, x.pkt)] := by
  have hno : (!x.lossless && !s.fits x.port x.pkt.hdr.tc x.pkt.cells) = false := by
    obtain h | h := hroom <;> simp [h]
  rw [State.dispose_steer hmc hown hk hawake hactive hcontrib, hno]
  rfl

theorem State.dispose_unsteered (hfull : ¬(x.lossless = true ∨ s.fits x.port x.pkt.hdr.tc x.pkt.cells = true)) :
    s.dispose x = (s.bump F.BS_DROP_BUF_COUNT).countDrop x.port x.pkt.hdr.tc := by
  have hyes : (!x.lossless && !s.fits x.port x.pkt.hdr.tc x.pkt.cells) = true := by simpa using hfull
  rw [State.dispose_steer hmc hown hk hawake hactive hcontrib, if_pos hyes]

end

end

/-! ### Forwarding (R234, R252, R257) -/

/-- The packet as it goes on, with HOPS one less. -/
def BPkt.hopped (x : BPkt) : BPkt := { x with pkt := { x.pkt with hdr := { x.pkt.hdr with hops := x.pkt.hdr.hops - 1 } } }

theorem BPkt.hopped_tc (x : BPkt) : x.hopped.pkt.hdr.tc = x.pkt.hdr.tc := by simp only [BPkt.hopped]

theorem State.forward_eq (s : State) (x : BPkt) : s.forward x = if x.pkt.hdr.hops = 0 then
      (s.bump F.BS_DROP_HOPS_COUNT).countDrop x.port x.pkt.hdr.tc
    else if !s.pinning then s.lookedUp x.hopped
    else if x.lossless || s.fits x.port x.pkt.hdr.tc x.pkt.cells then
      { s.useCells (dieOf x.port) x.pkt.cells with basin := { s.basin with lookups := s.basin.lookups ++ [x.hopped] } }
    else (s.bump F.BS_DROP_BUF_COUNT).countDrop x.port x.pkt.hdr.tc := rfl

section
variable (hmc : x.pkt.hdr.mc = false) (hown : s.isOwn x.pkt.hdr.dst = false)
include hmc hown

theorem State.dispose_forward : s.dispose x = s.forward x := by
  simp only [State.dispose, hmc, hown, Bool.false_eq_true, if_false]

theorem State.dispose_lastHop (hhops : x.pkt.hdr.hops = 0) :
    s.dispose x = (s.bump F.BS_DROP_HOPS_COUNT).countDrop x.port x.pkt.hdr.tc := by
  rw [State.dispose_forward hmc hown, State.forward_eq, if_pos hhops]

theorem State.dispose_waits (hhops : x.pkt.hdr.hops ≠ 0) (hpin : s.pinning = true)
    (hroom : x.lossless = true ∨ s.fits x.port x.pkt.hdr.tc x.pkt.cells = true) :
    (s.dispose x).basin.lookups = s.basin.lookups ++ [x.hopped] := by
  have hyes : (x.lossless || s.fits x.port x.pkt.hdr.tc x.pkt.cells) = true := by simpa using hroom
  rw [State.dispose_forward hmc hown, State.forward_eq, if_neg hhops, if_neg (by simp [hpin]), if_pos hyes]

theorem State.dispose_lookedUp (hhops : x.pkt.hdr.hops ≠ 0) (hfree : s.pinning = false) : s.dispose x = s.lookedUp x.hopped := by
  rw [State.dispose_forward hmc hown, State.forward_eq, if_neg hhops, if_pos (by simp [hfree])]

end

/-- A target names a port of the module. -/
theorem State.destTarget_port_lt {pipe inPort : Nat} {h : Header} {e : Nat} (ht : (s.destTarget pipe inPort h).1 = .port e) : e < 512 := by
  have hentry (d : Word64) (he : targetOf d = .port e) : e < 512 := by
    unfold targetOf at he
    split at he <;> cases he
    exact bits_lt ..
  unfold State.destTarget at ht
  dsimp only at ht
  split at ht
  · exact hentry _ ht
  · split at ht
    · split at ht
      · split at ht <;> cases ht
        exact bits_lt ..
      · cases ht
    · split at ht <;> cases ht

/-- A lookup, the lookup of the source and the mirror copies, and the packet goes where its destination leads. -/
theorem State.lookedUp_eq (s : State) (x : BPkt) : ∃ l : List Nat, s.lookedUp x =
    (l.foldl (fun u k => u.mirrorTo k x.port x)
      (((s.tally 0x10).destTarget (dieOf x.port) x.port x.pkt.hdr).2.2.learnSource (dieOf x.port) x).2).deliver x
      ((s.tally 0x10).destTarget (dieOf x.port) x.port x.pkt.hdr).1 := by
  unfold State.lookedUp
  exact ⟨_, rfl⟩

/-- A packet whose destination leads to a port is queued toward it, once the lookups and the mirror copies are made. -/
theorem State.lookedUp_port {e : Nat} (ht : ((s.tally 0x10).destTarget (dieOf x.port) x.port x.pkt.hdr).1 = .port e) :
    ∃ t, PortsStand s t ∧ s.lookedUp x = t.queueTo { x with bundle := none } e := by
  have hdie : dieOf x.port < 4 := Nat.mod_lt _ (by decide)
  have hdest := PortsStand.destTarget hdie ((PortsStand.refl s).tally 0x10 1) x.port x.pkt.hdr
  have hlearn := PortsStand.learnSource hdie hdest x
  obtain ⟨l, hlooked⟩ := s.lookedUp_eq x
  refine ⟨_, hlearn.foldl l _ fun k _ u hu => hu.mirrorTo k x.port x, ?_⟩
  rw [hlooked, ht]
  rfl

/-! ### A virtual output queue (R238) -/

/-- The packet as it stands in a virtual output queue: CM set where the queue was at its threshold (R243). -/
def State.queued (s : State) (x : BPkt) (egress : Nat) : Queued :=
  let c := x.pkt.hdr.tc
  let depth := (s.basin.voqs.filter (·.is (x.port / 8) egress c)).foldl (fun m v => m + v.cells) 0
  let e := bits (s.rd .BS_CM_THRESH) (4 * c) 4
  ⟨{ x with pkt := if e ≠ 15 && 2 ^ e ≤ depth then { x.pkt with hdr := { x.pkt.hdr with cm := true } } else x.pkt }, x.pkt.cells, 0⟩

theorem State.queued_spec (s : State) (x : BPkt) (egress : Nat) : (s.queued x egress).pkt.pkt.hdr.hops = x.pkt.hdr.hops ∧
    (s.queued x egress).pkt.pkt.body = x.pkt.body ∧ (s.queued x egress).pkt.bundle = x.bundle := by
  unfold State.queued
  dsimp only
  split <;> exact ⟨rfl, rfl, rfl⟩

@[simp] theorem State.pairHead_voqs (quay e c : Nat) (empty : Bool) : (s.pairHead quay e c empty).basin.voqs = s.basin.voqs := by
  unfold State.pairHead
  dsimp only
  split <;> rfl

theorem State.toVoq_eq (s : State) (x : BPkt) (egress : Nat) :
    let v := (s.useCells (dieOf x.port) x.pkt.cells).countEnqueue x.port egress (s.queued x egress).pkt.pkt
    s.toVoq x egress = if v.basin.voqs.any (·.is (x.port / 8) egress x.pkt.hdr.tc) then
      { v with basin := { v.basin with
                 voqs := v.basin.voqs.map fun w =>
                   if w.is (x.port / 8) egress x.pkt.hdr.tc then { w with pkts := w.pkts ++ [s.queued x egress] } else w } }
    else ({ v with basin := { v.basin with voqs := v.basin.voqs ++ [⟨x.port / 8, egress, x.pkt.hdr.tc, [s.queued x egress]⟩] } } : State).pairHead
      (x.port / 8) egress x.pkt.hdr.tc true := rfl

theorem State.toVoq_voqs (s : State) (x : BPkt) (egress : Nat) : (s.toVoq x egress).basin.voqs =
    if s.basin.voqs.any (·.is (x.port / 8) egress x.pkt.hdr.tc) then
      s.basin.voqs.map fun v => if v.is (x.port / 8) egress x.pkt.hdr.tc then { v with pkts := v.pkts ++ [s.queued x egress] } else v
    else s.basin.voqs ++ [⟨x.port / 8, egress, x.pkt.hdr.tc, [s.queued x egress]⟩] := by
  have hin (pkt : Packet) : ((s.useCells (dieOf x.port) x.pkt.cells).countEnqueue x.port egress pkt).basin = s.basin :=
    (((RegsOnly.refl s).useCells ..).countEnqueue ..).basin
  rw [State.toVoq_eq, ← hin (s.queued x egress).pkt.pkt]
  split
  · rfl
  · exact State.pairHead_voqs ..

theorem State.toVoq_holds (s : State) (x : BPkt) (egress : Nat) : ∃ y ∈ (s.toVoq x egress).basin.voqs, s.queued x egress ∈ y.pkts ∧
    y.quay = x.port / 8 ∧ y.egress = egress ∧ y.cls = x.pkt.hdr.tc := by
  rw [State.toVoq_voqs]
  split
  · next hany =>
    obtain ⟨v, hv, his⟩ := List.any_eq_true.1 hany
    refine ⟨_, List.mem_map_of_mem hv, ?_⟩
    rw [if_pos his]
    simp only [Voq.is, Bool.and_eq_true, decide_eq_true_eq] at his
    obtain ⟨⟨hquay, hegress⟩, hcls⟩ := his
    exact ⟨by simp, hquay, hegress, hcls⟩
  · exact ⟨_, List.mem_append_right _ List.mem_cons_self, by simp, rfl, rfl, rfl⟩

/-- A lossless packet queued toward a port in service. -/
theorem State.queueTo_holds {e : Nat} (hup : s.linkUp e = true) (hopen : s.blockedAt e x.pkt.hdr.tc = none) (hl : x.lossless = true) :
    ∃ y ∈ (s.queueTo x e).basin.voqs, ∃ z ∈ y.pkts, y.quay = (if x.orig = true then e else x.port) / 8 ∧ y.egress = e ∧
      y.cls = x.pkt.hdr.tc ∧ z.pkt.pkt.hdr.hops = x.pkt.hdr.hops ∧ z.pkt.pkt.body = x.pkt.body ∧ z.pkt.bundle = x.bundle := by
  have hqueue : s.queueTo x e = s.toVoq (if x.orig then { x with port := e } else x) e := by
    cases horig : x.orig <;> simp [State.queueTo, horig, hup, hopen, hl]
  obtain ⟨y, hy, hz, hquay, hegress, hcls⟩ := s.toVoq_holds (if x.orig then { x with port := e } else x) e
  obtain ⟨hhops, hbody, hbundle⟩ := s.queued_spec (if x.orig then { x with port := e } else x) e
  rw [hqueue]
  refine ⟨y, hy, _, hz, ?_⟩
  rw [hquay, hegress, hcls, hhops, hbody, hbundle]
  cases x.orig <;> exact ⟨rfl, rfl, rfl, rfl, rfl, rfl⟩

/-- A forwarded packet waits for the crossbar toward the port that its destination leads to. -/
theorem State.dispose_queued {e : Nat} (hmc : x.pkt.hdr.mc = false) (hown : s.isOwn x.pkt.hdr.dst = false) (hhops : x.pkt.hdr.hops ≠ 0)
    (hfree : s.pinning = false) (ht : ((s.tally 0x10).destTarget (dieOf x.port) x.port x.hopped.pkt.hdr).1 = .port e)
    (hl : x.lossless = true) (hup : s.linkUp e = true) (hopen : s.blockedAt e x.pkt.hdr.tc = none) :
    ∃ y ∈ (s.dispose x).basin.voqs, ∃ z ∈ y.pkts, y.quay = (if x.orig = true then e else x.port) / 8 ∧ y.egress = e ∧
      y.cls = x.pkt.hdr.tc ∧ z.pkt.pkt.hdr.hops = x.pkt.hdr.hops - 1 ∧ z.pkt.pkt.body = x.pkt.body ∧ z.pkt.bundle = none := by
  have he := State.destTarget_port_lt ht
  obtain ⟨t, hstand, hlooked⟩ := State.lookedUp_port (x := x.hopped) ht
  rw [State.dispose_lookedUp hmc hown hhops hfree, hlooked]
  exact State.queueTo_holds (x := { x.hopped with bundle := none }) ((hstand.linkUp he).trans hup) ((hstand.blockedAt he _).trans hopen) hl

/-! ### Replication (R241, R242) -/

/-- The ports of the packet's group, but for its own, that are up. -/
def State.groupUp (s : State) (x : BPkt) : List Nat := ((s.mapPorts .BS_MCG_MAP x.pkt.hdr.dst).filter (· ≠ x.port)).filter s.linkUp

/-- A packet that joins the multicast FIFO of its ingress port and class. -/
def State.joinFifo (s : State) (m : McPkt) : State :=
  let b := s.basin
  let mine (f : McFifo) : Bool := f.ingress = m.pkt.port && f.cls = m.pkt.pkt.hdr.tc
  if b.mc.any mine then
    { s with basin := { b with mc := b.mc.map fun f => if mine f then { f with pkts := f.pkts ++ [m] } else f } }
  else { s with basin := { b with mc := b.mc ++ [⟨m.pkt.port, m.pkt.pkt.hdr.tc, [m]⟩] } }

theorem State.joinFifo_holds (s : State) (m : McPkt) : ∃ f ∈ (s.joinFifo m).basin.mc, m ∈ f.pkts ∧ f.ingress = m.pkt.port ∧
    f.cls = m.pkt.pkt.hdr.tc := by
  unfold State.joinFifo
  dsimp only
  split
  · next hany =>
    obtain ⟨f, hf, hmine⟩ := List.any_eq_true.1 hany
    refine ⟨_, List.mem_map_of_mem hf, ?_⟩
    rw [if_pos hmine]
    simp only [Bool.and_eq_true, decide_eq_true_eq] at hmine
    exact ⟨List.mem_append_right _ List.mem_cons_self, hmine.1, hmine.2⟩
  · exact ⟨_, List.mem_append_right _ List.mem_cons_self, List.mem_cons_self, rfl, rfl⟩

theorem State.replicate_eq (s : State) (x : BPkt) : ∃ u v : State, s.replicate x =
    if x.pkt.hdr.hops = 0 then (s.bump F.BS_DROP_HOPS_COUNT).countDrop x.port x.pkt.hdr.tc
    else if (s.groupUp x).isEmpty then u
    else if x.lossless || u.fits x.port x.pkt.hdr.tc x.pkt.cells then v.joinFifo ⟨x.hopped, x.pkt.cells, s.groupUp x, s.groupUp x⟩
    else (u.bump F.BS_DROP_BUF_COUNT).countDrop x.port x.pkt.hdr.tc := by
  unfold State.replicate State.joinFifo
  exact ⟨_, _, rfl⟩

theorem State.dispose_replicated (hmc : x.pkt.hdr.mc = true) (hhops : x.pkt.hdr.hops ≠ 0) (hups : s.groupUp x ≠ []) (hl : x.lossless = true) :
    ∃ f ∈ (s.dispose x).basin.mc, ∃ m ∈ f.pkts, f.ingress = x.port ∧ f.cls = x.pkt.hdr.tc ∧ m.ports = s.groupUp x ∧
      m.residue = s.groupUp x ∧ m.pkt = x.hopped := by
  obtain ⟨u, v, hreplicate⟩ := s.replicate_eq x
  have hsome : (s.groupUp x).isEmpty = false := by simpa using hups
  rw [State.dispose, if_pos hmc, hreplicate, if_neg hhops]
  simp only [hsome, hl, Bool.true_or, Bool.false_eq_true, if_false, if_true]
  obtain ⟨f, hf, hm, hingress, hcls⟩ := v.joinFifo_holds ⟨x.hopped, x.pkt.cells, s.groupUp x, s.groupUp x⟩
  refine ⟨f, hf, _, hm, hingress, hcls.trans x.hopped_tc, ?_, ?_, ?_⟩ <;> dsimp only

end Sys2Proof.Machine
end

section
/-! SUPPORT. MATCHING (R238, R239, R242): that a round matches the only pair with something to send, and what its cell leaves. -/

namespace Sys2Proof.Machine

variable {s t : State}

/-! ### Picking from a list -/

/-- A fold that keeps one of the elements it has met ends with one of them. -/
theorem foldl_pick_mem {α : Type} (better : α → α → Bool) (l : List α) (a : α) :
    l.foldl (fun a x => if better a x then a else x) a ∈ a :: l := by
  induction l generalizing a with
  | nil => exact List.mem_cons_self
  | cons x l ih =>
    rw [List.foldl_cons]
    obtain h | h := List.mem_cons.1 (ih (if better a x then a else x))
    · rw [h]
      split
      · exact List.mem_cons_self
      · exact List.mem_cons_of_mem _ List.mem_cons_self
    · exact List.mem_cons_of_mem _ (List.mem_cons_of_mem _ h)

/-- The first of the elements whose key is least. -/
def leastBy (key : Req × Nat → Nat) (l : List (Req × Nat)) : Option (Req × Nat) :=
  l.foldl (fun a x => match a with | none => some x | some y => if key x < key y then some x else some y) none

theorem leastBy_spec (key : Req × Nat → Nat) (l : List (Req × Nat)) : (leastBy key l = none ↔ l = []) ∧ ∀ x, leastBy key l = some x → x ∈ l := by
  unfold leastBy
  induction l using List.reverseRecOn with
  | nil => simp
  | append_singleton l y ih =>
    rw [List.foldl_append, List.foldl_cons, List.foldl_nil]
    cases h : List.foldl _ none l with
    | none => simp
    | some z =>
      have hz := ih.2 z h
      dsimp only
      split <;> simp [hz]

theorem pickRr_eq (key : Req × Nat → Nat) (ptr : Nat) (l : List (Req × Nat)) :
    let top := if l.any fun x => x.1.level = 1 then l.filter fun x => x.1.level = 1 else l
    pickRr key ptr l = match leastBy key (top.filter fun x => ptr ≤ key x) with
      | some x => some x
      | none => leastBy key top := by
  unfold pickRr leastBy
  rfl

/-- What an arbiter picks is one of the requests, and it picks one where there is any. -/
theorem pickRr_spec (key : Req × Nat → Nat) (ptr : Nat) (l : List (Req × Nat)) :
    (l ≠ [] → pickRr key ptr l ≠ none) ∧ ∀ x, pickRr key ptr l = some x → x ∈ l := by
  rw [pickRr_eq]
  generalize htop : (if (l.any fun x => decide (x.1.level = 1)) = true then l.filter fun x => decide (x.1.level = 1) else l) = top
  have hsub : ∀ x ∈ top, x ∈ l := by
    rw [← htop]
    split
    · exact fun x hx => List.mem_of_mem_filter hx
    · exact fun x hx => hx
  have hsome : l ≠ [] → top ≠ [] := by
    rw [← htop]
    split
    · next hany =>
      obtain ⟨x, hx, hlevel⟩ := List.any_eq_true.1 hany
      exact fun _ => List.ne_nil_of_mem (List.mem_filter.2 ⟨hx, hlevel⟩)
    · exact id
  split
  · next y hy => exact ⟨fun _ => by simp, fun x hx => hsub x (List.mem_of_mem_filter ((leastBy_spec ..).2 x (hy.trans hx)))⟩
  · exact ⟨fun hl hnone => hsome hl ((leastBy_spec ..).1.1 hnone), fun x hx => hsub x ((leastBy_spec ..).2 x hx)⟩

/-! ### One round (R239) -/

/-- Each free output slot of a requested port grants one request for its port. -/
def State.granted (s : State) (done : List Match) : List (Req × Nat) :=
  (((s.requests done).map (·.egress)).eraseDups.flatMap fun e =>
    ((List.range (s.portWidth e)).map (e + ·)).filter fun o => !done.any fun m => m.out = o).filterMap fun o =>
    pickRr (·.1.slot) (spGet 0 s.basin.grantPtr o) (((s.requests done).filter fun r => s.portOf o = r.egress).map fun r => (r, o))

/-- What input slot `i` accepts of the grants: one, or each of the ports that its multicast head is granted. -/
def State.acceptedAt (s : State) (grants : List (Req × Nat)) (i : Nat) : List Match :=
  match pickRr (·.2) (spGet 0 s.basin.acceptPtr i) (grants.filter fun g => g.1.slot = i) with
  | none => []
  | some (r, o) =>
    match r.mc with
    | none => [⟨r, o⟩]
    | some _ => (grants.filter fun g => g.1.slot = i && g.1.mc = r.mc).foldl (fun (l : List Match) g =>
        if l.any fun m => m.req.egress = g.1.egress then l else l ++ [⟨g.1, g.2⟩]) []

def State.accepted (s : State) (done : List Match) : List Match :=
  ((s.granted done).map (·.1.slot)).eraseDups.flatMap (s.acceptedAt (s.granted done))

/-- A state but for the arbiters' pointers. -/
def State.arbited (s : State) (g a : Sp Nat) : State := { s with basin := { s.basin with grantPtr := g, acceptPtr := a } }

theorem State.arbited_arbited (s : State) (g a g' a' : Sp Nat) : (s.arbited g a).arbited g' a' = s.arbited g' a' := rfl

/-- The pointers moved on the pairs matched. -/
def State.movePtrs (s : State) (l : List Match) : State :=
  l.foldl (fun s m =>
    { s with basin := { s.basin with grantPtr := spPut 0 s.basin.grantPtr m.out ((m.req.slot + 1) % 512),
                                     acceptPtr := spPut 0 s.basin.acceptPtr m.req.slot ((m.out + 1) % 512) } }) s

theorem State.movePtrs_eq (l : List Match) (s : State) :
    ∃ g a, s.movePtrs l = s.arbited g a := by
  unfold State.movePtrs
  induction l generalizing s with
  | nil => exact ⟨_, _, rfl⟩
  | cons m l ih =>
    obtain ⟨g, a, h⟩ := ih { s with basin := { s.basin with
      grantPtr := spPut 0 s.basin.grantPtr m.out ((m.req.slot + 1) % 512),
      acceptPtr := spPut 0 s.basin.acceptPtr m.req.slot ((m.out + 1) % 512) } }
    exact ⟨g, a, h⟩

theorem State.matchRound_moves (first : Bool) (s : State) (done : List Match) :
    State.matchRound first (s, done) = (if first then s.movePtrs (s.accepted done) else s, done ++ s.accepted done) := by
  unfold State.matchRound State.accepted State.granted State.acceptedAt State.movePtrs
  rfl

/-- A round adds what is accepted, and moves the arbiters' pointers alone. -/
theorem State.matchRound_eq (first : Bool) (s : State) (done : List Match) : ∃ g a,
    State.matchRound first (s, done) = (s.arbited g a, done ++ s.accepted done) := by
  rw [State.matchRound_moves]
  cases first with
  | false => exact ⟨s.basin.grantPtr, s.basin.acceptPtr, rfl⟩
  | true =>
    obtain ⟨g, a, h⟩ := s.movePtrs_eq (s.accepted done)
    exact ⟨g, a, congrArg (·, done ++ s.accepted done) h⟩

theorem State.mem_granted {done : List Match} {g : Req × Nat} (h : g ∈ s.granted done) : g.1 ∈ s.requests done := by
  obtain ⟨o, -, hpick⟩ := List.mem_filterMap.1 h
  obtain ⟨r, hr, rfl⟩ := List.mem_map.1 ((pickRr_spec ..).2 _ hpick)
  exact List.mem_of_mem_filter hr

/-- What an input slot accepts of a multicast head's grants is among them, and it is something where there is one. -/
theorem foldl_accept_spec (l : List (Req × Nat)) (acc : List Match) :
    let r := l.foldl (fun (l : List Match) g => if l.any fun m => m.req.egress = g.1.egress then l else l ++ [⟨g.1, g.2⟩]) acc
    (∀ m ∈ r, m ∈ acc ∨ (m.req, m.out) ∈ l) ∧ (acc ≠ [] ∨ l ≠ [] → r ≠ []) := by
  induction l generalizing acc with
  | nil => exact ⟨fun m hm => .inl hm, fun h => h.resolve_right (· rfl)⟩
  | cons g l ih =>
    dsimp only
    rw [List.foldl_cons]
    obtain ⟨hmem, hne⟩ := ih (if acc.any fun m => m.req.egress = g.1.egress then acc else acc ++ [⟨g.1, g.2⟩])
    refine ⟨fun m hm => ?_, fun _ => hne (.inl ?_)⟩
    · obtain h | h := hmem m hm
      · split at h
        · exact .inl h
        · obtain h | h := List.mem_append.1 h
          · exact .inl h
          · rw [List.mem_singleton.1 h]
            exact .inr List.mem_cons_self
      · exact .inr (List.mem_cons_of_mem _ h)
    · split
      · next hany =>
        obtain ⟨m, hm, -⟩ := List.any_eq_true.1 hany
        exact List.ne_nil_of_mem hm
      · simp

theorem State.acceptedAt_spec (s : State) (grants : List (Req × Nat)) (i : Nat) :
    (∀ m ∈ s.acceptedAt grants i, (m.req, m.out) ∈ grants) ∧ ((∃ g ∈ grants, g.1.slot = i) → s.acceptedAt grants i ≠ []) := by
  have hpick := pickRr_spec (·.2) (spGet 0 s.basin.acceptPtr i) (grants.filter fun g => g.1.slot = i)
  unfold State.acceptedAt
  split
  · next hnone =>
    refine ⟨by simp, fun ⟨g, hg, hslot⟩ => absurd hnone (hpick.1 ?_)⟩
    exact List.ne_nil_of_mem (List.mem_filter.2 ⟨hg, by simpa using hslot⟩)
  · next r o hsome =>
    have hr := hpick.2 _ hsome
    split
    · exact ⟨fun m hm => by rw [List.mem_singleton.1 hm]; exact List.mem_of_mem_filter hr, fun _ => by simp⟩
    · obtain ⟨hmem, hne⟩ := foldl_accept_spec (grants.filter fun g => g.1.slot = i && g.1.mc = r.mc) []
      refine ⟨fun m hm => ?_, fun _ => hne (.inr ?_)⟩
      · obtain h | h := hmem m hm
        · simp at h
        · exact List.mem_of_mem_filter h
      · obtain ⟨hg, hslot⟩ := List.mem_filter.1 hr
        exact List.ne_nil_of_mem (List.mem_filter.2 ⟨hg, by simpa using hslot⟩)

theorem State.mem_accepted {done : List Match} {m : Match} (h : m ∈ s.accepted done) : m.req ∈ s.requests done := by
  obtain ⟨i, -, hi⟩ := List.mem_flatMap.1 h
  exact State.mem_granted ((s.acceptedAt_spec _ i).1 m hi)

/-- The first round matches something where a port is asked for that has a slot. -/
theorem State.accepted_ne_nil {r : Req} (hr : r ∈ s.requests []) (hport : s.portOf r.egress = r.egress) (hwidth : 0 < s.portWidth r.egress) :
    s.accepted [] ≠ [] := by
  have hout : r.egress ∈ ((s.requests []).map (·.egress)).eraseDups.flatMap fun e =>
      ((List.range (s.portWidth e)).map (e + ·)).filter fun o => !([] : List Match).any fun m => m.out = o := by
    refine List.mem_flatMap.2 ⟨r.egress, List.mem_eraseDups.2 (List.mem_map_of_mem hr), List.mem_filter.2 ⟨?_, by simp⟩⟩
    exact List.mem_map.2 ⟨0, List.mem_range.2 hwidth, rfl⟩
  have hasked : (r, r.egress) ∈ ((s.requests []).filter fun r' => s.portOf r.egress = r'.egress).map fun r' => (r', r.egress) :=
    List.mem_map.2 ⟨r, List.mem_filter.2 ⟨hr, by simp [hport]⟩, rfl⟩
  obtain ⟨g, hg⟩ := Option.ne_none_iff_exists'.1
    ((pickRr_spec (·.1.slot) (spGet 0 s.basin.grantPtr r.egress) _).1 (List.ne_nil_of_mem hasked))
  have hgrant : g ∈ s.granted [] := List.mem_filterMap.2 ⟨r.egress, hout, hg⟩
  have hslot : g.1.slot ∈ ((s.granted []).map (·.1.slot)).eraseDups :=
    List.mem_eraseDups.2 (List.mem_map.2 ⟨g, hgrant, rfl⟩)
  obtain ⟨m, hm⟩ := List.exists_mem_of_ne_nil _ ((s.acceptedAt_spec (s.granted []) g.1.slot).2 ⟨g, hgrant, rfl⟩)
  exact List.ne_nil_of_mem (List.mem_flatMap.2 ⟨_, hslot, hm⟩)

/-! ### The matches that cross -/

theorem copies_spec (ms : List Match) : (∀ m ∈ copies ms, m ∈ ms) ∧ (ms ≠ [] → copies ms ≠ []) := by
  have hfold (l acc : List Match) :
      let r := l.foldl (fun l m =>
        if m.req.mc.isSome && l.any fun x => x.req.port = m.req.port && x.req.mc = m.req.mc && x.req.egress = m.req.egress then l
        else l ++ [m]) acc
      (∀ m ∈ r, m ∈ acc ∨ m ∈ l) ∧ (acc ≠ [] ∨ l ≠ [] → r ≠ []) := by
    induction l generalizing acc with
    | nil => exact ⟨fun m hm => .inl hm, fun h => h.resolve_right (· rfl)⟩
    | cons x l ih =>
      dsimp only
      rw [List.foldl_cons]
      obtain ⟨hmem, hne⟩ := ih (if x.req.mc.isSome && acc.any fun y =>
        y.req.port = x.req.port && y.req.mc = x.req.mc && y.req.egress = x.req.egress then acc else acc ++ [x])
      refine ⟨fun m hm => ?_, fun _ => hne (.inl ?_)⟩
      · obtain h | h := hmem m hm
        · split at h
          · exact .inl h
          · obtain h | h := List.mem_append.1 h
            · exact .inl h
            · rw [List.mem_singleton.1 h]
              exact .inr List.mem_cons_self
        · exact .inr (List.mem_cons_of_mem _ h)
      · split
        · next hany =>
          obtain ⟨m, hm, -⟩ := List.any_eq_true.1 ((Bool.and_eq_true_iff).1 hany).2
          exact List.ne_nil_of_mem hm
        · simp
  obtain ⟨hmem, hne⟩ := hfold ms []
  exact ⟨fun m hm => (hmem m hm).resolve_left List.not_mem_nil, fun h => hne (.inr h)⟩

/-- What a match lets cross. -/
def State.cross (s : State) (m : Match) : State :=
  match m.req.mc with
  | none => s.crossUnicast (m.req.port / 8) m.req.egress (fun c => (s.gateMask m.req.egress).testBit c)
  | some c => s.crossMulticast m.req.port c m.req.egress

/-- The rounds are made with every port's priority bucket brought up to date. -/
theorem State.fillPrios_eq (s : State) (es : List Nat) : ∃ sc, es.foldl (fun s e => s.fillPrio e) s = { s with sched := sc } := by
  induction es generalizing s with
  | nil => exact ⟨_, rfl⟩
  | cons e es ih =>
    obtain ⟨sc, h⟩ := ih (s.fillPrio e)
    exact ⟨sc, h⟩

/-- The three rounds of a cycle. -/
def State.rounds (s : State) : State × List Match :=
  State.matchRound false (State.matchRound false (State.matchRound true (s, [])))

/-- The rounds move the arbiters' pointers alone, match requests that some round has seen, and match one where the first sees one to a port
with a slot. -/
theorem State.rounds_eq (s : State) : ∃ g a ms, s.rounds = (s.arbited g a, ms) ∧ (∀ m ∈ ms, ∃ g a done, m.req ∈ (s.arbited g a).requests done) ∧
    ((∃ r ∈ s.requests [], s.portOf r.egress = r.egress ∧ 0 < s.portWidth r.egress) → ms ≠ []) := by
  obtain ⟨g1, a1, h1⟩ := State.matchRound_eq true s []
  obtain ⟨g2, a2, h2⟩ := State.matchRound_eq false (s.arbited g1 a1) (s.accepted [])
  obtain ⟨g3, a3, h3⟩ := State.matchRound_eq false (s.arbited g2 a2) (s.accepted [] ++ (s.arbited g1 a1).accepted (s.accepted []))
  refine ⟨g3, a3, s.accepted [] ++ (s.arbited g1 a1).accepted (s.accepted []) ++
    (s.arbited g2 a2).accepted (s.accepted [] ++ (s.arbited g1 a1).accepted (s.accepted [])), ?_, fun m hm => ?_, fun ⟨r, hr, hport, hwidth⟩ => ?_⟩
  · unfold State.rounds
    rw [h1, List.nil_append, h2, State.arbited_arbited, h3, State.arbited_arbited]
  · obtain hm | hm := List.mem_append.1 hm
    · obtain hm | hm := List.mem_append.1 hm
      · exact ⟨s.basin.grantPtr, s.basin.acceptPtr, [], State.mem_accepted hm⟩
      · exact ⟨g1, a1, _, State.mem_accepted hm⟩
    · exact ⟨g2, a2, _, State.mem_accepted hm⟩
  · exact List.append_ne_nil_of_left_ne_nil (List.append_ne_nil_of_left_ne_nil (State.accepted_ne_nil hr hport hwidth) _) _

theorem exec_matching_rounds (s : State) : ∃ es : List Nat, exec .matching s = .next ((copies (es.foldl (fun s e => s.fillPrio e) s).rounds.2).foldl
    State.cross (es.foldl (fun s e => s.fillPrio e) s).rounds.1).grantAll := by
  refine ⟨((s.basin.voqs.map (·.egress)) ++ s.basin.mc.flatMap fun f => f.pkts.flatMap (·.residue)).eraseDups, ?_⟩
  change execMatching s = _
  unfold execMatching State.rounds
  dsimp only
  generalize State.matchRound false _ = r
  rfl

/-- MATCHING lets some matches cross, each of a request that some round has seen, and at least one where the first round sees a request to a
port with a slot. -/
theorem exec_matching_eq (s : State) : ∃ sc g a ms,
    exec .matching s = .next (ms.foldl State.cross (State.arbited { s with sched := sc } g a)).grantAll ∧
    (∀ m ∈ ms, ∃ g a done, m.req ∈ (State.arbited { s with sched := sc } g a).requests done) ∧
    ((∃ r ∈ State.requests { s with sched := sc } [], s.portOf r.egress = r.egress ∧ 0 < s.portWidth r.egress) → ms ≠ []) := by
  obtain ⟨es, hexec⟩ := exec_matching_rounds s
  obtain ⟨sc, hfill⟩ := s.fillPrios_eq es
  obtain ⟨g, a, ms, hrounds, hreq, hne⟩ := State.rounds_eq { s with sched := sc }
  rw [hfill, hrounds] at hexec
  obtain ⟨hcopy, hcopyne⟩ := copies_spec ms
  exact ⟨sc, g, a, copies ms, hexec, fun m hm => hreq m (hcopy m hm), fun h => hcopyne (hne h)⟩

end Sys2Proof.Machine
end

section
/-! SUPPORT. MATCHING of the only packet queued (R238, R239, R242). -/

namespace Sys2Proof.Machine

variable {s t u : State} {p e c : Nat}

/-! ### What is requested -/

/-- With one virtual output queue, every request is for its pair. -/
theorem request_of_voq {q : Queued} {done : List Match} {r : Req} (hv : u.basin.voqs = [⟨p / 8, e, c, [q]⟩]) (hm : u.basin.mc = [])
    (hr : r ∈ u.requests done) : r.port / 8 = p / 8 ∧ r.egress = e ∧ r.mc = none := by
  unfold State.requests State.inPorts at hr
  rw [hv, hm] at hr
  obtain ⟨p', hp', hr⟩ := List.mem_flatMap.1 hr
  have hquay : p' / 8 = p / 8 := by
    have := List.mem_eraseDups.1 hp'
    simp only [List.flatMap_cons, List.flatMap_nil, List.append_nil, List.map_nil, List.mem_filter, List.mem_map, List.mem_range] at this
    omega
  obtain ⟨i, -, hr⟩ := List.mem_flatMap.1 hr
  split at hr
  · exact absurd hr List.not_mem_nil
  · simp only [hquay, decide_true, List.isEmpty_cons, Bool.not_false, Bool.and_self, List.filter_cons_of_pos, List.filter_nil, List.map_cons,
      List.map_nil, List.flatMap_nil, List.append_nil] at hr
    obtain ⟨e', he', hsome⟩ := List.mem_filterMap.1 hr
    have he : e' = e := by simpa using List.mem_eraseDups.1 he'
    split at hsome
    · rw [← Option.some.inj hsome]
      exact ⟨hquay, he, rfl⟩
    · exact absurd hsome (by simp)

theorem pairCells_of_voq {q : Queued} (hv : u.basin.voqs = [⟨p / 8, e, c, [q]⟩]) : u.pairCells (p / 8) e = q.rest := by
  unfold State.pairCells State.pairQueues
  rw [hv]
  simp [Voq.cells, Voq.cellsOf]

/-- One that has a cell left is requested. -/
theorem voq_requested {q : Queued} (hv : u.basin.voqs = [⟨p / 8, e, c, [q]⟩]) (hm : u.basin.mc = []) (hleft : 0 < q.rest) (hport : u.isPort p = true)
    (hwidth : 0 < u.portWidth p) : ∃ r ∈ u.requests [], r.egress = e := by
  have hin : p ∈ u.inPorts := by
    unfold State.inPorts
    rw [hv, hm]
    refine List.mem_eraseDups.2 (List.mem_append_left _ (List.mem_flatMap.2 ⟨_, List.mem_singleton_self _, List.mem_filter.2 ⟨?_, hport⟩⟩))
    exact List.mem_map.2 ⟨p % 8, List.mem_range.2 (Nat.mod_lt _ (by omega)), by dsimp only; omega⟩
  refine ⟨⟨p, p, e, none, if (u.pairQueues (p / 8) e).any fun v => u.collCredit e v.cls then 1 else 0⟩,
    List.mem_flatMap.2 ⟨p, hin, List.mem_flatMap.2 ⟨p, List.mem_map.2 ⟨0, List.mem_range.2 hwidth, rfl⟩, ?_⟩⟩, rfl⟩
  rw [if_neg (by simp)]
  refine List.mem_append_left _ (List.mem_filterMap.2 ⟨e, List.mem_eraseDups.2 ?_, ?_⟩)
  · rw [hv]
    simp
  · rw [pairCells_of_voq hv]
    simp [hleft]

/-- With one multicast FIFO, every request is for a port of its head's residue. -/
theorem request_of_fifo {h : McPkt} {done : List Match} {r : Req} (hv : u.basin.voqs = []) (hm : u.basin.mc = [⟨p, c, [h]⟩])
    (hres : h.residue = [e]) (hr : r ∈ u.requests done) : r.port = p ∧ r.egress = e ∧ r.mc = some c := by
  unfold State.requests State.inPorts at hr
  rw [hv, hm] at hr
  obtain ⟨p', hp', hr⟩ := List.mem_flatMap.1 hr
  have hp : p' = p := by simpa using List.mem_eraseDups.1 hp'
  obtain ⟨i, -, hr⟩ := List.mem_flatMap.1 hr
  split at hr
  · exact absurd hr List.not_mem_nil
  · have hnil : ([] : List Nat).eraseDups = [] := rfl
    simp only [List.filter_nil, List.map_nil, hnil, List.filterMap_nil, List.nil_append, hp, decide_true, List.filter_cons_of_pos,
      List.flatMap_cons, List.flatMap_nil, List.append_nil, List.mem_map, List.mem_filter, hres, List.mem_singleton] at hr
    obtain ⟨e', ⟨he, -⟩, rfl⟩ := hr
    exact ⟨rfl, he, rfl⟩

theorem fifo_requested {h : McPkt} (hm : u.basin.mc = [⟨p, c, [h]⟩]) (hres : h.residue = [e])
    (hwidth : 0 < u.portWidth p) : ∃ r ∈ u.requests [], r.egress = e := by
  have hin : p ∈ u.inPorts := by
    unfold State.inPorts
    rw [hm]
    exact List.mem_eraseDups.2 (List.mem_append_right _ (List.mem_singleton_self _))
  refine ⟨⟨p, p, e, some c, if u.collCredit e c then 1 else 0⟩,
    List.mem_flatMap.2 ⟨p, hin, List.mem_flatMap.2 ⟨p, List.mem_map.2 ⟨0, List.mem_range.2 hwidth, rfl⟩, ?_⟩⟩, rfl⟩
  rw [if_neg (by simp)]
  refine List.mem_append_right _ (List.mem_flatMap.2 ⟨⟨p, c, [h]⟩, ?_, ?_⟩)
  · rw [hm]
    simp
  · simp [hres]

/-! ### What crosses -/

/-- Nothing is queued any more, and the packets awaiting reassembly are these. -/
def State.Drained (l : List (Nat × BPkt)) (s : State) : Prop := s.basin.voqs = [] ∧ s.basin.mc = [] ∧ s.basin.reasm = l

theorem State.Drained.regs {l : List (Nat × BPkt)} (h : s.Drained l) (hr : RegsOnly s t) : t.Drained l := by
  unfold State.Drained
  rw [hr.basin]
  exact h

theorem pairClass_of_nil (hv : u.basin.voqs = []) (quay e : Nat) (g : Nat → Bool) : u.pairClass quay e g = none := by
  have hnone : u.pairQueues quay e = [] := by
    unfold State.pairQueues
    rw [hv]
    rfl
  unfold State.pairClass
  rw [hnone]
  simp

/-- A FIFO once the cell at its head has been copied to a port. -/
def McFifo.copied (e : Nat) (f : McFifo) : McFifo :=
  match f.pkts with
  | h :: rest =>
    let r := h.residue.erase e
    if !r.isEmpty then { f with pkts := { h with residue := r } :: rest }
    else if h.left ≤ 1 then { f with pkts := rest }
    else { f with pkts := { h with left := h.left - 1, residue := h.ports } :: rest }
  | [] => f

/-- The packet whose last cell that copy is. -/
def McFifo.ended (e : Nat) (f : McFifo) : List (Nat × BPkt) :=
  match f.pkts with
  | h :: _ => if h.left = 1 && h.residue.contains e then [(e, h.pkt)] else []
  | [] => []

theorem crossMulticast_basin (s : State) (p cls e : Nat) : (s.crossMulticast p cls e).basin = { s.basin with
    mc := (s.basin.mc.map fun f => if f.ingress = p && f.cls = cls then f.copied e else f).filter fun f => !f.pkts.isEmpty,
    reasm := s.basin.reasm ++ (s.basin.mc.filter fun f => f.ingress = p && f.cls = cls).flatMap (·.ended e) } := by
  have hcount (t : State) (f : Bool) : (if dieOf p = dieOf e then (if f then (t.tally 0x11).freeCells (dieOf p) 1 else t.tally 0x11)
      else (if f then (t.tally 0x11).freeCells (dieOf p) 1 else t.tally 0x11).tally 0x12).basin = t.basin := by
    have hr : RegsOnly t (if f then (t.tally 0x11).freeCells (dieOf p) 1 else t.tally 0x11) :=
      .ite (.freeCells (.tally (.refl t) ..) ..) (.tally (.refl t) ..)
    exact (RegsOnly.ite hr (hr.tally ..)).basin
  exact hcount _ _

/-- A match made for what has crossed already lets nothing cross. -/
theorem State.Drained.cross {l : List (Nat × BPkt)} (h : s.Drained l) (m : Match) : (s.cross m).Drained l := by
  obtain ⟨hv, hm, hre⟩ := h
  unfold State.cross
  split
  · unfold State.crossUnicast
    rw [pairClass_of_nil hv]
    exact ⟨hv, hm, hre⟩
  · unfold State.Drained
    rw [crossMulticast_basin, hm]
    exact ⟨hv, rfl, by simp [hre]⟩

theorem State.Drained.foldl_cross {l : List (Nat × BPkt)} (h : s.Drained l) (ms : List Match) : (ms.foldl State.cross s).Drained l := by
  induction ms generalizing s with
  | nil => exact h
  | cons m ms ih => exact ih (h.cross m)

/-- The only class with cells is the one that sends. -/
theorem pairClass_of_voq {q : Queued} (hc : c < 16) (hv : u.basin.voqs = [⟨p / 8, e, c, [q]⟩]) (g : Nat → Bool) :
    u.pairClass (p / 8) e g = some c := by
  have hqueues : u.pairQueues (p / 8) e = [⟨p / 8, e, c, [q]⟩] := by
    unfold State.pairQueues
    rw [hv]
    simp
  have hcs : ((List.range 16).filter fun c' => (u.pairQueues (p / 8) e).any fun v => v.cls = c') = [c] := by
    rw [hqueues]
    have hall : ∀ c < 16, ((List.range 16).filter fun c' => c = c') = [c] := by decide
    simpa using hall c hc
  have hopen (o : Nat → Bool) : (if [c].any o then [c].filter o else [c]) = [c] := by
    cases ho : o c <;> simp [ho]
  unfold State.pairClass
  simp only [hcs, hopen]
  split
  · next x hx => rw [List.mem_singleton.1 (List.mem_of_find?_eq_some hx)]
  · split
    · rfl
    · next x rest hx =>
      have hsub : x :: rest = [c] := by
        by_cases hw : 0 < u.weight e c
        · simpa [hw] using hx.symm
        · simp [hw] at hx
      obtain ⟨rfl, rfl⟩ := List.cons.inj hsub
      rfl

theorem cross_voq {q : Queued} {m : Match} (hc : c < 16) (hv : u.basin.voqs = [⟨p / 8, e, c, [q]⟩]) (hm : u.basin.mc = [])
    (hlast : q.crossed + 1 = q.cells) (hport : m.req.port / 8 = p / 8) (he : m.req.egress = e) (hmc : m.req.mc = none) :
    (u.cross m).Drained (u.basin.reasm ++ [(e, (u.crossing q).pkt)]) := by
  have hkeep : (u.crossing q).crossed = q.crossed ∧ (u.crossing q).cells = q.cells := by
    unfold State.crossing
    split <;> exact ⟨rfl, rfl⟩
  obtain ⟨hcrossed, hcells⟩ := hkeep
  unfold State.cross State.crossUnicast
  rw [hmc]
  dsimp only
  rw [hport, he, pairClass_of_voq hc hv, hv]
  simp only [Voq.is, decide_true, Bool.and_self, List.find?_cons_of_pos, hcrossed, hcells, hlast, if_true, List.isEmpty_nil, List.map_cons,
    List.map_nil, Bool.not_true, List.filter_cons_of_neg, List.filter_nil, Bool.false_eq_true, not_false_eq_true]
  have hdrain : State.Drained (u.basin.reasm ++ [(e, (u.crossing q).pkt)]) { u with basin := { u.basin with
      voqs := [],
      reasm := u.basin.reasm ++ [(e, (u.crossing q).pkt)],
      pairTime := if u.weight e c = 0 then u.basin.pairTime
        else spPut 0 u.basin.pairTime (512 * (p / 8) + e) (spGet 0 u.basin.pairTag (pairKey (p / 8) e c)) } } := ⟨rfl, hm, rfl⟩
  exact hdrain.regs (.ite (.tally (.freeCells (.refl ..) ..) ..) (.tally (.tally (.freeCells (.refl ..) ..) ..) ..))

theorem cross_fifo {h : McPkt} {m : Match} (hv : u.basin.voqs = []) (hm : u.basin.mc = [⟨p, c, [h]⟩]) (hleft : h.left = 1)
    (hres : h.residue = [e]) (hport : m.req.port = p) (he : m.req.egress = e) (hmc : m.req.mc = some c) :
    (u.cross m).Drained (u.basin.reasm ++ [(e, h.pkt)]) := by
  unfold State.cross State.Drained
  rw [hmc]
  dsimp only
  rw [hport, he, crossMulticast_basin, hm]
  refine ⟨hv, ?_, ?_⟩
  · simp [McFifo.copied, hres, hleft]
  · simp [McFifo.ended, hres, hleft]

/-! ### MATCHING -/

theorem grantAll_drained {l : List (Nat × BPkt)} (h : s.Drained l) : s.grantAll.Drained l := by
  unfold State.Drained
  rw [State.grantAll_basin]
  exact h

theorem exec_matching_voq {q : Queued} (hc : c < 16) (hisport : s.isPort p = true) (hport : s.portOf e = e) (hwp : 0 < s.portWidth p)
    (hwe : 0 < s.portWidth e) (hm : s.basin.mc = []) (hv : s.basin.voqs = [⟨p / 8, e, c, [q]⟩]) (hlast : q.crossed + 1 = q.cells) :
    ∃ t, exec .matching s = .next t ∧ t.Drained (s.basin.reasm ++ [(e, (s.crossing q).pkt)]) := by
  obtain ⟨sc, g, a, ms, hexec, hreq, hne⟩ := exec_matching_eq s
  refine ⟨_, hexec, grantAll_drained ?_⟩
  have hleft : 0 < q.rest := by
    unfold Queued.rest
    omega
  obtain ⟨r, hr, hre⟩ := voq_requested (u := { s with sched := sc }) hv hm hleft hisport hwp
  cases ms with
  | nil => exact absurd rfl (hne ⟨r, hr, hre ▸ hport, hre ▸ hwe⟩)
  | cons m ms =>
    obtain ⟨g', a', done, hmem⟩ := hreq m List.mem_cons_self
    obtain ⟨hpm, hem, hmcm⟩ := request_of_voq (u := State.arbited { s with sched := sc } g' a') hv hm hmem
    exact (cross_voq (u := State.arbited { s with sched := sc } g a) hc hv hm hlast hpm hem hmcm).foldl_cross ms

theorem exec_matching_fifo {h : McPkt} (hport : s.portOf e = e) (hwp : 0 < s.portWidth p) (hwe : 0 < s.portWidth e)
    (hv : s.basin.voqs = []) (hm : s.basin.mc = [⟨p, c, [h]⟩]) (hleft : h.left = 1) (hres : h.residue = [e]) :
    ∃ t, exec .matching s = .next t ∧ t.Drained (s.basin.reasm ++ [(e, h.pkt)]) := by
  obtain ⟨sc, g, a, ms, hexec, hreq, hne⟩ := exec_matching_eq s
  refine ⟨_, hexec, grantAll_drained ?_⟩
  obtain ⟨r, hr, hre⟩ := fifo_requested (u := { s with sched := sc }) hm hres hwp
  cases ms with
  | nil => exact absurd rfl (hne ⟨r, hr, hre ▸ hport, hre ▸ hwe⟩)
  | cons m ms =>
    obtain ⟨g', a', done, hmem⟩ := hreq m List.mem_cons_self
    obtain ⟨hpm, hem, hmcm⟩ := request_of_fifo (u := State.arbited { s with sched := sc } g' a') hv hm hres hmem
    exact (cross_fifo (u := State.arbited { s with sched := sc } g a) hv hm hleft hres hpm hem hmcm).foldl_cross ms

end Sys2Proof.Machine
end

section
/-! SUPPORT. EGRESS_REASSEMBLY and EGRESS_SELECT (R238, R261, R355): the class queue a packet joins, and the one the port takes next. -/

namespace Sys2Proof.Machine

variable {s t u : State} {p c : Nat} {x : BPkt}

/-! ### Class queues -/

theorem classQ_setClassQ_self (q : ClassQueue) : (s.setClassQ p c q).classQ p c = q := spGet_spPut_self ..

theorem toClassQ_pkts : ((s.toClassQ p x).classQ p x.pkt.hdr.tc).pkts = (s.classQ p x.pkt.hdr.tc).pkts ++ [x] := by
  unfold State.toClassQ
  dsimp only
  split
  · next hempty =>
    rw [classQ_setClassQ_self, List.isEmpty_iff.1 hempty]
    rfl
  · rw [classQ_setClassQ_self]

theorem toClassQ_reasm : (s.toClassQ p x).basin.reasm = s.basin.reasm := by
  unfold State.toClassQ
  dsimp only
  split <;> rfl

/-! ### EGRESS_REASSEMBLY -/

/-- The state in which a packet has been put together. -/
def State.reassembled (s : State) (x : Nat × BPkt) : State := { s with basin := { s.basin with reasm := s.basin.reasm.erase x } }

theorem exec_egressReassembly_none {bad : Bool} (h : s.basin.reasm.find? (fun x => x.1 = p) = none) :
    exec (.egressReassembly p bad) s = .next s := by
  change execEgressReassembly p bad s = _
  unfold execEgressReassembly
  rw [h]

theorem exec_egressReassembly_eq {bad : Bool} {x : Nat × BPkt} (h : s.basin.reasm.find? (fun x => x.1 = p) = some x) :
    exec (.egressReassembly p bad) s = .next (if bad then (s.reassembled x).dropBad p x.2 else (s.reassembled x).toClassQ p x.2) := by
  change execEgressReassembly p bad s = _
  unfold execEgressReassembly
  rw [h]
  rfl

theorem exec_egressReassembly_good {x : Nat × BPkt} (h : s.basin.reasm.find? (fun x => x.1 = p) = some x) :
    ∃ t, exec (.egressReassembly p false) s = .next t ∧ t.basin.reasm = (s.reassembled x).basin.reasm ∧
      (t.classQ p x.2.pkt.hdr.tc).pkts = (s.classQ p x.2.pkt.hdr.tc).pkts ++ [x.2] :=
  ⟨_, exec_egressReassembly_eq h, toClassQ_reasm, toClassQ_pkts⟩

theorem dropBad_ours (horig : x.orig = true) (hkind : x.pkt.hdr.kind = 1) :
    s.dropBad p x = ((s.tally 0x15).countDrop x.port x.pkt.hdr.tc).queueTo x p := by
  unfold State.dropBad
  simp [horig, hkind]

theorem dropBad_passing (h : ¬(x.orig = true ∧ x.pkt.hdr.kind = 1)) :
    s.dropBad p x = (s.tally 0x15).countDrop x.port x.pkt.hdr.tc := by
  unfold State.dropBad
  rw [if_neg (by simpa using h)]

/-! ### The class taken -/

/-- The class taken is eligible, and where the first rule took it its priority bucket holds credit. -/
theorem selectClass_spec {b : Bool} (h : u.selectClass p = some (c, b)) : c ∈ u.eligible p ∧ (b = true → u.collCredit p c = true) := by
  unfold State.selectClass at h
  dsimp only at h
  split at h
  · next d hd =>
    obtain ⟨rfl, rfl⟩ := Prod.mk.inj (Option.some.inj h)
    exact ⟨List.mem_of_find?_eq_some hd, fun _ => List.find?_some hd⟩
  · split at h
    · next d rest hd =>
      obtain ⟨rfl, rfl⟩ := Prod.mk.inj (Option.some.inj h)
      refine ⟨?_, by simp⟩
      have hmem := foldl_pick_mem (fun a x => tagLe (u.classQ p a).tag (u.classQ p x).tag) rest d
      exact List.mem_of_mem_filter (hd ▸ hmem)
    · obtain ⟨d, hd, heq⟩ := Option.map_eq_some_iff.1 h
      obtain ⟨rfl, rfl⟩ := Prod.mk.inj heq
      exact ⟨List.mem_of_head? hd, by simp⟩

/-- An eligible class has a packet at its head, which its gate, the guard band and the line let pass. -/
theorem mem_eligible_iff : c ∈ u.eligible p ↔ c < 16 ∧ ∃ x rest, (u.classQ p c).pkts = x :: rest ∧ (u.gateMask p).testBit c = true ∧
    u.guardFits p c x.pkt.size = true ∧ u.lineTakes p x.pkt = true := by
  unfold State.eligible
  rw [List.mem_filter, List.mem_range]
  refine and_congr_right fun _ => ?_
  cases (u.classQ p c).pkts with
  | nil => simp
  | cons x rest => simp [and_assoc]

theorem collCredit_native (h : u.collCredit p c = true) : u.isEth p = false := by
  unfold State.collCredit at h
  simp only [Bool.and_eq_true, Bool.not_eq_true'] at h
  exact h.1.1

/-! ### EGRESS_SELECT -/

theorem exec_egressSelect_shut (h : s.isPort p = false ∨ s.linkUp p = false) : exec (.egressSelect p) s = .next s := by
  change execEgressSelect p s = _
  unfold execEgressSelect
  rw [if_pos (by simpa using h)]

theorem exec_egressSelect_idle (hport : s.isPort p = true) (hup : s.linkUp p = true) (h : (s.fillPrio p).selectClass p = none) :
    exec (.egressSelect p) s = .next (s.fillPrio p) := by
  change execEgressSelect p s = _
  unfold execEgressSelect
  rw [if_neg (by simp [hport, hup])]
  dsimp only
  rw [h]

theorem dequeue_line : (u.dequeue p c).sent = u.sent ∧ (u.dequeue p c).quays = u.quays ∧ (u.dequeue p c).cregs = u.cregs ∧
    (u.dequeue p c).regs = u.regs := by
  unfold State.dequeue
  dsimp only
  split <;> split <;> exact ⟨rfl, rfl, rfl, rfl⟩

theorem exec_egressSelect_takes {b : Bool} {rest : List BPkt} (hport : s.isPort p = true) (hup : s.linkUp p = true)
    (h : (s.fillPrio p).selectClass p = some (c, b)) (hq : ((s.fillPrio p).classQ p c).pkts = x :: rest) :
    exec (.egressSelect p) s = .next (
      if !(s.fillPrio p).isEth p && !(s.fillPrio p).feature p 2 && (x.pkt.hdr.kind = 1 || x.pkt.hdr.kind = 2) then
        ((s.fillPrio p).dequeue p c).bump F.QY_LINK_CNT_KIND (pidx p)
      else ((s.fillPrio p).dequeue p c).sendOut p b x) := by
  obtain ⟨-, -, hcregs, hregs⟩ := dequeue_line (u := s.fillPrio p) (p := p) (c := c)
  have heth : ((s.fillPrio p).dequeue p c).isEth p = (s.fillPrio p).isEth p := by
    unfold State.isEth State.cget State.crd
    rw [hcregs]
  have hfeature : ((s.fillPrio p).dequeue p c).feature p 2 = (s.fillPrio p).feature p 2 := by
    unfold State.feature State.get State.rd
    rw [hregs]
  change execEgressSelect p s = _
  unfold execEgressSelect
  rw [if_neg (by simp [hport, hup])]
  dsimp only
  rw [h]
  dsimp only
  rw [hq]
  dsimp only
  rw [heth, hfeature]

/-! ### A native frame sent -/

theorem setLink_sent (l : Link) : (s.setLink p l).sent = s.sent := by
  unfold State.setLink
  split
  · split <;> rfl
  · rfl

theorem sendFrame_sent (pkt : Packet) : (s.sendFrame p pkt).sent = s.sent ++ [.frame p (s.link p).txNext pkt] := by
  unfold State.sendFrame State.putFrame State.mapLink
  rw [setLink_sent]
  change (s.setLink p _).sent ++ _ = _
  rw [setLink_sent]

theorem link_congr (hq : t.quays = s.quays) (hc : t.cregs = s.cregs) : t.link p = s.link p := by
  have hlh : t.lhPort p = s.lhPort p := by rw [State.lhPort, State.cget, State.crd, hc, State.lhPort, State.cget, State.crd]
  rw [State.link, State.port, State.channel, hlh, hq, State.link, State.port, State.channel]

theorem noteEvent_clock (b : Bool) (pkt : Packet) (stamp : Int) : ∃ k, s.noteEvent p b pkt stamp = { s with clock := k } := by
  unfold State.noteEvent State.noteFrame
  split
  · split <;> exact ⟨_, rfl⟩
  · exact ⟨_, rfl⟩

/-- A packet is mirrored and counted before it is sent: the line stands. -/
theorem sendOut_eq (u : State) (p : Nat) (b : Bool) (x : BPkt) : ∃ v : State,
    u.sendOut p b x = (match if v.isEth p then v.slotOf p else none with
      | some i => v.bwSend i false (u.residence p x).fill.bytes
      | none => v.transmit p (u.residence p x).fill) ∧ v.sent = u.sent ∧ v.quays = u.quays ∧ v.cregs = u.cregs := by
  obtain ⟨k, hnote⟩ := noteEvent_clock (s := u) (p := p) true (u.residence p x).fill (u.egressStamp p)
  obtain ⟨regs, voqs, tags, hmirror⟩ := (VoqsOnly.refl { u with clock := k }).mirrorPort 2 p { x with pkt := (u.residence p x).fill }
  unfold State.sendOut
  dsimp only
  rw [hnote, hmirror]
  refine ⟨_, rfl, ?_⟩
  split <;> exact ⟨rfl, rfl, rfl⟩

/-- On a native port the packet goes out as a frame with the link's next sequence number. -/
theorem sendOut_sent {b : Bool} (heth : u.isEth p = false) :
    (u.sendOut p b x).sent = u.sent ++ [.frame p (u.link p).txNext (u.residence p x).fill] := by
  obtain ⟨v, heq, hsent, hquays, hcregs⟩ := sendOut_eq u p b x
  have hv : v.isEth p = false := by rw [State.isEth, State.cget, State.crd, hcregs]; exact heth
  rw [heq, hv]
  rw [if_neg (by simp), State.transmit, hv, if_neg (by simp), sendFrame_sent, hsent, link_congr hquays hcregs]

end Sys2Proof.Machine
end

section
/-! SUPPORT. Ports that go down (R242, R249): the packets taken out of their queues, and the bundle packets re-pathed. -/

namespace Sys2Proof.Machine

variable {s t u : State} {p m : Nat} {gone P : BPkt → Bool}

/-- Every packet in the virtual output queues of a port is one that `P` names. -/
def State.OnlyAt (p : Nat) (P : BPkt → Bool) (s : State) : Prop := ∀ v ∈ s.basin.voqs, v.egress = p → ∀ q ∈ v.pkts, P q.pkt = true

theorem State.OnlyAt.congr (h : s.OnlyAt p P) (hv : t.basin.voqs = s.basin.voqs) : t.OnlyAt p P := by
  unfold State.OnlyAt
  rw [hv]
  exact h

theorem State.OnlyAt.ite {c : Prop} [Decidable c] (ht : t.OnlyAt p P) (hu : u.OnlyAt p P) : State.OnlyAt p P (if c then t else u) := by
  split <;> assumption

/-! ### Packets taken out of the virtual output queues -/

/-- One queue without the packets that `gone` names. -/
def State.thin (p : Nat) (gone : BPkt → Bool) (s : State) (v : Voq) : State :=
  let keep := v.pkts.filter fun q => !gone q.pkt
  let s : State := { s with basin := { s.basin with
    voqs := (s.basin.voqs.map fun w => if w = v then { w with pkts := keep } else w).filter fun w => !w.pkts.isEmpty } }
  let s := if keep.isEmpty || keep.head? = v.pkts.head? then s else s.pairHead v.quay p v.cls false
  (v.pkts.filter fun q => gone q.pkt).foldl (fun s q => s.freeCells (dieOf q.pkt.port) q.rest) s

theorem takeQueued_state (s : State) (p : Nat) (gone : BPkt → Bool) : (s.takeQueued p gone).2 =
    (s.basin.voqs.filter fun v => v.egress = p && v.pkts.any fun q => gone q.pkt).foldl (State.thin p gone) s := by
  unfold State.takeQueued
  exact (List.foldl_hom Prod.snd fun _ _ => rfl).symm

theorem thin_voqsOnly (h : VoqsOnly s t) (v : Voq) : VoqsOnly s (t.thin p gone v) :=
  .foldl _ _ (.ite (h.withVoqs _) (.pairHead (h.withVoqs _) ..)) fun _ _ hu => hu.trans ((RegsOnly.refl _).freeCells ..).voqs

theorem thin_portsStand (h : PortsStand s t) (v : Voq) : PortsStand s (t.thin p gone v) :=
  .foldl _ _ (.ite (h.withBasin _) (.pairHead (h.withBasin _) ..)) fun _ _ _ hu => hu.freeCells ..

theorem thin_voqs (s : State) (v : Voq) : (s.thin p gone v).basin.voqs =
    (s.basin.voqs.map fun w => if w = v then { w with pkts := v.pkts.filter fun q => !gone q.pkt } else w).filter fun w => !w.pkts.isEmpty := by
  have hfree (l : List Queued) (u : State) : (l.foldl (fun s q => s.freeCells (dieOf q.pkt.port) q.rest) u).basin = u.basin :=
    (RegsOnly.foldl _ _ (.refl u) fun _ _ hu => hu.freeCells ..).basin
  unfold State.thin
  dsimp only
  rw [hfree]
  split
  · rfl
  · exact State.pairHead_voqs ..

/-- What stands in a thinned queue stood in it before. -/
theorem mem_thin {v w : Voq} (hw : w ∈ (s.thin p gone v).basin.voqs) :
    (w ∈ s.basin.voqs ∧ w ≠ v) ∨ (v ∈ s.basin.voqs ∧ w = { v with pkts := v.pkts.filter fun q => !gone q.pkt }) := by
  rw [thin_voqs] at hw
  obtain ⟨v', hv', rfl⟩ := List.mem_map.1 (List.mem_of_mem_filter hw)
  by_cases heq : v' = v
  · subst heq
    exact .inr ⟨hv', if_pos rfl⟩
  · rw [if_neg heq]
    exact .inl ⟨hv', heq⟩

theorem State.OnlyAt.thin (h : s.OnlyAt p P) (v : Voq) : (s.thin p gone v).OnlyAt p P := by
  intro w hw he q hq
  obtain ⟨hw, -⟩ | ⟨hv, rfl⟩ := mem_thin hw
  · exact h w hw he q hq
  · exact h v hv he q (List.mem_of_mem_filter hq)

theorem State.OnlyAt.takeQueued (h : s.OnlyAt p P) : (s.takeQueued p gone).2.OnlyAt p P := by
  rw [takeQueued_state]
  exact List.foldlRecOn _ _ h fun _ hu v _ => hu.thin v

/-- Once the queues that hold a packet of `gone` are thinned, none does. -/
theorem foldl_thin_onlyAt (l : List Voq) (s : State)
    (h : ∀ w ∈ s.basin.voqs, w.egress = p → w ∉ l → ∀ q ∈ w.pkts, (!gone q.pkt) = true) :
    (l.foldl (State.thin p gone) s).OnlyAt p fun x => !gone x := by
  induction l generalizing s with
  | nil => exact fun w hw he => h w hw he List.not_mem_nil
  | cons v l ih =>
    refine ih (s.thin p gone v) fun w hw he hl q hq => ?_
    obtain ⟨hw, hne⟩ | ⟨-, rfl⟩ := mem_thin hw
    · exact h w hw he (List.not_mem_cons_of_ne_of_not_mem hne hl) q hq
    · exact (List.mem_filter.1 hq).2

theorem takeQueued_onlyAt : (s.takeQueued p gone).2.OnlyAt p fun x => !gone x := by
  rw [takeQueued_state]
  refine foldl_thin_onlyAt _ s fun w hw he hl q hq => ?_
  by_contra hgone
  refine hl (List.mem_filter.2 ⟨hw, ?_⟩)
  simp only [he, decide_true, Bool.true_and, List.any_eq_true]
  exact ⟨q, hq, by simpa using hgone⟩

theorem takeQueued_voqsOnly : VoqsOnly s (s.takeQueued p gone).2 := by
  rw [takeQueued_state]
  exact .foldl _ _ (.refl s) fun _ v hu => thin_voqsOnly hu v

theorem takeQueued_portsStand (h : PortsStand s t) : PortsStand s (t.takeQueued p gone).2 := by
  rw [takeQueued_state]
  exact .foldl _ _ h fun v _ _ hu => thin_portsStand hu v

/-! ### Packets taken out at the egress -/

/-- A class queue without the packets that `gone` names. -/
def State.thinClass (p : Nat) (gone : BPkt → Bool) (s : State) (c : Nat) : State :=
  let q := s.classQ p c
  let keep := q.pkts.filter fun x => !gone x
  if keep.length = q.pkts.length then s
  else s.setClassQ p c ⟨keep, if keep.head? = q.pkts.head? then q.tag
    else match keep with
      | x :: _ => s.headTag p c false q.tag x.pkt
      | [] => q.tag⟩

theorem thinClass_pkts (s : State) (p c d : Nat) (gone : BPkt → Bool) : ((s.thinClass p gone c).classQ p d).pkts =
    if d = c then (s.classQ p d).pkts.filter fun x => !gone x else (s.classQ p d).pkts := by
  unfold State.thinClass
  dsimp only
  by_cases hlen : ((s.classQ p c).pkts.filter fun x => !gone x).length = (s.classQ p c).pkts.length
  · rw [if_pos hlen]
    split
    · next hd =>
      rw [hd]
      exact (List.filter_eq_self.2 (List.length_filter_eq_length_iff.1 hlen)).symm
    · rfl
  · rw [if_neg hlen]
    by_cases hd : d = c
    · rw [if_pos hd, hd, classQ_setClassQ_self]
    · rw [if_neg hd]
      exact congrArg ClassQueue.pkts (spGet_spPut_ne _ _ _ _ (by omega))

theorem takeEgress_state (s : State) (p : Nat) (gone : BPkt → Bool) : (s.takeEgress p gone).2 = (List.range 16).foldl (State.thinClass p gone)
    { s with basin := { s.basin with reasm := s.basin.reasm.filter fun x => !(x.1 = p && gone x.2) } } := by
  unfold State.takeEgress
  dsimp only
  generalize List.range 16 = l
  refine (List.foldl_hom Prod.snd fun x c => ?_).symm
  unfold State.thinClass
  dsimp only
  split <;> rfl

/-- A thinned class queue changes the class queues alone. -/
theorem foldl_thinClass_egress (l : List Nat) (s : State) :
    ∃ egress, l.foldl (State.thinClass p gone) s = { s with basin := { s.basin with egress := egress } } := by
  induction l generalizing s with
  | nil => exact ⟨_, rfl⟩
  | cons c l ih =>
    have hone : ∃ egress, s.thinClass p gone c = { s with basin := { s.basin with egress := egress } } := by
      unfold State.thinClass
      dsimp only
      split <;> exact ⟨_, rfl⟩
    obtain ⟨e, he⟩ := hone
    obtain ⟨f, hf⟩ := ih (s.thinClass p gone c)
    exact ⟨f, by rw [List.foldl_cons, hf, he]⟩

theorem takeEgress_eq (s : State) (p : Nat) (gone : BPkt → Bool) : ∃ egress, (s.takeEgress p gone).2 =
    { s with basin := { s.basin with reasm := s.basin.reasm.filter (fun x => !(x.1 = p && gone x.2)), egress := egress } } := by
  rw [takeEgress_state]
  obtain ⟨e, he⟩ := foldl_thinClass_egress (p := p) (gone := gone) (List.range 16)
    { s with basin := { s.basin with reasm := s.basin.reasm.filter fun x => !(x.1 = p && gone x.2) } }
  exact ⟨e, he⟩

theorem foldl_thinClass_pkts (l : List Nat) (s : State) (d : Nat) : ((l.foldl (State.thinClass p gone) s).classQ p d).pkts =
    if d ∈ l then (s.classQ p d).pkts.filter fun x => !gone x else (s.classQ p d).pkts := by
  induction l generalizing s with
  | nil => rfl
  | cons c l ih =>
    rw [List.foldl_cons, ih, thinClass_pkts]
    by_cases hd : d = c <;> by_cases hl : d ∈ l <;> simp [hd, hl]

theorem takeEgress_pkts {c : Nat} (hc : c < 16) :
    ((s.takeEgress p gone).2.classQ p c).pkts = (s.classQ p c).pkts.filter fun x => !gone x := by
  rw [takeEgress_state, foldl_thinClass_pkts, if_pos (List.mem_range.2 hc)]
  rfl

/-! ### Packets dropped -/

theorem takeAll_state (s : State) (p : Nat) (gone : BPkt → Bool) : (s.takeAll p gone).2 = ((s.takeQueued p gone).2.takeEgress p gone).2 := by
  unfold State.takeAll
  generalize s.takeQueued p gone = x
  obtain ⟨a, t⟩ := x
  dsimp only

theorem takeAll_voqs : (s.takeAll p gone).2.basin.voqs = (s.takeQueued p gone).2.basin.voqs := by
  obtain ⟨e, he⟩ := takeEgress_eq (s.takeQueued p gone).2 p gone
  rw [takeAll_state, he]

theorem takeAll_portsStand (h : PortsStand s t) : PortsStand s (t.takeAll p gone).2 := by
  obtain ⟨e, he⟩ := takeEgress_eq (t.takeQueued p gone).2 p gone
  rw [takeAll_state, he]
  exact (takeQueued_portsStand h).same

theorem dropQueued_regsOnly (s : State) (p : Nat) (gone : BPkt → Bool) : RegsOnly (s.takeAll p gone).2 (s.dropQueued p gone) := by
  unfold State.dropQueued
  generalize s.takeAll p gone = x
  obtain ⟨l, t⟩ := x
  exact .foldl _ _ (.refl t) fun _ _ hu => hu.dropDown ..

theorem dropQueued_basin : (s.dropQueued p gone).basin = (s.takeAll p gone).2.basin := (dropQueued_regsOnly s p gone).basin

theorem dropQueued_portsStand (h : PortsStand s t) : PortsStand s (t.dropQueued p gone) := by
  have hall := takeAll_portsStand (p := p) (gone := gone) h
  unfold State.dropQueued
  generalize t.takeAll p gone = x at hall
  obtain ⟨l, u⟩ := x
  exact .foldl _ _ hall fun _ _ _ hu => hu.dropDown ..

theorem dropQueued_onlyAt : (s.dropQueued p gone).OnlyAt p fun x => !gone x :=
  takeQueued_onlyAt.congr ((congrArg Basin.voqs dropQueued_basin).trans takeAll_voqs)

theorem dropQueued_downAt : (s.dropQueued p gone).basin.downAt = s.basin.downAt := by
  obtain ⟨e, he⟩ := takeEgress_eq (s.takeQueued p gone).2 p gone
  obtain ⟨_, _, _, hq⟩ := takeQueued_voqsOnly (s := s) (p := p) (gone := gone)
  rw [dropQueued_basin, takeAll_state, he, hq]

theorem dropQueued_reasm : (s.dropQueued p gone).basin.reasm = s.basin.reasm.filter fun x => !(x.1 = p && gone x.2) := by
  obtain ⟨e, he⟩ := takeEgress_eq (s.takeQueued p gone).2 p gone
  obtain ⟨_, _, _, hq⟩ := takeQueued_voqsOnly (s := s) (p := p) (gone := gone)
  rw [dropQueued_basin, takeAll_state, he, hq]

theorem dropQueued_pkts {c : Nat} (hc : c < 16) : ((s.dropQueued p gone).classQ p c).pkts = (s.classQ p c).pkts.filter fun x => !gone x := by
  obtain ⟨_, _, _, hq⟩ := takeQueued_voqsOnly (s := s) (p := p) (gone := gone)
  have heq : (s.dropQueued p gone).classQ p c = (s.takeAll p gone).2.classQ p c := by rw [State.classQ, dropQueued_basin, State.classQ]
  rw [heq, takeAll_state, takeEgress_pkts hc, hq]
  rfl

/-! ### DOWN_HOLD_EXPIRY -/

/-- Past its hold a port's packets are dropped wherever they wait. -/
theorem dropQueued_all : (∀ v ∈ (s.dropQueued p fun _ => true).basin.voqs, v.egress = p → v.pkts = []) ∧
    (∀ x ∈ (s.dropQueued p fun _ => true).basin.reasm, x.1 ≠ p) ∧ ∀ c < 16, ((s.dropQueued p fun _ => true).classQ p c).pkts = [] := by
  refine ⟨fun v hv he => List.eq_nil_iff_forall_not_mem.2 fun q hq => ?_, fun x hx => ?_, fun c hc => ?_⟩
  · exact absurd (dropQueued_onlyAt v hv he q hq) (by simp)
  · rw [dropQueued_reasm] at hx
    simpa using (List.mem_filter.1 hx).2
  · rw [dropQueued_pkts hc]
    simp

/-- Whether DOWN_HOLD_US have passed since a time. -/
def State.heldPast (s : State) (t : Option Nat) : Bool :=
  match t with
  | some t => t + us (s.get F.BS_CTRL_DOWN_HOLD_US) ≤ s.now
  | none => false

theorem exec_downHoldExpiry_eq (s : State) (p : Nat) : exec (.downHoldExpiry p) s = .next (if s.linkUp p then
      (({ s with basin := { s.basin with downAt := spPut none s.basin.downAt p none } } : State).dropQueued p
        fun x => s.heldPast (s.blockedAt p x.pkt.hdr.tc)).grantAll
    else if s.heldPast (spGet none s.basin.downAt p) then (s.dropQueued p fun _ => true).grantAll else s) := rfl

theorem exec_downHoldExpiry_up (hup : s.linkUp p = true) : ∃ t, exec (.downHoldExpiry p) s = .next t ∧ spGet none t.basin.downAt p = none := by
  rw [exec_downHoldExpiry_eq, if_pos hup]
  refine ⟨_, rfl, ?_⟩
  rw [State.grantAll_basin, dropQueued_downAt, spGet_spPut_self]

theorem exec_downHoldExpiry_down (hup : s.linkUp p = false) :
    (spGet none s.basin.downAt p = none → exec (.downHoldExpiry p) s = .next s) ∧
    ∀ t0, spGet none s.basin.downAt p = some t0 →
      exec (.downHoldExpiry p) s = .next (if t0 + 500 * s.get F.BS_CTRL_DOWN_HOLD_US ≤ s.now then (s.dropQueued p fun _ => true).grantAll else s) := by
  rw [exec_downHoldExpiry_eq, if_neg (by simp [hup])]
  refine ⟨fun h => ?_, fun t0 h => ?_⟩
  · rw [h, State.heldPast, if_neg (by simp)]
  · rw [h]
    exact congrArg Host.Outcome.next (if_congr decide_eq_true_iff rfl rfl)

/-! ### MEMBER_UNUSABLE -/

/-- A member that takes a packet is one that may be used. -/
theorem pickMember_usable {b : Nat} {h : Header} (hm : (s.pickMember b h).1 = some m) : m < 512 ∧ s.usable m = true := by
  suffices hin : m ∈ (s.bundlePorts b).filter s.usable by
    unfold State.bundlePorts State.mapPorts at hin
    rw [List.mem_filter, List.mem_filter, List.mem_range] at hin
    exact ⟨hin.1.1, hin.2⟩
  unfold State.pickMember at hm
  dsimp only at hm
  generalize (s.bundlePorts b).filter s.usable = us at hm
  split at hm
  · cases hm
  · next hne =>
    have hdrawn (i : Nat) : (us[i % us.length]?).getD 0 ∈ us := by
      rw [List.getElem?_eq_getElem (Nat.mod_lt i (by omega))]
      exact List.getElem_mem _
    split at hm
    · rw [← Option.some.inj hm]
      split <;> exact hdrawn _
    · exact List.mem_of_getElem? hm

theorem State.OnlyAt.toVoq (h : s.OnlyAt p P) (x : BPkt) (hne : m ≠ p) : (s.toVoq x m).OnlyAt p P := by
  intro v hv he q hq
  rw [toVoq_voqs] at hv
  split at hv
  · obtain ⟨w, hw, rfl⟩ := List.mem_map.1 hv
    split at he
    · next his =>
      simp only [Voq.is, Bool.and_eq_true, decide_eq_true_eq] at his
      exact absurd (his.1.2.symm.trans he) hne
    · next hisnt =>
      rw [if_neg hisnt] at hq
      exact h w hw he q hq
  · obtain hv | hv := List.mem_append.1 hv
    · exact h v hv he q hq
    · rw [List.mem_singleton.1 hv] at he
      exact absurd he hne

theorem State.OnlyAt.queueTo (h : s.OnlyAt p P) (x : BPkt) (hne : m ≠ p) : (s.queueTo x m).OnlyAt p P := by
  have hopen : State.OnlyAt p P (if s.linkUp m || (spGet none s.basin.downAt m).isSome then s
      else { s with basin := { s.basin with downAt := spPut none s.basin.downAt m (some s.now) } }) := .ite h h
  exact .ite (h.congr (congrArg Basin.voqs ((RegsOnly.refl s).dropDown ..).basin)) (.ite (hopen.toVoq _ hne)
    (h.congr (congrArg Basin.voqs (((RegsOnly.refl s).bump ..).countDrop ..).basin)))

theorem State.OnlyAt.deliverBundle (h : s.OnlyAt p P) (hdown : p < 512 → s.usable p = false) (x : BPkt) (b : Nat) :
    (s.deliver x (.bundle b)).OnlyAt p P := by
  have hpick : (s.pickMember b x.pkt.hdr).2.OnlyAt p P := by
    refine h.congr ?_
    unfold State.pickMember
    dsimp only
    split
    · rfl
    · split <;> rfl
  unfold State.deliver
  dsimp only
  split
  · next m hm =>
    obtain ⟨hlt, hus⟩ := pickMember_usable hm
    refine hpick.queueTo _ fun heq => ?_
    subst heq
    exact absurd hus (by simp [hdown hlt])
  · exact hpick.congr (congrArg Basin.voqs ((RegsOnly.refl _).dropDown ..).basin)

/-! A port that leaves the residues. -/

/-- The packets of the multicast FIFOs once a port has left them. -/
theorem mcDown_eq (s : State) (p : Nat) : ∃ (mc : List McFifo) (freed : List (Nat × Nat)), (∀ x ∈ freed, ∃ q, x.1 = dieOf q) ∧ ∃ n,
    s.mcDown p = ((freed.foldl (fun s x => s.freeCells x.1 x.2) ({ s with basin := { s.basin with mc := mc } } : State)).bump
      F.BS_DROP_MCDOWN_COUNT [] n) := by
  unfold State.mcDown
  refine ⟨_, _, fun x hx => ?_, _, rfl⟩
  obtain ⟨f, -, hf⟩ := List.mem_flatMap.1 hx
  obtain ⟨m, -, rfl⟩ := List.mem_map.1 hf
  exact ⟨_, rfl⟩

theorem mcDown_voqs : (s.mcDown p).basin.voqs = s.basin.voqs := by
  obtain ⟨mc, freed, -, n, heq⟩ := mcDown_eq s p
  have hfree (u : State) : ((freed.foldl (fun s x => s.freeCells x.1 x.2) u).bump F.BS_DROP_MCDOWN_COUNT [] n).basin = u.basin :=
    ((RegsOnly.foldl freed _ (.refl u) fun _ _ hu => hu.freeCells ..).bump ..).basin
  rw [heq, hfree]

theorem mcDown_portsStand (h : PortsStand s t) : PortsStand s (t.mcDown p) := by
  obtain ⟨mc, freed, hdie, n, heq⟩ := mcDown_eq t p
  rw [heq]
  refine (PortsStand.foldl freed _ (h.withBasin _) fun x hx u hu => ?_).bump F.BS_DROP_MCDOWN_COUNT [] n (by decide)
  obtain ⟨q, hq⟩ := hdie x hx
  rw [hq]
  exact hu.freeCells ..

/-- A port that is down, or not usable: its lossy packets dropped, and where its link is down, its residues left. -/
def State.leftBy (s : State) (p : Nat) : State :=
  let s := s.dropQueued p fun x => !x.lossless
  if s.linkUp p then s
  else (({ s with basin := { s.basin with downAt := spPut none s.basin.downAt p (some ((spGet none s.basin.downAt p).getD s.now)) } } : State).mcDown p)

theorem portDown_eq (s : State) (p : Nat) : ∃ l : List BPkt, s.portDown p = l.foldl (fun s x => match x.bundle with
    | some b => s.deliver x (.bundle b)
    | none => s) ((s.leftBy p).takeAll p fun x => x.bundle.isSome).2 := by
  unfold State.portDown State.leftBy
  dsimp only
  generalize State.takeAll _ p _ = x
  exact ⟨x.1, rfl⟩

theorem leftBy_onlyAt : (s.leftBy p).OnlyAt p (·.lossless) := by
  have hdrop : (s.dropQueued p fun x => !x.lossless).OnlyAt p (·.lossless) := fun v hv he q hq => by
    simpa using dropQueued_onlyAt v hv he q hq
  unfold State.leftBy
  generalize s.dropQueued p _ = d at hdrop
  dsimp only
  split
  · exact hdrop
  · exact State.OnlyAt.congr hdrop mcDown_voqs

theorem leftBy_portsStand : PortsStand s (s.leftBy p) := by
  have hdrop := dropQueued_portsStand (p := p) (gone := fun x => !x.lossless) (PortsStand.refl s)
  unfold State.leftBy
  generalize s.dropQueued p _ = d at hdrop
  dsimp only
  split
  · exact hdrop
  · exact mcDown_portsStand (hdrop.withBasin _)

/-- On the way to a port that is not usable stay only lossless packets of no bundle. -/
theorem portDown_onlyAt (hdown : s.usable p = false) : (s.portDown p).OnlyAt p fun x => x.lossless && x.bundle.isNone := by
  obtain ⟨l, heq⟩ := portDown_eq s p
  rw [heq]
  have hstand := takeAll_portsStand (p := p) (gone := fun x => x.bundle.isSome) (leftBy_portsStand (s := s) (p := p))
  have htaken : ((s.leftBy p).takeAll p fun x => x.bundle.isSome).2.OnlyAt p fun x => x.lossless && x.bundle.isNone := by
    refine State.OnlyAt.congr (fun v hv he q hq => ?_) takeAll_voqs
    have hlossless := leftBy_onlyAt.takeQueued (gone := fun x => x.bundle.isSome) v hv he q hq
    have hbundle := takeQueued_onlyAt v hv he q hq
    simpa using And.intro hlossless hbundle
  refine (List.foldlRecOn (motive := fun u => PortsStand s u ∧ u.OnlyAt p fun x => x.lossless && x.bundle.isNone) l _
    ⟨hstand, htaken⟩ fun u ⟨hu, honly⟩ x _ => ?_).2
  split
  · exact ⟨hu.deliverBundle .., honly.deliverBundle (fun hp => (hu.usable hp).trans hdown) x _⟩
  · exact ⟨hu, honly⟩

theorem exec_memberUnusable (s : State) (p : Nat) :
    exec (.memberUnusable p) s = .next (if s.usable p then s else (s.portDown p).grantAll) := rfl

end Sys2Proof.Machine
end

section
/-! OBLIGATION O36: the way of a packet through the Basin. -/

namespace Sys2Proof.Machine

variable {s u v w : State} {x : BPkt} {port : Nat} {pkt q : Packet} {o : Out}

/-! ### What PACKET_ARRIVAL leaves of a packet that passes -/

section
variable (hexec : o = .next (w.dispose x).grantAll) (hport : x.port = port) (hq : x.pkt = q)
include hexec hport hq

/-- A packet for this module: steered where there is room, else dropped, handed to the Boathouse, or left for the Harbourmaster. -/
theorem arrival_own (hbasin : ∃ handed voqs tags, w.basin = { s.basin with handed := handed, voqs := voqs, pairTag := tags })
    (hmine : q.hdr.mc = false ∧ w.isOwn q.hdr.dst = true) :
    (q.hdr.kind = 1 → w.wintering = false → w.get F.MO_CTX_STATE_STATE [extMoor q] = 1 → bits (word64At q.body 0) 0 4 = 0 →
      (x.lossless = true ∨ w.fits port q.hdr.tc q.cells = true →
        ∃ t, o = .next t ∧ t.basin.steered = s.basin.steered ++ [(port, q)]) ∧
      (¬(x.lossless = true ∨ w.fits port q.hdr.tc q.cells = true) →
        o = .next ((w.bump F.BS_DROP_BUF_COUNT).countDrop port q.hdr.tc).grantAll)) ∧
    (q.hdr.kind = 2 → w.wintering = false → ∃ t, o = .next t ∧ t.basin.toBoathouse = s.basin.toBoathouse ++ [(port, q)]) ∧
    (q.hdr.kind ≠ 1 → q.hdr.kind ≠ 2 → (s.basin.localQ.foldl (fun n p => n + p.size) 0) + q.size ≤ 4194304 →
      ∃ t, o = .next t ∧ t.basin.localQ = s.basin.localQ ++ [q]) := by
  subst hport hq
  obtain ⟨handed, voqs, tags, hbasin⟩ := hbasin
  obtain ⟨hmc, hown⟩ := hmine
  refine ⟨fun hk hawake hactive hcontrib => ⟨fun hroom => ⟨_, hexec, ?_⟩, fun hfull => ?_⟩, fun hk hawake => ⟨_, hexec, ?_⟩,
    fun hk1 hk2 hfit => ⟨_, hexec, ?_⟩⟩
  · rw [State.grantAll_basin, State.dispose_steered hmc hown hk hawake hactive hcontrib hroom, hbasin]
  · rw [hexec, State.dispose_unsteered hmc hown hk hawake hactive hcontrib hfull]
  · rw [State.grantAll_basin, State.dispose_toBoathouse hmc hown hk hawake, hbasin]
  · rw [State.grantAll_basin, State.dispose_toLocal hmc hown hk1 hk2 (by rw [hbasin]; exact hfit), hbasin]

/-- A packet for elsewhere: dropped for HOPS 0, kept while lookups wait, or queued toward the port that its entry names. -/
theorem arrival_away (hbasin : ∃ handed voqs tags, w.basin = { s.basin with handed := handed, voqs := voqs, pairTag := tags })
    (haway : q.hdr.mc = false ∧ w.isOwn q.hdr.dst = false) :
    (q.hdr.hops = 0 → o = .next ((w.bump F.BS_DROP_HOPS_COUNT).countDrop port q.hdr.tc).grantAll) ∧
    (q.hdr.hops ≠ 0 → w.pinning = true → x.lossless = true ∨ w.fits port q.hdr.tc q.cells = true →
      ∃ t, o = .next t ∧ t.basin.lookups = s.basin.lookups ++ [x.hopped]) ∧
    (q.hdr.hops ≠ 0 → w.pinning = false → ∀ e, ((w.tally 0x10).destTarget (dieOf port) port x.hopped.pkt.hdr).1 = .port e →
      x.lossless = true → w.linkUp e = true → w.blockedAt e q.hdr.tc = none →
      ∃ t y z, o = .next t ∧ y ∈ t.basin.voqs ∧ z ∈ y.pkts ∧ y.quay = (if x.orig = true then e else port) / 8 ∧ y.egress = e ∧
        y.cls = q.hdr.tc ∧ z.pkt.pkt.hdr.hops = q.hdr.hops - 1 ∧ z.pkt.pkt.body = q.body ∧ z.pkt.bundle = none) := by
  subst hport hq
  obtain ⟨handed, voqs, tags, hbasin⟩ := hbasin
  obtain ⟨hmc, hown⟩ := haway
  refine ⟨fun hhops => ?_, fun hhops hpin hroom => ⟨_, hexec, ?_⟩, fun hhops hfree e ht hl hup hopen => ?_⟩
  · rw [hexec, State.dispose_lastHop hmc hown hhops]
  · rw [State.grantAll_basin, State.dispose_waits hmc hown hhops hpin hroom, hbasin]
  · obtain ⟨y, hy, z, hz, hspec⟩ := State.dispose_queued hmc hown hhops hfree ht hl hup hopen
    exact ⟨_, y, z, hexec, by rw [State.grantAll_basin]; exact hy, hz, hspec⟩

/-- A packet with MC set: replicated to the ports of its group that are up. -/
theorem arrival_group (hmc : q.hdr.mc = true) (hhops : q.hdr.hops ≠ 0) (hups : w.groupUp x ≠ []) (hl : x.lossless = true) :
    ∃ t f m, o = .next t ∧ f ∈ t.basin.mc ∧ m ∈ f.pkts ∧ f.ingress = port ∧ f.cls = q.hdr.tc ∧ m.ports = w.groupUp x ∧
      m.residue = w.groupUp x ∧ m.pkt = x.hopped := by
  subst hport hq
  obtain ⟨f, hf, m, hm, hspec⟩ := State.dispose_replicated hmc hhops hups hl
  exact ⟨_, f, m, hexec, by rw [State.grantAll_basin]; exact hf, hm, hspec⟩

end

/-! ### What EGRESS_SELECT takes -/

theorem egressSelect_takes {p c : Nat} {b : Bool} (hp : s.isPort p = true) (hup : s.linkUp p = true)
    (hsel : (s.fillPrio p).selectClass p = some (c, b)) :
    ∃ x rest, ((s.fillPrio p).classQ p c).pkts = x :: rest ∧ c < 16 ∧ ((s.fillPrio p).gateMask p).testBit c = true ∧
      (s.fillPrio p).guardFits p c x.pkt.size = true ∧ (s.fillPrio p).lineTakes p x.pkt = true ∧
      (b = true → (s.fillPrio p).isEth p = false ∧ (s.fillPrio p).collCredit p c = true) ∧
      let barred : Prop := (s.fillPrio p).isEth p = false ∧ (s.fillPrio p).feature p 2 = false ∧ (x.pkt.hdr.kind = 1 ∨ x.pkt.hdr.kind = 2)
      (barred → exec (.egressSelect p) s = .next (((s.fillPrio p).dequeue p c).bump F.QY_LINK_CNT_KIND (pidx p))) ∧
      (¬barred → exec (.egressSelect p) s = .next (((s.fillPrio p).dequeue p c).sendOut p b x)) ∧
      ((s.fillPrio p).isEth p = false → (((s.fillPrio p).dequeue p c).sendOut p b x).sent =
        s.sent ++ [.frame p (s.link p).txNext (((s.fillPrio p).dequeue p c).residence p x).fill]) := by
  obtain ⟨helig, hcredit⟩ := selectClass_spec hsel
  obtain ⟨hc, x, rest, hq, hgate, hguard, htakes⟩ := mem_eligible_iff.1 helig
  have hexec := exec_egressSelect_takes hp hup hsel hq
  obtain ⟨hsent, hquays, hcregs, -⟩ := dequeue_line (u := s.fillPrio p) (p := p) (c := c)
  refine ⟨x, rest, hq, hc, hgate, hguard, htakes, fun hb => ⟨collCredit_native (hcredit hb), hcredit hb⟩, fun hbar => ?_, fun hfree => ?_,
    fun heth => ?_⟩
  · rw [hexec, if_pos (by simpa [and_assoc] using hbar)]
  · rw [hexec, if_neg (by simpa [and_assoc] using hfree)]
  · have heth' : ((s.fillPrio p).dequeue p c).isEth p = false := by
      rw [State.isEth, State.cget, State.crd, hcregs]
      exact heth
    rw [sendOut_sent heth', hsent, link_congr hquays hcregs]
    rfl

/-- Settles O36: each part by the rule of its instruction. -/
theorem basinPath : Obligations.BasinPath := by
  unfold Obligations.BasinPath
  refine ⟨fun pkt => headerBad_eq_false_iff, fun s port pkt => ⟨exec_packetArrival_bad, fun hbad v h => exec_packetArrival_metered hbad h,
      fun hbad q v h => ?_⟩, fun s p e c hc hp he hwp hwe => ⟨fun q hm hv hlast => ?_, fun h hv hm hleft hres => ?_⟩,
    fun s port bad => ⟨exec_egressReassembly_none, fun x hx => ⟨fun hbad hours => ?_, fun hbad hours => ?_, fun hbad => ?_⟩⟩,
    fun s port => ⟨exec_egressSelect_shut, exec_egressSelect_idle, fun hp hup c b hsel => egressSelect_takes hp hup hsel⟩,
    fun s port _ => ⟨fun hus => ?_, fun hdown => ⟨_, (exec_memberUnusable s port).trans (congrArg Host.Outcome.next (if_neg (by simp [hdown]))), ?_⟩⟩,
    fun s port hup => ⟨(exec_downHoldExpiry_down hup).1, fun t0 ht0 => ?_⟩, fun s port hup => exec_downHoldExpiry_up hup⟩
  · have hexec := exec_packetArrival_passed hbad h
    have hport : (s.came port pkt).port = port := (s.came_spec port pkt).1
    have hbasin := exec_packetArrival_basin h
    refine ⟨fun hmine => (arrival_own hexec hport rfl hbasin hmine).1, fun hmine => (arrival_own hexec hport rfl hbasin hmine).2.1,
      fun hmine => (arrival_own hexec hport rfl hbasin hmine).2.2, fun haway => (arrival_away hexec hport rfl hbasin haway).1,
      fun haway => (arrival_away hexec hport rfl hbasin haway).2.1,
      fun haway hhops hfree e _ => (arrival_away hexec hport rfl hbasin haway).2.2 hhops hfree e,
      fun hmc hhops hups _ hl => ?_⟩
    have hgroup : State.groupUp (v.mirrorPort 1 port { s.came port pkt with pkt := q }) { s.came port pkt with pkt := q } =
        (((v.mirrorPort 1 port { s.came port pkt with pkt := q }).mapPorts .BS_MCG_MAP q.hdr.dst).filter (· ≠ port)).filter
          (v.mirrorPort 1 port { s.came port pkt with pkt := q }).linkUp := by
      rw [State.groupUp, hport]
    have hgone := arrival_group hexec hport rfl hmc hhops (by rw [hgroup]; exact hups) hl
    rw [hgroup] at hgone
    exact hgone
  · obtain ⟨t, hexec, hvoqs, -, hreasm⟩ := exec_matching_voq hc hp he hwp hwe hm hv hlast
    refine ⟨t, _, hexec, hvoqs, hreasm, fun hkept => ?_, fun horig hfirst => ?_⟩
    · rw [State.crossing, if_neg (by rcases hkept with h | h <;> simp [h])]
    · rw [State.crossing, if_pos (by simp [horig, hfirst])]
  · obtain ⟨t, hexec, -, hmc, hreasm⟩ := exec_matching_fifo he hwp hwe hv hm hleft hres
    exact ⟨t, hexec, hmc, hreasm⟩
  · rw [exec_egressReassembly_eq hx, if_pos hbad, dropBad_passing hours]
    rfl
  · rw [exec_egressReassembly_eq hx, if_pos hbad, dropBad_ours hours.1 hours.2]
    rfl
  · subst hbad
    exact exec_egressReassembly_good hx
  · rw [exec_memberUnusable, if_pos hus]
  · rw [State.grantAll_basin]
    intro v hv he q hq
    simpa [and_comm] using portDown_onlyAt hdown v hv he q hq
  · have hexec := (exec_downHoldExpiry_down hup).2 t0 ht0
    refine ⟨fun hearly => hexec.trans (congrArg _ (if_neg (by omega))), fun hlate => ⟨_, hexec.trans (congrArg _ (if_pos hlate)), ?_⟩⟩
    obtain ⟨hvoqs, hreasm, hclass⟩ := dropQueued_all (s := s) (p := port)
    rw [State.grantAll_basin]
    refine ⟨hvoqs, hreasm, fun c hc => ?_⟩
    rw [State.classQ, State.grantAll_basin]
    exact hclass c hc

end Sys2Proof.Machine
end

section
/-! SUPPORT. The rows of the Harbour and of the scheduler (R251 to R272): operations, ageing, meters and gate entries. -/

namespace Sys2Proof.Machine

variable {s u : State} {req : Requester} {pipe key : Nat}

/-! ### HB_OP (R256, R257) -/

theorem exec_insert_allowed (h : s.Writes req .HB_OP [pipe]) : exec (.insert req pipe key) s = (s.hOp pipe key 1).written req .HB_OP [pipe] :=
  State.rowWrite_allowed h (·.hOp pipe key 1)

theorem exec_delete_allowed (h : s.Writes req .HB_OP [pipe]) : exec (.delete req pipe key) s = (s.hOp pipe key 2).written req .HB_OP [pipe] :=
  State.rowWrite_allowed h (·.hOp pipe key 2)

theorem exec_lookup_allowed (h : s.Writes req .HB_OP [pipe]) : exec (.lookup req pipe key) s = (s.hOp pipe key 3).written req .HB_OP [pipe] :=
  State.rowWrite_allowed h (·.hOp pipe key 3)

/-- An operation waits while a commit of set 0x180 is in progress. -/
theorem hOp_pinning {cmd : Nat} (hcmd : cmd ≠ 0) (hpin : (s.put F.HB_OP_KEY [pipe] key).pinning = true) : s.hOp pipe key cmd =
    ({ s.put F.HB_OP_KEY [pipe] key with harbour := { (s.put F.HB_OP_KEY [pipe] key).harbour with
      waiting := (s.put F.HB_OP_KEY [pipe] key).harbour.waiting ++ [(pipe, key, cmd)] } } : State).put F.HB_OP_STATUS_BUSY [pipe] 1 := by
  unfold State.hOp
  dsimp only
  rw [if_neg hcmd, if_pos hpin]

theorem hOp_runs {cmd : Nat} (hcmd : cmd ≠ 0) (hpin : (s.put F.HB_OP_KEY [pipe] key).pinning = false) :
    s.hOp pipe key cmd = (s.put F.HB_OP_KEY [pipe] key).hRun pipe key cmd := by
  unfold State.hOp
  dsimp only
  rw [if_neg hcmd, if_neg (by simp [hpin])]

section
variable {k : Nat} (hclean : ∀ c ∈ u.candidates pipe k, c.2.badParity = false)
include hclean

/-- Where no entry met has bad parity, a search changes nothing. -/
theorem hFind_clean {r : Option (Nat × HEntry)} (hhit : ((u.candidates pipe k).filter fun c => c.2.key = k).head? = r) :
    u.hFind pipe k = (r, u) := by
  have hnone : (u.candidates pipe k).filter (·.2.badParity) = [] := List.filter_eq_nil_iff.2 fun c hc => by simp [hclean c hc]
  have hsame : ((u.candidates pipe k).filter fun c => !c.2.badParity && c.2.key = k) = (u.candidates pipe k).filter fun c => c.2.key = k :=
    List.filter_congr fun c hc => by simp [hclean c hc]
  unfold State.hFind
  dsimp only
  rw [hnone, hsame, hhit]
  rfl

/-- INSERT of a bundle above 255 is refused. -/
theorem hInsert_refused (hbundle : bits (u.rd .HB_OP_DATA [pipe]) 0 2 = 1 ∧ 255 < bits (u.rd .HB_OP_DATA [pipe]) 2 9) :
    u.hInsert pipe k = u.opDone pipe 2 0 := by
  unfold State.hInsert
  rw [hFind_clean hclean rfl]
  exact if_pos (by simpa using hbundle)

/-- INSERT of anything else replaces the data of its key unless it is pinned, or takes the first free place. -/
theorem hInsert_legal (hlegal : ¬(bits (u.rd .HB_OP_DATA [pipe]) 0 2 = 1 ∧ 255 < bits (u.rd .HB_OP_DATA [pipe]) 2 9)) :
    let d := u.rd .HB_OP_DATA [pipe]
    let w := putBits (putBits (putBits (BitVec.ofNat 64 (bits d 0 16)) 16 1 0) 32 16 (u.get F.HB_AGE_NOW [pipe])) 63 1 1
    let hit := ((u.candidates pipe k).filter fun c => c.2.key = k).head?
    (∀ i e, hit = some (i, e) → e.data.getLsbD 16 = true → u.hInsert pipe k = u.opDone pipe 2 i) ∧
    (∀ i e, hit = some (i, e) → e.data.getLsbD 16 = false → u.hInsert pipe k = (u.hSet pipe i (some ⟨k, w, false⟩)).opDone pipe 0 i) ∧
    (hit = none → ∀ i, u.freePlace pipe k = some i → u.hInsert pipe k = (u.hSet pipe i (some ⟨k, w, false⟩)).opDone pipe 0 i) ∧
    (hit = none → u.freePlace pipe k = none → u.hInsert pipe k = u.opDone pipe 10 0) := by
  have hno : ¬(bits (u.rd .HB_OP_DATA [pipe]) 0 2 = 1 && bits (u.rd .HB_OP_DATA [pipe]) 2 9 > 255) = true := by simpa using hlegal
  unfold State.hInsert
  refine ⟨fun i e hhit hpin => ?_, fun i e hhit hpin => ?_, fun hhit i hfree => ?_, fun hhit hfree => ?_⟩
  all_goals rw [hFind_clean hclean hhit]
  · exact (if_neg hno).trans (if_pos hpin)
  · exact (if_neg hno).trans (if_neg (Bool.not_eq_true _ ▸ hpin))
  · dsimp only
    rw [if_neg hno, hfree]
    rfl
  · dsimp only
    rw [if_neg hno, hfree]
    rfl

/-- DELETE takes out an entry that is not pinned. -/
theorem hDelete_clean :
    let hit := ((u.candidates pipe k).filter fun c => c.2.key = k).head?
    (∀ i e, hit = some (i, e) → e.data.getLsbD 16 = true → u.hDelete pipe k = u.opDone pipe 2 i) ∧
    (∀ i e, hit = some (i, e) → e.data.getLsbD 16 = false → u.hDelete pipe k = (u.hSet pipe i none).opDone pipe 0 i) ∧
    (hit = none → u.hDelete pipe k = u.opDone pipe 0 0) := by
  unfold State.hDelete
  refine ⟨fun i e hhit hpin => ?_, fun i e hhit hpin => ?_, fun hhit => ?_⟩
  all_goals rw [hFind_clean hclean hhit]
  · exact if_pos hpin
  · exact if_neg (Bool.not_eq_true _ ▸ hpin)
  · rfl

/-- LOOKUP shows the data of its key, or zero. -/
theorem hRead_clean :
    let hit := ((u.candidates pipe k).filter fun c => c.2.key = k).head?
    (∀ i e, hit = some (i, e) → u.hRead pipe k = (u.wr .HB_OP_DATA [pipe] (putBits e.data 63 1 1)).opDone pipe 0 i) ∧
    (hit = none → u.hRead pipe k = (u.wr .HB_OP_DATA [pipe] 0).opDone pipe 0 0) := by
  unfold State.hRead
  refine ⟨fun i e hhit => ?_, fun hhit => ?_⟩
  all_goals
    rw [hFind_clean hclean hhit]
    rfl

end

end Sys2Proof.Machine
end

section
/-! SUPPORT. The ager and the meters (R253 to R255, R264 to R267). -/

namespace Sys2Proof.Machine

variable {s t u : State} {req : Requester} {pipe i key : Nat} {e : HEntry}

/-! ### Notifications leave the tables alone (R255) -/

theorem wakeDock_harbour : s.wakeDock.harbour = s.harbour := by
  unfold State.wakeDock
  dsimp only
  split <;> rfl

theorem backInvalidate_harbour (line : Nat) : (s.backInvalidate line).harbour = s.harbour := by
  unfold State.backInvalidate
  split <;> rfl

theorem dockErr_harbour (line source : Nat) (uncorr : Bool) : (s.dockErr line source uncorr).harbour = s.harbour := by
  unfold State.dockErr
  split
  · exact State.wr_harbour ..
  · rfl

theorem useCheck_harbour (line : Nat) (write : Bool) : (s.useCheck line write).harbour = s.harbour := by
  unfold State.useCheck
  dsimp only
  split <;> rfl

theorem injectLine_harbour (line : Nat) : (s.injectLine line).harbour = s.harbour := by
  unfold State.injectLine
  split <;> rfl

theorem writeLine_harbour (line a : Nat) (bs : List Byte) : (s.writeLine line a bs).harbour = s.harbour := by
  have hwoken : (s.wakeDock.backInvalidate line).harbour = s.harbour := (backInvalidate_harbour line).trans wakeDock_harbour
  unfold State.writeLine
  dsimp only
  split
  · exact (dockErr_harbour ..).trans hwoken
  · refine (injectLine_harbour line).trans ((useCheck_harbour line true).trans ?_)
    split <;> exact hwoken

theorem notify_harbour (key port reason index : Nat) : (s.notify pipe key port reason index).harbour = s.harbour := by
  unfold State.notify
  dsimp only
  split
  · rfl
  · split
    · rfl
    · exact foldl_unchanged (g := State.harbour) (fun _ _ _ => writeLine_harbour ..) s

/-! ### AGER_VISIT (R253, R254) -/

theorem hSet_harbour (x : Option HEntry) : (s.hSet pipe i x).harbour =
    { s.harbour with tables := s.harbour.tables.set pipe (spPut none (s.hTable pipe) i x) } := rfl

theorem parityError_harbour : (s.parityError pipe i key).harbour = (s.hSet pipe i none).harbour := notify_harbour ..

/-- What the ager does with an entry of the place it visits. -/
def State.ageOne (s : State) (pipe : Nat) (e : Nat × HEntry) : State :=
  if e.2.badParity then s.parityError pipe e.1 e.2.key
  else if s.aged pipe e.2 then
    let s := s.hSet pipe e.1 none
    if s.cget F.HB_LEARN_CFG_AGE_NOTIFY [pipe] = 1 then s.notify pipe e.2.key 0 4 e.1 else s
  else s

/-- An entry that is aged or has bad parity is taken out, another stays. -/
theorem ageOne_harbour (e : Nat × HEntry) : (s.ageOne pipe e).harbour =
    if s.aged pipe e.2 = true ∨ e.2.badParity = true then (s.hSet pipe e.1 none).harbour else s.harbour := by
  unfold State.ageOne
  dsimp only
  by_cases hbad : e.2.badParity = true
  · rw [if_pos hbad, if_pos (.inr hbad), parityError_harbour]
  · by_cases hold : s.aged pipe e.2 = true
    · have hgone : s.aged pipe e.2 = true ∨ e.2.badParity = true := .inl hold
      rw [if_neg hbad, if_pos hold, if_pos hgone]
      split
      · exact notify_harbour ..
      · rfl
    · rw [if_neg hbad, if_neg hold, if_neg (not_or.2 ⟨hold, hbad⟩)]

theorem exec_agerVisit_idle (h : s.get F.HB_AGE_ENABLE [pipe] = 0 ∨ s.wintering = true ∨ s.pinning = true) :
    exec (.agerVisit pipe) s = .next s := if_pos (by simpa [or_assoc] using h)

theorem exec_agerVisit_eq (hen : s.get F.HB_AGE_ENABLE [pipe] = 1) (hawake : s.wintering = false) (hfree : s.pinning = false) :
    let at_ := (s.harbour.ager[pipe]?).getD 0
    let t := (placeEntries (s.hTable pipe) at_).foldl (·.ageOne pipe) s
    exec (.agerVisit pipe) s = .next { t with harbour := { t.harbour with ager := t.harbour.ager.set pipe ((at_ + 1) % 270336) } } :=
  if_neg (by simp [hen, hawake, hfree])

/-- Whether an entry stands at a place of the ager's sweep. -/
theorem placeEntries_one (i at_ : Nat) (e : HEntry) : placeEntries [(i, some e)] at_ =
    if (if i < ovfBase then at_ = i / 4 ∧ at_ < 262144 else at_ = 262144 + (i - ovfBase)) then [(i, e)] else [] := by
  have hmet : ((at_ < 262144 && i / 4 = at_ && i < ovfBase) || (262144 ≤ at_ && i = ovfBase + (at_ - 262144))) = true ↔
      if i < ovfBase then at_ = i / 4 ∧ at_ < 262144 else at_ = 262144 + (i - ovfBase) := by
    simp only [Bool.or_eq_true, Bool.and_eq_true, decide_eq_true_eq]
    split <;> omega
  unfold placeEntries
  by_cases h : if i < ovfBase then at_ = i / 4 ∧ at_ < 262144 else at_ = 262144 + (i - ovfBase)
  · rw [if_pos h]
    simp only [List.filterMap_cons, if_pos (hmet.2 h), List.filterMap_nil]
  · rw [if_neg h]
    simp only [List.filterMap_cons, if_neg (hmet.not.2 h), List.filterMap_nil]

theorem exec_agerVisit_one (hen : s.get F.HB_AGE_ENABLE [pipe] = 1) (hawake : s.wintering = false) (hfree : s.pinning = false)
    (htable : s.harbour.tables[pipe]? = some [(i, some e)]) :
    let at_ := (s.harbour.ager[pipe]?).getD 0
    let met : Prop := if i < ovfBase then at_ = i / 4 ∧ at_ < 262144 else at_ = 262144 + (i - ovfBase)
    ∃ t, exec (.agerVisit pipe) s = .next t ∧ t.harbour.ager = s.harbour.ager.set pipe ((at_ + 1) % 270336) ∧
      (met → s.aged pipe e = true ∨ e.badParity = true → t.harbour.tables[pipe]? = some []) ∧
      (¬(met ∧ (s.aged pipe e = true ∨ e.badParity = true)) → t.harbour.tables = s.harbour.tables) := by
  intro at_ met
  have hplaces : placeEntries (s.hTable pipe) at_ = if met then [(i, e)] else [] := by
    rw [State.hTable, htable]
    exact placeEntries_one i at_ e
  refine ⟨_, exec_agerVisit_eq hen hawake hfree, ?_⟩
  dsimp only
  rw [hplaces]
  by_cases hmet : met
  · rw [if_pos hmet, List.foldl_cons, List.foldl_nil, ageOne_harbour]
    by_cases hgone : s.aged pipe e = true ∨ e.badParity = true
    · rw [if_pos hgone, hSet_harbour]
      refine ⟨rfl, fun _ _ => ?_, fun hno => absurd ⟨hmet, hgone⟩ hno⟩
      have hlt : pipe < s.harbour.tables.length := (List.getElem?_eq_some_iff.1 htable).1
      have hempty : spPut none (s.hTable pipe) i none = [] := by
        rw [State.hTable, htable]
        simp [spPut, spDel]
      exact (List.getElem?_set_self hlt).trans (congrArg some hempty)
    · rw [if_neg hgone]
      exact ⟨rfl, fun _ h => absurd h hgone, fun _ => rfl⟩
  · rw [if_neg hmet, List.foldl_nil]
    exact ⟨rfl, fun h => absurd h hmet, fun _ => rfl⟩

/-! ### AGEING_TICK (R253) -/

theorem exec_ageingTick_eq (s : State) (pipe : Nat) : exec (.ageingTick pipe) s =
    if s.get F.HB_AGE_UNIT_MS [pipe] ≠ 0 ∧ s.wintering = false ∧
      (s.harbour.ageMs[pipe]?).getD 0 + s.get F.HB_AGE_UNIT_MS [pipe] ≤ s.ctNs / 1000000
    then .next { s.advance F.HB_AGE_NOW [pipe] with harbour := { s.harbour with
      ageMs := s.harbour.ageMs.set pipe ((s.harbour.ageMs[pipe]?).getD 0 + s.get F.HB_AGE_UNIT_MS [pipe]) } }
    else .next s := by
  have hdue : ∀ {unit last ms : Nat} {w : Bool}, (unit = 0 || w || ms < last + unit) = true ↔ ¬(unit ≠ 0 ∧ w = false ∧ last + unit ≤ ms) := by
    intro unit last ms w
    cases w
    · simp only [Bool.or_false, Bool.or_eq_true, decide_eq_true_eq, true_and, ne_eq]
      omega
    · simp
  by_cases h : s.get F.HB_AGE_UNIT_MS [pipe] ≠ 0 ∧ s.wintering = false ∧
    (s.harbour.ageMs[pipe]?).getD 0 + s.get F.HB_AGE_UNIT_MS [pipe] ≤ s.ctNs / 1000000
  · rw [if_pos h]
    exact if_neg (hdue.not.2 (not_not.2 h))
  · rw [if_neg h]
    exact if_pos (hdue.2 h)

/-! ### Meters (R264 to R267) -/

theorem meter_setMeter_self (m : Meter) : (s.setMeter i m).meter i = m := by
  unfold State.meter State.setMeter
  rw [spGet_spPut_self]
  rfl

theorem meter_congr (h : t.sched = s.sched) : t.meter i = s.meter i := by rw [State.meter, h, State.meter]

/-- The fields that show a meter. -/
def meterShown : List Fld :=
  [F.SC_METER_RATE_CIR, F.SC_METER_RATE_PIR, F.SC_METER_BURST_CBS, F.SC_METER_BURST_PBS, F.SC_METER_ACT_YELLOW, F.SC_METER_ACT_RED,
    F.SC_METER_CNT_GREEN, F.SC_METER_CNT_YELLOW, F.SC_METER_RED_RED]

/-- The index of an operation leaves the meter shown as it is. -/
theorem selIndex_get {f : Fld} (hf : f ∈ meterShown) (i : Nat) : (s.put F.SC_METER_SEL_INDEX [] i).get f = s.get f :=
  State.get_put_spares (fs := meterShown) (by decide) hf i

theorem put_meterResult (v : Nat) (hv : v < 256) : (s.put F.SC_METER_STATUS_RESULT [] v).get F.SC_METER_STATUS_RESULT = v :=
  (State.get_put_self _ (by decide) ..).trans (Nat.mod_eq_of_lt hv)

/-- WRITE of a PIR below CIR is refused. -/
theorem meterOp_write_refused (index : Nat) (h : s.get F.SC_METER_RATE_PIR < s.get F.SC_METER_RATE_CIR) :
    s.meterOp index 1 = (s.put F.SC_METER_SEL_INDEX [] (index % 65536)).put F.SC_METER_STATUS_RESULT [] 2 := by
  refine if_pos ?_
  rw [selIndex_get (by decide), selIndex_get (by decide)]
  exact h

/-- WRITE loads the meter whole and fills its buckets; its counts stand. -/
theorem meterOp_write (index : Nat) (h : s.get F.SC_METER_RATE_CIR ≤ s.get F.SC_METER_RATE_PIR) :
    s.meterOp index 1 = ((s.put F.SC_METER_SEL_INDEX [] (index % 65536)).setMeter (index % 65536)
      ⟨s.get F.SC_METER_RATE_CIR, s.get F.SC_METER_RATE_PIR, s.get F.SC_METER_BURST_CBS, s.get F.SC_METER_BURST_PBS,
        s.get F.SC_METER_ACT_YELLOW, s.get F.SC_METER_ACT_RED, s.get F.SC_METER_BURST_CBS * 256000, s.get F.SC_METER_BURST_PBS * 256000, s.now,
        (s.meter (index % 65536)).green, (s.meter (index % 65536)).yellow, (s.meter (index % 65536)).red⟩).put F.SC_METER_STATUS_RESULT [] 0 := by
  unfold State.meterOp
  dsimp only
  simp only [selIndex_get (s := s) (by decide : F.SC_METER_RATE_CIR ∈ meterShown), selIndex_get (s := s) (by decide : F.SC_METER_RATE_PIR ∈ meterShown),
    selIndex_get (s := s) (by decide : F.SC_METER_BURST_CBS ∈ meterShown), selIndex_get (s := s) (by decide : F.SC_METER_BURST_PBS ∈ meterShown),
    selIndex_get (s := s) (by decide : F.SC_METER_ACT_YELLOW ∈ meterShown), selIndex_get (s := s) (by decide : F.SC_METER_ACT_RED ∈ meterShown)]
  rw [if_neg (by omega)]
  rfl

theorem meterOp_clear (index : Nat) : s.meterOp index 3 = ((s.put F.SC_METER_SEL_INDEX [] (index % 65536)).setMeter (index % 65536)
    { s.meter (index % 65536) with green := 0, yellow := 0, red := 0 }).put F.SC_METER_STATUS_RESULT [] 0 := rfl

/-- Fields written one after the other, none of which a later one touches, hold what was written. -/
theorem get_foldl_put {l : List (Fld × Nat)} (hapart : (l.map (·.1)).Pairwise fun f g => g.spares [] [f] = true) {f : Fld} {v : Nat}
    (hmem : (f, v) ∈ l) (hfits : f.lo + f.width ≤ 64) (s : State) : (l.foldl (fun s x => s.put x.1 [] x.2) s).get f = v % 2 ^ f.width := by
  induction l generalizing s with
  | nil => exact absurd hmem List.not_mem_nil
  | cons x l ih =>
    rw [List.map_cons, List.pairwise_cons] at hapart
    rw [List.foldl_cons]
    obtain rfl | hmem := List.mem_cons.1 hmem
    · have hstands := foldl_unchanged (f := fun (s : State) (x : Fld × Nat) => s.put x.1 [] x.2) (g := fun s => s.get f) (l := l)
        (fun x hx s => State.get_put_spares (hapart.1 x.1 (List.mem_map_of_mem hx)) (List.mem_singleton_self f) x.2)
      exact (hstands _).trans (State.get_put_self f hfits [] v)
    · exact ih hapart.2 hmem _

/-- The fields that READ writes, in its order. -/
def Meter.shown (m : Meter) : List (Fld × Nat) :=
  [(F.SC_METER_RATE_CIR, m.cir), (F.SC_METER_RATE_PIR, m.pir), (F.SC_METER_BURST_CBS, m.cbs), (F.SC_METER_BURST_PBS, m.pbs),
    (F.SC_METER_ACT_YELLOW, m.yellowAct), (F.SC_METER_ACT_RED, m.redAct), (F.SC_METER_CNT_GREEN, m.green), (F.SC_METER_CNT_YELLOW, m.yellow),
    (F.SC_METER_RED_RED, m.red), (F.SC_METER_STATUS_RESULT, 0)]

theorem Meter.shown_apart (m : Meter) : (m.shown.map (·.1)).Pairwise fun f g => g.spares [] [f] = true := by
  have hfields : m.shown.map (·.1) = meterShown ++ [F.SC_METER_STATUS_RESULT] := rfl
  rw [hfields]
  decide

theorem meterOp_read_eq (index : Nat) : s.meterOp index 2 = (s.meter (index % 65536)).shown.foldl (fun s x => s.put x.1 [] x.2)
    (s.put F.SC_METER_SEL_INDEX [] (index % 65536)) := rfl

/-- READ shows the meter, field by field. -/
theorem meterOp_read (index : Nat) :
    let m := s.meter (index % 65536)
    let t := s.meterOp index 2
    t.sched = s.sched ∧ t.get F.SC_METER_STATUS_RESULT = 0 ∧
    t.get F.SC_METER_RATE_CIR = m.cir % 2 ^ F.SC_METER_RATE_CIR.width ∧ t.get F.SC_METER_RATE_PIR = m.pir % 2 ^ F.SC_METER_RATE_PIR.width ∧
    t.get F.SC_METER_BURST_CBS = m.cbs % 2 ^ F.SC_METER_BURST_CBS.width ∧ t.get F.SC_METER_BURST_PBS = m.pbs % 2 ^ F.SC_METER_BURST_PBS.width ∧
    t.get F.SC_METER_CNT_GREEN = m.green % 2 ^ F.SC_METER_CNT_GREEN.width ∧
    t.get F.SC_METER_CNT_YELLOW = m.yellow % 2 ^ F.SC_METER_CNT_YELLOW.width ∧ t.get F.SC_METER_RED_RED = m.red % 2 ^ F.SC_METER_RED_RED.width := by
  intro m t
  have ht : t = m.shown.foldl (fun s x => s.put x.1 [] x.2) (s.put F.SC_METER_SEL_INDEX [] (index % 65536)) := meterOp_read_eq index
  clear_value t
  have hread (f : Fld) (v : Nat) (hmem : (f, v) ∈ m.shown) (hfits : f.lo + f.width ≤ 64) : t.get f = v % 2 ^ f.width := by
    rw [ht]
    exact get_foldl_put m.shown_apart hmem hfits _
  refine ⟨?_, (hread F.SC_METER_STATUS_RESULT 0 (by simp [Meter.shown]) (by decide)).trans (Nat.zero_mod _),
    hread F.SC_METER_RATE_CIR m.cir (by simp [Meter.shown]) (by decide), hread F.SC_METER_RATE_PIR m.pir (by simp [Meter.shown]) (by decide),
    hread F.SC_METER_BURST_CBS m.cbs (by simp [Meter.shown]) (by decide), hread F.SC_METER_BURST_PBS m.pbs (by simp [Meter.shown]) (by decide),
    hread F.SC_METER_CNT_GREEN m.green (by simp [Meter.shown]) (by decide),
    hread F.SC_METER_CNT_YELLOW m.yellow (by simp [Meter.shown]) (by decide), hread F.SC_METER_RED_RED m.red (by simp [Meter.shown]) (by decide)⟩
  rw [ht]
  exact foldl_unchanged (f := fun (s : State) (x : Fld × Nat) => s.put x.1 [] x.2) (g := State.sched) (fun _ _ _ => rfl) _

/-- The three rows of SC_METER_SEL take effect and are counted. -/
theorem exec_meterWrite_allowed (h : s.Writes req .SC_METER_SEL []) (index : Nat) :
    exec (.meterWrite req index) s = (s.meterOp index 1).written req .SC_METER_SEL [] := State.rowWrite_allowed h (·.meterOp index 1)

theorem exec_meterRead_allowed (h : s.Writes req .SC_METER_SEL []) (index : Nat) :
    exec (.meterRead req index) s = (s.meterOp index 2).written req .SC_METER_SEL [] := State.rowWrite_allowed h (·.meterOp index 2)

theorem exec_clearCounts_allowed (h : s.Writes req .SC_METER_SEL []) (index : Nat) :
    exec (.clearCounts req index) s = (s.meterOp index 3).written req .SC_METER_SEL [] := State.rowWrite_allowed h (·.meterOp index 3)

/-! ### A packet's colour (R264 to R266) -/

/-- What an action makes of a packet; code 3 is 0 for yellow and 2 for red. -/
def meterAct (lossless : Bool) (pkt : Packet) (a : Nat) : Option Packet :=
  if a = 0 then some pkt
  else if a = 1 || lossless then some { pkt with hdr := { pkt.hdr with cm := true } }
  else none

/-- The meter that a packet of a port is measured by. -/
def State.meterNo (s : State) (p : Nat) (pkt : Packet) : Nat :=
  (s.get F.SC_METER_MAP_BASE [16 * p + pkt.hdr.tc] +
    pkt.hdr.job % 2 ^ (min 12 (s.get F.SC_METER_MAP_JOBBITS [16 * p + pkt.hdr.tc]))) % 65536

theorem police_eq (s : State) (p : Nat) (lossless : Bool) (pkt : Packet) :
    let i := s.meterNo p pkt
    let m := (s.meter i).upto s.now
    let b := pkt.size * 4000
    s.police p lossless pkt =
      if s.get F.SC_CTRL_METER_EN = 0 || s.get F.SC_METER_MAP_EN [16 * p + pkt.hdr.tc] = 0 then (some pkt, s)
      else if m.tp < b then (meterAct lossless pkt (if m.redAct = 3 then 2 else m.redAct), s.setMeter i { m with red := meterCount m.red })
      else if m.tc < b then
        (meterAct lossless pkt (if m.yellowAct = 3 then 0 else m.yellowAct), s.setMeter i { m with tp := m.tp - b, yellow := meterCount m.yellow })
      else (some pkt, s.setMeter i { m with tc := m.tc - b, tp := m.tp - b, green := meterCount m.green }) := rfl

theorem meterAct_lossless (pkt : Packet) (a : Nat) : meterAct true pkt a ≠ none := by
  unfold meterAct
  split
  · simp
  · simp

theorem police_lossless (s : State) (p : Nat) (pkt : Packet) : (s.police p true pkt).1 ≠ none := by
  rw [police_eq]
  split
  · simp
  · split
    · exact meterAct_lossless _ _
    · split
      · exact meterAct_lossless _ _
      · simp

/-- The four codes of an action. -/
theorem meterAct_codes (lossless other : Bool) (pkt : Packet) (a : Nat) :
    let marked : Packet := { pkt with hdr := { pkt.hdr with cm := true } }
    let r := meterAct lossless pkt (if a = 3 then (if other then 0 else 2) else a)
    (a = 0 → r = some pkt) ∧ (a = 1 → r = some marked) ∧ (a = 2 → r = if lossless = true then some marked else none) ∧
      (a = 3 → r = if other = true then some pkt else if lossless = true then some marked else none) := by
  refine ⟨fun h => ?_, fun h => ?_, fun h => ?_, fun h => ?_⟩
  all_goals subst h
  · rfl
  · rfl
  · cases lossless <;> rfl
  · cases other <;> cases lossless <;> rfl

end Sys2Proof.Machine
end

section
/-! OBLIGATION O37: Harbour operations, ageing, meters and gate entries. -/

namespace Sys2Proof.Machine

variable {s : State} {p : Nat} {pkt : Packet}

/-! ### A packet's colour -/

/-- A meter whose buckets hold so much now. -/
def Meter.filled (m : Meter) (tc tp now : Nat) : Meter := { m with tc := tc, tp := tp, upTo := now }

theorem Meter.upto_eq (m : Meter) (now : Nat) :
    m.upto now = m.filled (min (m.cbs * 256000) (m.tc + m.cir * (now - m.upTo))) (min (m.pbs * 256000) (m.tp + m.pir * (now - m.upTo))) now := rfl

section
variable (hen : s.get F.SC_CTRL_METER_EN = 1) (hmap : s.get F.SC_METER_MAP_EN [16 * p + pkt.hdr.tc] = 1) (lossless : Bool)
  {i tc tp : Nat} {m : Meter} (hi : s.meterNo p pkt = i) (hm : (s.meter i).upto s.now = m.filled tc tp s.now)
include hen hmap hi hm

theorem police_measured : s.police p lossless pkt =
    if tp < (32 + pkt.hdr.len) * 4000 then (meterAct lossless pkt (if m.redAct = 3 then 2 else m.redAct),
      s.setMeter i { m with tc := tc, tp := tp, upTo := s.now, red := meterCount m.red })
    else if tc < (32 + pkt.hdr.len) * 4000 then (meterAct lossless pkt (if m.yellowAct = 3 then 0 else m.yellowAct),
      s.setMeter i { m with tc := tc, tp := tp - (32 + pkt.hdr.len) * 4000, upTo := s.now, yellow := meterCount m.yellow })
    else (some pkt, s.setMeter i { m with
      tc := tc - (32 + pkt.hdr.len) * 4000, tp := tp - (32 + pkt.hdr.len) * 4000, upTo := s.now, green := meterCount m.green }) := by
  rw [police_eq, if_neg (by simp [hen, hmap]), Packet.size, hi, hm]
  rfl

theorem police_red (h : tp < (32 + pkt.hdr.len) * 4000) :
    (s.police p lossless pkt).1 = meterAct lossless pkt (if m.redAct = 3 then 2 else m.redAct) ∧
      (s.police p lossless pkt).2.meter i = { m with tc := tc, tp := tp, upTo := s.now, red := meterCount m.red } := by
  rw [police_measured hen hmap lossless hi hm, if_pos h]
  exact ⟨rfl, meter_setMeter_self _⟩

theorem police_yellow (hp : (32 + pkt.hdr.len) * 4000 ≤ tp) (hc : tc < (32 + pkt.hdr.len) * 4000) :
    (s.police p lossless pkt).1 = meterAct lossless pkt (if m.yellowAct = 3 then 0 else m.yellowAct) ∧
      (s.police p lossless pkt).2.meter i =
        { m with tc := tc, tp := tp - (32 + pkt.hdr.len) * 4000, upTo := s.now, yellow := meterCount m.yellow } := by
  rw [police_measured hen hmap lossless hi hm, if_neg (Nat.not_lt.2 hp), if_pos hc]
  exact ⟨rfl, meter_setMeter_self _⟩

theorem police_green (hp : (32 + pkt.hdr.len) * 4000 ≤ tp) (hc : (32 + pkt.hdr.len) * 4000 ≤ tc) :
    (s.police p lossless pkt).1 = some pkt ∧ (s.police p lossless pkt).2.meter i = { m with
      tc := tc - (32 + pkt.hdr.len) * 4000, tp := tp - (32 + pkt.hdr.len) * 4000, upTo := s.now, green := meterCount m.green } := by
  rw [police_measured hen hmap lossless hi hm, if_neg (Nat.not_lt.2 hp), if_neg (Nat.not_lt.2 hc)]
  exact ⟨rfl, meter_setMeter_self _⟩

end

/-! ### Gate entries (R269) -/

theorem cycleOf_cons (e : Word64) (l : List Word64) : cycleOf (e :: l) = gateDur e + cycleOf l := by
  have hfrom (l : List Word64) (n : Nat) : l.foldl (fun n e => n + gateDur e) n = n + cycleOf l := by
    induction l generalizing n with
    | nil => rfl
    | cons d l ih =>
      unfold cycleOf
      rw [List.foldl_cons, List.foldl_cons, ih, ih]
      omega
  unfold cycleOf
  rw [List.foldl_cons, hfrom, Nat.zero_add]
  rfl

/-- The phase falls in the entry: after the durations before it, and with what is left of it still to go. -/
theorem entryAt_spec (l : List Word64) (ph : Nat) (h : ph < cycleOf l) : (entryAt l ph).1 < l.length ∧ cycleOf (l.take (entryAt l ph).1) ≤ ph ∧
    ph + (entryAt l ph).2 = cycleOf (l.take ((entryAt l ph).1 + 1)) := by
  induction l generalizing ph with
  | nil => exact absurd h (Nat.not_lt_zero _)
  | cons e l ih =>
    rw [cycleOf_cons] at h
    by_cases hin : ph < gateDur e
    · have hentry : entryAt (e :: l) ph = (0, gateDur e - ph) := if_pos hin
      have hnil : cycleOf ([] : List Word64) = 0 := rfl
      rw [hentry]
      simp only [List.length_cons, List.take_zero, Nat.zero_add, List.take_succ_cons, cycleOf_cons, hnil]
      omega
    · have hentry : entryAt (e :: l) ph = ((entryAt l (ph - gateDur e)).1 + 1, (entryAt l (ph - gateDur e)).2) := if_neg hin
      obtain ⟨hlt, hle, hsum⟩ := ih (ph - gateDur e) (by omega)
      rw [hentry]
      simp only [List.length_cons, List.take_succ_cons, cycleOf_cons] at hlt hle hsum ⊢
      omega

/-- The entry taken up, and the cycles started since. -/
def State.takeEntry (s : State) (p j : Nat) : State :=
  (({ s with sched := { s.sched with gateAt := spPut 0 s.sched.gateAt p j, gateCycle := spPut 0 s.sched.gateCycle p (s.gateCycleNow p) } } : State).put
    F.SC_GATE_STATUS_ENTRY [p] j).advance F.SC_GATE_STATUS_CYCLES [p] (s.gateCycleNow p - spGet 0 s.sched.gateCycle p).toNat

theorem takeEntry_lhPort (s : State) (p j q : Nat) : (s.takeEntry p j).lhPort q = s.lhPort q := by
  rw [State.takeEntry, State.lhPort, State.cget, State.crd, State.advance_cregs, State.put_cregs, State.lhPort, State.cget, State.crd]

theorem exec_gateEntry_none (h : s.gateEntries p = []) : exec (.gateEntry p) s = .next s := by
  change Host.Outcome.next (s.enterGate p false) = _
  unfold State.enterGate
  rw [h]
  rfl

theorem exec_gateEntry_eq (h : s.gateEntries p ≠ []) :
    let j := (entryAt (s.gateEntries p) (s.gatePhase p (cycleOf (s.gateEntries p)))).1
    exec (.gateEntry p) s = .next (if spGet 0 s.sched.gateAt p = j then s.takeEntry p j
      else (s.takeEntry p j).lhEntry p (spGet 0 s.sched.gateAt p) j) := by
  have hsome : (s.gateEntries p).isEmpty = false := by simpa using h
  have hat (v : Nat) : spGet 0 (spPut 0 s.sched.gateAt p v) p = v := spGet_spPut_self ..
  have hcycle (v : Int) : spGet 0 (spPut 0 s.sched.gateCycle p v) p = v := spGet_spPut_self ..
  intro j
  change Host.Outcome.next (s.enterGate p false) = _
  unfold State.enterGate State.noteGate
  simp only [hsome, Bool.false_eq_true, if_false, State.put_sched, State.advance_sched, hat, hcycle]
  rfl

theorem lhEntry_native {i j : Nat} (h : s.lhPort p = false) : s.lhEntry p i j = s := by
  unfold State.lhEntry
  simp [h]

/-- Settles O37: each part by the rule of its instruction. -/
theorem harbourMetersGates : Obligations.HarbourMetersGates := by
  unfold Obligations.HarbourMetersGates
  refine ⟨fun s req pipe key hw => ⟨fun hpin row hrow => ?_, fun hfree hclean => ?_⟩,
    fun s pipe => ⟨exec_agerVisit_idle, fun hen hawake hfree i e htable => ?_⟩, fun s pipe => ⟨fun hno => ?_, fun hdue => ?_⟩,
    fun s req index _ hw => ⟨fun hpir => ?_, fun hpir => ?_, ?_, ?_⟩,
    fun s p pkt => ⟨police_lossless s p pkt, fun hen hmap lossless => ?_⟩,
    entryAt_spec, fun s port => ⟨exec_gateEntry_none, fun hsome => ⟨fun hstill => ?_, fun hmoves hlh => ?_⟩⟩⟩
  · simp only [List.mem_cons, List.not_mem_nil, or_false] at hrow
    obtain rfl | rfl | rfl := hrow
    · rw [exec_insert_allowed hw, hOp_pinning (by decide) hpin]
    · rw [exec_delete_allowed hw, hOp_pinning (by decide) hpin]
    · rw [exec_lookup_allowed hw, hOp_pinning (by decide) hpin]
  · rw [exec_insert_allowed hw, exec_delete_allowed hw, exec_lookup_allowed hw, hOp_runs (by decide) hfree, hOp_runs (by decide) hfree,
      hOp_runs (by decide) hfree]
    obtain ⟨hdelPinned, hdel, hdelNone⟩ := hDelete_clean hclean
    obtain ⟨hread, hreadNone⟩ := hRead_clean hclean
    have hdone {t v : State} (h : t = v) : t.written req .HB_OP [pipe] = v.written req .HB_OP [pipe] := congrArg (·.written req .HB_OP [pipe]) h
    refine ⟨fun hbundle => hdone (hInsert_refused hclean hbundle), fun hlegal => ?_, fun i e hhit hpinned => hdone (hdelPinned i e hhit hpinned),
      fun i e hhit hloose => hdone (hdel i e hhit hloose), fun hmiss => hdone (hdelNone hmiss), fun i e hhit => hdone (hread i e hhit),
      fun hmiss => hdone (hreadNone hmiss)⟩
    obtain ⟨hpin, hreplace, hplace, hfull⟩ := hInsert_legal hclean hlegal
    exact ⟨fun i e hhit hpinned => hdone (hpin i e hhit hpinned), fun i e hhit hloose => hdone (hreplace i e hhit hloose),
      fun hmiss i hi => hdone (hplace hmiss i hi), fun hmiss hnone => hdone (hfull hmiss hnone)⟩
  · have hold : s.aged pipe e = true ↔ e.data.getLsbD 16 = false ∧ s.get F.HB_AGE_LIMIT [pipe] ≤
        (s.get F.HB_AGE_NOW [pipe] + 65536 - bits e.data 32 16) % 65536 := by
      unfold State.aged
      rw [Bool.and_eq_true, Bool.not_eq_true', decide_eq_true_eq]
    have hvisit := exec_agerVisit_one hen hawake hfree htable
    simp only [hold] at hvisit
    exact hvisit
  · rw [exec_ageingTick_eq, if_neg hno]
  · rw [exec_ageingTick_eq, if_pos hdue]
    exact ⟨_, rfl, rfl, fun _ => State.get_advance_self F.HB_AGE_NOW (by decide) [pipe] 1⟩
  · refine ⟨_, exec_meterWrite_allowed hw index, ?_⟩
    rw [meterOp_write_refused index hpir]
    exact ⟨put_meterResult 2 (by decide), by rw [State.put_sched, State.put_sched]⟩
  · refine ⟨_, exec_meterWrite_allowed hw index, ?_⟩
    rw [meterOp_write index hpir]
    exact ⟨put_meterResult 0 (by decide), (meter_congr (State.put_sched ..)).trans (meter_setMeter_self _)⟩
  · refine ⟨_, exec_clearCounts_allowed hw index, ?_⟩
    rw [meterOp_clear]
    exact ⟨put_meterResult 0 (by decide), (meter_congr (State.put_sched ..)).trans (meter_setMeter_self _)⟩
  · exact ⟨_, exec_meterRead_allowed hw index, meterOp_read index⟩
  · intro i m tc tp b up marked acts
    have hi : s.meterNo p pkt = i := rfl
    have hm : (s.meter i).upto s.now = m.filled tc tp s.now := Meter.upto_eq ..
    refine ⟨fun hred => ?_, fun hp hc => ?_, police_green hen hmap lossless hi hm⟩
    · obtain ⟨hact, hmeter⟩ := police_red hen hmap lossless hi hm hred
      exact ⟨hact ▸ meterAct_codes lossless false pkt _, hmeter⟩
    · obtain ⟨hact, hmeter⟩ := police_yellow hen hmap lossless hi hm hp hc
      exact ⟨hact ▸ meterAct_codes lossless true pkt _, hmeter⟩
  · refine (exec_gateEntry_eq hsome).trans (congrArg Host.Outcome.next ?_)
    split
    · rfl
    · next hne => exact lhEntry_native ((takeEntry_lhPort ..).trans (hstill.resolve_left hne))
  · exact (exec_gateEntry_eq hsome).trans (congrArg Host.Outcome.next (if_neg hmoves))

end Sys2Proof.Machine
end

section
/-! SUPPORT. The link rows of the Quays and the Lighthouse (R298 to R305, R318): what a port holds after a frame or a control block. -/

namespace Sys2Proof.Machine

variable {s t u : State} {p q : Nat}

/-! ### Ports -/

theorem port_mapPort_self (f : PortState → PortState) : (s.mapPort p f).port p = f (s.port p) := by
  unfold State.mapPort State.setPort State.port
  rw [spGet_spPut_self]
  rfl

theorem port_setPort_self (x : PortState) : (s.setPort p x).port p = x := port_mapPort_self fun _ => x

theorem setLink_native (h : s.lhPort p = false) (l : Link) : s.setLink p l = s.mapPort p fun x => { x with link := l } := by
  unfold State.setLink
  rw [h]
  rfl

theorem link_native (h : s.lhPort p = false) : s.link p = (s.port p).link := by
  unfold State.link
  rw [h]
  rfl

theorem link_setLink_native (h : s.lhPort p = false) (l : Link) : (s.setLink p l).link p = l ∧ (s.setLink p l).lhPort p = false := by
  have hport : (s.mapPort p fun x => { x with link := l }).port p = { s.port p with link := l } := port_mapPort_self _
  rw [setLink_native h]
  exact ⟨(link_native (s := s.mapPort p fun x => { x with link := l }) h).trans (congrArg PortState.link hport), h⟩

/-! ### Frames resent (R298) -/

/-- The link of a port that the Lighthouse does not control, but for its PCS. -/
def LinkBut (p : Nat) (l : Link) (s : State) : Prop := s.lhPort p = false ∧ ∃ tx, s.link p = { l with tx := tx }

theorem LinkBut.setLink (h : s.lhPort p = false) {l k : Link} (hl : ∃ tx, k = { l with tx := tx }) : LinkBut p l (s.setLink p k) := by
  obtain ⟨hlink, hlh⟩ := link_setLink_native h k
  exact ⟨hlh, by rw [hlink]; exact hl⟩

theorem LinkBut.mapLink {l : Link} (h : LinkBut p l s) (f : Link → Link) (hf : ∀ k, ∃ tx, f k = { k with tx := tx }) :
    LinkBut p l (s.mapLink p f) := by
  obtain ⟨hlh, tx, hlink⟩ := h
  refine LinkBut.setLink hlh ?_
  obtain ⟨tx', hf⟩ := hf (s.link p)
  exact ⟨tx', by rw [hf, hlink]⟩

theorem LinkBut.same {l : Link} (h : LinkBut p l s) (hlh : t.lhPort p = s.lhPort p) (hlink : (t.port p).link = (s.port p).link) : LinkBut p l t := by
  obtain ⟨hl, hs⟩ := h
  refine ⟨hlh.trans hl, ?_⟩
  rw [link_native (hlh.trans hl), hlink, ← link_native hl]
  exact hs

theorem LinkBut.sendCtl {l : Link} (h : LinkBut p l s) (type content : Nat) : LinkBut p l (s.sendCtl p type content) :=
  LinkBut.mapLink (s := s.send (.control p type content)) h _ fun _ => ⟨_, rfl⟩

theorem LinkBut.putFrame {l : Link} (h : LinkBut p l s) (lseq : Nat) (pkt : Packet) : LinkBut p l (s.putFrame p lseq pkt) := by
  have hmarked : LinkBut p l ((s.send (.frame p lseq pkt)).mapPort p fun x => { x with badCrc := false }) :=
    h.same rfl (by rw [port_mapPort_self]; rfl)
  exact hmarked.mapLink _ fun _ => ⟨_, rfl⟩

/-- Where no limit is set, a replay is counted. -/
theorem replayFrom_replays (hlh : s.lhPort p = false) (hmax : s.cget F.QY_PORT_CTRL_REPLAY_MAX (pidx p) = 0) (n : Nat) :
    ((s.replayFrom p n).link p).replays = (s.link p).replays + 1 := by
  have hcounted : (s.bump F.QY_LINK_CNT_REPLAYS (pidx p)).lhPort p = false := hlh
  have hrestarted : LinkBut p { s.link p with replays := (s.link p).replays + 1 } ((s.bump F.QY_LINK_CNT_REPLAYS (pidx p)).setLink p
      { s.link p with replays := (s.link p).replays + 1, tx := { (s.link p).tx with stream := [], opens := true } }) :=
    LinkBut.setLink hcounted ⟨{ (s.link p).tx with stream := [], opens := true }, rfl⟩
  have hsent (l : List (Nat × Packet)) (u : State) (h : LinkBut p { s.link p with replays := (s.link p).replays + 1 } u) :
      LinkBut p { s.link p with replays := (s.link p).replays + 1 } (l.foldl (fun s x => s.putFrame p x.1 x.2) u) :=
    List.foldlRecOn l _ h fun _ hu x _ => hu.putFrame x.1 x.2
  unfold State.replayFrom
  dsimp only
  rw [if_neg (by simp [hmax])]
  obtain ⟨-, tx, hlink⟩ := hsent _ _ hrestarted
  rw [hlink]

theorem sendNak_nakAt (hlh : s.lhPort p = false) : ((s.sendNak p).link p).nakAt = some s.now := by
  have hset : LinkBut p { s.link p with nakAt := some s.now } (s.setLink p { s.link p with nakAt := some s.now }) := LinkBut.setLink hlh ⟨_, rfl⟩
  obtain ⟨-, tx, hlink⟩ := hset.sendCtl Ctl.nak (s.link p).rxNext
  unfold State.sendNak
  rw [hlink]

section
variable (hstage : s.stage p = 6) (hlh : s.lhPort p = false) (hmax : s.cget F.QY_PORT_CTRL_REPLAY_MAX (pidx p) = 0)
include hstage hlh

theorem exec_nakRepeat_due {at_ : Nat} (hnak : (s.link p).nakAt = some at_)
    (hdue : at_ + 500 * max 1 (s.cget F.QY_PORT_CTRL_REPLAY_US (pidx p)) ≤ s.now) :
    ∃ t, exec (.nakRepeat p) s = .next t ∧ (t.link p).nakAt = some s.now := by
  refine ⟨_, ?_, sendNak_nakAt hlh⟩
  change execNakRepeat p s = _
  unfold execNakRepeat us
  rw [hnak]
  dsimp only
  rw [if_pos (by simp [hstage, hdue])]

include hmax

theorem exec_nak_within {n : Nat} {x : Nat × Packet} {rest : List (Nat × Packet)} (hr : (s.link p).replay = x :: rest)
    (hin : seqBehind x.1 n ≤ seqBehind x.1 (s.link p).txNext) :
    ∃ t, exec (.nak p n) s = .next t ∧ (t.link p).replays = (s.link p).replays + 1 := by
  refine ⟨_, ?_, replayFrom_replays hlh hmax n⟩
  change execNak p n s = _
  unfold execNak
  dsimp only
  rw [if_neg (by simp [hstage]), hr]
  dsimp only
  rw [if_pos hin]

theorem exec_replayTimeout_due (hr : (s.link p).replay ≠ [])
    (hdue : (s.link p).ackAt + 500 * max 1 (s.cget F.QY_PORT_CTRL_REPLAY_US (pidx p)) ≤ s.now) :
    ∃ t, exec (.replayTimeout p) s = .next t ∧ (t.link p).replays = (s.link p).replays + 1 := by
  obtain ⟨hlink, hlh'⟩ := link_setLink_native hlh { s.link p with ackAt := s.now }
  have hmax' : (s.setLink p { s.link p with ackAt := s.now }).cget F.QY_PORT_CTRL_REPLAY_MAX (pidx p) = 0 := by
    rw [setLink_native hlh]
    exact hmax
  refine ⟨_, ?_, (replayFrom_replays hlh' hmax' (((s.link p).replay.head?.map (·.1)).getD (s.link p).txNext)).trans (by rw [hlink])⟩
  change execReplayTimeout p s = _
  unfold execReplayTimeout us
  dsimp only
  rw [if_neg (by simpa [hstage, hr] using hdue)]

end

/-! ### Stages (R305) -/

theorem mapPort_get (g : PortState → PortState) (f : Fld) (idx : List Nat) : (s.mapPort p g).get f idx = s.get f idx := State.get_congr f rfl

theorem setStage_stage {st : Nat} (h4 : st ≠ 4) (hst : st < 8) : (s.setStage p st).stage p = st := by
  unfold State.setStage
  dsimp only
  rw [if_neg h4, State.stage, mapPort_get]
  exact (State.get_put_self F.QY_PORT_STATUS_STAGE (by decide) ..).trans (Nat.mod_eq_of_lt hst)

theorem toStage1_stage (h1 : s.stage p ≠ 1) (h6 : s.stage p ≠ 6) : (s.toStage1 p).stage p = 1 := by
  unfold State.toStage1
  dsimp only
  rw [if_neg h1, if_neg h6]
  exact setStage_stage (by decide) (by decide)

theorem exec_lossOfSignal_early (h1 : s.stage p ≠ 1) (h6 : s.stage p ≠ 6) : ∃ t, exec (.lossOfSignal p) s = .next t ∧ t.stage p = 1 := by
  refine ⟨_, ?_, toStage1_stage h1 h6⟩
  change Host.Outcome.next (s.leaveService p) = _
  unfold State.leaveService
  rw [if_neg h6]

theorem stageLimit_some {n l : Nat} (h : stageLimit n = some l) : n ≠ 1 ∧ n ≠ 6 := by
  constructor <;> rintro rfl <;> cases h

theorem exec_stageLimit_past {l : Nat} (hl : stageLimit (s.stage p) = some l) (hpast : (s.port p).since + 500 * l < s.now) :
    ∃ t, exec (.stageLimit p) s = .next t ∧ t.stage p = 1 := by
  obtain ⟨h1, h6⟩ := stageLimit_some hl
  have hexec : exec (.stageLimit p) s = .next ((s.toStage1 p).mapPort p fun x => { x with failed := s.stage p ≤ 4 }) := by
    change execStageLimit p s = _
    unfold execStageLimit us
    rw [hl]
    dsimp only
    rw [if_pos hpast]
  exact ⟨_, hexec, toStage1_stage h1 h6⟩

theorem exec_signalDetect_starts (hport : s.isPort p = true) (hen : s.portEnabled p = true) (hstage : s.stage p = 1)
    (hquiet : ∀ i, i < s.portWidth p → s.get F.QY_PRBS_CTRL_EN (pidx (p + i)) ≠ 1) :
    ∃ t, exec (.signalDetect p) s = .next t ∧ t.stage p = 2 ∧ (t.port p).attemptAt = s.now := by
  have hno : ((List.range (s.portWidth p)).any fun i => s.get F.QY_PRBS_CTRL_EN (pidx (p + i)) = 1) = false := by
    rw [List.any_eq_false]
    intro i hi
    simpa using hquiet i (List.mem_range.1 hi)
  have hstart (u : State) (hnow : u.now = s.now) :
      let t := (u.setStage p 2).mapPort p fun x => { x with attemptAt := u.now, signalAt := some u.now }
      t.stage p = 2 ∧ (t.port p).attemptAt = s.now :=
    ⟨setStage_stage (by decide) (by decide), (congrArg PortState.attemptAt (port_mapPort_self _)).trans hnow⟩
  change ∃ t, execSignalDetect p s = .next t ∧ _
  unfold execSignalDetect
  dsimp only
  rw [hno, if_pos (by simp [hport, hen, hstage])]
  split
  · exact ⟨_, rfl, hstart _ rfl⟩
  · split <;> exact ⟨_, rfl, hstart _ rfl⟩

/-! ### Beacons (R301, R304) -/

/-- A control block leaves a port's beacons as they are. -/
theorem sendCtl_port (h : s.lhPort p = false) (type content : Nat) : ((s.sendCtl p type content).port p).beaconAt = (s.port p).beaconAt ∧
    ((s.sendCtl p type content).port p).beaconCount = (s.port p).beaconCount := by
  unfold State.sendCtl State.mapLink
  rw [setLink_native (s := s.send (.control p type content)) h, port_mapPort_self]
  exact ⟨rfl, rfl⟩

/-- A beacon sent is timed and counted. -/
theorem sendBeacon_port (h : s.isEth p = true ∨ s.lhPort p = false) (at_ : Nat) : ((s.sendBeacon p at_).port p).beaconAt = some at_ ∧
    ((s.sendBeacon p at_).port p).beaconCount = ((s.port p).beaconCount + 1) % 2 ^ 16 := by
  have hset : ∀ x : PortState, (((s.setPort p x).port p).beaconAt = x.beaconAt ∧ ((s.setPort p x).port p).beaconCount = x.beaconCount) := fun x => by
    rw [port_setPort_self]
    exact ⟨rfl, rfl⟩
  have hsent (u : State) (pkt : Packet) (hu : u.isEth p = true) : (u.transmit p pkt).port p = u.port p := by
    unfold State.transmit
    rw [if_pos hu]
    rfl
  unfold State.sendBeacon
  dsimp only
  split
  · exact hset _
  · split
    · next heth =>
      rw [hsent]
      · exact hset _
      · exact heth
    · next heth =>
      have hlh := h.resolve_left heth
      obtain ⟨hat, hcount⟩ := sendCtl_port (s := s.setPort p _) hlh Ctl.beacon _
      exact ⟨hat.trans (hset _).1, hcount.trans (hset _).2⟩

theorem exec_beaconSend_first (hstage : s.stage p = 6) (hnone : (s.port p).beaconAt = none) (heth : s.isEth p = false) (hlh : s.lhPort p = false) :
    ∃ t, exec (.beaconSend p) s = .next t ∧ (t.port p).beaconAt = some (s.port p).inService ∧
      (t.port p).beaconCount = ((s.port p).beaconCount + 1) % 2 ^ 16 := by
  have hexec : exec (.beaconSend p) s = .next (s.sendBeacon p (s.port p).inService) := by
    change execBeaconSend p s = _
    unfold execBeaconSend State.beaconDue
    rw [if_neg (by simp [hstage, heth, hlh]), hnone]
  exact ⟨_, hexec, sendBeacon_port (.inr hlh) _⟩

theorem exec_ethernetBeacon_first (hstage : s.stage p = 6) (hnone : (s.port p).beaconAt = none) (heth : s.isEth p = true)
    (hslot : s.slotOf p = none) (hchk : s.cget F.QY_PORT_CTRL_BEACON_CHK (pidx p) ≠ 0) :
    ∃ t, exec (.ethernetBeacon p) s = .next t ∧ (t.port p).beaconAt = some (s.port p).inService ∧
      (t.port p).beaconCount = ((s.port p).beaconCount + 1) % 2 ^ 16 := by
  have hexec : exec (.ethernetBeacon p) s = .next (s.sendBeacon p (s.port p).inService) := by
    change execEthernetBeacon p s = _
    unfold execEthernetBeacon State.beaconDue
    rw [if_neg (by simp [hstage, heth, hslot, hchk]), hnone]
  exact ⟨_, hexec, sendBeacon_port (.inl heth) _⟩

/-! ### The circuit lit (R318) -/

/-- From `s` to `t` a channel's light stands. -/
def LitStands (q : Nat) (s t : State) : Prop := (t.channel q).lit = (s.channel q).lit ∧ (t.channel q).tuning = (s.channel q).tuning

namespace LitStands

theorem refl (s : State) : LitStands q s s := ⟨rfl, rfl⟩

theorem same (h : LitStands q s t) (hu : u.quays.channels = t.quays.channels := by rfl) : LitStands q s u := by
  have hq : u.channel q = t.channel q := by rw [State.channel, hu, State.channel]
  unfold LitStands
  rw [hq]
  exact h

theorem setCircuit (h : LitStands q s t) (r k : Nat) (x : Circuit) : LitStands q s (t.setChannel r ((t.channel r).setCircuit k x)) := by
  have hget : (t.setChannel r ((t.channel r).setCircuit k x)).channel q = if r = q then (t.channel r).setCircuit k x else t.channel q := by
    unfold State.channel State.setChannel
    rw [spGet_spPut]
    split <;> rfl
  unfold LitStands
  rw [hget]
  split
  · next hr =>
    subst hr
    exact h
  · exact h

theorem setLink (h : LitStands q s t) (p : Nat) (l : Link) : LitStands q s (t.setLink p l) := by
  unfold State.setLink
  split
  · split
    · exact h.setCircuit ..
    · exact h
  · exact h.same

theorem sendCtl (h : LitStands q s t) (p type content : Nat) : LitStands q s (t.sendCtl p type content) :=
  LitStands.setLink (t := t.send (.control p type content)) h.same ..

theorem putFrame (h : LitStands q s t) (p lseq : Nat) (pkt : Packet) : LitStands q s (t.putFrame p lseq pkt) :=
  LitStands.setLink (t := (t.send (.frame p lseq pkt)).mapPort p fun x => { x with badCrc := false }) h.same ..

theorem transmit (h : LitStands q s t) (p : Nat) (pkt : Packet) : LitStands q s (t.transmit p pkt) := by
  unfold State.transmit State.sendFrame
  split
  · exact h.same
  · exact (h.setLink ..).putFrame ..

theorem sendBeacon (h : LitStands q s t) (p at_ : Nat) : LitStands q s (t.sendBeacon p at_) := by
  unfold State.sendBeacon
  dsimp only
  split
  · exact h.same
  · split
    · exact LitStands.transmit h.same ..
    · exact LitStands.sendCtl h.same ..

theorem firstCredits (h : LitStands q s t) (p : Nat) : LitStands q s (t.firstCredits p) := by
  unfold State.firstCredits
  dsimp only
  split
  · exact h
  · exact List.foldlRecOn _ _ h fun _ hu _ _ => (hu.setLink ..).sendCtl ..

end LitStands

/-- The channel with its new circuit lit, and its registers. -/
def State.litUp (s : State) (q k : Nat) : State :=
  let c := s.channel q
  let first := s.lhState q k = 0
  let c := { c with tuning := none, lit := some k, heard := false }
  let c := if first then c.setCircuit k { c.circuit k with firstLock := s.now, gotBeacon := false, gotEcho := false, misses := 0 } else c
  let s := (s.setChannel q c).put F.LH_PORT_STATUS_CUR [q] k
  if first then s.put F.LH_CIRCUIT_STATE [q, k] 1 else s

theorem litUp_channel (s : State) (q k : Nat) : ((s.litUp q k).channel q).lit = some k ∧ ((s.litUp q k).channel q).tuning = none := by
  have hset (u : State) (c : Channel) : (u.setChannel q c).channel q = c := by
    unfold State.channel State.setChannel
    rw [spGet_spPut_self]
    rfl
  have hput (u : State) (c : Channel) (f g : Fld) (i j : List Nat) (x y : Nat) : (((u.setChannel q c).put f i x).put g j y).channel q = c := hset u c
  have hput1 (u : State) (c : Channel) (f : Fld) (i : List Nat) (x : Nat) : ((u.setChannel q c).put f i x).channel q = c := hset u c
  unfold State.litUp
  dsimp only
  split
  · rw [hput]
    exact ⟨rfl, rfl⟩
  · rw [hput1]
    exact ⟨rfl, rfl⟩

theorem lockOn_eq (s : State) (q k : Nat) : ∃ l : Link, s.lockOn q k =
    if ((s.litUp q k).setLink (8 * q) l).stage (8 * q) = 6 then
      (((s.litUp q k).setLink (8 * q) l).sendBeacon (8 * q) ((s.litUp q k).setLink (8 * q) l).now).firstCredits (8 * q)
    else (s.litUp q k).setLink (8 * q) l := by
  unfold State.lockOn State.litUp
  exact ⟨_, rfl⟩

theorem exec_lock_ends {k at_ : Nat} (ht : (s.channel q).tuning = some (k, at_)) (hdue : at_ ≤ s.now) :
    ∃ t, exec (.lock q) s = .next t ∧ (t.channel q).lit = some k ∧ (t.channel q).tuning = none := by
  have hexec : exec (.lock q) s = .next (s.lockOn q k) := by
    change execLock q s = _
    unfold execLock
    rw [ht]
    dsimp only
    rw [if_pos hdue]
  obtain ⟨l, heq⟩ := lockOn_eq s q k
  have hlink : LitStands q (s.litUp q k) ((s.litUp q k).setLink (8 * q) l) := (LitStands.refl _).setLink ..
  have hstands : LitStands q (s.litUp q k) (s.lockOn q k) := by
    rw [heq]
    split
    · exact (hlink.sendBeacon ..).firstCredits ..
    · exact hlink
  obtain ⟨hlit, htuning⟩ := litUp_channel s q k
  exact ⟨_, hexec, hstands.1.trans hlit, hstands.2.trans htuning⟩

end Sys2Proof.Machine
end

section
/-! SUPPORT. The timers of a long-haul slot (R331 to R336, R346): what the slot holds after its frames are sent. -/

namespace Sys2Proof.Machine

variable {s t u : State} {i : Nat}

theorem slot_setSlot_self (x : BwSlot) : (s.setSlot i x).slot i = x := by
  unfold State.slot State.setSlot
  rw [spGet_spPut_self]
  rfl

theorem slot_mapSlot_self (f : BwSlot → BwSlot) : (s.mapSlot i f).slot i = f (s.slot i) := slot_setSlot_self _

/-- From `s` to `t` the cycle stands, and the slot but for its key agreement. -/
def SlotStands (i : Nat) (s t : State) : Prop := t.now = s.now ∧ ∃ c k, t.slot i = { s.slot i with counter := c, keyx := k }

namespace SlotStands

theorem refl (s : State) : SlotStands i s s := ⟨rfl, _, _, rfl⟩

theorem same (h : SlotStands i s t) (hnow : u.now = t.now := by rfl) (hbw : u.bw = t.bw := by rfl) : SlotStands i s u := by
  have hslot : u.slot i = t.slot i := by rw [State.slot, hbw, State.slot]
  obtain ⟨ht, c, k, hx⟩ := h
  exact ⟨hnow.trans ht, c, k, hslot.trans hx⟩

theorem ite {c : Prop} [Decidable c] (ht : SlotStands i s t) (hu : SlotStands i s u) : SlotStands i s (if c then t else u) := by
  split <;> assumption

theorem foldl {β : Type} (l : List β) (f : State → β → State) (h : SlotStands i s t) (hf : ∀ u x, SlotStands i s u → SlotStands i s (f u x)) :
    SlotStands i s (l.foldl f t) := List.foldlRecOn l f h fun u hu x _ => hf u x hu

theorem sendKeyx (h : SlotStands i s t) (msg : List Byte) : SlotStands i s (t.sendKeyx i msg) := by
  unfold State.sendKeyx
  dsimp only
  split
  · exact h.same
  · exact h

theorem askRekey (h : SlotStands i s t) : SlotStands i s (t.askRekey i) := by
  have hoffer (u : State) (hnow : u.now = t.now) (n c : Nat) (k : Keyx) (msg : List Byte) :
      SlotStands i s ((({ u with freeCtr := n } : State).setSlot i { t.slot i with counter := c, keyx := some k }).sendKeyx i msg) := by
    obtain ⟨ht, c', k', hx⟩ := h
    have hset : SlotStands i s (({ u with freeCtr := n } : State).setSlot i { t.slot i with counter := c, keyx := some k }) :=
      ⟨hnow.trans ht, c, some k, by rw [slot_setSlot_self, hx]⟩
    exact hset.sendKeyx msg
  unfold State.askRekey
  dsimp only
  split
  · exact ite h (hoffer t rfl _ _ _ _)
  · exact ite h.same (hoffer t.fresh.2 rfl _ _ _ _)

theorem sendBw (h : SlotStands i s t) (b : BwHdr) (payload : List Byte) : SlotStands i s (t.sendBw i b payload) := by
  unfold State.sendBw
  dsimp only
  split
  · exact h
  · split
    · exact SlotStands.askRekey h.same
    · exact h.same

theorem sendPoint (h : SlotStands i s t) (btype : Nat) (payload : List Byte) : SlotStands i s (t.sendPoint i btype payload) := h.sendBw ..

theorem resend (h : SlotStands i s t) (pk : BwPkt) : SlotStands i s (t.resend i pk) := SlotStands.sendBw h.same ..

/-- What stands from the slot's change on. -/
theorem mapSlot {f : BwSlot → BwSlot} (h : SlotStands i (s.mapSlot i f) t) : ∃ c k, t.slot i = { f (s.slot i) with counter := c, keyx := k } := by
  obtain ⟨-, c, k, hx⟩ := h
  rw [slot_mapSlot_self] at hx
  exact ⟨c, k, hx⟩

end SlotStands

/-! ### Acknowledgements and reports (R333, R335) -/

theorem exec_ackTimer_due (hopen : s.slotOpen i = true) (hen : s.get F.BW_CTRL_ACK_US ≠ 0)
    (hdue : (s.slot i).ackSent + 500 * s.get F.BW_CTRL_ACK_US ≤ s.now) :
    ∃ t, exec (.ackTimer i) s = .next t ∧ (t.slot i).ackSent = s.now ∧ (t.slot i).sinceAck = 0 := by
  have hexec : exec (.ackTimer i) s = .next (s.sendAck i) := by
    change execAckTimer i s = _
    unfold execAckTimer us
    dsimp only
    rw [if_pos (by simp [hopen, hen, hdue])]
  obtain ⟨c, k, hx⟩ := SlotStands.mapSlot ((SlotStands.refl (s.mapSlot i fun x => { x with ackSent := s.now, sinceAck := 0 })).sendPoint 2 [])
  refine ⟨_, hexec, ?_⟩
  unfold State.sendAck
  rw [hx]
  exact ⟨rfl, rfl⟩

/-- The times of reports, with those made now. -/
def noteNaks (now : Nat) (ts : List Nat) (naks : Sp (Option Nat)) : Sp (Option Nat) := ts.foldl (fun n t => spPut none n t (some now)) naks

theorem noteNaks_mem {now g : Nat} {ts : List Nat} (hg : g ∈ ts) (naks : Sp (Option Nat)) : spGet none (noteNaks now ts naks) g = some now := by
  unfold noteNaks
  induction ts using List.reverseRecOn with
  | nil => exact absurd hg List.not_mem_nil
  | append_singleton ts t ih =>
    rw [List.foldl_append, List.foldl_cons, List.foldl_nil, spGet_spPut]
    split
    · rfl
    · next hne => exact ih ((List.mem_append.1 hg).resolve_right fun h => hne (List.mem_singleton.1 h).symm)

theorem nakReport_slot (s : State) (i : Nat) (ts : List Nat) :
    ∃ c k, (s.nakReport i ts).slot i = { s.slot i with naks := noteNaks s.now ts (s.slot i).naks, counter := c, keyx := k } := by
  have hset : SlotStands i (s.mapSlot i fun x => { x with naks := noteNaks s.now ts x.naks }) (s.nakReport i ts) :=
    SlotStands.foldl _ _ (.refl _) fun _ _ hu => hu.sendPoint ..
  exact hset.mapSlot

/-- The gaps whose time is past and that have not been reported. -/
def State.overdueGaps (s : State) (i : Nat) : List Nat :=
  (s.slot i).gaps.filterMap fun g => g.2.bind fun t =>
    if t + us (s.get F.BW_CTRL_REORDER_US) ≤ s.now && (spGet none (s.slot i).naks g.1).isNone then some g.1 else none

theorem mem_overdueGaps {g at_ : Nat} (hgap : (g, some at_) ∈ (s.slot i).gaps) (hdue : at_ + 500 * s.get F.BW_CTRL_REORDER_US ≤ s.now)
    (hnew : spGet none (s.slot i).naks g = none) : g ∈ s.overdueGaps i := by
  have hpast : at_ + us (s.get F.BW_CTRL_REORDER_US) ≤ s.now := hdue
  refine List.mem_filterMap.2 ⟨_, hgap, ?_⟩
  dsimp only [Option.bind]
  rw [if_pos (by simp [hpast, hnew])]

theorem exec_reorderExpiry_due {g at_ : Nat} (hopen : s.slotOpen i = true) (hgap : (g, some at_) ∈ (s.slot i).gaps)
    (hdue : at_ + 500 * s.get F.BW_CTRL_REORDER_US ≤ s.now) (hnew : spGet none (s.slot i).naks g = none) :
    ∃ t, exec (.reorderExpiry i) s = .next t ∧ spGet none (t.slot i).naks g = some s.now := by
  have hmem := mem_overdueGaps hgap hdue hnew
  have hsome : (s.slotOpen i && !(s.overdueGaps i).isEmpty) = true := by simpa [hopen] using List.ne_nil_of_mem hmem
  have hexec : exec (.reorderExpiry i) s = .next (s.nakReport i (s.overdueGaps i)) := congrArg Host.Outcome.next (if_pos hsome)
  obtain ⟨c, k, hx⟩ := nakReport_slot s i (s.overdueGaps i)
  refine ⟨_, hexec, ?_⟩
  rw [hx]
  exact noteNaks_mem hmem _

theorem exec_rtoExpiry_due {pk : BwPkt} {rest : List BwPkt} (hopen : s.slotOpen i = true) (hw : (s.slot i).window = pk :: rest)
    (hdue : max (s.slot i).ackMoved (s.slot i).resentAt + 500000 * s.cget F.BW_LH_WIN_RTO_MS [i] ≤ s.now) :
    ∃ t, exec (.rtoExpiry i) s = .next t ∧ (t.slot i).resentAt = s.now := by
  have hus : us (1000 * s.cget F.BW_LH_WIN_RTO_MS [i]) = 500000 * s.cget F.BW_LH_WIN_RTO_MS [i] := by
    unfold us
    omega
  have hresent : (((s.mapSlot i fun x => { x with resentAt := s.now }).resend i pk).slot i).resentAt = s.now := by
    obtain ⟨c, k, hx⟩ := SlotStands.mapSlot ((SlotStands.refl (s.mapSlot i fun x => { x with resentAt := s.now })).resend pk)
    rw [hx]
  have hreport (u : State) (hu : (u.slot i).resentAt = s.now) (l : List Nat) :
      ((if l.isEmpty then u else u.nakReport i l).slot i).resentAt = s.now := by
    split
    · exact hu
    · obtain ⟨c, k, hx⟩ := nakReport_slot u i l
      rw [hx]
      exact hu
  change ∃ t, execRtoExpiry i s = .next t ∧ _
  unfold execRtoExpiry
  dsimp only
  rw [hus, hopen, hw]
  dsimp only [Bool.not_true, Bool.false_eq_true, if_false]
  rw [if_pos hdue]
  exact ⟨_, rfl, hreport _ hresent _⟩

/-! ### Blocks (R336) -/

theorem closeBlock_slot (hunits : (s.slot i).units ≠ []) :
    ((s.closeBlock i).slot i).units = [] ∧ ((s.closeBlock i).slot i).block = ((s.slot i).block + 1) % 2 ^ 32 := by
  cases hu : (s.slot i).units with
  | nil => exact absurd hu hunits
  | cons first rest =>
    unfold State.closeBlock
    dsimp only
    rw [hu]
    dsimp only
    rw [slot_mapSlot_self]
    have hsent (l : List Nat) (f : Nat → BwHdr) (g : Nat → List Byte) :
        ((l.foldl (fun s r => s.sendBw i (f r) (g r)) s).slot i).block = (s.slot i).block := by
      obtain ⟨-, c, k, hx⟩ := SlotStands.foldl l (fun s r => s.sendBw i (f r) (g r)) (.refl s) fun _ _ hu => hu.sendBw ..
      rw [hx]
    exact ⟨rfl, congrArg (fun b => (b + 1) % 2 ^ 32) (hsent ..)⟩

theorem exec_blockClose_due (hopen : s.slotOpen i = true) (hen : s.cget F.BW_LH_CFG_BLOCK_US [i] ≠ 0) (hunits : (s.slot i).units ≠ [])
    (hdue : (s.slot i).openAt + 500 * s.cget F.BW_LH_CFG_BLOCK_US [i] ≤ s.now) :
    ∃ t, exec (.blockClose i) s = .next t ∧ (t.slot i).units = [] ∧ (t.slot i).block = ((s.slot i).block + 1) % 2 ^ 32 := by
  have hexec : exec (.blockClose i) s = .next (s.closeBlock i) := by
    change execBlockClose i s = _
    unfold execBlockClose us
    dsimp only
    rw [if_pos (by simp [hopen, hen, hunits, hdue])]
  exact ⟨_, hexec, closeBlock_slot hunits⟩

/-! ### States (R331, R346) -/

theorem exec_keepaliveSend_due (hvalid : s.slotValid i = true) (hstate : s.slotState i ≠ 0) (hup : s.linkUp (s.slotPort i) = true)
    (hdue : (s.slot i).beatAt + 500000 ≤ s.now) : ∃ t, exec (.keepaliveSend i) s = .next t ∧ (t.slot i).beatAt = s.now := by
  have hsent := (SlotStands.refl (s.mapSlot i fun x => { x with beatAt := s.now })).sendPoint (i := i) 4 []
  have hbeat {u : State} (h : SlotStands i (s.mapSlot i fun x => { x with beatAt := s.now }) u) : (u.slot i).beatAt = s.now := by
    obtain ⟨c, k, hx⟩ := h.mapSlot
    rw [hx]
  have hpast : (s.slot i).beatAt + us 1000 ≤ s.now := hdue
  have hlive : s.slotState i ≠ Bw.down := hstate
  change ∃ t, execKeepaliveSend i s = .next t ∧ _
  unfold execKeepaliveSend
  rw [if_pos (by simp [hvalid, hlive, hup, hpast])]
  refine ⟨_, rfl, ?_⟩
  dsimp only
  split
  · exact hbeat (hsent.sendBw ..)
  · exact hbeat hsent

theorem mapSlot_get (g : BwSlot → BwSlot) (f : Fld) (idx : List Nat) : (s.mapSlot i g).get f idx = s.get f idx := State.get_congr f rfl

theorem setSlotState_spec {st : Nat} (hst : st < 8) : (s.setSlotState i st).slotState i = st ∧ ((s.setSlotState i st).slot i).stateAt = s.now := by
  unfold State.setSlotState
  rw [slot_mapSlot_self, State.slotState, mapSlot_get]
  exact ⟨(State.get_put_self F.BW_LH_STATUS_STATE (by decide) ..).trans (Nat.mod_eq_of_lt hst), rfl⟩

/-- A slot's state stands in its own register alone. -/
theorem setSlotState_get {st : Nat} {f : Fld} (hne : regAddr .BW_LH_STATUS [i] ≠ regAddr f.reg []) : (s.setSlotState i st).get f = s.get f := by
  unfold State.setSlotState
  rw [mapSlot_get]
  exact State.get_put_ne F.BW_LH_STATUS_STATE f st hne

theorem exec_stallExpiry_due (hstate : s.slotState i = 2) (hen : s.get F.BW_TIMERS_STALL_MS ≠ 0) (hw : (s.slot i).window ≠ [])
    (hdue : (s.slot i).ackMoved + 500000 * s.get F.BW_TIMERS_STALL_MS ≤ s.now) :
    ∃ t, exec (.stallExpiry i) s = .next t ∧ t.slotState i = 3 ∧ (t.slot i).stateAt = s.now := by
  have hus : us (1000 * s.get F.BW_TIMERS_STALL_MS) = 500000 * s.get F.BW_TIMERS_STALL_MS := by
    unfold us
    omega
  have hexec : exec (.stallExpiry i) s = .next (s.setSlotState i 3) := by
    change execStallExpiry i s = _
    unfold execStallExpiry
    dsimp only
    rw [hus, if_pos (by simp [hstate, hen, hw, hdue, Bw.up])]
    rfl
  exact ⟨_, hexec, setSlotState_spec (by decide)⟩

/-- Packets re-pathed from a port leave the long-haul timers and the cycle as they are. -/
theorem portDown_portsStand (s : State) (p : Nat) : PortsStand s (s.portDown p) := by
  obtain ⟨l, heq⟩ := portDown_eq s p
  rw [heq]
  refine .foldl l _ (takeAll_portsStand leftBy_portsStand) fun x _ u hu => ?_
  split
  · exact hu.deliverBundle ..
  · exact hu

theorem exec_outageExpiry_down (hstate : s.slotState i = 2 ∨ s.slotState i = 3) (hdown : s.linkUp (s.slotPort i) = false)
    (hhold : s.get F.BW_TIMERS_HOLD_S ≠ 0) :
    ∃ t, exec (.outageExpiry i) s = .next t ∧ t.slotState i = 4 ∧ (t.slot i).stateAt = s.now := by
  have hstand := portDown_portsStand s (s.slotPort i)
  have hexec : exec (.outageExpiry i) s = .next ((s.portDown (s.slotPort i)).enterOutage i) := by
    change execOutageExpiry i s = _
    unfold execOutageExpiry
    dsimp only
    have hlive : s.slotState i = Bw.up ∨ s.slotState i = Bw.stalled := hstate
    rw [if_pos (by simpa [hdown] using hlive)]
  have hkept : ((s.portDown (s.slotPort i)).setSlotState i Bw.outage).get F.BW_TIMERS_HOLD_S = s.get F.BW_TIMERS_HOLD_S := by
    refine (setSlotState_get ?_).trans (hstand.get (by decide))
    have htimers : regAddr F.BW_TIMERS_HOLD_S.reg [] = 0xB00010 := rfl
    rw [htimers, regAddr_BW_LH_STATUS]
    omega
  have houtage : (s.portDown (s.slotPort i)).enterOutage i = (s.portDown (s.slotPort i)).setSlotState i Bw.outage := by
    unfold State.enterOutage
    dsimp only
    rw [if_neg (by simp [hkept, hhold])]
  obtain ⟨hslot, hat⟩ := setSlotState_spec (s := s.portDown (s.slotPort i)) (i := i) (st := Bw.outage) (by decide)
  exact ⟨_, hexec.trans (congrArg _ houtage), hslot, hat.trans hstand.now⟩

theorem enterResync_slot (s : State) (i : Nat) : ∃ c k, (s.enterResync i).slot i = { s.slot i with stateAt := s.now, counter := c, keyx := k } := by
  have hset := SlotStands.refl (i := i) (s.setSlotState i Bw.resync)
  have hstands : SlotStands i (s.setSlotState i Bw.resync) (s.enterResync i) := by
    unfold State.enterResync
    dsimp only
    split
    · exact hset
    · split
      · exact hset.sendBw ..
      · exact hset.askRekey
  exact SlotStands.mapSlot (s := s.put F.BW_LH_STATUS_STATE [i] Bw.resync) hstands

theorem dropHeld_slot (s : State) (i : Nat) : ((s.dropHeld i).slot i).window = [] ∧ ((s.dropHeld i).slot i).rx = [] := by
  unfold State.dropHeld
  dsimp only
  obtain ⟨c, k, hx⟩ := enterResync_slot ((s.bump F.BW_LH_CNT2_LOST [i] ((s.slot i).window.length + (s.slot i).rx.length)).setSlot i
    { s.slot i with window := [], units := [], rx := [], blocks := [] }) i
  rw [slot_setSlot_self] at hx
  have hshow (u : State) : (u.showSlot i).slot i = u.slot i := rfl
  rw [hshow, hx]
  exact ⟨rfl, rfl⟩

theorem exec_holdExpiry_due (hstate : s.slotState i = 4) (hawake : s.wintering = false)
    (hdue : (s.slot i).stateAt + 500000000 * s.get F.BW_TIMERS_HOLD_S ≤ s.now) :
    ∃ t, exec (.holdExpiry i) s = .next t ∧ (t.slot i).window = [] ∧ (t.slot i).rx = [] := by
  have hus : us (1000000 * s.get F.BW_TIMERS_HOLD_S) = 500000000 * s.get F.BW_TIMERS_HOLD_S := by
    unfold us
    omega
  have hexec : exec (.holdExpiry i) s = .next (s.dropHeld i) := by
    change execHoldExpiry i s = _
    unfold execHoldExpiry
    rw [hus, if_pos (by simp [hstate, hawake, hdue, Bw.outage])]
  exact ⟨_, hexec, dropHeld_slot s i⟩

end Sys2Proof.Machine
end

section
/-! OBLIGATION O58: the rows of links, spans and the Basin complete. -/

namespace Sys2Proof.Machine

/-- Settles O58: each row by the rule of its instruction. -/
theorem linkRowsComplete : Obligations.LinkRowsComplete := by
  unfold Obligations.LinkRowsComplete
  refine ⟨fun s p x hx => ?_, fun s p hup => exec_downHoldExpiry_up hup,
    fun s p hstage hnone => ⟨exec_beaconSend_first hstage hnone, exec_ethernetBeacon_first hstage hnone⟩,
    fun s p _ => ⟨exec_signalDetect_starts, fun l => exec_stageLimit_past, exec_lossOfSignal_early⟩,
    fun s p n hstage hlh hmax => ⟨fun x rest => exec_nak_within hstage hlh hmax, exec_replayTimeout_due hstage hlh hmax,
      fun at_ => exec_nakRepeat_due hstage hlh⟩,
    fun s q k at_ => exec_lock_ends,
    fun s i hopen => ⟨exec_ackTimer_due hopen, fun g at_ hgap hdue hnew => ?_, fun pk rest => exec_rtoExpiry_due hopen,
      exec_blockClose_due hopen⟩,
    fun s i _ => ⟨exec_keepaliveSend_due, exec_stallExpiry_due, exec_outageExpiry_down, exec_holdExpiry_due⟩⟩
  · obtain ⟨t, hexec, -, hqueue⟩ := exec_egressReassembly_good hx
    exact ⟨t, hexec, hqueue⟩
  · obtain ⟨t, hexec, hnak⟩ := exec_reorderExpiry_due hopen hgap hdue hnew
    exact ⟨t, hexec, by rw [hnak]; rfl⟩

end Sys2Proof.Machine
end
